-- ==== Sys2Proof/Word.lean ====
section
/-! DEFINITION. Word types of the NQ-C16 (R3, R4, R80) and their plainest arithmetic. -/

namespace Sys2Proof

/-- An instruction word or a header word (R21). -/
abbrev Word64 := BitVec 64
/-- A V register lane, or a drain micro-operation word (R52, R270). -/
abbrev Word32 := BitVec 32
/-- A byte of memory (R4). -/
abbrev Byte := BitVec 8

end Sys2Proof
end

