-- ==== Sys2Proof/Syntax.lean ====
section
/-! DEFINITION. The syntax of everything the NQ-C16 does: one constructor of `Instr` for each row of the opcode table.
Machine instructions carry the fields of their format (R31, R34, R261, R284, R343, R376), drain micro-operations the
fields of Table 13.1. An event carries nothing here: the object it concerns stands in the state's `arg` (log 7). -/

namespace Sys2Proof

/-- The guard fields common to every format: PRD and PNG (R31, R38). -/
structure Guard where
  prd : BitVec 3
  png : BitVec 1
  deriving DecidableEq, Repr

/-- Format R (Table 2.4). -/
structure RF where
  g : Guard
  d : BitVec 8
  a : BitVec 8
  b : BitVec 8
  c : BitVec 8
  ty : BitVec 5
  md : BitVec 8
  deriving DecidableEq, Repr

/-- Format I (Table 2.4). -/
structure IF where
  g : Guard
  d : BitVec 8
  a : BitVec 8
  md : BitVec 3
  imm : BitVec 32
  deriving DecidableEq, Repr

/-- Format M (Table 2.4, R32). -/
structure MF where
  g : Guard
  data : BitVec 8
  base : BitVec 8
  index : BitVec 8
  sz : BitVec 3
  ord : BitVec 3
  sco : BitVec 3
  off : BitVec 18
  deriving DecidableEq, Repr

/-- Format B (Table 2.4, R33). -/
structure BF where
  g : Guard
  cond : BitVec 8
  a : BitVec 8
  off : BitVec 32
  deriving DecidableEq, Repr

/-- COPY and COPYR (Table 11.3); `kind` is bits [62:61]. -/
structure CopyF where
  g : Guard
  src : BitVec 8
  dst : BitVec 8
  seq : BitVec 8
  shape : BitVec 6
  ch : BitVec 2
  ty : BitVec 5
  k : BitVec 4
  bar : BitVec 4
  ben : BitVec 1
  sched : BitVec 1
  skind : BitVec 1
  kind : BitVec 2
  deriving DecidableEq, Repr

/-- CPYST (R239); `nul` is bits [36:29], which hold 0xFF. -/
structure CpystF where
  g : Guard
  val : BitVec 8
  addr : BitVec 8
  nul : BitVec 8
  ch : BitVec 2
  sco : BitVec 3
  k : BitVec 4
  bar : BitVec 4
  ben : BitVec 1
  deriving DecidableEq, Repr

/-- CPYCAN (R240); the three register fields hold 0xFF. -/
structure CpycanF where
  g : Guard
  n1 : BitVec 8
  n2 : BitVec 8
  n3 : BitVec 8
  ch : BitVec 2
  k : BitVec 4
  deriving DecidableEq, Repr

/-- An engine request word (Table 12.3); `z39` is bit 39. -/
structure ReqF where
  g : Guard
  abase : BitVec 3
  bbase : BitVec 3
  rl : BitVec 2
  sk : BitVec 8
  sd : BitVec 8
  bsel : BitVec 2
  z39 : BitVec 1
  tol : BitVec 4
  chk : BitVec 1
  ty : BitVec 5
  kc : BitVec 4
  bar : BitVec 4
  ben : BitVec 1
  tile : BitVec 1
  bscr : BitVec 1
  za : BitVec 1
  pri : BitVec 2
  deriving DecidableEq, Repr

/-- MSTAT and MCHK (R265). -/
structure MstatF where
  g : Guard
  d : BitVec 8
  k : BitVec 4
  sel : BitVec 2
  deriving DecidableEq, Repr

/-- DPLOAD (Table 13.5); `nul` is bits [28:21], which hold 0xFF. -/
structure DploadF where
  g : Guard
  src : BitVec 8
  nul : BitVec 8
  cnt : BitVec 8
  first : BitVec 8
  tab : BitVec 1
  kc : BitVec 4
  bar : BitVec 4
  ben : BitVec 1
  deriving DecidableEq, Repr

/-- LAUNCH (R343). -/
structure LaunchF where
  g : Guard
  d : BitVec 8
  a : BitVec 8
  t : BitVec 8
  q : BitVec 8
  ser : BitVec 1
  kc : BitVec 4
  deriving DecidableEq, Repr

/-- The RATOM family (Table 19.9). -/
structure RatomF where
  g : Guard
  d : BitVec 8
  p : BitVec 8
  a : BitVec 8
  b : BitVec 8
  ty : BitVec 5
  c : BitVec 8
  ord : BitVec 3
  deriving DecidableEq, Repr

/-- The fields of a drain micro-operation word below OPC (Table 13.1). -/
structure UF where
  xd : BitVec 3
  sa : BitVec 4
  sb : BitVec 4
  rm : BitVec 2
  imm : BitVec 14
  deriving DecidableEq, Repr

/-- A unit of a core: a warp by its slot, or a lead stream by the lowest slot of its group (R12, R136). A unit in the shadow
store (R315) has left its slot to others: `sh` tells it from them. -/
structure UnitId where
  die : Nat
  core : Nat
  lead : Bool
  slot : Nat
  sh : Bool := false
  deriving DecidableEq, Repr

/-- The tag flit of a frame without TAG and CRC (Table 19.3; log 97), and how the frame is protected: 0 by CRC alone, else the mode of
its VC in WCTL (R370). -/
structure Tag where
  seq : Nat
  key : Nat
  vc : Nat
  ks : Nat
  nflit : Nat
  opk : Nat
  rty : Nat
  ddie : Nat
  dline : Nat
  mode : Nat
  deriving DecidableEq, Repr

/-- A VC0 frame as it arrives at its destination home (Table 19.3, R365). -/
structure Frame where
  lay : Nat
  ddie : Nat
  dline : Nat
  key : Nat
  opk : Nat
  rty : Nat
  payload : List (BitVec 8)
  seq : Nat := 0
  nflit : Nat := 15
  deriving DecidableEq, Repr

/-- A dynamic message (Table 19.4) with its lane addresses and lane data (R368). -/
structure Msg where
  kind : Nat
  peer : Nat
  ctx : Nat
  rid : Nat
  op : Nat
  ty : Nat
  sz : Nat
  ord : Nat
  sco : Nat
  lmask : Nat
  addrs : List Nat
  data : List Nat
  cmps : List Nat
  cause : Nat
  seq : Option Nat
  rop : Nat
  smod : Nat := 0        -- SMOD, SDIE, SCORE, SUNIT: the requester
  sdie : Nat := 0
  score : Nat := 0
  sunit : Nat := 0
  zeros : Nat := 0       -- the header's bits that Table 19.4 makes zero, as they came
  deriving DecidableEq, Repr

/-- What arrives at a Wyusk port: the tag fields the port checks (Table 19.3), whether it is the first frame of a resend
(R371), and the frame's content. -/
structure RxFrame where
  vc : Nat
  ks : Nat
  crcGood : Bool
  tagGood : Bool
  resend : Bool
  msg : Option Msg
  vc0 : Option Frame
  seq : Nat := 0
  nflit : Nat := 15
  deriving DecidableEq, Repr

/-- Everything the part does: 163 machine instructions, 24 drain micro-operations, 155 events. -/
inductive Instr where
  /-- IADD (R66): Integer add, optionally saturating, landing 4 cycles after issue. -/
  | iadd (w : RF)
  /-- ISUB (R66): Integer subtract, optionally saturating. -/
  | isub (w : RF)
  /-- IMUL (R66): Integer multiply keeping the low half, optionally saturating. -/
  | imul (w : RF)
  /-- IMULH (R66): Upper half of the 2w-bit integer product. -/
  | imulh (w : RF)
  /-- IMAD (R66): Integer multiply-add a*b+c, optionally saturating. -/
  | imad (w : RF)
  /-- IMIN (R66): Smaller of two integers. -/
  | imin (w : RF)
  /-- IMAX (R66): Larger of two integers. -/
  | imax (w : RF)
  /-- IADDC (R67): Add with carry in and carry-out predicate. -/
  | iaddc (w : RF)
  /-- IABS (R66): Integer absolute value, optionally saturating. -/
  | iabs (w : RF)
  /-- INEG (R66): Integer negation, optionally saturating. -/
  | ineg (w : RF)
  /-- AND (R68): Bitwise AND. -/
  | and (w : RF)
  /-- OR (R68): Bitwise OR. -/
  | or (w : RF)
  /-- XOR (R68): Bitwise XOR. -/
  | xor (w : RF)
  /-- ANDN (R68): Bitwise a AND NOT b. -/
  | andn (w : RF)
  /-- NOT (R68): Bitwise complement. -/
  | not (w : RF)
  /-- SHL (R69): Shift left by register or immediate amount. -/
  | shl (w : RF)
  /-- SHR (R69): Logical shift right with zero fill. -/
  | shr (w : RF)
  /-- SAR (R69): Arithmetic shift right. -/
  | sar (w : RF)
  /-- ROTL (R69): Rotate left. -/
  | rotl (w : RF)
  /-- BFE (R70): Bit-field extract, signed or unsigned. -/
  | bfe (w : RF)
  /-- BFI (R70): Bit-field insert into c. -/
  | bfi (w : RF)
  /-- POPC (R71): Population count. -/
  | popc (w : RF)
  /-- CLZ (R71): Count leading zeros. -/
  | clz (w : RF)
  /-- FFS (R71): Index of least significant set bit. -/
  | ffs (w : RF)
  /-- BREV (R71): Bit reversal. -/
  | brev (w : RF)
  /-- ICMP (R72): Integer compare with optional predicate combine. -/
  | icmp (w : RF)
  /-- SEL (R73): Select a or b by a condition operand. -/
  | sel (w : RF)
  /-- MOV (R74): Copy a register at the width of TY. -/
  | mov (w : RF)
  /-- MOVI (R77): Move a 32-bit immediate, optionally sign-extended. -/
  | movi (w : IF)
  /-- MOVHI (R77): Place an immediate in the upper 32 bits. -/
  | movhi (w : IF)
  /-- LEA (R76): Address from base plus scaled 32-bit index. -/
  | lea (w : RF)
  /-- IADDI (R77): Add a sign-extended immediate, I32 or I64. -/
  | iaddi (w : IF)
  /-- IMULI (R77): Multiply by an immediate. -/
  | imuli (w : IF)
  /-- ANDI (R77): AND with an immediate. -/
  | andi (w : IF)
  /-- ORI (R77): OR with an immediate. -/
  | ori (w : IF)
  /-- XORI (R77): XOR with an immediate. -/
  | xori (w : IF)
  /-- ICMPI (R77): Signed compare against an immediate. -/
  | icmpi (w : IF)
  /-- PLOP (R75): Any function of three predicates by truth table. -/
  | plop (w : RF)
  /-- FADD (R98): Floating-point add rounded once. -/
  | fadd (w : RF)
  /-- FSUB (R98): Floating-point subtract. -/
  | fsub (w : RF)
  /-- FMUL (R98): Floating-point multiply. -/
  | fmul (w : RF)
  /-- FFMA (R98): Fused multiply-add with one rounding. -/
  | ffma (w : RF)
  /-- FMIN (R100): Floating-point minimum with NaN rules. -/
  | fmin (w : RF)
  /-- FMAX (R100): Floating-point maximum with NaN rules. -/
  | fmax (w : RF)
  /-- FABS (R100): Clear the sign bit. -/
  | fabs (w : RF)
  /-- FNEG (R100): Invert the sign bit. -/
  | fneg (w : RF)
  /-- FCMP (R101): Floating-point compare with optional combine. -/
  | fcmp (w : RF)
  /-- FRND (R102): Round to an integral value in the same format. -/
  | frnd (w : RF)
  /-- FCLASS (R103): Classify an F32 value into a one-hot mask. -/
  | fclass (w : RF)
  /-- FSCALE (R104): Multiply by a power of two with one rounding. -/
  | fscale (w : RF)
  /-- FDOT2 (R105): Two-element dot product with F32 accumulator. -/
  | fdot2 (w : RF)
  /-- DOT4 (R105): Four-element 8-bit dot product with accumulator. -/
  | dot4 (w : RF)
  /-- CVTF (R106): Convert between floating-point formats. -/
  | cvtf (w : RF)
  /-- CVTI (R107): Convert integer to floating point. -/
  | cvti (w : RF)
  /-- CVTFI (R108): Convert floating point to saturated integer. -/
  | cvtfi (w : RF)
  /-- PACK2 (R109): Pack two F32 values into F16x2 or BF16x2. -/
  | pack2 (w : RF)
  /-- PACK4 (R109): Pack four values into 8-bit elements. -/
  | pack4 (w : RF)
  /-- UNPK (R110): Widen packed elements exactly to F32. -/
  | unpk (w : RF)
  /-- QNT (R112): Quantise one span across the warp into Q4 codes and a descriptor. -/
  | qnt (w : RF)
  /-- DQNT (R113): Expand Q4 codes to floating point. -/
  | dqnt (w : RF)
  /-- QDESC (R114): Query a Q4 span descriptor for a granule. -/
  | qdesc (w : RF)
  /-- FRCP (R115): Reciprocal rounded once. -/
  | frcp (w : RF)
  /-- FRSQ (R115): Reciprocal square root. -/
  | frsq (w : RF)
  /-- FSQRT (R115): Square root. -/
  | fsqrt (w : RF)
  /-- FEXP2 (R115): Base-2 exponential. -/
  | fexp2 (w : RF)
  /-- FLOG2 (R115): Base-2 logarithm. -/
  | flog2 (w : RF)
  /-- FSIN (R115): Sine in radians. -/
  | fsin (w : RF)
  /-- FCOS (R115): Cosine in radians. -/
  | fcos (w : RF)
  /-- FTANH (R115): Hyperbolic tangent. -/
  | ftanh (w : RF)
  /-- QSWPH (R130): Swap values horizontally within each quad. -/
  | qswph (w : RF)
  /-- QSWPV (R130): Swap values vertically within each quad. -/
  | qswpv (w : RF)
  /-- QSWPD (R130): Swap values diagonally within each quad. -/
  | qswpd (w : RF)
  /-- QBC (R130): Broadcast one lane of each quad. -/
  | qbc (w : RF)
  /-- SHFL (R131): Indexed shuffle within a segment. -/
  | shfl (w : RF)
  /-- SHFLU (R131): Shuffle up within a segment. -/
  | shflu (w : RF)
  /-- SHFLD (R131): Shuffle down within a segment. -/
  | shfld (w : RF)
  /-- SHFLX (R131): Butterfly shuffle by XOR. -/
  | shflx (w : RF)
  /-- VOTE (R133): Any, all or uniform vote over contributing lanes. -/
  | vote (w : RF)
  /-- BALLOT (R133): Mask of contributing lanes with the predicate set. -/
  | ballot (w : RF)
  /-- MATCH (R132): Mask of active lanes holding an equal value. -/
  | matchLanes (w : RF)
  /-- LPOPC (R132): Count of mask bits below the lane. -/
  | lpopc (w : RF)
  /-- RDLANE (R135): Read one lane into an S register. -/
  | rdlane (w : RF)
  /-- WRLANE (R135): Write a uniform value into one lane. -/
  | wrlane (w : RF)
  /-- WREDUCE (R134): Fixed-tree reduction across the warp. -/
  | wreduce (w : RF)
  /-- WSCAN (R134): Fixed-tree inclusive scan across the warp. -/
  | wscan (w : RF)
  /-- XMOV (R135): Read a register of another warp of the group. -/
  | xmov (w : RF)
  /-- DQPOP (R139): Pop the warp's decision queue into an S register. -/
  | dqpop (w : RF)
  /-- LPUSH (R138): Lead stream pushes a value to a warp's decision queue. -/
  | lpush (w : RF)
  /-- LDS (R189): Scratch load, plain fixed-latency or team-form counted. -/
  | lds (w : MF)
  /-- STS (R189): Scratch store, plain or team-form through the stopper. -/
  | sts (w : MF)
  /-- LDSB (R191): Uniform scratch load into an S register. -/
  | ldsb (w : MF)
  /-- ATOMS_ADD (R192): Scratch atomic add. -/
  | atomsAdd (w : RF)
  /-- ATOMS_SUB (R192): Scratch atomic subtract. -/
  | atomsSub (w : RF)
  /-- ATOMS_MIN (R192): Scratch atomic minimum. -/
  | atomsMin (w : RF)
  /-- ATOMS_MAX (R192): Scratch atomic maximum. -/
  | atomsMax (w : RF)
  /-- ATOMS_AND (R192): Scratch atomic AND. -/
  | atomsAnd (w : RF)
  /-- ATOMS_OR (R192): Scratch atomic OR. -/
  | atomsOr (w : RF)
  /-- ATOMS_XOR (R192): Scratch atomic XOR. -/
  | atomsXor (w : RF)
  /-- ATOMS_EXCH (R192): Scratch atomic exchange. -/
  | atomsExch (w : RF)
  /-- ATOMS_CAS (R192): Scratch atomic compare-and-swap. -/
  | atomsCas (w : RF)
  /-- SCRFLG (R193): Read and optionally clear the scratch out-of-range record. -/
  | scrflg (w : RF)
  /-- COPY (R237): Issue a shaped copy command through the stopper to a channel. -/
  | copy (w : CopyF)
  /-- COPYR (R238): Issue a reducing copy applied as read-modify-write at the home. -/
  | copyr (w : CopyF)
  /-- CPYST (R239): Channel-ordered 8-byte release store. -/
  | cpyst (w : CpystF)
  /-- CPYCAN (R240): Cancel every dispatched unended command of a channel. -/
  | cpycan (w : CpycanF)
  /-- LDG (R218): Global load, probed then dispatched, counted. -/
  | ldg (w : MF)
  /-- STG (R218): Global store held in the stopper. -/
  | stg (w : MF)
  /-- ATOMG_ADD (R219): Global atomic add at the home. -/
  | atomgAdd (w : RF)
  /-- ATOMG_SUB (R219): Global atomic subtract. -/
  | atomgSub (w : RF)
  /-- ATOMG_MIN (R219): Global atomic minimum. -/
  | atomgMin (w : RF)
  /-- ATOMG_MAX (R219): Global atomic maximum. -/
  | atomgMax (w : RF)
  /-- ATOMG_AND (R219): Global atomic AND. -/
  | atomgAnd (w : RF)
  /-- ATOMG_OR (R219): Global atomic OR. -/
  | atomgOr (w : RF)
  /-- ATOMG_XOR (R219): Global atomic XOR. -/
  | atomgXor (w : RF)
  /-- ATOMG_EXCH (R219): Global atomic exchange. -/
  | atomgExch (w : RF)
  /-- ATOMG_CAS (R219): Global atomic compare-and-swap. -/
  | atomgCas (w : RF)
  /-- FENCE (R221): Acquire, release or both ordering of the unit's accesses at a scope. -/
  | fence (w : MF)
  /-- RLD (R377): Remote load from peer modules. -/
  | rld (w : MF)
  /-- RST (R377): Remote store to peer modules. -/
  | rst (w : MF)
  /-- RATOM_ADD (R376): Remote atomic add. -/
  | ratomAdd (w : RatomF)
  /-- RATOM_SUB (R376): Remote atomic subtract. -/
  | ratomSub (w : RatomF)
  /-- RATOM_MIN (R376): Remote atomic minimum. -/
  | ratomMin (w : RatomF)
  /-- RATOM_MAX (R376): Remote atomic maximum. -/
  | ratomMax (w : RatomF)
  /-- RATOM_AND (R376): Remote atomic AND. -/
  | ratomAnd (w : RatomF)
  /-- RATOM_OR (R376): Remote atomic OR. -/
  | ratomOr (w : RatomF)
  /-- RATOM_XOR (R376): Remote atomic XOR. -/
  | ratomXor (w : RatomF)
  /-- RATOM_EXCH (R376): Remote atomic exchange. -/
  | ratomExch (w : RatomF)
  /-- RATOM_CAS (R376): Remote atomic compare-and-swap. -/
  | ratomCas (w : RatomF)
  /-- BRA (R142): Unconditional branch of the sub-gang at the clause boundary. -/
  | bra (w : BF)
  /-- BRQ (R142): Per-quad predicate branch that can split the warp. -/
  | brq (w : BF)
  /-- BRD (R142): Pop the decision queue and branch on the entry. -/
  | brd (w : BF)
  /-- BRS (R142): Branch on a uniform register against zero. -/
  | brs (w : BF)
  /-- CALL (R142): Land the return address and branch. -/
  | call (w : BF)
  /-- RET (R142): Per-quad return to the address in lane 4q. -/
  | ret (w : RF)
  /-- JMPX (R142): Indirect jump, per quad or for the sub-gang. -/
  | jmpx (w : RF)
  /-- REGANG (R143): Merge waiting sub-gangs at one address. -/
  | regang (w : IF)
  /-- EXIT (R144): Mark active lanes exited, ending the warp or lead stream. -/
  | exit (w : RF)
  /-- NOP (R145): No operation. -/
  | nop (w : RF)
  /-- BARA (R171): Arrive at a group barrier with a count. -/
  | bara (w : RF)
  /-- BARINIT (R171): Initialise a barrier as LOCAL or TEAM. -/
  | barinit (w : RF)
  /-- BARST (R171): Read a barrier status word. -/
  | barst (w : RF)
  /-- TBAR (R169): Team-barrier arrival through the stopper. -/
  | tbar (w : RF)
  /-- KINC (R171): Add a signed amount to a K counter. -/
  | kinc (w : RF)
  /-- KSET (R171): Set a K counter and clear its clamp flags. -/
  | kset (w : RF)
  /-- KRD (R171): Read a K counter. -/
  | krd (w : RF)
  /-- TIME (R360): Counted read of the full 64-bit local TIME. -/
  | time (w : RF)
  /-- WAITT (R360): Counted wait for a local TIME target. -/
  | waitt (w : RF)
  /-- PHASE (R360): Set the core's current phase marker. -/
  | phase (w : IF)
  /-- TRIG (R160): Mark the group's early-launch trigger through the stopper. -/
  | trig (w : RF)
  /-- MMA (R262): Post a one-step matrix pass request. -/
  | mma (w : ReqF)
  /-- MLOOP (R263): Post a multi-step ring pass with optional drain and checksum. -/
  | mloop (w : ReqF)
  /-- MZERO (R264): Post a request that zeroes a tile. -/
  | mzero (w : ReqF)
  /-- MDRAIN (R264): Post a request that drains a tile. -/
  | mdrain (w : ReqF)
  /-- MSTAT (R265): Read the warp's pass status, drain record or B record. -/
  | mstat (w : MstatF)
  /-- MCHK (R265): Read and optionally clear the checksum word. -/
  | mchk (w : MstatF)
  /-- DPLOAD (R285): Post a request loading a drain program slot or table entries. -/
  | dpload (w : DploadF)
  /-- LAUNCH (R343): Launch a kernel into a queue from a program. -/
  | launch (w : LaunchF)
  /-- PROBE (R303): Translate addresses without accessing memory. -/
  | probe (w : RF)
  /-- TINV (R304): Start a shoot-down of the issuing context. -/
  | tinv (w : RF)
  /-- TRAP (R321): Raise a software trap. -/
  | trap (w : IF)
  /-- BKPT (R321): Raise a breakpoint trap when enabled. -/
  | bkpt (w : IF)
  /-- SYSRD (R322): Counted read of a context system register. -/
  | sysrd (w : IF)
  /-- SYSWR (R322): Doorbell write through the stopper. -/
  | syswr (w : IF)
  /-- DRAIN_ADD (R273): Drain add micro-operation. -/
  | drainAdd (w : UF)
  /-- DRAIN_SUB (R273): Drain subtract micro-operation. -/
  | drainSub (w : UF)
  /-- DRAIN_MUL (R273): Drain multiply micro-operation. -/
  | drainMul (w : UF)
  /-- DRAIN_FMA (R273): Drain fused multiply-add into XD. -/
  | drainFma (w : UF)
  /-- DRAIN_MIN (R273): Drain minimum. -/
  | drainMin (w : UF)
  /-- DRAIN_MAX (R273): Drain maximum. -/
  | drainMax (w : UF)
  /-- DRAIN_ABS (R273): Drain absolute value. -/
  | drainAbs (w : UF)
  /-- DRAIN_NEG (R273): Drain negation. -/
  | drainNeg (w : UF)
  /-- DRAIN_MOVI (R273): Drain move of a BF16 immediate pattern. -/
  | drainMovi (w : UF)
  /-- DRAIN_LDC (R273): Load a drain table entry. -/
  | drainLdc (w : UF)
  /-- DRAIN_LDR (R273): Load a drain table entry indexed by row or column. -/
  | drainLdr (w : UF)
  /-- DRAIN_TAB (R273): Table lookup indexed by a clamped value. -/
  | drainTab (w : UF)
  /-- DRAIN_EXP2 (R273): Drain base-2 exponential. -/
  | drainExp2 (w : UF)
  /-- DRAIN_RCP (R273): Drain reciprocal. -/
  | drainRcp (w : UF)
  /-- DRAIN_CLAMP (R273): Clamp XD between two sources. -/
  | drainClamp (w : UF)
  /-- DRAIN_RND (R273): Drain round to integral. -/
  | drainRnd (w : UF)
  /-- DRAIN_CVT (R274): Round a value into a drain format. -/
  | drainCvt (w : UF)
  /-- DRAIN_QSPAN (R276): Contribute to the row's Q4 span quantisation. -/
  | drainQspan (w : UF)
  /-- DRAIN_ST (R275): Store a converted element to scratch. -/
  | drainSt (w : UF)
  /-- DRAIN_CHK (R277): Contribute to the row checksum sum. -/
  | drainChk (w : UF)
  /-- DRAIN_SKIP (R273): Conditionally skip following micro-operations. -/
  | drainSkip (w : UF)
  /-- DRAIN_SEL (R273): Conditional select in the drain. -/
  | drainSel (w : UF)
  /-- DRAIN_NOP (R273): Drain no operation. -/
  | drainNop (w : UF)
  /-- DRAIN_END (R273): End of the drain program. -/
  | drainEnd (w : UF)
  /-- CLAUSE_FETCH (R30): A clause header is fetched from the code store and checked. -/
  | clauseFetch
  /-- CLAUSE_ISSUE (R27): At a window start the clause's waits are tested and, if eligible, it issues. -/
  | clauseIssue
  /-- LEAD_CLAUSE_ISSUE (R136): A lead window tests and issues a lead clause. -/
  | leadClauseIssue
  /-- REGISTER_LAND (R54): A pending fixed-latency write lands at issue + latency. -/
  | registerLand
  /-- TEAM_BARRIER_APPLY (R169): A TBAR reaches its team barrier 32 cycles after leaving the stopper. -/
  | teamBarrierApply
  /-- TEAM_BARRIER_NOTIFY (R169): A team barrier completion or error reaches members 32 cycles later. -/
  | teamBarrierNotify
  /-- TEAM_PLACE (R148): The dispatcher places a team once a core range fits. -/
  | teamPlace
  /-- GROUP_START (R150): A placed group starts at its team start cycle. -/
  | groupStart
  /-- GROUP_RETIRE (R152): A drained group retires and frees its slots, counters and barriers. -/
  | groupRetire
  /-- TEAM_RELAUNCH (R342): A killed team relaunches from its retained record after discards end. -/
  | teamRelaunch
  /-- TRIG_SIGNAL (R160): A released TRIG signals the dispatcher once earlier writes are visible. -/
  | trigSignal
  /-- STOPPER_LEAVE (R197): A held entry leaves the stopper D cycles after issue. -/
  | stopperLeave
  /-- WRITE_DISPATCH (R204): A released write leaves the outbound queue when its gate opens. -/
  | writeDispatch
  /-- MARKER_RECEIVE (R212): A home receives a release marker and advances its frontier. -/
  | markerReceive
  /-- WRITE_APPLY (R213): A write arriving at its home is applied once its frontier covers it. -/
  | writeApply
  /-- FAULT_RESOLVED (R216): A destination reports a fault resolved and the parked write is resent. -/
  | faultResolved
  /-- FAULT_REPORT (R378): A destination's fault report message reaches the issuing side. -/
  | faultReport
  /-- WRITE_ACK (R201): A write's acknowledgement reaches the issuing core. -/
  | writeAck
  /-- READ_ANSWER (R213): A home answers a read once its frontier covers the read's clock. -/
  | readAnswer
  /-- LOAD_COMPLETE (R218): A global load's last response returns; lanes land and the counter falls. -/
  | loadComplete
  /-- TEAM_LOAD_SERVE (R190): A team-form load request is served at the target core. -/
  | teamLoadServe
  /-- TEAM_LOAD_COMPLETE (R190): A team-form load's data returns and lanes land. -/
  | teamLoadComplete
  /-- TEAM_STORE_APPLY (R190): A released team scratch store is applied at the target core. -/
  | teamStoreApply
  /-- COPY_CLAIM (R231): A dispatched copy sends claims to its destination homes. -/
  | copyClaim
  /-- COPY_STREAM_START (R236): A claimed copy starts streaming once earlier copies have ended. -/
  | copyStreamStart
  /-- COPY_UNIT_DELIVER (R229): A copy delivers one unit, advancing WPTR. -/
  | copyUnitDeliver
  /-- COPY_ACK (R236): Every write of a copy is acknowledged; counter and barrier arrival. -/
  | copyAck
  /-- COPY_CANCEL (R240): A CPYCAN reaches its channel and cancels commands. -/
  | copyCancel
  /-- SEQUENCED_COPYR_APPLY (R234): A held sequenced COPYR is applied when the region counter matches. -/
  | sequencedCopyrApply
  /-- SCHEDULED_COPY_BEAT (R235): A scheduled copy moves one beat at its slot tick. -/
  | scheduledCopyBeat
  /-- SCHEDULED_COPY_END (R235): A scheduled copy ends at the end of its slot. -/
  | scheduledCopyEnd
  /-- REQUEST_POST (R250): An engine request is posted at issue + 4. -/
  | requestPost
  /-- PASS_GRANT (R250): The engine grants one qualifying posted request. -/
  | passGrant
  /-- PASS_STEP (R246): The engine performs one step reading its ring slot. -/
  | passStep
  /-- B_FETCH (R254): A scratch B block fetch completes for a step. -/
  | bFetch
  /-- MZERO_COMPLETE (R264): The tile is zeroed and MZERO completes at grant + 16. -/
  | mzeroComplete
  /-- DRAIN_START (R256): A drain starts and decodes its program slot. -/
  | drainStart
  /-- DRAIN_ROW (R279): A tile row enters the drain unit and runs the program. -/
  | drainRow
  /-- DRAIN_WRITE (R279): A drain scratch word write is performed in its bank. -/
  | drainWrite
  /-- PASS_COMPLETE (R256): A pass completes: check result, flags, counter, barrier. -/
  | passComplete
  /-- RESERVATION_START (R251): A lay engine reservation begins; an unfinished dynamic pass faults. -/
  | reservationStart
  /-- DPLOAD_WRITE (R285): DPLOAD writes its slot or entries four cycles after its last read. -/
  | dploadWrite
  /-- WALK_COMPLETE (R289): A page walk ends with a translation or a fault. -/
  | walkComplete
  /-- SHOOTDOWN_SWEEP (R298): A die receives a sweep and invalidates matching translations. -/
  | shootdownSweep
  /-- SWEEP_ACK (R298): A core acknowledges once swept accesses are applied. -/
  | sweepAck
  /-- SHOOTDOWN_COMPLETE (R300): All acknowledgements arrive; waiters requeued and parked writes resent. -/
  | shootdownComplete
  /-- TINVC_START (R298): A host write to TINVC starts a shoot-down. -/
  | tinvcStart
  /-- CTX_CREATE (R309): CTXCMD CREATE creates a context. -/
  | ctxCreate
  /-- CTX_BIND (R307): CTXCMD BIND binds a context to its partition. -/
  | ctxBind
  /-- CTX_RUN (R309): CTXCMD RUN lets dispatchers accept the context's queues. -/
  | ctxRun
  /-- CTX_FREEZE (R315): CTXCMD FREEZE urgently pre-empts the context. -/
  | ctxFreeze
  /-- CTX_SUSPEND (R161): CTXCMD SUSPEND starts graceful pre-emption. -/
  | ctxSuspend
  /-- CTX_RESUME (R317): CTXCMD RESUME restores a suspended context. -/
  | ctxResume
  /-- CTX_KILL (R318): CTXCMD KILL kills every team and discards held work. -/
  | ctxKill
  /-- CTX_RESET (R309): CTXCMD RESET returns a killed context to bound. -/
  | ctxReset
  /-- CTX_FREE (R309): CTXCMD FREE frees a context and empties its keys. -/
  | ctxFree
  /-- SWAP_OUT_COMPLETE (R315): Every die has swapped out and the context is suspended. -/
  | swapOutComplete
  /-- GRACEFUL_COMPLETE (R161): No group is running, faulted or draining; the context is suspended. -/
  | gracefulComplete
  /-- GRACEFUL_DEADLINE_EXPIRY (R161): The graceful deadline expires and forces a reset. -/
  | gracefulDeadlineExpiry
  /-- UNITCMD_RETRY (R313): Dispose of a stopped unit by reissuing the trapping instruction. -/
  | unitcmdRetry
  /-- UNITCMD_SKIP (R313): Dispose by resuming after the trapping instruction. -/
  | unitcmdSkip
  /-- UNITCMD_REGION (R313): Dispose by a region restart. -/
  | unitcmdRegion
  /-- UNITCMD_KILL (R313): Dispose by killing the team. -/
  | unitcmdKill
  /-- TRAP_FINAL (R314): A tentative trap becomes final at T + D and its record is written. -/
  | trapFinal
  /-- FAULT_RECORD_WRITE (R312): A held fault record is written to the ring once room frees. -/
  | faultRecordWrite
  /-- KEYCMD_LOAD (R308): Install the key for the selected id. -/
  | keycmdLoad
  /-- KEYCMD_ERASE (R308): Empty the selected key id. -/
  | keycmdErase
  /-- FLAGS_CLEAR (R319): Host write-1-to-clear of the context sticky flags. -/
  | flagsClear
  /-- OORREC_CLEAR (R319): Host write clears the out-of-range record. -/
  | oorrecClear
  /-- IBDATA_CLEAR (R151): Host write clears an idle and busy table entry. -/
  | ibdataClear
  /-- FLAG_REACH_CONTEXT (R323): A held zone flag reaches the context D cycles after it was raised. -/
  | flagReachContext
  /-- TDISP_LOCK_INTERFACE (R307): TDISP LOCK_INTERFACE_REQUEST binds and locks configuration. -/
  | tdispLockInterface
  /-- TDISP_START_INTERFACE (R307): TDISP START_INTERFACE_REQUEST permits RUN. -/
  | tdispStartInterface
  /-- TDISP_STOP_INTERFACE (R307): TDISP STOP_INTERFACE_REQUEST kills then frees the context. -/
  | tdispStopInterface
  /-- MGMTSEM_ACQUIRE (R325): Acquire management ownership if free. -/
  | mgmtsemAcquire
  /-- MGMTSEM_RELEASE (R325): The owner releases management ownership. -/
  | mgmtsemRelease
  /-- QCFG_WRITE (R326): Owner write to a queue's configuration, enabling or changing it. -/
  | qcfgWrite
  /-- QCMD_CLEAR (R332): Clear a queue error, dropping unconsumed records. -/
  | qcmdClear
  /-- QCMD_SKIP (R332): Skip the bad head record of a queue in error. -/
  | qcmdSkip
  /-- DOORBELL (R327): A doorbell write updates a queue's tail. -/
  | doorbell
  /-- RECORD_FETCH (R330): The head launch record is fetched through the context's translation. -/
  | recordFetch
  /-- RECORD_CONSUME (R331): One eligible head record is consumed per tick. -/
  | recordConsume
  /-- KERNEL_ARM (R336): A queued kernel is staged into code stores and armed. -/
  | kernelArm
  /-- KERNEL_START (R338): An armed kernel starts once its conditions hold. -/
  | kernelStart
  /-- KERNEL_RETIRE (R155): A draining kernel retires once its grid's writes are visible. -/
  | kernelRetire
  /-- LAYCMD_LOAD (R351): Load and check a lay image into a lay slot. -/
  | laycmdLoad
  /-- LAYCMD_ARM (R358): Arm a loaded lay at LAYSTART. -/
  | laycmdArm
  /-- LAYCMD_DISARM (R358): Disarm a lay. -/
  | laycmdDisarm
  /-- LAYCMD_UNLOAD (R358): Unload a lay slot. -/
  | laycmdUnload
  /-- LAY_BASE_TICK (R358): An armed lay's base tick arrives and period 0 begins. -/
  | layBaseTick
  /-- PERIOD_BOUNDARY (R354): A lay period boundary is reached. -/
  | periodBoundary
  /-- SLACK_EVENT (R352): A refresh or retry is performed in a slack window. -/
  | slackEvent
  /-- SLACK_OVERRUN (R352): Window demand exceeds LEN at window start + LEN. -/
  | slackOverrun
  /-- FAULT_NOTICE (R355): The origin broadcasts a schedule fault notice on VC3. -/
  | faultNotice
  /-- READY_REPORT (R355): A module reports ready for resynchronisation. -/
  | readyReport
  /-- ROLL_CALL_TIMEOUT (R355): A module not ready by A + 32,768 raises cause 8. -/
  | rollCallTimeout
  /-- RESTART_ANNOUNCE (R355): The origin announces the restart tick R. -/
  | restartAnnounce
  /-- LAY_RESUME (R355): At R every unit resumes with the schedule shifted. -/
  | layResume
  /-- ORIGIN_LOSS (R357): Loss of the time origin is detected by timeout. -/
  | originLoss
  /-- RESTART_WAIT_EXPIRY (R357): No restart tick by stop + 131,072 abandons the lay. -/
  | restartWaitExpiry
  /-- TIME_CORRECTION (R346): The servo applies a slewing correction to TIME. -/
  | timeCorrection
  /-- SYNCLOST_SET (R346): Offset exceeds ±3 ticks; SYNCLOST set, cause 10 raised. -/
  | synclostSet
  /-- SYNCLOST_CLEAR (R346): Offset within bound for 65,536 ticks clears SYNCLOST. -/
  | synclostClear
  /-- WAITT_EXPIRY (R360): Local TIME reaches a WAITT target and its counter falls. -/
  | waittExpiry
  /-- VC0_FRAME_SEND (R365): A scheduled frame is sent in its VC0 slot. -/
  | vc0FrameSend
  /-- VC0_FRAME_WRITE (R366): A VC0 frame is written at its destination home. -/
  | vc0FrameWrite
  /-- MISSING_FRAME (R367): A VC0 frame fails to arrive in time; lay barrier error and cause 2. -/
  | missingFrame
  /-- FRAME_RECEIVE (R371): A frame is received and checked by CRC and tag. -/
  | frameReceive
  /-- RETRY_REQUEST (R371): A retry request makes the sender resend frames of a VC. -/
  | retryRequest
  /-- DYNAMIC_MESSAGE (R368): A dynamic message is sent on VC1 to VC3. -/
  | dynamicMessage
  /-- WKCMD_STAGE (R373): Stage a Wyusk key with a switch tick. -/
  | wkcmdStage
  /-- WKCMD_ERASE (R373): Retire a Wyusk key slot at once. -/
  | wkcmdErase
  /-- KEY_SLOT_ACTIVATE (R373): A staged key slot becomes active at its switch tick. -/
  | keySlotActivate
  /-- KEY_SLOT_RETIRE (R373): The old receive slot retires at T + 1,024. -/
  | keySlotRetire
  /-- LANE_SPARE_REQUEST (R375): WLSPARE requests a lane spare in the next maintenance window. -/
  | laneSpareRequest
  /-- LANE_SPARE (R375): A link lane is spared in a maintenance window. -/
  | laneSpare
  /-- LINK_ENABLE (R374): WCTL EN set starts link training. -/
  | linkEnable
  /-- TRAINING_COMPLETE (R374): Link training ends keyed, degraded or down. -/
  | trainingComplete
  /-- LANE_FAIL (R374): A data lane of a link fails. -/
  | laneFail
  /-- LINK_DOWN (R374): A link goes down; in-flight frames are lost. -/
  | linkDown
  /-- STRIKE_REPORT (R384): A sensor or timing report reaches a zone and starts rollback. -/
  | strikeReport
  /-- ROLLBACK_END (R384): At r + 54 the zone's units resume. -/
  | rollbackEnd
  /-- REGION_RECORD_FREE (R382): An old region record is freed after D + 48 cycles. -/
  | regionRecordFree
  /-- PROTECTED_MISMATCH (R388): Primary and shadow differ; SRC 2 report and rollback. -/
  | protectedMismatch
  /-- DUAL_RUN_MISMATCH (R391): Primary and twin entries differ; SRC 3 report to both zones. -/
  | dualRunMismatch
  /-- MESH_RETRANSMIT (R393): A failed mesh CRC causes retransmission. -/
  | meshRetransmit
  /-- HOME_REPLAY (R393): Home logic replays an operation after a check failure. -/
  | homeReplay
  /-- HREPCMD_GO (R394): Request an HBM4 lane repair. -/
  | hrepcmdGo
  /-- HBM_LANE_REPAIR (R394): An HBM4 lane is repaired in a maintenance window. -/
  | hbmLaneRepair
  /-- ZCNT_CLEAR (R395): Host write clears a zone's error counters. -/
  | zcntClear
  /-- UECNT_CLEAR (R395): Host write clears the module error counts. -/
  | uecntClear
  /-- POOLCFG_WRITE (R397): Request a new operating class for a die. -/
  | poolcfgWrite
  /-- OPERATING_POINT_CHANGE (R397): A quiet die changes class and takes a new start pulse. -/
  | operatingPointChange
  /-- PWRCMD_BOOST (R398): Grant a boost lease to a class-3 die. -/
  | pwrcmdBoost
  /-- PWRCMD_ENDBOOST (R398): End a boost lease. -/
  | pwrcmdEndboost
  /-- PWRCMD_OFFLINE (R401): Quiesce a die, or offline a quiesced die. -/
  | pwrcmdOffline
  /-- PWRCMD_ONLINE (R401): Return a quiesced or offlined die to online. -/
  | pwrcmdOnline
  /-- BOOST_EXPIRY (R398): A boost lease expires after its maximum time. -/
  | boostExpiry
  /-- POWER_CHECK (R399): Each millisecond PMEAS is compared with PLIMIT. -/
  | powerCheck
  /-- DIE_QUIESCE (R400): A die quiesces on over-temperature, killing its teams. -/
  | dieQuiesce
  /-- POWER_CUTOFF (R401): Hardware removes power on temperature, coolant or input excess. -/
  | powerCutoff
  /-- HEARTBEAT (R402): The active controller sends a heartbeat. -/
  | heartbeat
  /-- CONTROLLER_TAKEOVER (R402): The standby takes over after three missed heartbeats. -/
  | controllerTakeover
  /-- FWCMD_STAGE (R404): Stage and check a new firmware image. -/
  | fwcmdStage
  /-- FWCMD_ACTIVATE (R404): Activate the staged firmware by live hand-over. -/
  | fwcmdActivate
  /-- FWCMD_ABORT (R404): Abort a firmware update. -/
  | fwcmdAbort
  /-- HANDOVER_TIMEOUT (R404): No first heartbeat within 100 ms rolls back the update. -/
  | handoverTimeout
  /-- SPDM_GET_MEASUREMENTS (R403): A host obtains firmware measurements through SPDM. -/
  | spdmGetMeasurements
  /-- SECURITY_ALARM (R406): Tamper, voltage or clock alarm erases keys and kills contexts. -/
  | securityAlarm
  /-- POWER_ON (R407): Power-on or module reset brings the module up in order. -/
  | powerOn
  /-- REGISTER_WRITE (R319): Write to a register with no behaviour of its own. -/
  | registerWrite
  /-- OWNER_PORT_LINK_DOWN (R325): The PCI Express link of the port that holds management ownership goes down, and the Ibrum controller clears OWNER. -/
  | ownerPortLinkDown
  /-- SYSRD_COMPLETE (R322): A SYSRD completes at an unpublished cycle, lands the register in Sd and decrements its counter. -/
  | sysrdComplete
  /-- SCRFLG_COMPLETE (R193): A SCRFLG completes at an unpublished cycle, landing the out-of-range record and decrementing its counter. -/
  | scrflgComplete
  /-- LAUNCH_DELIVERED (R343): A released LAUNCH reaches the queue block as a KERNEL record, and its kernel becomes defined and its block is read. -/
  | launchDelivered
  deriving DecidableEq, Repr

end Sys2Proof
end

