-- ==== Sys2Proof/Decode.lean ====
section
/-! DEFINITION. Decoding and encoding. A 64-bit word splits into OP, the guard and the fields of its opcode's format
(R31-R35, Table 2.8); what fails here is decode check 1 (OP not assigned, subcode 1) or the reserved-bits part of
check 2 (subcode 2) of Table 2.9. The checks that need the clause, the group or the kernel are in Machine/Checks.
A 32-bit drain micro-operation word follows Tables 13.1 and 13.3. -/

namespace Sys2Proof

/-- Bits [lo+n-1:lo] of an instruction word (R3). -/
def fld (w : Word64) (lo n : Nat) : BitVec n := w.extractLsb' lo n

/-- OP, bits [8:0] (R31). -/
def opOf (w : Word64) : BitVec 9 := fld w 0 9

/-- PRD and PNG (R31). -/
def guardOf (w : Word64) : Guard := { prd := fld w 9 3, png := fld w 12 1 }

/-- Format R; `none` when bits [63:58] are not zero. -/
def rfOf (w : Word64) : Option RF :=
  if fld w 58 6 = 0 then
    some { g := guardOf w, d := fld w 13 8, a := fld w 21 8, b := fld w 29 8, c := fld w 37 8,
           ty := fld w 45 5, md := fld w 50 8 }
  else none

/-- Format I. -/
def ifOf (w : Word64) : Option IF :=
  some { g := guardOf w, d := fld w 13 8, a := fld w 21 8, md := fld w 29 3, imm := fld w 32 32 }

/-- Format M. -/
def mfOf (w : Word64) : Option MF :=
  some { g := guardOf w, data := fld w 13 8, base := fld w 21 8, index := fld w 29 8, sz := fld w 37 3,
         ord := fld w 40 3, sco := fld w 43 3, off := fld w 46 18 }

/-- Format B; `none` when bits [31:29] are not zero. -/
def bfOf (w : Word64) : Option BF :=
  if fld w 29 3 = 0 then
    some { g := guardOf w, cond := fld w 13 8, a := fld w 21 8, off := fld w 32 32 }
  else none

/-- COPY and COPYR (Table 11.3); `none` when bit 63 is set. -/
def copyOf (w : Word64) : Option CopyF :=
  if fld w 63 1 = 0 then
    some { g := guardOf w, src := fld w 13 8, dst := fld w 21 8, seq := fld w 29 8, shape := fld w 37 6,
           ch := fld w 43 2, ty := fld w 45 5, k := fld w 50 4, bar := fld w 54 4, ben := fld w 58 1,
           sched := fld w 59 1, skind := fld w 60 1, kind := fld w 61 2 }
  else none

/-- CPYST (R239); `none` when a zero field is not zero. -/
def cpystOf (w : Word64) : Option CpystF :=
  if fld w 59 5 = 0 ∧ fld w 48 2 = 0 ∧ fld w 37 6 = 0 then
    some { g := guardOf w, val := fld w 13 8, addr := fld w 21 8, nul := fld w 29 8, ch := fld w 43 2,
           sco := fld w 45 3, k := fld w 50 4, bar := fld w 54 4, ben := fld w 58 1 }
  else none

/-- CPYCAN (R240); `none` when a zero field is not zero. -/
def cpycanOf (w : Word64) : Option CpycanF :=
  if fld w 54 10 = 0 ∧ fld w 45 5 = 0 ∧ fld w 37 6 = 0 then
    some { g := guardOf w, n1 := fld w 13 8, n2 := fld w 21 8, n3 := fld w 29 8, ch := fld w 43 2, k := fld w 50 4 }
  else none

/-- An engine request (Table 12.3). -/
def reqOf (w : Word64) : Option ReqF :=
  some { g := guardOf w, abase := fld w 13 3, bbase := fld w 16 3, rl := fld w 19 2, sk := fld w 21 8,
         sd := fld w 29 8, bsel := fld w 37 2, z39 := fld w 39 1, tol := fld w 40 4, chk := fld w 44 1,
         ty := fld w 45 5, kc := fld w 50 4, bar := fld w 54 4, ben := fld w 58 1, tile := fld w 59 1,
         bscr := fld w 60 1, za := fld w 61 1, pri := fld w 62 2 }

/-- MSTAT and MCHK (R265); `none` when bits [63:27] are not zero. -/
def mstatOf (w : Word64) : Option MstatF :=
  if fld w 27 37 = 0 then
    some { g := guardOf w, d := fld w 13 8, k := fld w 21 4, sel := fld w 25 2 }
  else none

/-- DPLOAD (Table 13.5); `none` when a zero field is not zero. -/
def dploadOf (w : Word64) : Option DploadF :=
  if fld w 59 5 = 0 ∧ fld w 46 4 = 0 then
    some { g := guardOf w, src := fld w 13 8, nul := fld w 21 8, cnt := fld w 29 8, first := fld w 37 8,
           tab := fld w 45 1, kc := fld w 50 4, bar := fld w 54 4, ben := fld w 58 1 }
  else none

/-- LAUNCH (R343); `none` when a zero field is not zero. -/
def launchOf (w : Word64) : Option LaunchF :=
  if fld w 54 10 = 0 ∧ fld w 46 4 = 0 then
    some { g := guardOf w, d := fld w 13 8, a := fld w 21 8, t := fld w 29 8, q := fld w 37 8,
           ser := fld w 45 1, kc := fld w 50 4 }
  else none

/-- The RATOM family (Table 19.9); `none` when bits [63:61] are not zero. -/
def ratomOf (w : Word64) : Option RatomF :=
  if fld w 61 3 = 0 then
    some { g := guardOf w, d := fld w 13 8, p := fld w 21 8, a := fld w 29 8, b := fld w 37 8, ty := fld w 45 5,
           c := fld w 50 8, ord := fld w 58 3 }
  else none

/-- A decoded instruction, or the subcode of the failed decode check (Table 2.9). -/
abbrev Decoded := Except Nat Instr

/-- A word whose format fields are well placed, or decode check 2. -/
def fields {α : Type} (mk : α → Instr) : Option α → Decoded
  | some x => .ok (mk x)
  | none => .error 2

/-- Group 0 of the opcode map: codes 0x000 to 0x03F (Table 2.8). -/
def decodeGroup0 (w : Word64) : Nat → Decoded
  | 0 => fields .iadd (rfOf w)
  | 1 => fields .isub (rfOf w)
  | 2 => fields .imul (rfOf w)
  | 3 => fields .imulh (rfOf w)
  | 4 => fields .imad (rfOf w)
  | 5 => fields .imin (rfOf w)
  | 6 => fields .imax (rfOf w)
  | 7 => fields .iaddc (rfOf w)
  | 8 => fields .iabs (rfOf w)
  | 9 => fields .ineg (rfOf w)
  | 10 => fields .and (rfOf w)
  | 11 => fields .or (rfOf w)
  | 12 => fields .xor (rfOf w)
  | 13 => fields .andn (rfOf w)
  | 14 => fields .not (rfOf w)
  | 15 => fields .shl (rfOf w)
  | 16 => fields .shr (rfOf w)
  | 17 => fields .sar (rfOf w)
  | 18 => fields .rotl (rfOf w)
  | 19 => fields .bfe (rfOf w)
  | 20 => fields .bfi (rfOf w)
  | 21 => fields .popc (rfOf w)
  | 22 => fields .clz (rfOf w)
  | 23 => fields .ffs (rfOf w)
  | 24 => fields .brev (rfOf w)
  | 25 => fields .icmp (rfOf w)
  | 26 => fields .sel (rfOf w)
  | 27 => fields .mov (rfOf w)
  | 28 => fields .movi (ifOf w)
  | 29 => fields .movhi (ifOf w)
  | 30 => fields .lea (rfOf w)
  | 31 => fields .iaddi (ifOf w)
  | 32 => fields .imuli (ifOf w)
  | 33 => fields .andi (ifOf w)
  | 34 => fields .ori (ifOf w)
  | 35 => fields .xori (ifOf w)
  | 36 => fields .icmpi (ifOf w)
  | 37 => fields .plop (rfOf w)
  | _ => .error 1

/-- Group 1 of the opcode map: codes 0x040 to 0x07F (Table 2.8). -/
def decodeGroup1 (w : Word64) : Nat → Decoded
  | 0 => fields .fadd (rfOf w)
  | 1 => fields .fsub (rfOf w)
  | 2 => fields .fmul (rfOf w)
  | 3 => fields .ffma (rfOf w)
  | 4 => fields .fmin (rfOf w)
  | 5 => fields .fmax (rfOf w)
  | 6 => fields .fabs (rfOf w)
  | 7 => fields .fneg (rfOf w)
  | 8 => fields .fcmp (rfOf w)
  | 9 => fields .frnd (rfOf w)
  | 10 => fields .fclass (rfOf w)
  | 11 => fields .fscale (rfOf w)
  | 12 => fields .fdot2 (rfOf w)
  | 13 => fields .dot4 (rfOf w)
  | _ => .error 1

/-- Group 2 of the opcode map: codes 0x080 to 0x0BF (Table 2.8). -/
def decodeGroup2 (w : Word64) : Nat → Decoded
  | 0 => fields .cvtf (rfOf w)
  | 1 => fields .cvti (rfOf w)
  | 2 => fields .cvtfi (rfOf w)
  | 3 => fields .pack2 (rfOf w)
  | 4 => fields .pack4 (rfOf w)
  | 5 => fields .unpk (rfOf w)
  | 6 => fields .qnt (rfOf w)
  | 7 => fields .dqnt (rfOf w)
  | 8 => fields .qdesc (rfOf w)
  | 9 => fields .frcp (rfOf w)
  | 10 => fields .frsq (rfOf w)
  | 11 => fields .fsqrt (rfOf w)
  | 12 => fields .fexp2 (rfOf w)
  | 13 => fields .flog2 (rfOf w)
  | 14 => fields .fsin (rfOf w)
  | 15 => fields .fcos (rfOf w)
  | 16 => fields .ftanh (rfOf w)
  | _ => .error 1

/-- Group 3 of the opcode map: codes 0x0C0 to 0x0FF (Table 2.8). -/
def decodeGroup3 (w : Word64) : Nat → Decoded
  | 0 => fields .qswph (rfOf w)
  | 1 => fields .qswpv (rfOf w)
  | 2 => fields .qswpd (rfOf w)
  | 3 => fields .qbc (rfOf w)
  | 4 => fields .shfl (rfOf w)
  | 5 => fields .shflu (rfOf w)
  | 6 => fields .shfld (rfOf w)
  | 7 => fields .shflx (rfOf w)
  | 8 => fields .vote (rfOf w)
  | 9 => fields .ballot (rfOf w)
  | 10 => fields .matchLanes (rfOf w)
  | 11 => fields .lpopc (rfOf w)
  | 12 => fields .rdlane (rfOf w)
  | 13 => fields .wrlane (rfOf w)
  | 14 => fields .wreduce (rfOf w)
  | 15 => fields .wscan (rfOf w)
  | 16 => fields .xmov (rfOf w)
  | 17 => fields .dqpop (rfOf w)
  | 18 => fields .lpush (rfOf w)
  | _ => .error 1

/-- Group 4 of the opcode map: codes 0x100 to 0x13F (Table 2.8). -/
def decodeGroup4 (w : Word64) : Nat → Decoded
  | 0 => fields .lds (mfOf w)
  | 1 => fields .sts (mfOf w)
  | 2 => fields .ldsb (mfOf w)
  | 3 => fields .atomsAdd (rfOf w)
  | 4 => fields .atomsSub (rfOf w)
  | 5 => fields .atomsMin (rfOf w)
  | 6 => fields .atomsMax (rfOf w)
  | 7 => fields .atomsAnd (rfOf w)
  | 8 => fields .atomsOr (rfOf w)
  | 9 => fields .atomsXor (rfOf w)
  | 10 => fields .atomsExch (rfOf w)
  | 11 => fields .atomsCas (rfOf w)
  | 12 => fields .scrflg (rfOf w)
  | 13 => fields .copy (copyOf w)
  | 14 => fields .copyr (copyOf w)
  | 15 => fields .cpyst (cpystOf w)
  | 16 => fields .cpycan (cpycanOf w)
  | _ => .error 1

/-- Group 5 of the opcode map: codes 0x140 to 0x17F (Table 2.8). -/
def decodeGroup5 (w : Word64) : Nat → Decoded
  | 0 => fields .ldg (mfOf w)
  | 1 => fields .stg (mfOf w)
  | 2 => fields .atomgAdd (rfOf w)
  | 3 => fields .atomgSub (rfOf w)
  | 4 => fields .atomgMin (rfOf w)
  | 5 => fields .atomgMax (rfOf w)
  | 6 => fields .atomgAnd (rfOf w)
  | 7 => fields .atomgOr (rfOf w)
  | 8 => fields .atomgXor (rfOf w)
  | 9 => fields .atomgExch (rfOf w)
  | 10 => fields .atomgCas (rfOf w)
  | 11 => fields .fence (mfOf w)
  | 12 => fields .rld (mfOf w)
  | 13 => fields .rst (mfOf w)
  | 14 => fields .ratomAdd (ratomOf w)
  | 15 => fields .ratomSub (ratomOf w)
  | 16 => fields .ratomMin (ratomOf w)
  | 17 => fields .ratomMax (ratomOf w)
  | 18 => fields .ratomAnd (ratomOf w)
  | 19 => fields .ratomOr (ratomOf w)
  | 20 => fields .ratomXor (ratomOf w)
  | 21 => fields .ratomExch (ratomOf w)
  | 22 => fields .ratomCas (ratomOf w)
  | _ => .error 1

/-- Group 6 of the opcode map: codes 0x180 to 0x1BF (Table 2.8). -/
def decodeGroup6 (w : Word64) : Nat → Decoded
  | 0 => fields .bra (bfOf w)
  | 1 => fields .brq (bfOf w)
  | 2 => fields .brd (bfOf w)
  | 3 => fields .brs (bfOf w)
  | 4 => fields .call (bfOf w)
  | 5 => fields .ret (rfOf w)
  | 6 => fields .jmpx (rfOf w)
  | 7 => fields .regang (ifOf w)
  | 8 => fields .exit (rfOf w)
  | 9 => fields .nop (rfOf w)
  | 10 => fields .bara (rfOf w)
  | 11 => fields .barinit (rfOf w)
  | 12 => fields .barst (rfOf w)
  | 13 => fields .tbar (rfOf w)
  | 14 => fields .kinc (rfOf w)
  | 15 => fields .kset (rfOf w)
  | 16 => fields .krd (rfOf w)
  | 17 => fields .time (rfOf w)
  | 18 => fields .waitt (rfOf w)
  | 19 => fields .phase (ifOf w)
  | 20 => fields .trig (rfOf w)
  | _ => .error 1

/-- Group 7 of the opcode map: codes 0x1C0 to 0x1FF (Table 2.8). -/
def decodeGroup7 (w : Word64) : Nat → Decoded
  | 0 => fields .mma (reqOf w)
  | 1 => fields .mloop (reqOf w)
  | 2 => fields .mzero (reqOf w)
  | 3 => fields .mdrain (reqOf w)
  | 4 => fields .mstat (mstatOf w)
  | 5 => fields .mchk (mstatOf w)
  | 6 => fields .dpload (dploadOf w)
  | 7 => fields .launch (launchOf w)
  | 8 => fields .probe (rfOf w)
  | 9 => fields .tinv (rfOf w)
  | 10 => fields .trap (ifOf w)
  | 11 => fields .bkpt (ifOf w)
  | 12 => fields .sysrd (ifOf w)
  | 13 => fields .syswr (ifOf w)
  | _ => .error 1

/-- Decode a 64-bit instruction word: decode check 1 and the reserved bits of check 2 (R44, R46). -/
def decode (w : Word64) : Decoded :=
  let k := (opOf w).toNat % 64
  match (opOf w).toNat / 64 with
  | 0 => decodeGroup0 w k
  | 1 => decodeGroup1 w k
  | 2 => decodeGroup2 w k
  | 3 => decodeGroup3 w k
  | 4 => decodeGroup4 w k
  | 5 => decodeGroup5 w k
  | 6 => decodeGroup6 w k
  | 7 => decodeGroup7 w k
  | _ => .error 1

/-- The fields of a micro-operation word (Table 13.1). -/
def ufOf (w : Word32) : UF :=
  { xd := w.extractLsb' 5 3, sa := w.extractLsb' 8 4, sb := w.extractLsb' 12 4, rm := w.extractLsb' 16 2,
    imm := w.extractLsb' 18 14 }

/-- Which fields micro-operation `opc` uses: bits of XD, SA, SB, RM and a mask of IMM (Tables 13.1, 13.3). -/
def uopUses : Nat → (Bool × Bool × Bool × Bool × BitVec 14)
  | 0 => (true, true, true, true, 1)
  | 1 => (true, true, true, true, 1)
  | 2 => (true, true, true, true, 1)
  | 3 => (true, true, true, true, 1)
  | 4 => (true, true, true, false, 0)
  | 5 => (true, true, true, false, 0)
  | 6 => (true, true, false, false, 0)
  | 7 => (true, true, false, false, 0)
  | 8 => (true, false, false, true, 0x3FFF)
  | 9 => (true, false, false, false, 0xFF)
  | 10 => (true, false, false, false, 0x1FF)
  | 11 => (true, true, false, false, 0x3FFF)
  | 12 => (true, true, false, true, 1)
  | 13 => (true, true, false, true, 1)
  | 14 => (true, true, true, false, 0)
  | 15 => (true, true, false, true, 0)
  | 16 => (true, true, false, true, 0xF)
  | 17 => (false, true, false, false, 0x3FFF)
  | 18 => (false, true, false, true, 0x3FFF)
  | 19 => (false, true, false, false, 0)
  | 20 => (false, true, true, false, 0x7F)
  | 21 => (true, true, true, false, 0x7F)
  | _ => (false, false, false, false, 0)

/-- Every field the micro-operation does not use is zero (R270). -/
def uopZeros (opc : Nat) (f : UF) : Bool :=
  let u := uopUses opc
  (u.1 || f.xd == 0) && (u.2.1 || f.sa == 0) && (u.2.2.1 || f.sb == 0) && (u.2.2.2.1 || f.rm == 0) &&
    (f.imm &&& ~~~u.2.2.2.2 == 0)

/-- The micro-operation of code `opc`; codes 24-31 are invalid (Table 13.1). -/
def uopOf (f : UF) : Nat → Option Instr
  | 0 => some (.drainAdd f)
  | 1 => some (.drainSub f)
  | 2 => some (.drainMul f)
  | 3 => some (.drainFma f)
  | 4 => some (.drainMin f)
  | 5 => some (.drainMax f)
  | 6 => some (.drainAbs f)
  | 7 => some (.drainNeg f)
  | 8 => some (.drainMovi f)
  | 9 => some (.drainLdc f)
  | 10 => some (.drainLdr f)
  | 11 => some (.drainTab f)
  | 12 => some (.drainExp2 f)
  | 13 => some (.drainRcp f)
  | 14 => some (.drainClamp f)
  | 15 => some (.drainRnd f)
  | 16 => some (.drainCvt f)
  | 17 => some (.drainQspan f)
  | 18 => some (.drainSt f)
  | 19 => some (.drainChk f)
  | 20 => some (.drainSkip f)
  | 21 => some (.drainSel f)
  | 22 => some (.drainNop f)
  | 23 => some (.drainEnd f)
  | _ => none

/-- Decode a micro-operation word: invalid codes and words with a bit set in an unused field are refused (R278). -/
def decodeUop (w : Word32) : Option Instr :=
  let opc := (w.extractLsb' 0 5).toNat
  if uopZeros opc (ufOf w) then uopOf (ufOf w) opc else none

/-- The words of an instruction: `Sum.inl` a 64-bit word, `Sum.inr` a micro-operation word. -/
abbrev Code := Word64 ⊕ Word32

/-- Encode format R. -/
def encRF (op : BitVec 9) (f : RF) : Word64 :=
  (0 : BitVec 6) ++ f.md ++ f.ty ++ f.c ++ f.b ++ f.a ++ f.d ++ f.g.png ++ f.g.prd ++ op

/-- Encode format I. -/
def encIF (op : BitVec 9) (f : IF) : Word64 :=
  f.imm ++ f.md ++ f.a ++ f.d ++ f.g.png ++ f.g.prd ++ op

/-- Encode format M. -/
def encMF (op : BitVec 9) (f : MF) : Word64 :=
  f.off ++ f.sco ++ f.ord ++ f.sz ++ f.index ++ f.base ++ f.data ++ f.g.png ++ f.g.prd ++ op

/-- Encode format B. -/
def encBF (op : BitVec 9) (f : BF) : Word64 :=
  f.off ++ (0 : BitVec 3) ++ f.a ++ f.cond ++ f.g.png ++ f.g.prd ++ op

/-- Encode COPY and COPYR. -/
def encCopyF (op : BitVec 9) (f : CopyF) : Word64 :=
  (0 : BitVec 1) ++ f.kind ++ f.skind ++ f.sched ++ f.ben ++ f.bar ++ f.k ++ f.ty ++ f.ch ++ f.shape ++ f.seq ++
    f.dst ++ f.src ++ f.g.png ++ f.g.prd ++ op

/-- Encode CPYST. -/
def encCpystF (op : BitVec 9) (f : CpystF) : Word64 :=
  (0 : BitVec 5) ++ f.ben ++ f.bar ++ f.k ++ (0 : BitVec 2) ++ f.sco ++ f.ch ++ (0 : BitVec 6) ++ f.nul ++
    f.addr ++ f.val ++ f.g.png ++ f.g.prd ++ op

/-- Encode CPYCAN. -/
def encCpycanF (op : BitVec 9) (f : CpycanF) : Word64 :=
  (0 : BitVec 10) ++ f.k ++ (0 : BitVec 5) ++ f.ch ++ (0 : BitVec 6) ++ f.n3 ++ f.n2 ++ f.n1 ++ f.g.png ++
    f.g.prd ++ op

/-- Encode an engine request. -/
def encReqF (op : BitVec 9) (f : ReqF) : Word64 :=
  f.pri ++ f.za ++ f.bscr ++ f.tile ++ f.ben ++ f.bar ++ f.kc ++ f.ty ++ f.chk ++ f.tol ++ f.z39 ++ f.bsel ++
    f.sd ++ f.sk ++ f.rl ++ f.bbase ++ f.abase ++ f.g.png ++ f.g.prd ++ op

/-- Encode MSTAT and MCHK. -/
def encMstatF (op : BitVec 9) (f : MstatF) : Word64 :=
  (0 : BitVec 37) ++ f.sel ++ f.k ++ f.d ++ f.g.png ++ f.g.prd ++ op

/-- Encode DPLOAD. -/
def encDploadF (op : BitVec 9) (f : DploadF) : Word64 :=
  (0 : BitVec 5) ++ f.ben ++ f.bar ++ f.kc ++ (0 : BitVec 4) ++ f.tab ++ f.first ++ f.cnt ++ f.nul ++ f.src ++
    f.g.png ++ f.g.prd ++ op

/-- Encode LAUNCH. -/
def encLaunchF (op : BitVec 9) (f : LaunchF) : Word64 :=
  (0 : BitVec 10) ++ f.kc ++ (0 : BitVec 4) ++ f.ser ++ f.q ++ f.t ++ f.a ++ f.d ++ f.g.png ++ f.g.prd ++ op

/-- Encode RATOM. -/
def encRatomF (op : BitVec 9) (f : RatomF) : Word64 :=
  (0 : BitVec 3) ++ f.ord ++ f.c ++ f.ty ++ f.b ++ f.a ++ f.p ++ f.d ++ f.g.png ++ f.g.prd ++ op

/-- Encode a micro-operation. -/
def encUF (opc : BitVec 5) (f : UF) : Word32 :=
  f.imm ++ f.rm ++ f.sb ++ f.sa ++ f.xd ++ opc

/-- The words of an instruction from the opcode map (Table 2.8) and Table 13.3; an event has none. -/
def encode : Instr → Option Code
  | .iadd w => some (.inl (encRF 0x000 w))
  | .isub w => some (.inl (encRF 0x001 w))
  | .imul w => some (.inl (encRF 0x002 w))
  | .imulh w => some (.inl (encRF 0x003 w))
  | .imad w => some (.inl (encRF 0x004 w))
  | .imin w => some (.inl (encRF 0x005 w))
  | .imax w => some (.inl (encRF 0x006 w))
  | .iaddc w => some (.inl (encRF 0x007 w))
  | .iabs w => some (.inl (encRF 0x008 w))
  | .ineg w => some (.inl (encRF 0x009 w))
  | .and w => some (.inl (encRF 0x00A w))
  | .or w => some (.inl (encRF 0x00B w))
  | .xor w => some (.inl (encRF 0x00C w))
  | .andn w => some (.inl (encRF 0x00D w))
  | .not w => some (.inl (encRF 0x00E w))
  | .shl w => some (.inl (encRF 0x00F w))
  | .shr w => some (.inl (encRF 0x010 w))
  | .sar w => some (.inl (encRF 0x011 w))
  | .rotl w => some (.inl (encRF 0x012 w))
  | .bfe w => some (.inl (encRF 0x013 w))
  | .bfi w => some (.inl (encRF 0x014 w))
  | .popc w => some (.inl (encRF 0x015 w))
  | .clz w => some (.inl (encRF 0x016 w))
  | .ffs w => some (.inl (encRF 0x017 w))
  | .brev w => some (.inl (encRF 0x018 w))
  | .icmp w => some (.inl (encRF 0x019 w))
  | .sel w => some (.inl (encRF 0x01A w))
  | .mov w => some (.inl (encRF 0x01B w))
  | .movi w => some (.inl (encIF 0x01C w))
  | .movhi w => some (.inl (encIF 0x01D w))
  | .lea w => some (.inl (encRF 0x01E w))
  | .iaddi w => some (.inl (encIF 0x01F w))
  | .imuli w => some (.inl (encIF 0x020 w))
  | .andi w => some (.inl (encIF 0x021 w))
  | .ori w => some (.inl (encIF 0x022 w))
  | .xori w => some (.inl (encIF 0x023 w))
  | .icmpi w => some (.inl (encIF 0x024 w))
  | .plop w => some (.inl (encRF 0x025 w))
  | .fadd w => some (.inl (encRF 0x040 w))
  | .fsub w => some (.inl (encRF 0x041 w))
  | .fmul w => some (.inl (encRF 0x042 w))
  | .ffma w => some (.inl (encRF 0x043 w))
  | .fmin w => some (.inl (encRF 0x044 w))
  | .fmax w => some (.inl (encRF 0x045 w))
  | .fabs w => some (.inl (encRF 0x046 w))
  | .fneg w => some (.inl (encRF 0x047 w))
  | .fcmp w => some (.inl (encRF 0x048 w))
  | .frnd w => some (.inl (encRF 0x049 w))
  | .fclass w => some (.inl (encRF 0x04A w))
  | .fscale w => some (.inl (encRF 0x04B w))
  | .fdot2 w => some (.inl (encRF 0x04C w))
  | .dot4 w => some (.inl (encRF 0x04D w))
  | .cvtf w => some (.inl (encRF 0x080 w))
  | .cvti w => some (.inl (encRF 0x081 w))
  | .cvtfi w => some (.inl (encRF 0x082 w))
  | .pack2 w => some (.inl (encRF 0x083 w))
  | .pack4 w => some (.inl (encRF 0x084 w))
  | .unpk w => some (.inl (encRF 0x085 w))
  | .qnt w => some (.inl (encRF 0x086 w))
  | .dqnt w => some (.inl (encRF 0x087 w))
  | .qdesc w => some (.inl (encRF 0x088 w))
  | .frcp w => some (.inl (encRF 0x089 w))
  | .frsq w => some (.inl (encRF 0x08A w))
  | .fsqrt w => some (.inl (encRF 0x08B w))
  | .fexp2 w => some (.inl (encRF 0x08C w))
  | .flog2 w => some (.inl (encRF 0x08D w))
  | .fsin w => some (.inl (encRF 0x08E w))
  | .fcos w => some (.inl (encRF 0x08F w))
  | .ftanh w => some (.inl (encRF 0x090 w))
  | .qswph w => some (.inl (encRF 0x0C0 w))
  | .qswpv w => some (.inl (encRF 0x0C1 w))
  | .qswpd w => some (.inl (encRF 0x0C2 w))
  | .qbc w => some (.inl (encRF 0x0C3 w))
  | .shfl w => some (.inl (encRF 0x0C4 w))
  | .shflu w => some (.inl (encRF 0x0C5 w))
  | .shfld w => some (.inl (encRF 0x0C6 w))
  | .shflx w => some (.inl (encRF 0x0C7 w))
  | .vote w => some (.inl (encRF 0x0C8 w))
  | .ballot w => some (.inl (encRF 0x0C9 w))
  | .matchLanes w => some (.inl (encRF 0x0CA w))
  | .lpopc w => some (.inl (encRF 0x0CB w))
  | .rdlane w => some (.inl (encRF 0x0CC w))
  | .wrlane w => some (.inl (encRF 0x0CD w))
  | .wreduce w => some (.inl (encRF 0x0CE w))
  | .wscan w => some (.inl (encRF 0x0CF w))
  | .xmov w => some (.inl (encRF 0x0D0 w))
  | .dqpop w => some (.inl (encRF 0x0D1 w))
  | .lpush w => some (.inl (encRF 0x0D2 w))
  | .lds w => some (.inl (encMF 0x100 w))
  | .sts w => some (.inl (encMF 0x101 w))
  | .ldsb w => some (.inl (encMF 0x102 w))
  | .atomsAdd w => some (.inl (encRF 0x103 w))
  | .atomsSub w => some (.inl (encRF 0x104 w))
  | .atomsMin w => some (.inl (encRF 0x105 w))
  | .atomsMax w => some (.inl (encRF 0x106 w))
  | .atomsAnd w => some (.inl (encRF 0x107 w))
  | .atomsOr w => some (.inl (encRF 0x108 w))
  | .atomsXor w => some (.inl (encRF 0x109 w))
  | .atomsExch w => some (.inl (encRF 0x10A w))
  | .atomsCas w => some (.inl (encRF 0x10B w))
  | .scrflg w => some (.inl (encRF 0x10C w))
  | .copy w => some (.inl (encCopyF 0x10D w))
  | .copyr w => some (.inl (encCopyF 0x10E w))
  | .cpyst w => some (.inl (encCpystF 0x10F w))
  | .cpycan w => some (.inl (encCpycanF 0x110 w))
  | .ldg w => some (.inl (encMF 0x140 w))
  | .stg w => some (.inl (encMF 0x141 w))
  | .atomgAdd w => some (.inl (encRF 0x142 w))
  | .atomgSub w => some (.inl (encRF 0x143 w))
  | .atomgMin w => some (.inl (encRF 0x144 w))
  | .atomgMax w => some (.inl (encRF 0x145 w))
  | .atomgAnd w => some (.inl (encRF 0x146 w))
  | .atomgOr w => some (.inl (encRF 0x147 w))
  | .atomgXor w => some (.inl (encRF 0x148 w))
  | .atomgExch w => some (.inl (encRF 0x149 w))
  | .atomgCas w => some (.inl (encRF 0x14A w))
  | .fence w => some (.inl (encMF 0x14B w))
  | .rld w => some (.inl (encMF 0x14C w))
  | .rst w => some (.inl (encMF 0x14D w))
  | .ratomAdd w => some (.inl (encRatomF 0x14E w))
  | .ratomSub w => some (.inl (encRatomF 0x14F w))
  | .ratomMin w => some (.inl (encRatomF 0x150 w))
  | .ratomMax w => some (.inl (encRatomF 0x151 w))
  | .ratomAnd w => some (.inl (encRatomF 0x152 w))
  | .ratomOr w => some (.inl (encRatomF 0x153 w))
  | .ratomXor w => some (.inl (encRatomF 0x154 w))
  | .ratomExch w => some (.inl (encRatomF 0x155 w))
  | .ratomCas w => some (.inl (encRatomF 0x156 w))
  | .bra w => some (.inl (encBF 0x180 w))
  | .brq w => some (.inl (encBF 0x181 w))
  | .brd w => some (.inl (encBF 0x182 w))
  | .brs w => some (.inl (encBF 0x183 w))
  | .call w => some (.inl (encBF 0x184 w))
  | .ret w => some (.inl (encRF 0x185 w))
  | .jmpx w => some (.inl (encRF 0x186 w))
  | .regang w => some (.inl (encIF 0x187 w))
  | .exit w => some (.inl (encRF 0x188 w))
  | .nop w => some (.inl (encRF 0x189 w))
  | .bara w => some (.inl (encRF 0x18A w))
  | .barinit w => some (.inl (encRF 0x18B w))
  | .barst w => some (.inl (encRF 0x18C w))
  | .tbar w => some (.inl (encRF 0x18D w))
  | .kinc w => some (.inl (encRF 0x18E w))
  | .kset w => some (.inl (encRF 0x18F w))
  | .krd w => some (.inl (encRF 0x190 w))
  | .time w => some (.inl (encRF 0x191 w))
  | .waitt w => some (.inl (encRF 0x192 w))
  | .phase w => some (.inl (encIF 0x193 w))
  | .trig w => some (.inl (encRF 0x194 w))
  | .mma w => some (.inl (encReqF 0x1C0 w))
  | .mloop w => some (.inl (encReqF 0x1C1 w))
  | .mzero w => some (.inl (encReqF 0x1C2 w))
  | .mdrain w => some (.inl (encReqF 0x1C3 w))
  | .mstat w => some (.inl (encMstatF 0x1C4 w))
  | .mchk w => some (.inl (encMstatF 0x1C5 w))
  | .dpload w => some (.inl (encDploadF 0x1C6 w))
  | .launch w => some (.inl (encLaunchF 0x1C7 w))
  | .probe w => some (.inl (encRF 0x1C8 w))
  | .tinv w => some (.inl (encRF 0x1C9 w))
  | .trap w => some (.inl (encIF 0x1CA w))
  | .bkpt w => some (.inl (encIF 0x1CB w))
  | .sysrd w => some (.inl (encIF 0x1CC w))
  | .syswr w => some (.inl (encIF 0x1CD w))
  | .drainAdd w => some (.inr (encUF 0 w))
  | .drainSub w => some (.inr (encUF 1 w))
  | .drainMul w => some (.inr (encUF 2 w))
  | .drainFma w => some (.inr (encUF 3 w))
  | .drainMin w => some (.inr (encUF 4 w))
  | .drainMax w => some (.inr (encUF 5 w))
  | .drainAbs w => some (.inr (encUF 6 w))
  | .drainNeg w => some (.inr (encUF 7 w))
  | .drainMovi w => some (.inr (encUF 8 w))
  | .drainLdc w => some (.inr (encUF 9 w))
  | .drainLdr w => some (.inr (encUF 10 w))
  | .drainTab w => some (.inr (encUF 11 w))
  | .drainExp2 w => some (.inr (encUF 12 w))
  | .drainRcp w => some (.inr (encUF 13 w))
  | .drainClamp w => some (.inr (encUF 14 w))
  | .drainRnd w => some (.inr (encUF 15 w))
  | .drainCvt w => some (.inr (encUF 16 w))
  | .drainQspan w => some (.inr (encUF 17 w))
  | .drainSt w => some (.inr (encUF 18 w))
  | .drainChk w => some (.inr (encUF 19 w))
  | .drainSkip w => some (.inr (encUF 20 w))
  | .drainSel w => some (.inr (encUF 21 w))
  | .drainNop w => some (.inr (encUF 22 w))
  | .drainEnd w => some (.inr (encUF 23 w))
  | .clauseFetch => none
  | .clauseIssue => none
  | .leadClauseIssue => none
  | .registerLand => none
  | .teamBarrierApply => none
  | .teamBarrierNotify => none
  | .teamPlace => none
  | .groupStart => none
  | .groupRetire => none
  | .teamRelaunch => none
  | .trigSignal => none
  | .stopperLeave => none
  | .writeDispatch => none
  | .markerReceive => none
  | .writeApply => none
  | .faultResolved => none
  | .faultReport => none
  | .writeAck => none
  | .readAnswer => none
  | .loadComplete => none
  | .teamLoadServe => none
  | .teamLoadComplete => none
  | .teamStoreApply => none
  | .copyClaim => none
  | .copyStreamStart => none
  | .copyUnitDeliver => none
  | .copyAck => none
  | .copyCancel => none
  | .sequencedCopyrApply => none
  | .scheduledCopyBeat => none
  | .scheduledCopyEnd => none
  | .requestPost => none
  | .passGrant => none
  | .passStep => none
  | .bFetch => none
  | .mzeroComplete => none
  | .drainStart => none
  | .drainRow => none
  | .drainWrite => none
  | .passComplete => none
  | .reservationStart => none
  | .dploadWrite => none
  | .walkComplete => none
  | .shootdownSweep => none
  | .sweepAck => none
  | .shootdownComplete => none
  | .tinvcStart => none
  | .ctxCreate => none
  | .ctxBind => none
  | .ctxRun => none
  | .ctxFreeze => none
  | .ctxSuspend => none
  | .ctxResume => none
  | .ctxKill => none
  | .ctxReset => none
  | .ctxFree => none
  | .swapOutComplete => none
  | .gracefulComplete => none
  | .gracefulDeadlineExpiry => none
  | .unitcmdRetry => none
  | .unitcmdSkip => none
  | .unitcmdRegion => none
  | .unitcmdKill => none
  | .trapFinal => none
  | .faultRecordWrite => none
  | .keycmdLoad => none
  | .keycmdErase => none
  | .flagsClear => none
  | .oorrecClear => none
  | .ibdataClear => none
  | .flagReachContext => none
  | .tdispLockInterface => none
  | .tdispStartInterface => none
  | .tdispStopInterface => none
  | .mgmtsemAcquire => none
  | .mgmtsemRelease => none
  | .qcfgWrite => none
  | .qcmdClear => none
  | .qcmdSkip => none
  | .doorbell => none
  | .recordFetch => none
  | .recordConsume => none
  | .kernelArm => none
  | .kernelStart => none
  | .kernelRetire => none
  | .laycmdLoad => none
  | .laycmdArm => none
  | .laycmdDisarm => none
  | .laycmdUnload => none
  | .layBaseTick => none
  | .periodBoundary => none
  | .slackEvent => none
  | .slackOverrun => none
  | .faultNotice => none
  | .readyReport => none
  | .rollCallTimeout => none
  | .restartAnnounce => none
  | .layResume => none
  | .originLoss => none
  | .restartWaitExpiry => none
  | .timeCorrection => none
  | .synclostSet => none
  | .synclostClear => none
  | .waittExpiry => none
  | .vc0FrameSend => none
  | .vc0FrameWrite => none
  | .missingFrame => none
  | .frameReceive => none
  | .retryRequest => none
  | .dynamicMessage => none
  | .wkcmdStage => none
  | .wkcmdErase => none
  | .keySlotActivate => none
  | .keySlotRetire => none
  | .laneSpareRequest => none
  | .laneSpare => none
  | .linkEnable => none
  | .trainingComplete => none
  | .laneFail => none
  | .linkDown => none
  | .strikeReport => none
  | .rollbackEnd => none
  | .regionRecordFree => none
  | .protectedMismatch => none
  | .dualRunMismatch => none
  | .meshRetransmit => none
  | .homeReplay => none
  | .hrepcmdGo => none
  | .hbmLaneRepair => none
  | .zcntClear => none
  | .uecntClear => none
  | .poolcfgWrite => none
  | .operatingPointChange => none
  | .pwrcmdBoost => none
  | .pwrcmdEndboost => none
  | .pwrcmdOffline => none
  | .pwrcmdOnline => none
  | .boostExpiry => none
  | .powerCheck => none
  | .dieQuiesce => none
  | .powerCutoff => none
  | .heartbeat => none
  | .controllerTakeover => none
  | .fwcmdStage => none
  | .fwcmdActivate => none
  | .fwcmdAbort => none
  | .handoverTimeout => none
  | .spdmGetMeasurements => none
  | .securityAlarm => none
  | .powerOn => none
  | .registerWrite => none
  | .ownerPortLinkDown => none
  | .sysrdComplete => none
  | .scrflgComplete => none
  | .launchDelivered => none

/-- OP of a machine instruction (Table 2.8): the low nine bits of its word. -/
def opcodeOf (i : Instr) : Nat :=
  match encode i with
  | some (.inl w) => (opOf w).toNat
  | _ => 512

/-- Bytes of a word, lowest address first (R4). -/
def leBytes (n v : Nat) : List Byte :=
  (List.range n).map fun i => BitVec.ofNat 8 (v / 2 ^ (8 * i))

/-- The number whose little-endian bytes are given (R4). -/
def ofLeBytes : List Byte → Nat
  | [] => 0
  | b :: bs => b.toNat + 256 * ofLeBytes bs

/-- Decode the bytes at a fetch address: eight bytes of an instruction word. -/
def decodeBytes (bs : List Byte) : Decoded := decode (BitVec.ofNat 64 (ofLeBytes bs))

/-- What the decoder reads from an instruction whose bits the opcode table gives: a 32-bit row is a micro-operation
word, a longer one an instruction word. The bytes are laid out as the hardware stores them and read back. -/
def decodeTableWord (nbits w : Nat) : Option Instr :=
  if nbits ≤ 32 then decodeUop (BitVec.ofNat 32 (ofLeBytes (leBytes 4 w)))
  else match decodeBytes (leBytes 8 w) with
    | .ok i => some i
    | .error _ => none

end Sys2Proof
end

