-- ==== Sys2Proof/Config.lean ====
section
/-! DEFINITION. What the part fixes (published constants) and what the spec leaves open (opaque free values: nothing
constrains them; log 5). -/

namespace Sys2Proof.Config

/-- The stopper hold D in cycles (R197). -/
def hold : Nat := 384
/-- Model time units per tick: every operating point of Table 21.2 has a whole number of them per cycle (log 1). -/
def unitsPerTick : Nat := 690
/-- Units per core cycle in classes 0 to 3 and under a boost lease (Table 21.2). -/
def unitsPerCycle : Nat → Nat
  | 0 => 1449
  | 1 => 1035
  | 2 => 805
  | _ => 690
/-- Units per core cycle under a boost lease: 21/23 of a tick (Table 21.2). -/
def boostUnits : Nat := 630
/-- Bytes of scratch on a core (R174). -/
def scratchBytes : Nat := 524288
/-- Bytes of one die's HBM4 stack (Table 0.1). -/
def stackBytes : Nat := 68719476736

/-- A free number: the cycles or ticks of a completion whose time is not published, or another open choice. -/
opaque freeNat : Nat → Nat
/-- A free word: a value that the spec leaves open. -/
opaque freeWord : Nat → BitVec 64
/-- A free byte: what a read under another key than the byte was written with returns (R292). -/
opaque freeByte : Nat → Nat → BitVec 8
/-- The HBM4 channel, modulo 32, that serves a line of a die's stack (log 136). -/
opaque channelOf : Nat → Nat → Nat
/-- Does a key's RSA-4096 signature over SHA-512 verify for an image or a configuration record (R403)? -/
opaque signatureGood : List (BitVec 8) → List (BitVec 8) → Bool
/-- The Nyesque root key that the boot ROM holds (R403). -/
opaque rootKey : List (BitVec 8)
/-- The image key that a configuration record names (R403). -/
opaque imageKey : List (BitVec 8) → List (BitVec 8)
/-- SHA-512 of a byte string (R403): the digest function is not in the spec. -/
opaque sha512 : List (BitVec 8) → BitVec 512
/-- The contents of the boot ROM, which block 1 measures (R403). -/
opaque bootRom : List (BitVec 8)

end Sys2Proof.Config
end

