-- ==== Sys2Proof/Machine/State.lean ====
section
/-! DEFINITION. The state of one NQ-C16 module as plain data: every piece of state the spec names, the input events
still to come (`agenda`) and the few fields that are the model's own. Faults, refusals and the state after reset. -/

namespace Sys2Proof.Machine

/-- A sparse table: keys rising, one entry per key; an unlisted key reads as the default it is read with. -/
abbrev Tab (β : Type) := List (Nat × β)

/-- Byte memory: addresses rising, no entry equal to what an unlisted address reads as (0, log 3). -/
abbrev Mem := List Host.Cell

/-- The register files a pending write can go to (Table 3.1); `flags` is a raise of sticky flags (R97). -/
inductive RFile where
  | v | s | p | g | flags
  deriving DecidableEq, Repr

/-- A pending register write (R54, R57); cycles are the core's. -/
structure PendW where
  u : UnitId
  file : RFile
  reg : Nat
  lane : Nat
  val : BitVec 64
  land : Nat
  issue : Nat
  op : Nat          -- 0, or the counted operation that lands it
  deriving DecidableEq, Repr

/-- A sub-gang (R118): program counter (byte offset in the code image), quads, REGANG wait and mask (R143), and the
header fetched for it (R30, R336). -/
structure SubGang where
  pc : Nat
  quads : BitVec 8
  wait : Bool
  wmask : BitVec 8
  hdr : Option (BitVec 64)
  deriving DecidableEq, Repr

/-- A region record (R122, R137, R138, R156, R172, R382). -/
structure RegionRec where
  entry : Nat
  cycle : Nat
  number : Nat
  gangs : List SubGang
  exec : BitVec 32
  marked : BitVec 32
  pi : Nat
  split : Bool
  pp : Nat
  push : List Nat
  nEnter : Nat
  nBar : Nat
  nCpy : Nat
  deriving DecidableEq, Repr

/-- Where control goes at the clause boundary (R121, R142, R143). -/
inductive Xfer where
  | fall
  | goto (pc : Nat)
  | quads (ts : List (Nat × Nat))      -- quad, target
  | regang (mask : BitVec 8)
  deriving DecidableEq, Repr

/-- A clause that is issuing (R27). -/
structure ClauseRun where
  w0 : Nat
  pc : Nat
  hdr : BitVec 64
  quads : BitVec 8
  xfer : Xfer
  reqs : Nat            -- engine requests issued in it (R249)
  deriving DecidableEq, Repr

/-- A trap or a wait that stops a unit (R295, R297, R310, R314). -/
structure Stop where
  kind : Nat            -- Table 15.3
  sub : Nat
  cycle : Nat
  time : Nat
  pc : Nat
  idx : Nat             -- position in the clause
  quads : BitVec 8
  clause : Option ClauseRun
  lanes : BitVec 32
  detail : List Nat     -- words 4, 5, 6
  sgpc : List Nat
  final : Bool          -- past T + D (R314)
  byWalk : Bool         -- found by a walk (R295)
  waitOnly : Bool       -- cause 5: no record (R297)
  waits : List Nat      -- the addresses that wait with cause 5 (R300)
  due : Nat := 0        -- cycle at which it becomes final (R314)
  disp : Option Nat := none   -- the disposition written, until it takes effect (R313)
  deriving DecidableEq, Repr

/-- One issued instruction, kept for R383: issue cycle and the latest landing of its fixed-latency results. -/
structure Issued where
  cycle : Nat
  land : Nat
  deriving DecidableEq, Repr

/-- A warp or a lead stream that holds its slot (R12, R118-R137). -/
structure ExecUnit where
  id : UnitId
  gid : Nat
  warp : Nat
  wins : List Nat        -- windows owned: the warp's slot, or the lead windows
  exec : BitVec 32
  marked : BitVec 32
  helper : BitVec 32
  gangs : List SubGang
  pi : Nat
  split : Bool
  clause : Option ClauseRun
  resume : Option Nat    -- RETRY or SKIP: position to go on at (R313)
  stop : Option Stop
  holdUntil : Nat        -- first cycle at which a window may issue
  laySt : Nat            -- 0 running, 2 restarted and stopped at a boundary (R355)
  ended : Bool
  lastIssue : Nat
  issued : List Issued
  rgnc : Nat
  ring : List RegionRec  -- newest first
  perCur : Option (Nat × RegionRec)
  perPrev : Option (Nat × RegionRec)
  perDone : Nat          -- period whose record has been taken, plus one
  dq : List (Nat × Nat × BitVec 64)   -- decision queue: entry number, cycle of the append, value
  ps : Nat
  pp : Nat
  pr : Nat
  push : List Nat
  nEnter : Nat
  nBar : Nat
  nCpy : Nat
  keepEnter : Nat
  keepBar : Nat
  keepCpy : Nat
  nSeq : Nat
  mark : Option Nat      -- mismatch mark: cleared by a record with a greater number (R388)
  rerun : Option Nat := none   -- number of the period record that a lay restart went back to, until the next new entry (R418)
  deriving DecidableEq, Repr

/-- A change of a K counter (R170). -/
structure KChange where
  cyc : Nat
  k : Nat
  set : Option Nat
  delta : Int
  u : UnitId
  issue : Nat
  instr : Bool           -- made by KINC or KSET, so R172 can withdraw it
  deriving DecidableEq, Repr

/-- What happens to a barrier (Table 8.3, R169). -/
inductive BEv where
  | init (n : Nat)
  | initTeam (j : Nat)
  | arrive (n : Nat)
  | post
  | bound
  | fault (code : Nat)
  | teamDone (j : Nat)
  | teamErr (j code : Nat)
  | tbarTest
  | tbarTarget (j : Nat)
  deriving DecidableEq, Repr

/-- A change of a barrier at its application cycle; `rank` orders changes of one cycle (R163). -/
structure BChange where
  cyc : Nat
  rank : Nat
  bar : Nat
  ev : BEv
  u : UnitId
  issue : Nat
  instr : Bool
  deriving DecidableEq, Repr

/-- The states of a group (Table 7.2). -/
inductive GState where
  | pending | placed | running | faulted | frozen | draining | discarded | retired
  deriving DecidableEq, Repr

/-- A group (R146, R150, R152). -/
structure Group where
  gid : Nat
  kid : Nat
  ctx : Nat
  tid : Nat
  tmbr : Nat
  g : Nat
  die : Nat
  core : Nat
  slots : List Nat
  sbase : Nat
  ssize : Nat
  lanes : Nat
  prot : Bool
  state : GState
  before : GState        -- state before freezing
  start : Nat            -- start cycle
  lastPass : Nat         -- last completion of an engine request
  kLog : List KChange
  bLog : List BChange
  trig : Nat             -- 0 none, 2 signalled (R160)
  twinOf : Option Nat    -- the primary's gid, for a twin (R389)
  deriving DecidableEq, Repr

/-- A team barrier (R167, R168). -/
structure TeamBar where
  bits : List Nat
  phases : Nat
  err : Nat
  reinit : List (Nat × UnitId × Nat)   -- BARINIT.TEAM since the error: member, unit, issue cycle (R168)
  deriving DecidableEq, Repr

/-- The states of a team (Table 7.3). -/
inductive TState where
  | forming | running | killed | relaunching | retired
  deriving DecidableEq, Repr

/-- A team (R146, R153, R159). -/
structure Team where
  tid : Nat
  kid : Nat
  idx : Nat
  die : Nat
  state : TState
  members : List Nat     -- gids, by TMBR
  twins : List Nat
  tb : List TeamBar
  relaunches : Nat
  committed : Bool
  killAt : Nat
  deriving DecidableEq, Repr

/-- The launch parameter block (Table 17.1). -/
structure Lpb where
  addr : Nat
  layk : Nat
  startat : Bool
  pagectl : Bool
  early : Bool
  restart : Bool
  dual : Bool
  prot : Bool
  det : Bool
  sched : Bool
  relim : Nat
  csetn : Nat
  csetbase : Nat
  cls : Nat
  kmax : Nat
  scrkb : Nat
  lanes : Nat
  tsize : Nat
  nx : Nat
  ny : Nat
  nz : Nat
  start : Nat
  args : Nat
  nshape : Nat
  shapes : Nat
  codew : Nat
  leadent : Nat
  warpent : Nat
  code : Nat
  deriving DecidableEq, Repr

/-- A shape record (Table 11.1). -/
structure Shape where
  ext : List Nat
  sstr : List Int
  dstr : List Int
  esz : Nat
  sdoff : Int
  ddoff : Int
  good : Bool
  deriving DecidableEq, Repr

/-- The states of a kernel (Table 17.3). -/
inductive KState where
  | queued | armed | running | draining | retired | aborted
  deriving DecidableEq, Repr

/-- A kernel (R338-R342). -/
structure Kernel where
  kid : Nat
  ctx : Nat
  q : Nat
  recNo : Nat            -- number of its record in the queue
  lpb : Lpb
  shapes : List Shape
  dies : List Nat
  state : KState
  order : Nat            -- start order
  late : Bool            -- its fault for starting late has been raised (R338)
  nextTeam : Tab Nat     -- per die, teams already created
  retired : Nat          -- teams retired
  trig : List Nat        -- groups that have signalled or retired
  startTick : Nat
  lay : Option Nat
  op : Nat               -- LAUNCH operation, or 0
  irq : Bool
  doomed : Bool := false -- its lay was abandoned by an urgent freeze: aborted when the context resumes (Table 18.6)
  deriving DecidableEq, Repr

/-- A translation (R293). -/
structure Xlat where
  ctx : Nat
  page : Nat             -- VA with the page offset cleared
  psize : Nat            -- log2 of the page size
  r : Bool
  w : Bool
  at' : Bool
  pin : Bool
  tgt : Nat
  tid : Nat
  preg : Nat
  frame : Nat            -- byte address of the frame
  key : Nat
  dirty : Bool
  deriving DecidableEq, Repr

/-- A held translation: last-page registers are 0-127 (slot, lane) and 128-131 (channels), the buffer is 132-387. -/
structure XlEnt where
  die : Nat
  core : Nat
  idx : Nat
  x : Xlat
  deriving DecidableEq, Repr

/-- The progress of one lane of an operation (R294, R201). -/
inductive LaneSt where
  | idle | walking | ready | faulted | sent | atHome | parked | applied | answered | acked
  deriving DecidableEq, Repr

/-- One lane of an operation. -/
structure LaneReq where
  lane : Nat
  addr : Nat
  data : Nat
  cmp : Nat
  peer : Nat
  xl : Option Xlat
  cause : Nat
  lvl : Nat
  seq : Nat
  st : LaneSt
  arr : Nat              -- when it reached the core or home that serves it: instant or cycle there (R190, R207)
  res : Nat
  poison : Bool
  deriving DecidableEq, Repr

/-- The kinds of operation a unit leaves running after issue. -/
inductive OpKind where
  | load | store | atomic | teamLoad | teamStore | rld | rst | ratom
  | copy | copyr | cpyst | cpycan | launch | trig | tbar | doorbell
  | fence | probe | tinv | scrflg | sysrd | waitt | mstat | mchk | time
  deriving DecidableEq, Repr

/-- The life of an operation (Tables 10.2, 11.2). -/
inductive Stage where
  | probing | ready | held | released | inflight | claimed | streaming | delivered | done | cancelled
  deriving DecidableEq, Repr

/-- A replay bound to an operation (R385, R390): unit, issue cycle and counter. -/
structure Replay where
  u : UnitId
  issue : Nat
  k : Option Nat
  deriving DecidableEq, Repr

/-- What a copy carries (R226, R234, R237, R239). -/
structure CopyRec where
  ch : Nat
  src : Nat
  dst : Nat
  shape : Shape
  srcScr : Bool
  dstScr : Bool
  sched : Bool
  red : Bool             -- COPYR
  stopping : Bool := false   -- a CPYCAN waits for the end of the unit under way (Table 11.2)
  rop : Nat
  ty : Nat
  seq : Option Nat
  value : Option Nat     -- CPYST
  units : Nat            -- units delivered
  bytes : Nat            -- bytes delivered
  paused : Bool
  pauseVa : Nat          -- the address whose fault paused it (R300)
  slotTick : Option Nat  -- start of the lay slot taken
  faulted : Bool
  order : Nat            -- dispatch order
  marker : Nat           -- the core's marker at dispatch
  deriving DecidableEq, Repr

/-- A counted or outward operation of a unit (R195-R221). -/
structure Op where
  id : Nat
  u : UnitId
  gid : Nat
  ctx : Nat
  kind : OpKind
  fn : Nat               -- member of an atomic family, or another code of the kind
  ty : Nat
  size : Nat
  ord : Nat
  sco : Nat
  issue : Nat
  pc : Nat
  seq : Nat              -- program order in the unit
  ordinal : Nat          -- which stopper entry of the unit, 0 for none
  k : Option Nat
  bar : Option Nat
  dest : Nat             -- destination field, 0xFF none
  helpers : BitVec 32    -- computing lanes that land 0
  lanes : List LaneReq
  stage : Stage
  leave : Nat            -- cycle at which the hold ends
  clock : List Nat
  front : List Nat
  kdone : Bool           -- its counter has been decremented
  binds : List Replay
  args : List Nat        -- parameters of launch, doorbell, probe, tinv, waitt, mstat
  copy : Option CopyRec
  doneAt : Nat
  fwd : Nat              -- for a twin's entry, the primary's operation it is bound to (R390), or 0
  mism : Bool            -- the primary and shadow lanes of the entry differ (R387)
  deriving DecidableEq, Repr

/-- A line of scratch (R184, R186). -/
structure LineRec where
  last : Nat
  slot : Nat
  region : Nat
  hasLast : Bool
  rolled : Bool
  deriving DecidableEq, Repr

/-- A core (R151, R230). -/
structure CoreRec where
  die : Nat
  core : Nat
  marker : Nat
  nextWin : Nat          -- windows already credited
  ib : Tab (Nat × Nat)   -- marker: BUSY, IDLE
  wptr : List Nat
  fresh : List (Nat × Nat × Nat)   -- bytes of a cycle that WPTR counts from the next one on: channel, cycle, bytes (R230)
  wsh : List Nat         -- WPTR of the channels whose group lies in the shadow store
  leadLast : Nat
  deriving DecidableEq, Repr

/-- A row of an engine's reservation table (R249, R258, R263). -/
structure PassRow where
  row : Nat
  u : UnitId
  gid : Nat
  kind : Nat             -- 0 MMA, 1 MLOOP, 2 MZERO, 3 MDRAIN, 4 DPLOAD
  st : Nat               -- STATE of Table 12.6; row number 16 + n: issued for row n, not yet posted; 32 + n: unfinished beside
                         -- row n's most recent request
  was : Nat              -- state before freezing
  issue : Nat
  post : Nat
  grant : Nat
  t0 : Int
  tile : Nat
  ty : Nat
  n : Nat
  step : Nat
  sigma : Nat
  rl : Nat
  abase : Nat
  bbase : Nat
  bsel : Nat
  bscr : Bool
  za : Bool
  chk : Bool
  tol : Nat
  pri : Nat
  badr : Nat
  inc : Nat
  den : Bool
  slot : Nat
  stride : Nat
  dest : Nat
  k : Nat
  bar : Option Nat
  frag : Tab (BitVec 32)     -- registers read for the step: 0-511 A, 512-1023 B, by 32·j + lane
  desc : Tab (BitVec 32)     -- descriptors of the current span: 0-127 A, 128-255 B
  fbytes : Tab (BitVec 8)    -- fetched bytes, by 4096·(step mod 2) + offset in the block
  fwords : List (Nat × Nat)  -- words still to be fetched, in order: step, offset in the block
  sums : List ((Int × Int) × Int × Int)   -- per row: exact check and M sums of checksum mode, as n·2^e (R257)
  badRows : List Nat         -- rows whose sums met a NaN or an infinity
  allInc : Bool              -- every row is inconclusive whatever the drain stores (R263)
  wn : Nat                   -- the window at which an urgent freeze stops it, or 0 (R259)
  await : Bool               -- resumed: it goes on at its warp's first window that issues a clause (R259, R282)
  rgnc : Nat                 -- RGNC of the issuing warp at issue (R184)
  resvd : Bool               -- granted in a reserved interval (R251)
  flags : Nat
  err : Nat
  check : Nat
  drow : Nat
  delta : Nat
  tabFirst : Nat
  tabCnt : Nat
  isTab : Bool
  deriving DecidableEq, Repr

/-- One pending scratch word write of a drain row (R279). -/
structure DrainWord where
  row : Nat
  ready : Nat
  addr : Nat             -- byte address of the 8-byte word in the core's scratch
  bytes : List (Nat × BitVec 8)
  deriving DecidableEq, Repr

/-- A drain in progress (R272, R279). -/
structure DrainRun where
  row : Nat              -- reservation row of its pass
  grant : Nat            -- grant cycle of its pass
  start : Nat
  next : Nat             -- next row to enter
  ins : Tab Nat          -- In(i)
  dones : Tab Nat        -- Done(i)
  words : List DrainWord
  dropped : Bool
  rho : Tab (BitVec 32)  -- CHK row sums
  deriving DecidableEq, Repr

/-- A matrix engine with its drain memory (R243, R249, R267). -/
structure Engine where
  die : Nat
  q : Nat
  acc0 : Tab (BitVec 32)
  acc1 : Tab (BitVec 32)
  rows : List PassRow
  checks : Tab (BitVec 32)    -- MCHK word of each warp, by 16·group + row
  aborted : List Nat          -- keys whose last checked pass was aborted (R260)
  prog : Tab (BitVec 32)      -- 64 × 16 words; unlisted reads 0xFFFF_FFFF
  tab : Tab (BitVec 32)
  drain : Option DrainRun
  lastDone : Nat              -- cycle of the last drain's completion
  resv : Option Nat           -- start tick of the reserved interval last taken (R251)
  deriving DecidableEq, Repr

/-- A drain row being run: the drain registers of every element (R271), skip counts, the values that QSPAN, CHK and ST
contribute, and the place in the program. -/
structure RowRun where
  die : Nat
  q : Nat
  row : Nat
  w : Nat
  last : Nat
  x : Tab (BitVec 32)         -- 8·c + register
  skip : Tab Nat
  span : Tab (BitVec 32)
  spanCfg : Option (Nat × Nat × Nat)   -- H, mode, n
  chk : Option (Tab (BitVec 32))
  stores : List (Nat × Nat × Nat × Nat)  -- offset from the row's address (mod 2^32), size, element, data
  flags : Nat
  word : BitVec 32            -- the micro-operation being run
  bad : Bool                  -- it has read an uncorrectable table entry (R392)
  deriving DecidableEq, Repr

/-- A fault record (Table 15.4). -/
structure FaultRec where
  ctx : Nat
  kind : Nat
  sub : Nat
  die : Nat
  core : Nat
  slot : Nat
  lead : Bool
  async : Bool
  pc : Nat
  time : Nat
  rgnc : Nat
  lanes : Nat
  detail : List Nat
  entry : Nat
  sgpc : List Nat
  cycle : Nat := 0          -- trapping cycle, which orders the records of a die (R312)
  due : Nat := 0            -- instant from which it may be written
  counted : Bool := false      -- counted by FQTAIL.OVF: it fell due with its die's holding buffer full
  deriving DecidableEq, Repr

/-- The states of a context (Table 15.5, CTXST). -/
inductive CState where
  | free | created | bound | running | freezing | suspended | faulted | killed
  deriving DecidableEq, Repr

/-- A context and its system registers (Table 15.5). -/
structure Context where
  state : CState
  partition : Nat
  det : Bool
  flags : Nat
  oor : Nat
  oorCyc : Nat              -- cycle of the access that filled the record (R187)
  fqbase : Nat
  fqctl : Nat
  fqhead : Nat
  fqtail : Nat
  fqovf : Nat
  fqfull : Bool             -- 2^16 records lie in the ring, so that head and tail are equal (R312)
  gdeadline : Nat
  status : Nat
  debug : Nat
  savebase : Nat
  raf : Tab Nat
  tinva : Nat
  tinvc : Nat
  tinvBusy : Bool
  ibsel : Nat
  rgt : Tab Nat
  rgtseq : Tab Nat
  rgtskip : Tab (List Nat)  -- per entry, numbers of cancelled COPYRs that the counter has not reached (R234)
  keysel : Nat
  keydata : Tab Nat
  keys : Tab Nat
  tdisp : Nat               -- 0 CONFIG_UNLOCKED, 1 LOCKED, 2 RUN, 3 ERROR
  viaTdisp : Bool
  seqno : Nat
  graceful : Bool
  wasFaulted : Bool
  image : Bool              -- suspended with an image in the shadow store
  swapped : List Nat        -- dies that have swapped out
  urgent : Option Nat       -- queue whose urgent record waits for the freeze
  nextTick : Nat            -- first instant at which its queues may consume again (R331)
  deriving DecidableEq, Repr

/-- A queue (Table 16.2). -/
structure Queue where
  en : Bool
  urgok : Bool
  pri : Nat
  port : Nat
  size : Nat
  ctx : Nat
  vec : Nat
  base : Nat
  head : Nat
  tail : Nat
  stale : Nat
  done : Nat
  taken : Nat               -- records consumed since EN was set
  outst : Nat               -- consumed records not completed
  err : Nat
  headRec : Option (List Nat)   -- fetched head record: words 0-3
  fetching : Bool
  eligibleAt : Option Nat
  launches : List Nat       -- LAUNCH operations delivered and not consumed
  pend : List (Nat × Bool)  -- consumed SIGNAL records not completed: number, IRQ
  doneRecs : List Nat       -- numbers of completed records
  blocks : Tab (Option (List Nat))   -- blocks read: of the ring's head under 0, of LAUNCH operations (R341); none if unreadable
  behind : Bool             -- the record whose error it is has been consumed (a SIGNAL whose write faulted)
  deriving DecidableEq, Repr

/-- A claim at a home (R231, R234). -/
structure Claim where
  op : Nat
  home : Nat
  rng : Nat                 -- 0 data, 1 descriptor array
  va : Nat                  -- the address that `lo` is the place of
  lo : Nat
  hi : Nat
  passed : Nat              -- places below this are no longer claimed
  stamp : Nat               -- the home's cycle at which it was entered (R232)
  seq : Option (Nat × Nat × List Nat)   -- a peer's sequenced COPYR: context, number, SEQ entries it waits at (R368)
  deriving DecidableEq, Repr

/-- A shoot-down in progress (R298). -/
structure ShootDown where
  id : Nat
  ctx : Nat
  kind : Nat
  lo : Nat
  hi : Nat
  op : Nat                  -- TINV operation, or 0 for the host's
  dies : List Nat
  waiting : List (Nat × Nat)   -- cores still to acknowledge: 256·die + core, with the operation waited for
  deriving DecidableEq, Repr

/-- A die (R13, R149, R211, R396-R401). -/
structure Die where
  st : Nat                  -- 0 online, 1 quiesced, 2 offlined, 3 powering up
  cls : Nat
  reqCls : Nat
  upc : Nat
  anchor : Nat              -- local time in units at which cycle `anchorCyc` begins
  anchorCyc : Nat
  past : List (Nat × Nat × Nat)   -- earlier clocks, newest first: anchor, cycle there, units per cycle
  boost : Option Nat        -- expiry, as an instant
  limit : Nat
  vc : List Nat
  frontier : List Nat
  markers : Tab Nat         -- per source die, last marker this die's homes have received (R212)
  hold : List FaultRec
  rafCopy : Tab (Tab Nat)   -- per context
  shadow : Option Nat       -- context whose image the shadow store holds
  temp : Nat
  draw : Nat := 0           -- power it drew over the last millisecond, in watts (R399)
  thr : Nat
  slotLays : List Nat
  claimed : List Nat        -- cores whose storage a context has claimed from the suspended image (R316)
  changing : Bool
  deriving DecidableEq, Repr

/-- A sticky flag or record fill held in its zone (R187, R323). -/
structure HeldFlag where
  die : Nat
  q : Nat
  core : Nat
  ctx : Nat
  cycle : Nat
  flags : Nat
  oor : Nat                 -- a record to fill, or 0
  deriving DecidableEq, Repr

/-- A strike zone (R386, Table 20.4). -/
structure Zone where
  zone : Nat
  rolling : Bool
  cut : Nat
  fin : Nat
  zcnt : Nat
  zlast : Nat
  heldCut : Option (Nat × Nat)   -- a report held while the zone is frozen: cut, source
  deriving DecidableEq, Repr

/-- A slot entry of a lay (Table 18.3). -/
structure SlotEnt where
  die : Nat
  off : Nat
  len : Nat
  kind : Nat
  unit : Nat
  arg : Nat
  deriving DecidableEq, Repr

/-- The states of a lay slot (Table 18.4). -/
inductive LState where
  | empty | loaded | armed | running | faulted | resyncing | abandoned
  deriving DecidableEq, Repr

/-- A lay slot (Tables 18.2, 18.4; R355). -/
structure Lay where
  base : Nat
  ctl : Nat
  status : Nat
  checkCause : Nat         -- Table 18.4, LAYCMD
  cause : Nat              -- fault of this module that its notice will take up, 0 none
  state : LState
  lastCause : Nat
  resyncs : Nat
  startReg : Nat
  rst : Nat
  layid : Nat
  fbid : Nat
  sben : Bool
  sbmod : Nat
  modmask : Nat
  gmod : Nat
  origin : Nat
  cls : Nat
  diemask : Nat
  nperiod : Nat
  period : Nat
  kernels : List (Nat × Nat)   -- kernel table: period index, offset
  slots : List SlotEnt
  baseTick : Nat
  per : Nat                -- current period index
  shift : Nat              -- periods added by resynchronisations
  faultTick : Nat
  faultPer : Nat
  accept : Nat             -- A of R355
  noticed : Bool
  stopTick : Nat           -- period boundary at which the last units stop
  noteTick : Nat           -- origin TIME at which the notice reached this module's units
  lingers : Bool           -- its last period has ended at the origin, and may still run at a path distance (R347, R349)
  announced : Bool         -- R of this resynchronisation is known
  ready : List Nat         -- modules that reported ready
  taken : List (Nat × Nat × Nat × Nat)   -- die, core, channel, start tick of slots taken
  demand : Tab Nat         -- per unit code: demand of its open slack window
  deriving DecidableEq, Repr

/-- A die link (0-15) or the Wyusk port (16) of a die (R372, R374); `st` holds 2 for keyed and for scheduled. -/
structure LinkRec where
  die : Nat
  lnk : Nat
  st : Nat                 -- 0 down, 1 training, 2 keyed, 3 scheduled, 4 degraded
  bad : Nat                -- failed data lanes not spared
  spareUsed : Nat
  fails : Nat
  run : Nat                -- consecutive failures
  wctl : Nat
  wksel : Nat
  wkdata : Tab Nat
  wksalt : Nat
  wktick : Nat
  status : Nat
  slots : Tab (Nat × Nat × Nat × Nat × Nat)   -- key slot 4·VC + 2·direction + slot: state, key, salt, tick, SEQ
  wantSpare : Bool
  trained : Bool           -- lane training has ended and keys are waited for
  pause : Nat              -- instant until which a lane spare pauses the link
  await : List Nat         -- VCs on which frames are discarded until a resend arrives (R371)
  busy : Nat := 0          -- instant until which the frames of the last dynamic message take the port (R362)
  sent : Tab Nat := []     -- frames sent over a die link, by VC: their SEQ (Table 19.3)
  deriving DecidableEq, Repr

/-- A beat waiting at a gateway for its VC0 frame (R365). -/
structure Beat where
  die : Nat
  lnk : Nat                -- die link 0-15, or 16 + peer module for the port
  op : Nat                 -- the copy
  lay : Nat
  ddie : Nat
  dline : Nat
  key : Nat
  opk : Nat
  rty : Nat
  bytes : List (BitVec 8)
  deriving DecidableEq, Repr

/-- An HBM4 channel (R352, R394). -/
structure Chan where
  die : Nat
  chan : Nat
  spare : Nat
  pins : Tab Nat           -- corrected errors of each pin
  want : Option Nat
  pause : Nat := 0         -- instant until which a lane repair pauses the channel
  deriving DecidableEq, Repr

/-- A message on VC3: a retry request for frames of a VC of a link (R371), a notice with its cause and fault tick, a ready report, a
restart tick (R355). -/
inductive Vc3 where
  | retry (lnk vc : Nat)
  | notice (lay cause tick : Nat)
  | ready (lay : Nat)
  | restart (lay tick : Nat)
  deriving DecidableEq, Repr

/-- What leaves the module towards hosts, peers and other modules of the pod; what leaves a port has the tags of its frames. -/
inductive OutMsg where
  | msix (port vec : Nat)
  | dyn (die vc : Nat) (m : Msg) (tags : List Tag)
  | vc0 (die : Nat) (tag : Tag) (f : Frame)
  | vc3 (die : Nat) (m : Vc3) (tag : Tag)
  | spdm (port block : Nat) (digest : BitVec 512)
  | spdmError (port block : Nat)
  | powerOff
  deriving DecidableEq, Repr

/-- The controller pair and the firmware registers (R402-R404). -/
structure Ibrum where
  standby : Bool
  missed : Nat             -- heartbeats missed in a row
  lastBeat : Nat           -- instant of the last heartbeat, or of the last one missed
  active : Nat
  updating : Bool
  staged : Bool
  paused : Bool            -- queues stopped by ACTIVATE
  version : Nat
  status : Nat
  handover : Bool
  measActive : List (BitVec 8)    -- the images as last measured (R403)
  measStandby : List (BitVec 8)
  deriving DecidableEq, Repr

/-- Module flash (R403): the only state a reset keeps. -/
structure Flash where
  image0 : List (BitVec 8)
  image1 : List (BitVec 8)
  ver0 : Nat
  ver1 : Nat
  record : List (BitVec 8)
  minVer : Nat
  startCls : Tab Nat
  alarmPol : Nat
  active : Nat
  thr : Tab Nat            -- emergency thresholds that the configuration record lowers (R400)
  deriving DecidableEq, Repr

/-- The operands of an event: a unit, the numbers of the objects it concerns, a message or a frame (log 7). -/
structure Arg where
  u : UnitId
  n : List Nat
  msg : Option Msg
  frame : Option Frame
  rx : Option RxFrame
  vc3 : Option Vc3 := none
  deriving DecidableEq, Repr

/-- What is due at an instant: an event with its operands, or the issue of an instruction slot. -/
inductive Due where
  | ev (i : Instr) (a : Arg)
  | slot (u : UnitId) (idx : Nat)
  deriving DecidableEq, Repr

/-- An entry of the agenda: instant (1/690 tick of origin TIME), order within it, what is due. -/
structure Agenda where
  at' : Nat
  phase : Nat
  due : Due
  deriving DecidableEq, Repr

/-- No operands. -/
def Arg.none : Arg :=
  { u := { die := 0, core := 0, lead := false, slot := 0 }, n := [], msg := Option.none, frame := Option.none,
    rx := Option.none }

/-- The instruction slot being issued: unit, core cycle, address, position, lanes of the issuing sub-gang. -/
structure Cur where
  u : UnitId
  cycle : Nat
  pc : Nat
  idx : Nat
  hdr : BitVec 64
  quads : BitVec 8
  deriving DecidableEq, Repr

/-- Why the machine stops. -/
inductive Fault where
  /-- A machine instruction was given to `exec` with no unit issuing it. Raised by every meaning of groups 0 to 7;
  safe: the part issues instructions from clauses only (R14). -/
  | noIssuingUnit
  /-- A drain micro-operation was given to `exec` with no drain row in progress. Safe: a drain unit runs them only
  inside a row (R272). -/
  | noDrainRow
  /-- An access reached a byte at or above 64 GiB of an HBM4 stack, which does not exist (Table 0.1). Raised by the step
  after the access; safe: the model stops where the spec says nothing. -/
  | noSuchFrame
  deriving DecidableEq, Repr

/-- Why an instruction has no meaning. -/
inductive Refusal where
  /-- The instruction's arm has no meaning yet. Safe: nothing is claimed of it. -/
  | notModelled (mnemonic : String)
  deriving DecidableEq, Repr

/-- The state of the module. -/
structure State where
  now : Nat
  timeAdj : Nat
  agenda : List Agenda
  cur : Option Cur
  row : Option RowRun
  arg : Arg
  freeCtr : Nat
  nextId : Nat
  halted : Option Fault
  hbm : Mem
  hostMem : Mem
  scratch : Mem
  code : Mem
  hbmKey : Tab Nat
  poison : List Nat
  lines : Tab LineRec
  vreg : Tab (BitVec 32)
  sreg : Tab (BitVec 64)
  preg : Tab Nat
  greg : Tab (BitVec 64)
  pend : List PendW
  units : List ExecUnit
  groups : List Group
  teams : List Team
  kernels : List Kernel
  kernelOrder : Nat
  ops : List Op
  bankUse : List (Nat × Nat)
  claims : List Claim
  cores : List CoreRec
  engines : List Engine
  xlb : List XlEnt
  sds : List ShootDown
  ctxs : Tab Context
  queues : Tab Queue
  dies : List Die
  heldFlags : List HeldFlag
  zones : List Zone
  lays : List Lay
  links : List LinkRec
  gates : List Beat
  peerFaults : List (Nat × Msg)   -- inbound requests parked here (R378): receiving die, message; or, under 16 + die,
                                  -- a copy's writes to a peer that no response has answered, `cause` set when parked there
  chans : List Chan
  mgmtOwner : Nat
  mgmtGen : Nat
  mgmtPort : Nat
  podmask : Nat
  modl : Nat
  podOrigin : Nat
  podStandby : Nat
  originDie : Nat
  errsel : Nat
  uecnt : Nat
  hsel : Nat
  hrepStatus : Nat
  poolcfg : Nat
  pwrStatus : Nat
  plimit : Nat
  pmeas : Nat
  overPower : Bool         -- the last comparison found an excess (R399)
  reductions : List Nat
  nReduce : Nat
  alarmSt : Nat
  alarmPol : Nat
  syncLost : Bool
  slewing : Bool
  syncOff : Int
  syncEpisodes : Nat
  announced : Nat          -- origin TIME of the last message of the pod's time origin (R357)
  overSince : Option Nat   -- since when the input power has exceeded 6,000 W (R401)
  ibrum : Ibrum
  flash : Flash
  powered : Bool
  out : List OutMsg
  deriving DecidableEq, Repr

/-- A context no host has created (Table 15.5 reset column). -/
def Context.reset : Context :=
  { state := .free, partition := 0, det := false, flags := 0, oor := 0, oorCyc := 0, fqbase := 0, fqctl := 0, fqhead := 0,
    fqtail := 0, fqovf := 0, fqfull := false, gdeadline := 0, status := 0, debug := 0, savebase := 0, raf := [], tinva := 0, tinvc := 0,
    tinvBusy := false, ibsel := 0, rgt := [], rgtseq := [], rgtskip := [], keysel := 0, keydata := [], keys := [], tdisp := 0,
    viaTdisp := false, seqno := 0, graceful := false, wasFaulted := false, image := false, swapped := [],
    urgent := none, nextTick := 0 }

/-- A queue after reset (Table 16.2). -/
def Queue.reset : Queue :=
  { en := false, urgok := false, pri := 0, port := 0, size := 0, ctx := 0, vec := 0, base := 0, head := 0, tail := 0,
    stale := 0, done := 0, taken := 0, outst := 0, err := 0, headRec := none, fetching := false, eligibleAt := none,
    launches := [], pend := [], doneRecs := [], blocks := [], behind := false }

/-- A die after reset: class 0, online, its start pulse at local TIME 0 (R407). -/
def Die.reset : Die :=
  { st := 0, cls := 0, reqCls := 0, upc := Config.unitsPerCycle 0, anchor := 0, anchorCyc := 0, past := [], boost := none,
    limit := 2048, vc := List.replicate 16 0, frontier := List.replicate 16 0, markers := [], hold := [],
    rafCopy := [], shadow := none, temp := 0, thr := 105, slotLays := [], claimed := [], changing := false }

/-- A lay slot after reset (Table 18.4). -/
def Lay.reset : Lay :=
  { base := 0, ctl := 0, status := 0, checkCause := 0, cause := 0, state := .empty, lastCause := 0, resyncs := 0, startReg := 0, rst := 0,
    layid := 0, fbid := 0, sben := false, sbmod := 0, modmask := 0, gmod := 0, origin := 0, cls := 0, diemask := 0,
    nperiod := 0, period := 0, kernels := [], slots := [], baseTick := 0, per := 0, shift := 0, faultTick := 0,
    faultPer := 0, accept := 0, noticed := false, stopTick := 0, noteTick := 0, lingers := false, announced := false, ready := [], taken := [],
    demand := [] }

/-- A link or port after reset: a die link keyed by the training of R407, a Wyusk port down (Table 19.7). -/
def LinkRec.reset (die lnk : Nat) : LinkRec :=
  { die := die, lnk := lnk, st := if lnk < 16 then 2 else 0, bad := 0, spareUsed := 0, fails := 0, run := 0, wctl := 0,
    wksel := 0, wkdata := [], wksalt := 0, wktick := 0, status := 0, slots := [], wantSpare := false,
    trained := false, pause := 0, await := [] }

/-- An engine after reset (log 2). -/
def Engine.reset (die q : Nat) : Engine :=
  { die := die, q := q, acc0 := [], acc1 := [], rows := [], checks := [], aborted := [], prog := [], tab := [], drain := none,
    lastDone := 0, resv := none }

/-- Module flash of a module whose images are not known to the model (log 4). -/
def Flash.reset : Flash :=
  { image0 := [], image1 := [], ver0 := 0, ver1 := 0, record := [], minVer := 0, startCls := [], alarmPol := 0,
    active := 0, thr := [] }

/-- The controller pair after reset (R402, R404): FWST[48] is 0 until the standby is up (Table 21.1). -/
def Ibrum.reset (f : Flash) : Ibrum :=
  { standby := false, missed := 0, lastBeat := 0, active := f.active, updating := false, staged := false, paused := false,
    version := if f.active = 0 then f.ver0 else f.ver1, status := 0, handover := false,
    measActive := if f.active = 0 then f.image0 else f.image1, measStandby := if f.active = 0 then f.image1 else f.image0 }

/-- The module once the bring-up of R407 has ended, with the given flash. -/
def State.boot (f : Flash) : State :=
  { now := 0, timeAdj := 0
    agenda := [{ at' := 2100000 * Config.unitsPerTick, phase := 20, due := .ev .powerCheck Arg.none }], cur := none, row := none, arg := Arg.none, freeCtr := 0, nextId := 1, halted := none,
    hbm := [], hostMem := [], scratch := [], code := [], hbmKey := [], poison := [], lines := [],
    vreg := [], sreg := [], preg := [], greg := [], pend := [], units := [], groups := [], teams := [], kernels := [],
    kernelOrder := 0, ops := [], bankUse := [], claims := [], cores := [], engines := [], xlb := [], sds := [], ctxs := [],
    queues := [], dies := (List.range 16).map fun d => { Die.reset with thr := min 105 ((f.thr.lookup d).getD 105) }, heldFlags := [], zones := [],
    lays := List.replicate 4 Lay.reset, links := [], gates := [], peerFaults := [], chans := [], mgmtOwner := 0, mgmtGen := 0,
    mgmtPort := 0, podmask := 0, modl := 0, podOrigin := 0, podStandby := 0, originDie := 0, errsel := 0, uecnt := 0,
    hsel := 0, hrepStatus := 0, poolcfg := 0, pwrStatus := 0, plimit := 5500, pmeas := 0, overPower := false, reductions := [],
    nReduce := 0, alarmSt := 0, alarmPol := f.alarmPol, syncLost := false, slewing := false, syncOff := 0,
    syncEpisodes := 0, announced := 0, overSince := none, ibrum := Ibrum.reset f, flash := f, powered := true, out := [] }

/-- The machine right after reset (R407). -/
def State.reset : State := State.boot Flash.reset

end Sys2Proof.Machine
end

