-- ==== Sys2Proof/Machine/Ops.lean ====
section
/-! DEFINITION. Named operations over the state: sparse tables, byte memory, time and the agenda, registers with exposed
writes (R54-R57), K counters and barriers as folds of their changes (R162-R173), sticky flags (R97, R323), units and
groups, and taking and leaving a trap (R310-R314). -/

namespace Sys2Proof

/-- A unit's order among the units of its core: warp slots 0-3, then lead windows 0-3 (R163, R197). -/
def UnitId.rank (u : UnitId) : Nat := (if u.lead then 4 else 0) + u.slot

end Sys2Proof

namespace Sys2Proof.Machine

/-- An event with the numbers of the objects it concerns. -/
def ev (i : Instr) (n : List Nat) : Due := .ev i { Arg.none with n := n }

/-- An event of a unit. -/
def evU (i : Instr) (u : UnitId) (n : List Nat) : Due := .ev i { Arg.none with u := u, n := n }

/-- Number `i` of an event's operands. -/
def State.num (s : State) (i : Nat) : Nat := s.arg.n.getD i 0

/-! ### Lists in order -/

/-- Insert before the first element that `x` goes before. -/
def insertBy {α : Type} (before : α → α → Bool) (x : α) : List α → List α
  | [] => [x]
  | y :: ys => if before x y then x :: y :: ys else y :: insertBy before x ys

/-- A list put in order; elements that tie keep their places. -/
def sortBy {α : Type} (before : α → α → Bool) (xs : List α) : List α := xs.foldr (insertBy before) []

/-! ### Tables and byte memory -/

/-- Read a table; an unlisted key reads as `d`. -/
def Tab.get {β : Type} (d : β) : Tab β → Nat → β
  | [], _ => d
  | (k, v) :: t, i => if i = k then v else Tab.get d t i

/-- Look a key up. -/
def Tab.get? {β : Type} : Tab β → Nat → Option β
  | [], _ => none
  | (k, v) :: t, i => if i = k then some v else Tab.get? t i

/-- Write a key, keeping keys rising. -/
def Tab.put {β : Type} : Tab β → Nat → β → Tab β
  | [], i, v => [(i, v)]
  | (k, w) :: t, i, v =>
    if i < k then (i, v) :: (k, w) :: t else if i = k then (i, v) :: t else (k, w) :: Tab.put t i v

/-- Forget a key. -/
def Tab.del {β : Type} : Tab β → Nat → Tab β
  | [], _ => []
  | (k, w) :: t, i => if i = k then t else (k, w) :: Tab.del t i

/-- Move the `n` keys from `lo` on to those from `dest` on. -/
def Tab.moveRange {β : Type} (t : Tab β) (lo n dest : Nat) : Tab β :=
  (t.filter fun e => lo ≤ e.1 && e.1 < lo + n).foldl (fun t e => t.put (dest + (e.1 - lo)) e.2)
    (t.filter fun e => e.1 < lo || lo + n ≤ e.1)

/-- Forget every key of [lo, hi). -/
def Tab.delRange {β : Type} (t : Tab β) (lo hi : Nat) : Tab β := t.filter fun e => e.1 < lo || hi ≤ e.1

/-- Read a byte; an unlisted address reads 0 (R175; log 3). -/
def Mem.read : Mem → Nat → Byte
  | [], _ => 0
  | (a, b) :: m, i => if i = a then b else Mem.read m i

/-- Write a byte, keeping the canonical form: addresses rising, no zero byte listed. -/
def Mem.write : Mem → Nat → Byte → Mem
  | [], i, v => if v = 0 then [] else [(i, v)]
  | (a, b) :: m, i, v =>
    if i < a then (if v = 0 then (a, b) :: m else (i, v) :: (a, b) :: m)
    else if i = a then (if v = 0 then m else (i, v) :: m)
    else (a, b) :: Mem.write m i v

/-- Every listed address is above `lo` and the list is canonical. -/
def Mem.wfFrom : Nat → Mem → Bool
  | _, [] => true
  | lo, (a, b) :: m => decide (lo ≤ a) && b != 0 && Mem.wfFrom (a + 1) m

/-- The canonical form of a byte memory. -/
def Mem.wf (m : Mem) : Bool := Mem.wfFrom 0 m

/-- Write bytes at rising addresses. -/
def Mem.writeBytes : Mem → Nat → List Byte → Mem
  | m, _, [] => m
  | m, a, b :: bs => Mem.writeBytes (Mem.write m a b) (a + 1) bs

/-- Read `n` bytes as a little-endian number (R4). -/
def Mem.readN (m : Mem) (a : Nat) : Nat → Nat
  | 0 => 0
  | n + 1 => (Mem.read m a).toNat + 256 * Mem.readN m (a + 1) n

/-- Write the low `n` bytes of a number, little-endian (R4). -/
def Mem.writeN (m : Mem) (a : Nat) (v : Nat) (n : Nat) : Mem := m.writeBytes a (leBytes n v)

/-- Clear the bytes of [lo, hi) (R175). -/
def Mem.clear (m : Mem) (lo hi : Nat) : Mem := m.filter fun e => e.1 < lo || hi ≤ e.1

/-! ### Places, time and the agenda -/

/-- Mesh distance of a core to core 0 of its die, in ticks (R10, R19). -/
def meshTicks (core : Nat) : Nat := 2 * (core % 16 + core / 16)

/-- Quartet of a core (R10). -/
def quartetOf (core : Nat) : Nat := 8 * (core / 16 / 2) + core % 16 / 2

/-- Lowest core of a quartet (R10). -/
def quartetCore (q : Nat) : Nat := 32 * (q / 8) + 2 * (q % 8)

/-- The cores of a quartet in ascending number (R10). -/
def quartetCores (q : Nat) : List Nat :=
  let c := quartetCore q
  [c, c + 1, c + 16, c + 17]

/-- Mesh distance between two cores (R190). -/
def meshHops (a b : Nat) : Nat :=
  (max (a % 16) (b % 16) - min (a % 16) (b % 16)) + (max (a / 16) (b / 16) - min (a / 16) (b / 16))

/-- Path distance of a core in ticks (R19). -/
def coreDist (s : State) (die core : Nat) : Nat := (if die = s.originDie then 0 else 40) + meshTicks core

/-- A die's record. -/
def State.die (s : State) (d : Nat) : Die := s.dies.getD d Die.reset

/-- Change a die's record. -/
def State.modDie (s : State) (d : Nat) (f : Die → Die) : State :=
  { s with dies := s.dies.mapIdx fun i x => if i = d then f x else x }

/-- The cycle of an earlier clock at local time `t`, below the cycle `c` at which a later clock took over. -/
def pastCycle (t : Nat) : Nat → List (Nat × Nat × Nat) → Nat
  | c, [] => c
  | c, (a, n, u) :: ps => if a ≤ t then min (n + (t - a) / u) (c - 1) else pastCycle t n ps

/-- The local time at which a cycle of an earlier clock begins. -/
def pastStart (c : Nat) : Nat → List (Nat × Nat × Nat) → Nat
  | a, [] => a
  | _, (a, n, u) :: ps => if n ≤ c then a + (c - n) * u else pastStart c a ps

/-- The cycle in progress at a local time of a die, in model units (R13, R398). -/
def Die.cycleLocal (x : Die) (t : Nat) : Nat :=
  if x.anchor ≤ t then x.anchorCyc + (t - x.anchor) / x.upc else pastCycle t x.anchorCyc x.past

/-- The local time at which a cycle of a die begins, in model units (R13, R398). -/
def Die.cycleStart (x : Die) (c : Nat) : Nat :=
  if x.anchorCyc ≤ c then x.anchor + (c - x.anchorCyc) * x.upc else pastStart c x.anchor x.past

/-- The first cycle of a die that begins at or after a local time, in model units. -/
def Die.cycleFrom (x : Die) (t : Nat) : Nat :=
  let c := x.cycleLocal t
  if t ≤ x.cycleStart c then c else c + 1

/-- Cycle count of a core at an instant (R13). -/
def cycleAt (s : State) (die core now : Nat) : Nat :=
  (s.die die).cycleLocal (now - Config.unitsPerTick * coreDist s die core)

/-- The instant at which a core's cycle begins (R13). -/
def instantOf (s : State) (die core cyc : Nat) : Nat :=
  (s.die die).cycleStart cyc + Config.unitsPerTick * coreDist s die core

/-- Local TIME of a core at an instant, 64 bits (R18, R20). -/
def localTime (s : State) (die core now : Nat) : Nat :=
  (now / Config.unitsPerTick + s.timeAdj + 2 ^ 64 - coreDist s die core) % 2 ^ 64

/-- Origin TIME now (R18). -/
def originTime (s : State) : Nat := (s.now / Config.unitsPerTick + s.timeAdj) % 2 ^ 64

/-- The instant at which origin TIME reads `t` next, or now if it has passed (R18). -/
def instantOfTick (s : State) (t : Nat) : Nat := max s.now ((t - s.timeAdj) * Config.unitsPerTick)

/-- The instant of a local tick of a core (R18). -/
def instantOfLocal (s : State) (die core t : Nat) : Nat := instantOfTick s (t + coreDist s die core)

/-- Put an entry into the agenda behind everything due before it and everything due with it. -/
def insertAgenda (e : Agenda) : List Agenda → List Agenda
  | [] => [e]
  | x :: xs =>
    if e.at' < x.at' ∨ (e.at' = x.at' ∧ e.phase < x.phase) then e :: x :: xs else x :: insertAgenda e xs

/-- Schedule at an instant; phases order one instant: 0 what completes or starts in the cycle, 1 landings, 2 fetches, 3 to 8 the
secondary ports in the order of R183 (drain units, copy channels 0 to 3, team accesses), 9 windows and issues, 10 and on the
entries that leave the stopper, by the rank of their unit (R197), 18 passes that complete, 20 what else happens, 30 the
grants of engines. -/
def State.sched (s : State) (at' phase : Nat) (d : Due) : State :=
  { s with agenda := insertAgenda { at' := at', phase := phase, due := d } s.agenda }

/-- Schedule an event at an instant unless the same event is already due then. -/
def State.schedEv (s : State) (at' phase : Nat) (i : Due) : State :=
  { s with agenda := if s.agenda.any (fun a => a.at' == at' && a.due == i) then s.agenda
                     else insertAgenda { at' := at', phase := phase, due := i } s.agenda }

/-- Schedule an event at a core's cycle. -/
def State.schedCyc (s : State) (die core cyc phase : Nat) (i : Due) : State :=
  s.schedEv (max s.now (instantOf s die core cyc)) phase i

/-- Schedule an event a number of ticks from now. -/
def State.schedIn (s : State) (ticks phase : Nat) (i : Due) : State :=
  s.schedEv (s.now + ticks * Config.unitsPerTick) phase i

/-- The current cycle of a core. -/
def State.cyc (s : State) (die core : Nat) : Nat := cycleAt s die core s.now

/-- The current cycle of a unit's core. -/
def State.ucyc (s : State) (u : UnitId) : Nat := s.cyc u.die u.core

/-- Does a cycle of a core begin now? Its secondary port serves at these instants only (R183). -/
def State.atStart (s : State) (die core : Nat) : Bool := instantOf s die core (s.cyc die core) == s.now

/-- The instant at which the next cycle of a core begins. -/
def State.nextStart (s : State) (die core : Nat) : Nat := instantOf s die core (s.cyc die core + 1)

/-- Use one free number: a completion time that is not published, at least 1 (R218; log 5). -/
def State.freeDelay (s : State) : Nat × State :=
  (Config.freeNat s.freeCtr + 1, { s with freeCtr := s.freeCtr + 1 })

/-- Schedule an event after an unpublished number of ticks. -/
def State.schedFree (s : State) (phase : Nat) (i : Due) : State :=
  let r := s.freeDelay
  r.2.schedIn r.1 phase i

/-- A fresh object number. -/
def State.fresh (s : State) : Nat × State := (s.nextId, { s with nextId := s.nextId + 1 })

/-- Send a message out of the module. -/
def State.send (s : State) (m : OutMsg) : State := { s with out := s.out ++ [m] }

/-! ### Records by number -/

/-- A unit by its identity. -/
def State.unit? (s : State) (u : UnitId) : Option ExecUnit := s.units.find? fun x => x.id = u

/-- Change a unit. -/
def State.modUnit (s : State) (u : UnitId) (f : ExecUnit → ExecUnit) : State :=
  { s with units := s.units.map fun x => if x.id = u then f x else x }

/-- A group by number. -/
def State.group? (s : State) (g : Nat) : Option Group := s.groups.find? fun x => x.gid = g

/-- Change a group. -/
def State.modGroup (s : State) (g : Nat) (f : Group → Group) : State :=
  { s with groups := s.groups.map fun x => if x.gid = g then f x else x }

/-- A team by number. -/
def State.team? (s : State) (t : Nat) : Option Team := s.teams.find? fun x => x.tid = t

/-- Change a team. -/
def State.modTeam (s : State) (t : Nat) (f : Team → Team) : State :=
  { s with teams := s.teams.map fun x => if x.tid = t then f x else x }

/-- A kernel by number. -/
def State.kernel? (s : State) (k : Nat) : Option Kernel := s.kernels.find? fun x => x.kid = k

/-- Change a kernel. -/
def State.modKernel (s : State) (k : Nat) (f : Kernel → Kernel) : State :=
  { s with kernels := s.kernels.map fun x => if x.kid = k then f x else x }

/-- An operation by number. -/
def State.op? (s : State) (o : Nat) : Option Op := s.ops.find? fun x => x.id = o

/-- Change an operation. -/
def State.modOp (s : State) (o : Nat) (f : Op → Op) : State :=
  { s with ops := s.ops.map fun x => if x.id = o then f x else x }

/-- Add an operation behind every earlier one. -/
def State.addOp (s : State) (o : Op) : State := { s with ops := s.ops ++ [o] }

/-- A context by number. -/
def State.ctx (s : State) (c : Nat) : Context := s.ctxs.get Context.reset c

/-- Change a context. -/
def State.modCtx (s : State) (c : Nat) (f : Context → Context) : State :=
  { s with ctxs := s.ctxs.put c (f (s.ctx c)) }

/-- A queue by number. -/
def State.queue (s : State) (q : Nat) : Queue := s.queues.get Queue.reset q

/-- Change a queue. -/
def State.modQueue (s : State) (q : Nat) (f : Queue → Queue) : State :=
  { s with queues := s.queues.put q (f (s.queue q)) }

/-- A lay slot. -/
def State.lay (s : State) (l : Nat) : Lay := s.lays.getD l Lay.reset

/-- Change a lay slot. -/
def State.modLay (s : State) (l : Nat) (f : Lay → Lay) : State :=
  { s with lays := s.lays.mapIdx fun i x => if i = l then f x else x }

/-- A core's record (R151, R230). -/
def State.core (s : State) (die core : Nat) : CoreRec :=
  (s.cores.find? fun x => x.die = die && x.core = core).getD
    { die := die, core := core, marker := 0, nextWin := 0, ib := [], wptr := [0, 0, 0, 0], fresh := [], wsh := [0, 0, 0, 0],
      leadLast := 0 }

/-- Entry `i` of a list of counts, changed by `f` for the channels `chs`. -/
def onChannels (chs : List Nat) (xs : List Nat) (f : Nat → Nat → Nat) : List Nat :=
  xs.mapIdx fun i x => if chs.contains i then f i x else x

/-- Change a core's record. -/
def State.modCore (s : State) (die core : Nat) (f : CoreRec → CoreRec) : State :=
  { s with cores := f (s.core die core) :: s.cores.filter fun x => !(x.die = die && x.core = core) }

/-- An engine. -/
def State.engine (s : State) (die q : Nat) : Engine :=
  (s.engines.find? fun x => x.die = die && x.q = q).getD (Engine.reset die q)

/-- Change an engine. -/
def State.modEngine (s : State) (die q : Nat) (f : Engine → Engine) : State :=
  { s with engines := f (s.engine die q) :: s.engines.filter fun x => !(x.die = die && x.q = q) }

/-- A strike zone. -/
def State.zone (s : State) (z : Nat) : Zone :=
  (s.zones.find? fun x => x.zone = z).getD
    { zone := z, rolling := false, cut := 0, fin := 0, zcnt := 0, zlast := 0, heldCut := none }

/-- Change a zone. -/
def State.modZone (s : State) (z : Nat) (f : Zone → Zone) : State :=
  { s with zones := f (s.zone z) :: s.zones.filter fun x => x.zone ≠ z }

/-- A die link (0-15) or Wyusk port (16). -/
def State.link (s : State) (die lnk : Nat) : LinkRec :=
  (s.links.find? fun x => x.die = die && x.lnk = lnk).getD (LinkRec.reset die lnk)

/-- Change a link. -/
def State.modLink (s : State) (die lnk : Nat) (f : LinkRec → LinkRec) : State :=
  { s with links := f (s.link die lnk) :: s.links.filter fun x => !(x.die = die && x.lnk = lnk) }

/-- Do dynamic messages between two dies wait: their link is not keyed, or pauses for a lane spare (Table 19.7, R375)? `b` is a home
code: only dies are reached over a die link. What is sent to an offlined die faults and waits for nothing (R401). -/
def linkHolds (s : State) (a b : Nat) : Bool :=
  b < 16 && a != b && (s.die b).st != 2 && ((s.link a b).st != 2 || s.now < (s.link a b).pause)

/-- An HBM4 channel; two spare lanes at reset (R394). -/
def State.chan (s : State) (die c : Nat) : Chan :=
  (s.chans.find? fun x => x.die = die && x.chan = c).getD
    { die := die, chan := c, spare := 2, pins := [], want := none }

/-- Change an HBM4 channel. -/
def State.modChan (s : State) (die c : Nat) (f : Chan → Chan) : State :=
  { s with chans := f (s.chan die c) :: s.chans.filter fun x => !(x.die = die && x.chan = c) }

/-- Do dynamic accesses to `n` bytes at `a` of a die's stack wait: a lane repair pauses the channel that serves a line of them (R394; log
136)? -/
def chanPaused (s : State) (die a n : Nat) : Bool :=
  s.chans.any fun c => c.die == die && s.now < c.pause &&
    (Config.channelOf die (a / 64) % 32 == c.chan || Config.channelOf die ((a + n - 1) / 64) % 32 == c.chan)

/-- The pin of a channel with the most corrected errors, the lowest on a tie, and their number (Table 20.4; log 156). -/
def Chan.worstPin (c : Chan) : Nat × Nat :=
  c.pins.foldl (fun b p => if b.2 < p.2 ∨ (b.2 = p.2 ∧ p.1 < b.1) then p else b) (c.pins.headD (0, 0))

/-- Entries of the decision queue appended at or before cycle `c` and not popped (R137, R138). -/
def ExecUnit.dqn (x : ExecUnit) (c : Nat) : Nat :=
  (x.dq.filter fun e => e.2.1 ≤ c && x.pp ≤ e.1).length

/-- The group of a unit. -/
def State.groupOf (s : State) (u : UnitId) : Option Group := (s.unit? u).bind fun x => s.group? x.gid

/-- The kernel of a group. -/
def State.kernelOf (s : State) (g : Group) : Option Kernel := s.kernel? g.kid

/-- The units of a group. -/
def State.unitsOf (s : State) (gid : Nat) : List ExecUnit := s.units.filter fun x => x.gid = gid

/-- The lead stream of a group is the unit whose slot is the group's lowest (R136). -/
def leadId (g : Group) : UnitId := { die := g.die, core := g.core, lead := true, slot := g.slots.headD 0, sh := g.state == .frozen }

/-- Warp n of a group (R150). -/
def warpId (g : Group) (n : Nat) : UnitId := { die := g.die, core := g.core, lead := false, slot := g.slots.getD n 0, sh := g.state == .frozen }

/-- The zone of a core (R11). -/
def zoneOf (die core : Nat) : Nat := 64 * die + quartetOf core

/-! ### Registers (R52-R57) -/

/-- Where the registers of a unit in the shadow store are kept (R315). -/
def shKey (u : UnitId) : Nat := if u.sh then 2 ^ 40 else 0
/-- The place of a V register lane in the file. -/
def vKey (u : UnitId) (r l : Nat) : Nat := shKey u + (((u.die * 256 + u.core) * 4 + u.slot) * 128 + r) * 32 + l
/-- The place of an S register. -/
def sKey (u : UnitId) (r : Nat) : Nat := shKey u + ((u.die * 256 + u.core) * 4 + u.slot) * 32 + r
/-- The place of a predicate bit: lead streams have their own. -/
def pKey (u : UnitId) (r l : Nat) : Nat := shKey u + (((u.die * 256 + u.core) * 8 + u.rank) * 8 + r) * 32 + l
/-- The place of a G register. -/
def gKey (u : UnitId) (r : Nat) : Nat := shKey u + ((u.die * 256 + u.core) * 4 + u.slot) * 64 + r

/-- Read a V register lane. -/
def State.v (s : State) (u : UnitId) (r l : Nat) : Word32 := s.vreg.get 0 (vKey u r l)
/-- Read an S register. -/
def State.sr (s : State) (u : UnitId) (r : Nat) : Word64 := s.sreg.get 0 (sKey u r)
/-- Read a G register. -/
def State.gr (s : State) (u : UnitId) (r : Nat) : Word64 := s.greg.get 0 (gKey u r)
/-- Read a predicate: P0 reads 1 (R38, R40). -/
def State.p (s : State) (u : UnitId) (r l : Nat) : Bool := r == 0 || s.preg.get 0 (pKey u r l) != 0

/-! ### Marks of uncorrectable words outside the memories (R53, R392) -/

/-- The mark of an uncorrectable word: kind 0 V, 1 S, 2 G, 3 P, 4 accumulator tile, 5 drain program, 6 drain table, 7 stopper
entry, 8 shadow image of a group, 9 held translation; `n` is its place in the array. -/
def poisonArr (kind n : Nat) : Nat := 2 * (2 ^ 90 + kind * 2 ^ 50 + n) + 1

/-- Is one of the `n` words from place `lo` of an array marked? -/
def State.arrPoisoned (s : State) (kind lo n : Nat) : Bool :=
  s.poison.any fun p => poisonArr kind lo ≤ p && p < poisonArr kind (lo + n)

/-- Whole words that are written lose their marks (R392). -/
def State.healArr (s : State) (kind lo n : Nat) : State :=
  { s with poison := s.poison.filter fun p => !(poisonArr kind lo ≤ p && p < poisonArr kind (lo + n)) }

/-- Marks move with the words of an array. -/
def State.moveMarks (s : State) (kind lo n dest : Nat) : State :=
  { s with poison := s.poison.map fun p =>
      if poisonArr kind lo ≤ p && p < poisonArr kind (lo + n) then p - poisonArr kind lo + poisonArr kind dest else p }

/-- Place of an element of a tile, of a word of drain memory and of an entry of the drain table. -/
def tilePlace (die q t e : Nat) : Nat := ((die * 64 + q) * 2 + t) * 16384 + e
/-- See `tilePlace`. -/
def progPlace (die q w : Nat) : Nat := (die * 64 + q) * 1024 + w
/-- See `tilePlace`. -/
def tabPlace (die q e : Nat) : Nat := (die * 64 + q) * 256 + e

/-- Place of a held translation (R293). -/
def xlPlace (die core idx : Nat) : Nat := (die * 256 + core) * 512 + idx

/-- Write a landed value into its file; a write to P0 is discarded (R40). -/
def State.landValue (s : State) (w : PendW) : State :=
  match w.file with
  | .v => { s.healArr 0 (vKey w.u w.reg w.lane) 1 with vreg := s.vreg.put (vKey w.u w.reg w.lane) (w.val.setWidth 32) }
  | .s => { s.healArr 1 (sKey w.u w.reg) 1 with sreg := s.sreg.put (sKey w.u w.reg) w.val }
  | .g => { s.healArr 2 (gKey w.u w.reg) 1 with greg := s.greg.put (gKey w.u w.reg) w.val }
  | .p => if w.reg = 0 then s
    else { s.healArr 3 (pKey w.u w.reg w.lane) 1 with preg := s.preg.put (pKey w.u w.reg w.lane) (w.val.toNat % 2) }
  | .flags =>
    match s.groupOf w.u with
    | none => s
    | some g =>
      let q := quartetOf w.u.core
      let s : State := { s with heldFlags := s.heldFlags ++
        [{ die := w.u.die, q := q, core := w.u.core, ctx := g.ctx, cycle := w.land, flags := w.val.toNat, oor := 0 }] }
      s.schedCyc w.u.die w.u.core (w.land + Config.hold) 20 (ev .flagReachContext [w.u.die, q])

/-- Order of landing: by landing cycle, then by issue cycle, so the later-issued value is kept (R55). -/
def insertPend (w : PendW) : List PendW → List PendW
  | [] => [w]
  | x :: xs => if w.land < x.land ∨ (w.land = x.land ∧ w.issue < x.issue) then w :: x :: xs else x :: insertPend w xs

/-- Land(reg, value, cycle): add a pending write and schedule its landing (R54, Table 0.3). -/
def State.land (s : State) (w : PendW) : State :=
  State.schedCyc { s with pend := insertPend w s.pend } w.u.die w.u.core w.land 1 (evU .registerLand w.u [])

/-- Land every write of a unit that is due at cycle `c` (Table 3.3). -/
def State.landDue (s : State) (u : UnitId) (c : Nat) : State :=
  let due := s.pend.filter fun w => w.u = u && w.land ≤ c
  due.foldl State.landValue { s with pend := s.pend.filter fun w => !(w.u = u && w.land ≤ c) }

/-- Raise sticky flags when results land at cycle `c` (R97). -/
def State.raise (s : State) (u : UnitId) (fl c issue : Nat) : State :=
  if fl = 0 then s
  else s.land { u := u, file := .flags, reg := 0, lane := 0, val := BitVec.ofNat 64 fl, land := c, issue := issue, op := 0 }

/-- Clear the registers of a unit: their values at group start (Table 3.1). -/
def State.clearRegs (s : State) (u : UnitId) : State :=
  let h := if u.lead then s.healArr 2 (gKey u 0) 64 else (s.healArr 0 (vKey u 0 0) 4096).healArr 1 (sKey u 0) 32
  { h.healArr 3 (pKey u 0 0) 256 with
    vreg := if u.lead then s.vreg else s.vreg.delRange (vKey u 0 0) (vKey u 128 0)
    sreg := if u.lead then s.sreg else s.sreg.delRange (sKey u 0) (sKey u 32)
    greg := if u.lead then s.greg.delRange (gKey u 0) (gKey u 64) else s.greg
    preg := s.preg.delRange (pKey u 0 0) (pKey u 8 0)
    pend := s.pend.filter fun w => w.u ≠ u }

/-! ### K counters (R170) -/

/-- The value of a K counter (Table 8.4). -/
structure KVal where
  v : Nat
  ovf : Bool
  unf : Bool
  deriving DecidableEq, Repr

/-- The changes of one cycle: a KSET first, then every increment and decrement, then the clamp. DESIGN CHOICE: of several
KSETs of one counter in one cycle the one issued first in the model's order of units holds; R170 does not say (log 109). -/
def kApply (x : KVal) (cs : List KChange) : KVal :=
  let x := (cs.filterMap fun c => c.set).foldl (fun _ n => { v := n, ovf := false, unf := false }) x
  let t : Int := (x.v : Int) + (cs.map fun c => c.delta).foldl (· + ·) 0
  if t < 0 then { x with v := 0, unf := true }
  else if t > 65535 then { x with v := 65535, ovf := true }
  else { x with v := t.toNat }

/-- Fold the changes of one counter, already in cycle order, gathering those of one cycle. -/
def kFold : KVal → List KChange → List KChange → KVal
  | x, acc, [] => kApply x acc
  | x, acc, c :: cs =>
    match acc with
    | [] => kFold x [c] cs
    | a :: _ => if a.cyc = c.cyc then kFold x (c :: acc) cs else kFold (kApply x acc) [c] cs

/-- The value a read or a test at cycle `c` sees: every change applied before it (R26, R171). -/
def kValue (g : Group) (k c : Nat) : KVal :=
  kFold { v := 0, ovf := false, unf := false } [] (g.kLog.filter fun x => x.k = k && x.cyc < c)

/-- Table 8.4 as a word. -/
def KVal.word (x : KVal) : Nat := x.v + (if x.ovf then 65536 else 0) + (if x.unf then 131072 else 0)

/-- Insert a change behind every change of its cycle. -/
def insertK (c : KChange) : List KChange → List KChange
  | [] => [c]
  | x :: xs => if c.cyc < x.cyc then c :: x :: xs else x :: insertK c xs

/-- Change a counter of a group at a cycle. -/
def State.kChange (s : State) (gid : Nat) (c : KChange) : State :=
  s.modGroup gid fun g => { g with kLog := insertK c g.kLog }

/-- A counted operation's increment or decrement (R170). -/
def State.kAdd (s : State) (u : UnitId) (k : Nat) (d : Int) (cyc : Nat) : State :=
  match s.unit? u with
  | none => s
  | some x => s.kChange x.gid { cyc := cyc, k := k, set := none, delta := d, u := u, issue := cyc, instr := false }

/-! ### Barriers (R162-R169) -/

/-- The state of a barrier (R162); `mode` is 0 idle, 1 LOCAL, 2 TEAM, 3 error-phase. -/
structure BState where
  mode : Nat
  expect : Nat
  arrived : Nat
  phases : Nat
  err : Nat
  tidx : Nat
  team : Bool             -- TEAM mode, which the error phase keeps
  doneAt : Option Nat
  targets : Tab Nat       -- wait targets by unit rank (R164)
  deriving DecidableEq, Repr

/-- A barrier at group start (R162). -/
def BState.start : BState :=
  { mode := 0, expect := 0, arrived := 0, phases := 0, err := 0, tidx := 0, team := false, doneAt := none, targets := [] }

/-- Enter the error phase with the first code received (Table 8.3). -/
def BState.fail (b : BState) (code : Nat) : BState := if b.mode = 3 then b else { b with mode := 3, err := code }

/-- BARINIT from idle (Table 8.3). -/
def BState.initIdle (b : BState) (n : Nat) : BState :=
  if n = 0 then { b with mode := 0, expect := 0, arrived := 0, tidx := 0, team := false }
  else { b with mode := 1, expect := n, arrived := 0, tidx := 0, team := false }

/-- BARINIT in any state (Table 8.3): `f` is what it does from idle. -/
def BState.reinit (b : BState) (f : BState → BState) : BState :=
  if b.mode = 3 then f { b with mode := 0, phases := (b.phases + 1) % 65536, err := 0, arrived := 0 }
  else if b.mode ≠ 0 ∧ b.arrived ≠ 0 then b.fail 9
  else f b

/-- An arrival of count `n`, from a unit or a bound operation (Table 8.3); `tgt` is the rank whose wait target it sets. -/
def BState.arrive (b : BState) (n cyc : Nat) (tgt : Option Nat) : BState :=
  if b.mode = 3 then b
  else if b.mode = 1 then
    let t := b.arrived + n
    let q := t / b.expect
    if q = 0 then
      let b := { b with arrived := t }
      match tgt with
      | none => b
      | some r => { b with targets := b.targets.put r ((b.phases + 1) % 65536) }
    else
      let b := { b with phases := (b.phases + q) % 65536, arrived := t - q * b.expect, doneAt := some cyc }
      match tgt with
      | none => b
      | some r => { b with targets := b.targets.put r b.phases }
  else b.fail 8

/-- One change of a barrier (Table 8.3, R164, R169). -/
def BState.apply (b : BState) (c : BChange) : BState :=
  match c.ev with
  | .init n => b.reinit fun b => b.initIdle n
  | .initTeam j => b.reinit fun b => { b with mode := 2, expect := 0, arrived := 0, tidx := j, team := true }
  | .arrive n => b.arrive n c.cyc (some c.u.rank)
  | .post => b.arrive 0 c.cyc (some c.u.rank)
  | .bound => b.arrive 1 c.cyc none
  | .fault code => b.fail code
  | .teamDone j =>
    if b.mode = 2 ∧ b.tidx = j then { b with phases := (b.phases + 1) % 65536, doneAt := some c.cyc } else b
  | .teamErr j code => if b.mode = 2 ∧ b.tidx = j then b.fail code else b
  | .tbarTest => if b.mode = 2 then b else b.fail 8
  | .tbarTarget j =>
    if b.mode = 2 ∧ b.tidx = j then { b with targets := b.targets.put c.u.rank ((b.phases + 1) % 65536) } else b

/-- The state of a barrier that a read or a test at cycle `c` sees (R26, R171). -/
def bValue (g : Group) (bar c : Nat) : BState :=
  (g.bLog.filter fun x => x.bar = bar && x.cyc < c).foldl BState.apply BState.start

/-- Insert a change behind every change of its cycle and of its or a lower rank (R163). DESIGN CHOICE: R163 orders arrivals; a
BARINIT and the test of a TBAR take the place of their unit among them, and what reaches the group from its team barrier comes
last (log 110). -/
def insertB (c : BChange) : List BChange → List BChange
  | [] => [c]
  | x :: xs => if c.cyc < x.cyc ∨ (c.cyc = x.cyc ∧ c.rank < x.rank) then c :: x :: xs else x :: insertB c xs

/-- Change a barrier of a group. -/
def State.bChange (s : State) (gid : Nat) (c : BChange) : State :=
  s.modGroup gid fun g => { g with bLog := insertB c g.bLog }

/-- The state of a barrier that a change of cycle `c` by the unit of rank `r` finds (R163, R169). -/
def bBefore (g : Group) (bar c r : Nat) : BState :=
  (g.bLog.filter fun x => x.bar = bar && (x.cyc < c || (x.cyc = c && x.rank < r))).foldl BState.apply BState.start

/-- A change made by an operation of a unit, not by a barrier instruction: a posting and a TBAR's test in the place of the
unit, what completes behind every unit (R163). -/
def State.bEvent (s : State) (u : UnitId) (bar : Option Nat) (ev : BEv) (cyc : Nat) : State :=
  match bar, s.unit? u with
  | some b, some x =>
    s.bChange x.gid { cyc := cyc, rank := (match ev with | .post | .tbarTest => u.rank | _ => 8), bar := b, ev := ev, u := u,
                      issue := cyc, instr := false }
  | _, _ => s

/-- The barrier status word (Table 8.1) as read at cycle `c`. -/
def BState.word (b : BState) (c : Nat) : Nat :=
  let st := match b.mode with
    | 0 => 0
    | 3 => 3
    | _ => if b.doneAt = some (c - 1) ∧ 0 < c then 2 else 1
  (if b.mode = 3 then b.err else 0) * 2 ^ 56 + b.tidx * 2 ^ 52 + (if b.team then 1 else 0) * 2 ^ 51 +
    st * 2 ^ 48 + b.phases * 2 ^ 32 + b.expect * 2 ^ 16 + b.arrived % 65536

/-- R26's barrier test for the unit of rank `r` (R164). -/
def BState.passed (b : BState) (r : Nat) : Bool :=
  match b.targets.get? r with
  | none => true
  | some t => b.mode == 3 || (b.phases + 65536 - t) % 65536 < 32768

/-! ### Memories with keys and poison (R292, R308, R392) -/

/-- The tag of the key that an id of a context names: 1 for no encryption, else the key material plus 2. -/
def keyTag (s : State) (ctx id : Nat) : Nat :=
  if id = 0 then 1 else ((s.ctx ctx).keys.get 0 id) + 2

/-- The word number under which HBM4 poison is kept. -/
def poisonHbm (a : Nat) : Nat := 2 * (a / 8)
/-- The word number under which scratch poison is kept. -/
def poisonScr (a : Nat) : Nat := 2 * (a / 8) + 1

/-- Global place of a stack byte. -/
def hbmAddr (die a : Nat) : Nat := die * Config.stackBytes + a

/-- Stop the model at an access beyond a stack (Table 0.1). -/
def State.needFrame (s : State) (a n : Nat) : State :=
  if a + n ≤ Config.stackBytes then s else { s with halted := some .noSuchFrame }

/-- Read a stack byte through a key: the byte as it was written under the same key, a free byte under another (R292). -/
def State.hbmByte (s : State) (ctx die key a : Nat) : Byte :=
  let x := hbmAddr die a
  let t := s.hbmKey.get 0 x
  if t = 0 ∨ t = keyTag s ctx key then s.hbm.read x else Config.freeByte x t

/-- Read `n` bytes of a stack as a number. -/
def State.hbmRead (s : State) (ctx die key a n : Nat) : Nat :=
  ofLeBytes ((List.range n).map fun i => s.hbmByte ctx die key (a + i))

/-- Write a stack byte under a key. -/
def State.hbmPut (s : State) (ctx die key a : Nat) (b : Byte) : State :=
  let x := hbmAddr die a
  { s with hbm := s.hbm.write x b, hbmKey := s.hbmKey.put x (keyTag s ctx key) }

/-- The word that an entry of the poison list is about: causes are kept as further entries, above 2^100 (R186, R393). -/
def markWord (p : Nat) : Nat := p % 2 ^ 100

/-- Does entry `p` mark a scratch word that lies wholly in [lo, lo + n)? -/
def scrWithin (lo n p : Nat) : Bool := p % 2 = 1 && lo ≤ 4 * (p - 1) && 4 * (p - 1) + 8 ≤ lo + n

/-- Does entry `p` mark a scratch word that [lo, lo + n) touches? -/
def scrTouches (lo n p : Nat) : Bool := p % 2 = 1 && 4 * (p - 1) < lo + n && lo < 4 * (p - 1) + 8

/-- Write bytes of a stack; full aligned words lose their poison (R392). -/
def State.hbmWrite (s : State) (ctx die key a : Nat) (bs : List Byte) : State :=
  let s := s.needFrame a bs.length
  let s := (bs.zipIdx).foldl (fun s x => s.hbmPut ctx die key (a + x.2) x.1) s
  let lo := hbmAddr die a
  { s with poison := s.poison.filter fun p => !(p % 2 = 0 && lo ≤ 4 * markWord p && 4 * markWord p + 8 ≤ lo + bs.length) }

/-- Is any word of these stack bytes poisoned? -/
def State.hbmPoisoned (s : State) (die a n : Nat) : Bool :=
  s.poison.any fun p => p % 2 = 0 && 4 * p < hbmAddr die a + n && hbmAddr die a < 4 * p + 8

/-- Place of a scratch byte. -/
def scrAddr (die core a : Nat) : Nat := (die * 256 + core) * Config.scratchBytes + a

/-- Read `n` bytes of a core's scratch. -/
def State.scrRead (s : State) (die core a n : Nat) : Nat := s.scratch.readN (scrAddr die core a) n

/-- Write `n` bytes of a core's scratch; full aligned words lose their poison (R392). -/
def State.scrWrite (s : State) (die core a v n : Nat) : State :=
  let lo := scrAddr die core a
  { s with scratch := s.scratch.writeN lo v n
           poison := s.poison.filter fun p => !scrWithin lo n (markWord p) }

/-- Place of a code byte of a kernel (R336). -/
def codeAddr (kid off : Nat) : Nat := kid * 2 ^ 20 + off

/-! ### Line records of scratch (R184, R186) -/

/-- The line of a scratch byte. -/
def lineKey (die core a : Nat) : Nat := scrAddr die core a / 64

/-- A line nothing of its zone has written. -/
def LineRec.none : LineRec := { last := 0, slot := 0, region := 0, hasLast := false, rolled := false }

/-- A write whose data comes from the core's own zone: last-write cycle, writer, region; the mark is cleared (R184, R186). -/
def State.touchLine (s : State) (die core a cyc slot region : Nat) : State :=
  let k := lineKey die core a
  let r := s.lines.get LineRec.none k
  { s with lines := s.lines.put k { r with last := cyc, slot := slot, region := region, hasLast := true, rolled := false } }

/-- A read of R185 may be served at cycle `c`. -/
def lineClear (s : State) (die core a c : Nat) : Bool :=
  let r := s.lines.get LineRec.none (lineKey die core a)
  !r.rolled && (!r.hasLast || r.last + Config.hold ≤ c)

/-- Is a word of these bytes uncorrectable (R186, R392)? -/
def State.scrPoisoned (s : State) (die core a n : Nat) : Bool := s.poison.any (scrTouches (scrAddr die core a) n)

/-- The mark of a scratch word that a rolled line has made uncorrectable (R186). -/
def rollMark (w : Nat) : Nat := 2 ^ 101 + w

/-- The source code of an uncorrectable scratch word: 7 for a rolled line, else 2 (Table 20.3). -/
def scrSource (s : State) (die core a n : Nat) : Nat :=
  if s.poison.any fun p => 2 ^ 101 ≤ p && scrTouches (scrAddr die core a) n (p - 2 ^ 101) then 7 else 2

/-- Is region number `a` before `b`? They count modulo 2^32 (R159), and the numbers compared lie less than 2^31 apart. -/
def regionBefore (a b : Nat) : Bool := let d := (b + 2 ^ 32 - a) % 2 ^ 32; 0 < d && d < 2 ^ 31

/-- Rolled lines of a warp become uncorrectable, every word of them, when it records a later region, ends or is discarded
(R186). -/
def State.settleLines (s : State) (die core slot : Nat) (newRegion : Option Nat) : State :=
  let lost (e : Nat × LineRec) : Bool :=
    e.1 / (Config.scratchBytes / 64) == die * 256 + core && e.2.slot == slot && e.2.rolled &&
      (match newRegion with | some n => regionBefore e.2.region n | Option.none => true)
  let ws := (s.lines.filter lost).flatMap fun e => (List.range 8).map fun i => poisonScr (64 * e.1 + 8 * i)
  { s with lines := s.lines.map fun e => if lost e then (e.1, { e.2 with rolled := false }) else e
           poison := ws ++ ws.map rollMark ++ s.poison }

/-! ### The idle and busy table (R151) -/

/-- Credit every window begun before window `w` of a core as idle to the current marker; counts saturate. -/
def CoreRec.settle (c : CoreRec) (w : Nat) : CoreRec :=
  if c.nextWin < w then
    let e := c.ib.get (0, 0) c.marker
    { c with ib := c.ib.put c.marker (e.1, min 0xFFFFFFFF (e.2 + (w - c.nextWin))), nextWin := w }
  else c

/-- Credit window `w` itself: BUSY when a clause issued in it, IDLE otherwise. -/
def CoreRec.credit (c : CoreRec) (w : Nat) (busy : Bool) : CoreRec :=
  let c := c.settle w
  if c.nextWin ≤ w then
    let e := c.ib.get (0, 0) c.marker
    let e := if busy then (min 0xFFFFFFFF (e.1 + 1), e.2) else (e.1, min 0xFFFFFFFF (e.2 + 1))
    { c with ib := c.ib.put c.marker e, nextWin := w + 1 }
  else c

/-! ### Windows (R13, R136) -/

/-- The first window start of slot `w` at or after cycle `c`. -/
def nextWindow (w c : Nat) : Nat :=
  let r := c % 64
  let p := 16 * w
  if r ≤ p then c - r + p else c - r + 64 + p

/-- The first window start of any of the slots at or after cycle `c`. -/
def nextWindowOf (ws : List Nat) (c : Nat) : Nat :=
  (ws.map fun w => nextWindow w c).foldl min (c + 64)

/-- Schedule a unit's next window at or after cycle `c`. -/
def State.schedWindow (s : State) (u : ExecUnit) (c : Nat) : State :=
  let w := nextWindowOf u.wins c
  if u.id.lead then s.schedCyc u.id.die u.id.core w 9 (evU .leadClauseIssue u.id [])
  else s.schedCyc u.id.die u.id.core w 9 (evU .clauseIssue u.id [])

/-! ### Taking and leaving a trap (R310-R314) -/

/-- Take a trap: the unit stops before the trapping instruction takes effect, its group becomes faulted, and the trap
becomes final D cycles later (R310, R314). Pending writes still land (Table 3.3). -/
def State.takeTrap (s : State) (u : UnitId) (t : Stop) : State :=
  let s := s.modUnit u fun x => { x with stop := some { t with clause := x.clause, due := t.cycle + Config.hold }, clause := none }
  let s := match s.unit? u with
    | none => s
    | some x =>
      if t.kind = 7 then s   -- a page fault leaves its group running (Table 7.2, R297)
      else s.modGroup x.gid fun g => if g.state = GState.running then { g with state := .faulted } else g
  s.schedCyc u.die u.core (t.cycle + Config.hold) 20 (evU .trapFinal u [t.cycle])

/-- The trap of the instruction being issued. -/
def curStop (s : State) (c : Cur) (kind sub : Nat) (lanes : BitVec 32) (detail : List Nat) : Stop :=
  { kind := kind, sub := sub, cycle := c.cycle, time := localTime s c.u.die c.u.core s.now, pc := c.pc, idx := c.idx,
    quads := c.quads, clause := none, lanes := lanes, detail := detail, sgpc := [], final := false, byWalk := false,
    waitOnly := false, waits := [] }

/-- Trap(kind, info) of the instruction being issued (Table 0.3). -/
def trapCur (s : State) (c : Cur) (kind sub : Nat) (lanes : BitVec 32) (detail : List Nat) : State :=
  s.takeTrap c.u (curStop s c kind sub lanes detail)

/-- A group goes back to running once none of its units is stopped. -/
def State.unfaultGroup (s : State) (gid : Nat) : State :=
  if (s.unitsOf gid).all (fun x => x.stop.isNone) then
    s.modGroup gid fun g => if g.state = .faulted then { g with state := .running } else g
  else s

/-- A context goes back from faulted to running once no unit of it is stopped by a final trap (Table 15.2). -/
def State.unfaultCtx (s : State) (ctx : Nat) : State :=
  let stopped := s.units.any fun x =>
    (match s.group? x.gid with | some g => g.ctx == ctx | Option.none => false) &&
    (match x.stop with | some t => t.final && !t.waitOnly | Option.none => false)
  if !stopped && (s.ctx ctx).state = .faulted then s.modCtx ctx fun c => { c with state := .running } else s

/-- Leave a trap by RETRY or SKIP: issue goes on at position `idx` of the trapped clause in the window that begins now, and
service continues with the sub-gang that trapped (R313). -/
def State.leaveTrap (s : State) (u : UnitId) (idx : Nat) : State :=
  match s.unit? u with
  | none => s
  | some x =>
    match x.stop with
    | none => s
    | some t =>
      let low := ((List.range 8).find? fun q => t.quads.getLsbD q).getD 0
      let x := { x with stop := none, clause := t.clause, resume := some idx, pi := low,
                        holdUntil := s.ucyc u }
      let s := State.unfaultGroup (s.modUnit u fun _ => x) x.gid
      s.schedWindow x (s.ucyc u)

end Sys2Proof.Machine
end

