-- ==== Sys2Proof/Machine/Flags.lean ====
section
/-! DEFINITION. The sticky flags (R85) as the four bits of the FLAGS register: invalid 8, overflow 4, underflow 2,
inexact 1; and the flag computation of one rounding. -/

namespace Sys2Proof.Machine

/-- invalid, FLAGS bit 3. -/
def flInvalid : Nat := 8
/-- overflow, FLAGS bit 2. -/
def flOverflow : Nat := 4
/-- underflow, FLAGS bit 1. -/
def flUnderflow : Nat := 2
/-- inexact, FLAGS bit 0. -/
def flInexact : Nat := 1

/-- OR of flag sets. -/
def flOr (a b : Nat) : Nat := a ||| b

/-- The flags of a rounding (R85): `big` when |y| exceeds the largest finite value, `tiny` when the exact result is
below the smallest normal value, `diff` when the rounded result differs from the exact one. -/
def roundFlags (big tiny diff : Bool) : Nat :=
  (if big then flOverflow + flInexact else 0) ||| (if tiny && diff then flUnderflow else 0) |||
    (if diff then flInexact else 0)

end Sys2Proof.Machine
end

