-- ==== Sys2Proof/Machine/Operands.lean ====
section
/-! DEFINITION. Operands: register specifiers (Table 2.5), special registers (Table 2.6), the lanes an instruction acts
on (R59-R61, R119, R126), reading at issue and landing later (R54, R62), and the one loop of the lane-wise and uniform
instructions (R65). -/

namespace Sys2Proof.Machine

/-! ### Specifier classes (Table 2.5) -/

/-- V0-V127 of a warp clause. -/
def isV (lead : Bool) (r : Nat) : Bool := !lead && r < 0x80
/-- S0-S31 of a warp clause; G0-G63 of a lead clause stand for S. -/
def isS (lead : Bool) (r : Nat) : Bool := if lead then r < 0x40 else 0x80 ≤ r && r < 0xA0
/-- P0-P7. -/
def isP (r : Nat) : Bool := 0xA0 ≤ r && r < 0xA8
/-- A special register legal in the clause kind (R41). -/
def isSpec (lead : Bool) (r : Nat) : Bool :=
  0xA8 ≤ r && r < 0xC0 && !(lead && (r = 0xA8 || r = 0xA9 || r = 0xBE || r = 0xB6 || r = 0xBF))
/-- A special register with one value for the warp (Table 2.6). -/
def isUSpec (lead : Bool) (r : Nat) : Bool := isSpec lead r && !(r = 0xA8 || r = 0xA9 || r = 0xBE)
/-- K0-K15. -/
def isK (r : Nat) : Bool := 0xC0 ≤ r && r < 0xD0
/-- B0-B15. -/
def isB (r : Nat) : Bool := 0xD0 ≤ r && r < 0xE0
/-- ZERO. -/
def isZ (r : Nat) : Bool := r == 0xE0
/-- "Value" of Table 3.4: V, S, P, special register or ZERO. -/
def isValue (lead : Bool) (r : Nat) : Bool := isV lead r || isS lead r || isP r || isSpec lead r || isZ r
/-- A field that keeps an instruction uniform: S, ZERO, a uniform special register, or no register (R59). -/
def isUni (lead : Bool) (r : Nat) : Bool := isS lead r || isZ r || isUSpec lead r || r == 0xFF

/-- Does the instruction run once (R59)? Lead clauses always; warp clauses when every used field is uniform. -/
def uniform (lead : Bool) (rs : List Nat) : Bool := lead || rs.all (isUni lead)

/-! ### Lanes -/

/-- Is the issuing unit of a kernel in protected launch mode? -/
def protOf (s : State) (u : UnitId) : Bool := match s.groupOf u with | some g => g.prot | none => false

/-- The lanes of a quad mask; in protected mode a quad is eight physical lanes (R118, R126). -/
def quadLanes (prot : Bool) (qs : BitVec 8) : BitVec 32 :=
  BitVec.ofFnLE fun l : Fin 32 => qs.getLsbD (if prot then l.val / 8 else l.val / 4)

/-- Lanes of a mask that lie in the quad of lane `l`. -/
def sameQuad (prot : Bool) (m : BitVec 32) (l : Nat) : BitVec 32 :=
  let n := if prot then 8 else 4
  m &&& (BitVec.ofFnLE fun k : Fin 32 => k.val / n == l / n)

/-- EXEC as the issuing sub-gang reads it (R119). -/
def execMask (s : State) (c : Cur) : BitVec 32 :=
  match s.unit? c.u with
  | none => 0
  | some x => x.exec &&& quadLanes (protOf s c.u) c.quads

/-- The guarding predicate of a lane (R38). -/
def guardLane (s : State) (u : UnitId) (g : Guard) (l : Nat) : Bool :=
  (s.p u g.prd.toNat l) != (g.png == 1)

/-- Does the guard of a lead instruction let it act (R61)? -/
def guardLead (s : State) (u : UnitId) (g : Guard) : Bool := guardLane s u g 0

/-- LaneActive (Table 0.3). -/
def laneActive (s : State) (c : Cur) (g : Guard) (l : Nat) : Bool :=
  (execMask s c).getLsbD l && guardLane s c.u g l

/-- LaneCompute (R60): active lanes, and helper lanes of a quad with a lane in EXEC, that pass the guard. -/
def laneCompute (s : State) (c : Cur) (g : Guard) (l : Nat) : Bool :=
  let e := execMask s c
  match s.unit? c.u with
  | none => false
  | some x => (e.getLsbD l || (x.helper.getLsbD l && sameQuad (protOf s c.u) e l != 0)) && guardLane s c.u g l

/-- The lanes for which LaneActive holds, ascending. -/
def activeLanes (s : State) (c : Cur) (g : Guard) : List Nat := (List.range 32).filter (laneActive s c g)

/-- The lanes that access memory, vote and raise flags: active lanes, primaries only in protected mode (R97, R179). -/
def realLanes (s : State) (c : Cur) (g : Guard) : List Nat :=
  let p := protOf s c.u
  (activeLanes s c g).filter fun l => !p || l % 2 == 0

/-- The lane number a program sees (R126). -/
def visLane (prot : Bool) (l : Nat) : Nat := if prot then l / 2 else l

/-- The physical lane of visible lane `i` on the primary or shadow side of lane `l` (R126). -/
def physLane (prot : Bool) (i l : Nat) : Nat := if prot then 2 * (i % 16) + l % 2 else i

/-- Segment width of a SHFL form (R131). -/
def segWidth (m : Nat) : Nat := match m with | 1 => 2 | 2 => 4 | 3 => 8 | 4 => 16 | _ => 32

/-- Source lane of a SHFL form (R131): 0 SHFL, 1 SHFLU, 2 SHFLD, 3 SHFLX. -/
def shflSrc (op wd l n : Nat) : Nat :=
  let base := l - l % wd
  match op with
  | 0 => base + n % wd
  | 1 => if wd ≤ n ∨ l < base + n then l else l - n
  | 2 => if wd ≤ n ∨ base + wd ≤ l + n then l else l + n
  | _ => l ^^^ (n % wd)

/-- Number of visible lanes of a warp (R126). -/
def visCount (prot : Bool) : Nat := if prot then 16 else 32

/-- The lanes of warp `n` that the group's lane count covers, as physical lanes; helper lanes complete the last quad
(R123, R126). -/
def warpLanes (prot : Bool) (lanes n : Nat) : BitVec 32 × BitVec 32 :=
  let v := if prot then 16 else 32
  let k := min v (lanes - v * n)
  let top := (k + 3) / 4 * 4
  let m (lo hi : Nat) : BitVec 32 := BitVec.ofFnLE fun l : Fin 32 =>
    let i := if prot then l.val / 2 else l.val
    decide (lo ≤ i) && decide (i < hi)
  (m 0 k, m k top)

/-- Is visible lane `i` of a warp in a quad that holds a lane of its group (R118)? -/
def lanePresent (s : State) (u : UnitId) (i : Nat) : Bool :=
  match s.unit? u, s.groupOf u with
  | some x, some g =>
    let m := warpLanes g.prot g.lanes x.warp
    i < visCount g.prot && (m.1 ||| m.2).getLsbD (physLane g.prot i 0)
  | _, _ => false

/-- A mask of visible lanes from a list of physical lanes. -/
def maskOf (prot : Bool) (ls : List Nat) : BitVec 32 :=
  ls.foldl (fun m l => m ||| (1#32 <<< visLane prot l)) 0

/-- A mask of physical lanes (fault records and destinations). -/
def maskPhys (ls : List Nat) : BitVec 32 := ls.foldl (fun m l => m ||| (1#32 <<< l)) 0

/-! ### Reading at issue -/

/-- WPTR of channel `ch` as read at issue: the bytes of the current cycle do not count yet (R230). -/
def wptrAt (s : State) (c : Cur) (ch : Nat) : Nat :=
  let k := s.core c.u.die c.u.core
  let now := (k.fresh.filter fun e => e.1 = ch && e.2.1 = c.cycle).foldl (fun a e => a + e.2.2) 0
  (k.wptr.getD ch 0 + 2 ^ 32 - now % 2 ^ 32) % 2 ^ 32

/-- A special register (Table 2.6) as lane `l` of the issuing unit reads it at its issue cycle. -/
def specReg (s : State) (c : Cur) (r l : Nat) : Word64 :=
  match s.unit? c.u, s.groupOf c.u with
  | some x, some g =>
    let kx := match s.kernelOf g with | some k => (k.lpb.nx, k.lpb.ny, k.lpb.nz) | none => (1, 1, 1)
    let p := g.prot
    let n : Nat := match r with
      | 0xA8 => visLane p l
      | 0xA9 => visLane p l / 4
      | 0xAA => x.warp
      | 0xAB => g.g % kx.1
      | 0xAC => g.g / kx.1 % kx.2.1
      | 0xAD => g.g / kx.1 / kx.2.1
      | 0xAE => (match s.team? g.tid with | some t => t.idx | none => 0)
      | 0xAF => g.tmbr
      | 0xB0 => kx.1
      | 0xB1 => kx.2.1
      | 0xB2 => kx.2.2
      | 0xB3 => if g.twinOf.isSome then c.u.core ^^^ 32 else c.u.core
      | 0xB4 => c.u.die
      | 0xB5 => s.modl
      | 0xB6 => (maskOf p ((List.range 32).filter fun k => (execMask s c).getLsbD k)).toNat
      | 0xB7 => x.rgnc
      | 0xB8 => wptrAt s c 0
      | 0xB9 => wptrAt s c 1
      | 0xBA => wptrAt s c 2
      | 0xBB => wptrAt s c 3
      | 0xBC => localTime s c.u.die c.u.core s.now % 2 ^ 32
      | 0xBD => localTime s c.u.die c.u.core s.now / 2 ^ 32
      | 0xBE => if x.helper.getLsbD l then 1 else 0
      | 0xBF => x.dqn c.cycle
      | _ => 0
    BitVec.ofNat 64 (n % 2 ^ 32)
  | _, _ => 0

/-- Read a source field for lane `l`; `wide` reads a 64-bit operand (R40, R62). -/
def readField (s : State) (c : Cur) (r l : Nat) (wide : Bool) : Word64 :=
  let lead := c.u.lead
  let x : Word64 :=
    if isV lead r then
      (s.v c.u r l).setWidth 64 ||| (if wide then (s.v c.u (r + 1) l).setWidth 64 <<< 32 else 0)
    else if isS lead r then (if lead then s.gr c.u r else s.sr c.u (r - 0x80))
    else if isP r then (if s.p c.u (r - 0xA0) l then 1 else 0)
    else if isSpec lead r then specReg s c r l
    else 0
  if wide then x else x &&& 0xFFFFFFFF#64

/-- The whole value of a uniform source: S, G, ZERO, predicate or special register. -/
def readU (s : State) (c : Cur) (r : Nat) : Word64 := readField s c r 0 true

/-! ### Landing -/

/-- Land a value in destination field `r`, for lane `l`, at cycle `cyc` (R40, R62); ZERO and 0xFF discard. -/
def landField (s : State) (c : Cur) (r l : Nat) (wide : Bool) (val : Word64) (cyc op : Nat) : State :=
  let w : PendW := { u := c.u, file := .v, reg := r, lane := l, val := val, land := cyc, issue := c.cycle, op := op }
  let lead := c.u.lead
  if isV lead r then
    let s := s.land { w with val := val &&& 0xFFFFFFFF#64 }
    if wide then s.land { w with reg := r + 1, val := val >>> 32 } else s
  else if isS lead r then
    if lead then s.land { w with file := .g, lane := 0, val := if wide then val else val &&& 0xFFFFFFFF#64 }
    else s.land { w with file := .s, reg := r - 0x80, lane := 0, val := if wide then val else val &&& 0xFFFFFFFF#64 }
  else if isP r then s.land { w with file := .p, reg := r - 0xA0, lane := if lead then 0 else l }
  else s

/-- One result of an instruction: destination field, width, value. -/
abbrev Res := Nat × Bool × Word64

/-- Land a lane's results. -/
def landRes (s : State) (c : Cur) (l cyc : Nat) (rs : List Res) : State :=
  rs.foldl (fun s r => landField s c r.1 l r.2.1 r.2.2 cyc 0) s

/-- The loop of R65: read every source at issue, compute, land `lat` cycles later. A uniform instruction runs once; its
flags are those of its single result, a lane-wise one raises the OR of its active lanes' flags (R97). -/
def alu (s : State) (c : Cur) (g : Guard) (ds : List Nat) (srcs : List (Nat × Bool)) (lat : Nat)
    (f : List Word64 → List Res × Nat) : State :=
  let at0 (l : Nat) : List Word64 := srcs.map fun x => readField s c x.1 l x.2
  let cyc := c.cycle + lat
  if uniform c.u.lead (ds ++ srcs.map (·.1)) then
    if c.u.lead && !guardLead s c.u g then s
    else
      let r := f (at0 0)
      (landRes s c 0 cyc r.1).raise c.u r.2 cyc c.cycle
  else
    let ls := (List.range 32).filter (laneCompute s c g)
    let rs := ls.map fun l => (l, f (at0 l))
    let s1 := rs.foldl (fun t x => landRes t c x.1 cyc x.2.1) s
    let act := realLanes s c g
    let fl := (rs.filter fun x => act.contains x.1).foldl (fun a x => flOr a x.2.2) 0
    s1.raise c.u fl cyc c.cycle

/-- Sign-extended value of the low `w` bits. -/
def sgn (w : Nat) (x : Nat) : Int :=
  let y := x % 2 ^ w
  if y < 2 ^ (w - 1) then (y : Int) else (y : Int) - (2 ^ w : Nat)

/-- The low `w` bits of an exact integer. -/
def wrap (w : Nat) (x : Int) : Nat := (x % ((2 ^ w : Nat) : Int)).toNat

/-- Sat(x, lo, hi) (Table 0.3). -/
def sat (x lo hi : Int) : Int := if x < lo then lo else if x > hi then hi else x

end Sys2Proof.Machine
end

