-- ==== Sys2Proof/Machine/Checks.lean ====
section
/-! DEFINITION. The decode checks of Table 2.9 that need more than the word: defined values (2), types and sizes (3),
register classes (4), clause kind (5) and class bit (6), made at issue in that order (R46). -/

namespace Sys2Proof.Machine

/-- The outcomes of checks 2, 3 and 4 of one instruction, and whether it is uniform: it takes effect whatever EXEC and the guard
hold (R61, R127). -/
structure Chk where
  c2 : Bool
  c3 : Bool
  c4 : Bool
  uni : Bool := false
  deriving DecidableEq, Repr

/-- The class of an opcode, as the bit of CLS (Table 2.2). -/
def classOf (op : Nat) : Nat :=
  if op = 0xD1 ∨ op = 0xD2 then 6
  else if op < 0x100 then 0
  else if op < 0x10D then 1
  else if op < 0x140 then 4
  else if op < 0x14C then 2
  else if op < 0x180 then 5
  else if op < 0x1C0 then 6
  else if op < 0x1C7 then 3
  else 7

/-- May a lead clause contain the opcode (R45)? -/
def leadMay (op : Nat) : Bool :=
  op < 0x40 || (0x180 ≤ op && op < 0x1C0 && op != 0x182) || (0x10D ≤ op && op ≤ 0x110) || op == 0xD2 || op == 0x1C7

/-- May a clause of this kind contain the opcode? LPUSH is for lead clauses only (R138). -/
def kindMay (lead : Bool) (op : Nat) : Bool := if lead then leadMay op else op != 0xD2

/-- 64-bit types. -/
def isWide (ty : Nat) : Bool := ty == 4 || ty == 5 || ty == 7

/-- V, S or ZERO. -/
def isVSZ (lead : Bool) (r : Nat) : Bool := isV lead r || isS lead r || isZ r
/-- S or ZERO. -/
def isSZ (lead : Bool) (r : Nat) : Bool := isS lead r || isZ r
/-- No register. -/
def isFF (r : Nat) : Bool := r == 0xFF
/-- A V register aligned to `n`, or another class. -/
def vAl (lead : Bool) (n r : Nat) : Bool := !isV lead r || r % n == 0

/-- A source of any value class, an even pair when wide (R40, R64). -/
def val (lead wide : Bool) (r : Nat) : Bool := isValue lead r && (!wide || vAl lead 2 r)
/-- A destination V, S or ZERO, an even pair when wide. -/
def dst (lead wide : Bool) (r : Nat) : Bool := isVSZ lead r && (!wide || vAl lead 2 r)

/-- Checks of a register-only instruction of groups 0 to 2 (R59, R61, R64, R96): a uniform form in a warp clause needs
PRD = 0, a lane-wise form may not write S. -/
def aluChk (lead : Bool) (g : Guard) (d : Nat) (uses : List Nat) (md ty regs : Bool) : Chk :=
  let u := uniform lead (d :: uses)
  { c2 := md && (lead || !u || g.prd == 0), c3 := ty, c4 := regs && (u || !isS lead d), uni := u }

/-- One source (A), B and C unused. -/
def chk1 (lead : Bool) (w : RF) (tys : List Nat) (md : Bool) (dw aw : Bool) : Chk :=
  let a := w.a.toNat
  aluChk lead w.g w.d.toNat [a] md (tys.contains w.ty.toNat)
    (dst lead dw w.d.toNat && val lead aw a && isFF w.b.toNat && isFF w.c.toNat)

/-- Two sources, C unused. -/
def chk2 (lead : Bool) (w : RF) (tys : List Nat) (md : Bool) (dw aw bw : Bool) : Chk :=
  let a := w.a.toNat
  let b := w.b.toNat
  aluChk lead w.g w.d.toNat [a, b] md (tys.contains w.ty.toNat)
    (dst lead dw w.d.toNat && val lead aw a && val lead bw b && isFF w.c.toNat)

/-- Three sources. -/
def chk3 (lead : Bool) (w : RF) (tys : List Nat) (md : Bool) (dw aw cw : Bool) : Chk :=
  let a := w.a.toNat
  let b := w.b.toNat
  let c := w.c.toNat
  aluChk lead w.g w.d.toNat [a, b, c] md (tys.contains w.ty.toNat)
    (dst lead dw w.d.toNat && val lead aw a && val lead aw b && val lead cw c)

/-- A comparison: D may be a predicate, C is a predicate when a combine mode is set (R72, R101). -/
def chkCmp (lead : Bool) (w : RF) (tys : List Nat) (md : Bool) (aw : Bool) : Chk :=
  let comb := w.md.toNat / 8 % 4
  let d := w.d.toNat
  aluChk lead w.g d [w.a.toNat, w.b.toNat, w.c.toNat] md (tys.contains w.ty.toNat)
    ((isVSZ lead d || isP d) && val lead aw w.a.toNat && val lead aw w.b.toNat &&
      (if comb = 0 then isFF w.c.toNat else isP w.c.toNat))

/-- Shifts: a 32-bit amount in B, or an immediate with MOD[7] (R69, Table 3.4). -/
def chkShift (lead : Bool) (w : RF) : Chk :=
  let wide := isWide w.ty.toNat
  let im := w.md.toNat ≥ 128
  aluChk lead w.g w.d.toNat [w.a.toNat, w.b.toNat] (w.md.toNat / 64 % 2 == 0 && (im || w.md == 0))
    ([6, 7].contains w.ty.toNat)
    (dst lead wide w.d.toNat && val lead wide w.a.toNat &&
      (if im then isFF w.b.toNat else val lead false w.b.toNat) && isFF w.c.toNat)

/-- The types of the integer arithmetic. -/
def tInt : List Nat := [2, 3, 4, 5]
/-- F32, F16, BF16. -/
def tF3 : List Nat := [8, 9, 10]
/-- The five types of FADD. -/
def tF5 : List Nat := [8, 9, 10, 11, 12]

/-- RM and SAT as in FADD: MOD[7:3] zero (Table 5.1). -/
def mdF (m : BitVec 8) : Bool := m.toNat < 8
/-- A source type of a conversion in MOD[7:3] (Table 5.1). -/
def mdSrc (m : BitVec 8) (set : List Nat) : Bool := set.contains (m.toNat / 8)

/-- Exchange instructions (Table 6.4): lane-wise and warp-wide forms take any PRD, uniform ones need PRD = 0. -/
def xchg (g : Guard) (uni md ty regs : Bool) : Chk := 
  { c2 := md && (!uni || g.prd == 0), c3 := ty, c4 := regs, uni := uni }

/-- Warp index `n` exists in the group of the issuing unit. -/
def hasWarp (s : State) (c : Cur) (n : Nat) : Bool :=
  match s.groupOf c.u with | some g => n < g.slots.length | none => false

/-- The kernel of the issuing unit. -/
def kernelOfCur (s : State) (c : Cur) : Option Kernel := (s.groupOf c.u).bind s.kernelOf

/-- Is the issuing unit's kernel in scheduled mode? -/
def schedOf (s : State) (c : Cur) : Bool := match kernelOfCur s c with | some k => k.lpb.sched | none => false

/-- The shape record a copy names (R226). -/
def shapeOf (s : State) (c : Cur) (i : Nat) : Option Shape :=
  match kernelOfCur s c with
  | some k => (k.shapes[i]?).bind fun x => if x.good then some x else none
  | none => none

/-- The issuing group owns copy channel `ch` (R223). -/
def ownsChannel (s : State) (c : Cur) (ch : Nat) : Bool :=
  match s.groupOf c.u with | some g => g.slots.contains ch | none => false

/-- Scratch and global M-format loads and stores: SZ, data alignment, base, index (Tables 9.2, 10.5, 19.8). -/
def memRegs (load glob : Bool) (w : MF) : Bool :=
  let d := w.data.toNat
  let b := w.base.toNat
  let i := w.index.toNat
  (isV false d && d % (if w.sz == 3 then 2 else if w.sz == 4 then 4 else 1) == 0 || (load && isZ d)) &&
    (isS false b || isZ b || (isV false b && (!glob || b % 2 == 0))) && (isV false i || isS false i || isFF i)

/-- ATOMS and ATOMG register fields (R192, R219). -/
def atomRegs (glob cas : Bool) (w : RF) : Bool :=
  let wide := w.ty.toNat = 7
  let d := w.d.toNat
  let a := w.a.toNat
  (isV false d || isZ d) && (!wide || vAl false 2 d) &&
    (isS false a || (isV false a && (!glob || a % 2 == 0))) &&
    dst false wide w.b.toNat && (if cas then dst false wide w.c.toNat else isFF w.c.toNat)

/-- ATOMS: MOD must be 0 (R192). -/
def chkAtoms (w : RF) (tys : List Nat) (cas : Bool) : Chk :=
  { c2 := w.md == 0, c3 := tys.contains w.ty.toNat, c4 := atomRegs false cas w }

/-- ATOMG: any ORD, ORD 0 requires SCO 0, MOD[7:6] zero (R35, R219). -/
def chkAtomg (w : RF) (tys : List Nat) (cas : Bool) : Chk :=
  let o := w.md.toNat % 8
  let sc := w.md.toNat / 8 % 8
  { c2 := w.md.toNat < 64 && o ≤ 4 && sc ≤ 4 && (o != 0 || sc == 0), c3 := tys.contains w.ty.toNat,
    c4 := atomRegs true cas w }

/-- RATOM (Table 19.9). -/
def chkRatom (w : RatomF) (ty : Nat) (cas : Bool) : Chk :=
  let wide := ty = 7
  let d := w.d.toNat
  { c2 := w.ord.toNat ≤ 4 && (cas || w.c == 0xFF)
    c3 := w.ty.toNat = ty
    c4 := (isV false d || isZ d) && (!wide || vAl false 2 d) &&
      (isS false w.p.toNat || isV false w.p.toNat) &&
      (isS false w.a.toNat || (isV false w.a.toNat && w.a.toNat % 2 == 0)) &&
      dst false wide w.b.toNat && (!cas || dst false wide w.c.toNat) }

/-- RLD and RST (Table 19.8). -/
def chkRemote (load : Bool) (w : MF) : Chk :=
  let o := w.ord.toNat
  let sc := w.sco.toNat
  let d := w.data.toNat
  let i := w.index.toNat
  { c2 := (o == 0 && sc == 0) || ((o == 1 || o == (if load then 2 else 3)) && sc == 4)
    c3 := w.sz == 3 || w.sz == 4
    c4 := (isV false d && d % (if w.sz == 3 then 2 else 4) == 0 || (load && isZ d)) &&
      (isS false w.base.toNat || isV false w.base.toNat) && (isS false i || (isV false i && i % 2 == 0)) }

/-- A branch in format B (Table 6.5): PRD 0 in warp clauses unless `anyPrd`. -/
def chkB (lead anyPrd : Bool) (w : BF) (cond reg : Bool) : Chk :=
  { c2 := cond && (lead || anyPrd || w.g.prd == 0), c3 := true, c4 := reg, uni := !anyPrd }

/-- Barrier, counter and time instructions in format R (Table 8.5): B and C unused, TY 0, uniform. -/
def chkCtl (lead : Bool) (w : RF) (md d a : Bool) : Chk :=
  { c2 := md && (lead || w.g.prd == 0), c3 := w.ty == 0, c4 := d && a && isFF w.b.toNat && isFF w.c.toNat, uni := true }

/-- Barrier field: none without BEN (Table 11.4, Table 12.7). -/
def benOk (ben : BitVec 1) (bar : BitVec 4) : Bool := ben == 1 || bar == 0

/-- What every engine request must meet (R249, R266): not in protected mode, the first of its clause, PRD 0, bit 39 zero. -/
def reqOk (s : State) (c : Cur) (g : Guard) : Bool :=
  g.prd == 0 && !protOf s c.u &&
    (match s.unit? c.u with
     | some x => (match x.clause with | some r => r.reqs == 0 | none => true)
     | none => true)

/-- The operand types of MMA and MLOOP. -/
def tMma : List Nat := [0, 9, 10, 13, 14, 15]

/-- A fragment range fits in V0-V127 (R261). -/
def ringFits (base rl : Nat) (q4 : Bool) : Bool := 16 * base + 16 * rl + (if q4 then 4 else 0) ≤ 128

/-- Is system register index `i` assigned (Table 15.5)? -/
def sysAssigned (i : Nat) : Bool :=
  i ≤ 0x0D || (0x10 ≤ i && i ≤ 0x31) || (0x40 ≤ i && i ≤ 0x50) || (0x80 ≤ i && i ≤ 0xFF) || (0x100 ≤ i && i ≤ 0x109) ||
    (0x200 ≤ i && i ≤ 0x23F) || (0x400 ≤ i && i ≤ 0x4FF)

/-- MOD of BARINIT (Table 8.5). -/
def barinitMd (w : RF) : Bool :=
  let m := w.md.toNat
  if m ≥ 128 then m % 128 < 4 else if isFF w.a.toNat then true else m == 0

/-- Checks 2 to 4 of an instruction in a clause of the given kind. DESIGN CHOICE (log 138): `A is S, or ZERO for ALL` (R304) is read
as S or ZERO for TINV.ALL. -/
def chk (s : State) (c : Cur) (l : Bool) : Instr → Chk
  | .iadd w => chk2 l w tInt (w.md.toNat ≤ 1) (isWide w.ty.toNat) (isWide w.ty.toNat) (isWide w.ty.toNat)
  | .isub w => chk2 l w tInt (w.md.toNat ≤ 1) (isWide w.ty.toNat) (isWide w.ty.toNat) (isWide w.ty.toNat)
  | .imul w => chk2 l w tInt (w.md.toNat ≤ 1) (isWide w.ty.toNat) (isWide w.ty.toNat) (isWide w.ty.toNat)
  | .imulh w => chk2 l w tInt (w.md == 0) (isWide w.ty.toNat) (isWide w.ty.toNat) (isWide w.ty.toNat)
  | .imad w => chk3 l w tInt (w.md.toNat ≤ 1) (isWide w.ty.toNat) (isWide w.ty.toNat) (isWide w.ty.toNat)
  | .imin w => chk2 l w tInt (w.md == 0) (isWide w.ty.toNat) (isWide w.ty.toNat) (isWide w.ty.toNat)
  | .imax w => chk2 l w tInt (w.md == 0) (isWide w.ty.toNat) (isWide w.ty.toNat) (isWide w.ty.toNat)
  | .iaddc w =>
    let wd := isWide w.ty.toNat
    let d := w.d.toNat
    let u := uniform l ([d, w.a.toNat, w.b.toNat, w.c.toNat] ++ (if w.md.toNat % 8 = 0 then [] else [0xA0]))
    { c2 := w.md.toNat < 8 && (l || !u || w.g.prd == 0), c3 := [3, 5].contains w.ty.toNat,
      c4 := ((if l then isS l d else isV l d) || isZ d) && (!wd || vAl l 2 d) && val l wd w.a.toNat && val l wd w.b.toNat &&
        (isP w.c.toNat || isZ w.c.toNat), uni := u }
  | .iabs w => chk1 l w [2, 4] (w.md.toNat ≤ 1) (isWide w.ty.toNat) (isWide w.ty.toNat)
  | .ineg w => chk1 l w [2, 4] (w.md.toNat ≤ 1) (isWide w.ty.toNat) (isWide w.ty.toNat)
  | .and w => chk2 l w [6, 7] (w.md == 0) (isWide w.ty.toNat) (isWide w.ty.toNat) (isWide w.ty.toNat)
  | .or w => chk2 l w [6, 7] (w.md == 0) (isWide w.ty.toNat) (isWide w.ty.toNat) (isWide w.ty.toNat)
  | .xor w => chk2 l w [6, 7] (w.md == 0) (isWide w.ty.toNat) (isWide w.ty.toNat) (isWide w.ty.toNat)
  | .andn w => chk2 l w [6, 7] (w.md == 0) (isWide w.ty.toNat) (isWide w.ty.toNat) (isWide w.ty.toNat)
  | .not w => chk1 l w [6, 7] (w.md == 0) (isWide w.ty.toNat) (isWide w.ty.toNat)
  | .shl w => chkShift l w
  | .shr w => chkShift l w
  | .sar w => chkShift l w
  | .rotl w => chkShift l w
  | .bfe w => chk2 l w [2, 3] (w.md == 0) false false false
  | .bfi w => chk3 l w [6] (w.md == 0) false false false
  | .popc w => chk1 l w [6, 7] (w.md == 0) (isWide w.ty.toNat) (isWide w.ty.toNat)
  | .clz w => chk1 l w [6, 7] (w.md == 0) (isWide w.ty.toNat) (isWide w.ty.toNat)
  | .ffs w => chk1 l w [6, 7] (w.md == 0) (isWide w.ty.toNat) (isWide w.ty.toNat)
  | .brev w => chk1 l w [6, 7] (w.md == 0) (isWide w.ty.toNat) (isWide w.ty.toNat)
  | .icmp w => chkCmp l w tInt (w.md.toNat % 8 ≤ 5 && w.md.toNat < 32) (isWide w.ty.toNat)
  | .sel w => chk3 l w [6, 7] (w.md == 0) (isWide w.ty.toNat) (isWide w.ty.toNat) false
  | .mov w =>
    let wd := isWide w.ty.toNat
    aluChk l w.g w.d.toNat [w.a.toNat] (w.md == 0) ([6, 7].contains w.ty.toNat)
      ((dst l wd w.d.toNat || isP w.d.toNat) && val l wd w.a.toNat && isFF w.b.toNat && isFF w.c.toNat)
  | .movi w => aluChk l w.g w.d.toNat [] (w.md.toNat ≤ 1) true (isVSZ l w.d.toNat && isFF w.a.toNat)
  | .movhi w => aluChk l w.g w.d.toNat [w.a.toNat] (w.md == 0) true (dst l true w.d.toNat && val l true w.a.toNat)
  | .lea w =>
    aluChk l w.g w.d.toNat [w.a.toNat, w.b.toNat] (w.md.toNat < 16) (w.ty.toNat = 5)
      (dst l true w.d.toNat && val l true w.a.toNat && val l false w.b.toNat && isFF w.c.toNat)
  | .iaddi w =>
    let wd := w.md.toNat % 2 = 1
    aluChk l w.g w.d.toNat [w.a.toNat] (w.md.toNat < 4) true (dst l wd w.d.toNat && val l wd w.a.toNat)
  | .imuli w => aluChk l w.g w.d.toNat [w.a.toNat] (w.md.toNat ≤ 1) true (isVSZ l w.d.toNat && val l false w.a.toNat)
  | .andi w => aluChk l w.g w.d.toNat [w.a.toNat] (w.md == 0) true (isVSZ l w.d.toNat && val l false w.a.toNat)
  | .ori w => aluChk l w.g w.d.toNat [w.a.toNat] (w.md == 0) true (isVSZ l w.d.toNat && val l false w.a.toNat)
  | .xori w => aluChk l w.g w.d.toNat [w.a.toNat] (w.md == 0) true (isVSZ l w.d.toNat && val l false w.a.toNat)
  | .icmpi w =>
    aluChk l w.g w.d.toNat [w.a.toNat] (w.md.toNat ≤ 5) true ((isVSZ l w.d.toNat || isP w.d.toNat) && val l false w.a.toNat)
  | .plop w =>
    aluChk l w.g w.d.toNat [w.a.toNat, w.b.toNat, w.c.toNat] true (w.ty.toNat = 16)
      (isP w.d.toNat && isP w.a.toNat && isP w.b.toNat && isP w.c.toNat)
  | .fadd w => chk2 l w tF5 (mdF w.md) false false false
  | .fsub w => chk2 l w tF5 (mdF w.md) false false false
  | .fmul w => chk2 l w tF5 (mdF w.md) false false false
  | .ffma w => chk3 l w tF5 (mdF w.md) false false false
  | .fmin w => chk2 l w tF5 (w.md == 0) false false false
  | .fmax w => chk2 l w tF5 (w.md == 0) false false false
  | .fabs w => chk1 l w tF3 (w.md == 0) false false
  | .fneg w => chk1 l w tF3 (w.md == 0) false false
  | .fcmp w => chkCmp l w tF3 (w.md.toNat < 32) false
  | .frnd w => chk1 l w tF3 (w.md.toNat < 4) false false
  | .fclass w => chk1 l w [8] (w.md == 0) false false
  | .fscale w => chk2 l w [8] (mdF w.md) false false false
  | .fdot2 w => chk3 l w [11, 12] (mdF w.md) false false false
  | .dot4 w => chk3 l w [13, 14, 0, 1] (mdF w.md && (1 < w.ty.toNat || w.md.toNat % 4 == 0)) false false false
  | .cvtf w =>
    chk1 l w [8, 9, 10, 13, 14] (mdSrc w.md [8, 9, 10, 13, 14] && w.md.toNat / 8 != w.ty.toNat) false false
  | .cvti w => chk1 l w tF3 (mdSrc w.md tInt) false (isWide (w.md.toNat / 8))
  | .cvtfi w => chk1 l w [2, 3, 0, 1] (mdSrc w.md [8, 9, 10, 13, 14] && w.md.toNat / 4 % 2 == 0) false false
  | .pack2 w => chk2 l w [11, 12] (mdF w.md) false false false
  | .pack4 w =>
    let src (r : Nat) : Bool := (isV l r && r % 2 == 0) || isS l r
    aluChk l w.g w.d.toNat [w.a.toNat, w.b.toNat] (mdF w.md && (1 < w.ty.toNat || w.md == 0))
      ([13, 14, 0, 1].contains w.ty.toNat) (isVSZ l w.d.toNat && src w.a.toNat && src w.b.toNat && isFF w.c.toNat)
  | .unpk w => chk1 l w [11, 12, 13, 14] (w.md.toNat ≤ 1 && (w.md == 0 || [13, 14].contains w.ty.toNat)) true false
  | .qnt w =>
    let n := if w.ty.toNat = 8 then 4 else 2
    let cc := w.c.toNat
    { c2 := w.md.toNat % 8 ≤ 6 && [0, 4, 5, 6, 7].contains (w.md.toNat / 8 % 8) && w.md.toNat < 128,
      c3 := tF3.contains w.ty.toNat
      c4 := isV l w.d.toNat && isV l w.a.toNat && w.a.toNat % n == 0 && isFF w.b.toNat && isVSZ l cc }
  | .dqnt w =>
    let n := if w.ty.toNat = 8 then 4 else 2
    { c2 := w.md.toNat / 8 % 8 == 0 && w.md.toNat < 128, c3 := tF3.contains w.ty.toNat,
      c4 := isV l w.d.toNat && w.d.toNat % n == 0 && isV l w.a.toNat && (isV l w.b.toNat || isS l w.b.toNat) &&
        isFF w.c.toNat }
  | .qdesc w => chk2 l w [6] (w.md.toNat < 4) false false false
  | .frcp w => chk1 l w [8] (mdF w.md) false false
  | .frsq w => chk1 l w [8] (mdF w.md) false false
  | .fsqrt w => chk1 l w [8] (mdF w.md) false false
  | .fexp2 w => chk1 l w [8] (mdF w.md) false false
  | .flog2 w => chk1 l w [8] (mdF w.md) false false
  | .fsin w => chk1 l w [8] (mdF w.md) false false
  | .fcos w => chk1 l w [8] (mdF w.md) false false
  | .ftanh w => chk1 l w [8] (mdF w.md) false false
  | .qswph w => quad w (w.md == 0)
  | .qswpv w => quad w (w.md == 0)
  | .qswpd w => quad w (w.md == 0)
  | .qbc w => quad w (w.md.toNat < 4)
  | .shfl w => shf w
  | .shflu w => shf w
  | .shfld w => shf w
  | .shflx w => shf w
  | .vote w =>
    xchg w.g false (w.md.toNat ≤ 2) (w.ty == 0)
      ((isP w.d.toNat || isSZ l w.d.toNat) && isP w.a.toNat && isFF w.b.toNat && isFF w.c.toNat)
  | .ballot w =>
    xchg w.g false (w.md == 0) (w.ty == 0) (isVSZ l w.d.toNat && isP w.a.toNat && isFF w.b.toNat && isFF w.c.toNat)
  | .matchLanes w =>
    xchg w.g false (w.md == 0) ([6, 7].contains w.ty.toNat)
      ((isV l w.d.toNat || isZ w.d.toNat) && isV l w.a.toNat && (!isWide w.ty.toNat || w.a.toNat % 2 == 0) &&
        isFF w.b.toNat && isFF w.c.toNat)
  | .lpopc w =>
    xchg w.g false (w.md == 0) (w.ty == 0)
      ((isV l w.d.toNat || isZ w.d.toNat) && val l false w.a.toNat && isFF w.b.toNat && isFF w.c.toNat)
  | .rdlane w =>
    xchg w.g true (w.md == 0) ([6, 7].contains w.ty.toNat)
      (isSZ l w.d.toNat && isV l w.a.toNat && (!isWide w.ty.toNat || w.a.toNat % 2 == 0) &&
        (isSZ l w.b.toNat || isUSpec l w.b.toNat) && isFF w.c.toNat)
  | .wrlane w =>
    xchg w.g true (w.md == 0) ([6, 7].contains w.ty.toNat)
      (isV l w.d.toNat && (!isWide w.ty.toNat || w.d.toNat % 2 == 0) && isSZ l w.a.toNat &&
        (isSZ l w.b.toNat || isUSpec l w.b.toNat) && isFF w.c.toNat)
  | .wreduce w =>
    xchg w.g false (w.md == 0) ([2, 8].contains w.ty.toNat)
      (isVSZ l w.d.toNat && isV l w.a.toNat && isFF w.b.toNat && isFF w.c.toNat)
  | .wscan w =>
    xchg w.g false (w.md == 0) ([2, 8].contains w.ty.toNat)
      ((isV l w.d.toNat || isZ w.d.toNat) && isV l w.a.toNat && isFF w.b.toNat && isFF w.c.toNat)
  | .xmov w =>
    let uni := isS l w.a.toNat
    xchg w.g uni (w.md.toNat < 4 && hasWarp s c w.md.toNat) (w.ty == 0)
      ((if uni then isSZ l w.d.toNat else isV l w.a.toNat && (isV l w.d.toNat || isZ w.d.toNat)) && isFF w.b.toNat &&
        isFF w.c.toNat)
  | .dqpop w => xchg w.g true (w.md == 0) (w.ty == 0) (isSZ l w.d.toNat && isFF w.a.toNat && isFF w.b.toNat && isFF w.c.toNat)
  | .lpush w =>
    let all := w.md.toNat / 4 % 2 = 1
    let a := w.a.toNat
    { c2 := w.md.toNat < 8 && (if all then w.md.toNat % 4 == 0 else hasWarp s c (w.md.toNat % 4)), c3 := w.ty == 0,
      c4 := isFF w.d.toNat && (isS true a || isP a || isUSpec true a || isZ a) && isFF w.b.toNat && isFF w.c.toNat }
  | .lds w => scr w true
  | .sts w => scr w false
  | .ldsb w =>
    { c2 := w.ord == 0 && w.sco == 0 && w.g.prd == 0, c3 := w.sz == 2 || w.sz == 3,
      c4 := isSZ l w.data.toNat && isSZ l w.base.toNat && (isS l w.index.toNat || isFF w.index.toNat), uni := true }
  | .atomsAdd w => chkAtoms w [2, 3, 8, 11] false
  | .atomsSub w => chkAtoms w [2, 3] false
  | .atomsMin w => chkAtoms w [2, 3, 8] false
  | .atomsMax w => chkAtoms w [2, 3, 8] false
  | .atomsAnd w => chkAtoms w [6] false
  | .atomsOr w => chkAtoms w [6] false
  | .atomsXor w => chkAtoms w [6] false
  | .atomsExch w => chkAtoms w [6, 7] false
  | .atomsCas w => chkAtoms w [6, 7] true
  | .scrflg w =>
    { c2 := w.md.toNat < 2 && w.g.prd == 0, c3 := w.ty == 0,
      c4 := isSZ l w.d.toNat && isK w.a.toNat && isFF w.b.toNat && isFF w.c.toNat, uni := true }
  | .copy w =>
    { c2 := w.kind.toNat < 2 && w.ty == 0 && cpy w, c3 := true, c4 := isFF w.seq.toNat && cpyRegs w, uni := true }
  | .copyr w =>
    { c2 := w.kind != 3 && cpy w &&
        (match shapeOf s c w.shape.toNat with
         | some x => x.esz ≠ 4 && (!([8, 9, 10, 2].contains w.ty.toNat) ||
             x.esz == (if w.ty.toNat = 8 ∨ w.ty.toNat = 2 then 2 else 1))
         | none => false)
      c3 := [8, 9, 10, 2].contains w.ty.toNat
      c4 := (isSZ l w.seq.toNat || isFF w.seq.toNat) && cpyRegs w, uni := true }
  | .cpyst w =>
    { c2 := w.sco.toNat ≤ 4 && benOk w.ben w.bar && (l || w.g.prd == 0) && ownsChannel s c w.ch.toNat, c3 := true,
      c4 := isSZ l w.val.toNat && isS l w.addr.toNat && isFF w.nul.toNat, uni := true }
  | .cpycan w =>
    { c2 := (l || w.g.prd == 0) && ownsChannel s c w.ch.toNat, c3 := true,
      c4 := isFF w.n1.toNat && isFF w.n2.toNat && isFF w.n3.toNat, uni := true }
  | .ldg w => glob w true
  | .stg w => glob w false
  | .atomgAdd w => chkAtomg w [2, 3, 8, 11] false
  | .atomgSub w => chkAtomg w [2, 3] false
  | .atomgMin w => chkAtomg w [2, 3, 8] false
  | .atomgMax w => chkAtomg w [2, 3, 8] false
  | .atomgAnd w => chkAtomg w [6] false
  | .atomgOr w => chkAtomg w [6] false
  | .atomgXor w => chkAtomg w [6] false
  | .atomgExch w => chkAtomg w [6, 7] false
  | .atomgCas w => chkAtomg w [6, 7] true
  | .fence w =>
    { c2 := [2, 3, 4].contains w.ord.toNat && w.sco.toNat ≤ 4 && w.off == 0 && w.g.prd == 0, c3 := w.sz == 0,
      c4 := isFF w.data.toNat && isFF w.base.toNat && isFF w.index.toNat, uni := true }
  | .rld w => chkRemote true w
  | .rst w => chkRemote false w
  | .ratomAdd w => chkRatom w 2 false
  | .ratomSub w => chkRatom w 2 false
  | .ratomMin w => chkRatom w 2 false
  | .ratomMax w => chkRatom w 2 false
  | .ratomAnd w => chkRatom w 6 false
  | .ratomOr w => chkRatom w 6 false
  | .ratomXor w => chkRatom w 6 false
  | .ratomExch w => chkRatom w 7 false
  | .ratomCas w => chkRatom w 7 true
  | .bra w => chkB l false w (w.cond == 0) (isFF w.a.toNat)
  | .brq w => chkB l true w (w.cond.toNat < 32 && !(l && w.cond.toNat ≥ 16)) (isFF w.a.toNat)
  | .brd w => chkB false false w (w.cond.toNat < 2) (isFF w.a.toNat)
  | .brs w => chkB l false w (w.cond.toNat ≤ 5) (isS l w.a.toNat)
  | .call w => chkB l false w (w.cond == 0) (if l then isS l w.a.toNat else isV l w.a.toNat && w.a.toNat % 2 == 0)
  | .ret w =>
    { c2 := w.md == 0 && w.ty == 0 && (l || w.g.prd == 0), c3 := true,
      c4 := isFF w.d.toNat && isFF w.b.toNat && isFF w.c.toNat &&
        (if l then isS l w.a.toNat else isV l w.a.toNat && w.a.toNat % 2 == 0), uni := true }
  | .jmpx w =>
    { c2 := w.md == 0 && w.ty == 0 && (l || w.g.prd == 0), c3 := true,
      c4 := isFF w.d.toNat && isFF w.b.toNat && isFF w.c.toNat &&
        (isS l w.a.toNat || (isV l w.a.toNat && w.a.toNat % 2 == 0)), uni := true }
  | .regang w =>
    { c2 := w.md == 0 && w.imm.toNat < 256 && w.g.prd == 0, c3 := true, c4 := isFF w.d.toNat && isFF w.a.toNat, uni := true }
  | .exit w => plain w
  | .nop w => plain w
  | .bara w =>
    chkCtl l w (isFF w.a.toNat || w.md == 0) (isB w.d.toNat) (isFF w.a.toNat || isSZ l w.a.toNat || isUSpec l w.a.toNat)
  | .barinit w => chkCtl l w (barinitMd w) (isB w.d.toNat) (isFF w.a.toNat || (isSZ l w.a.toNat && w.md.toNat < 128))
  | .barst w => chkCtl l w (w.md == 0) (isSZ l w.d.toNat) (isB w.a.toNat)
  | .tbar w => chkCtl l w (w.md == 0) (isB w.d.toNat) (isFF w.a.toNat)
  | .kinc w => chkCtl l w (isFF w.a.toNat || w.md == 0) (isK w.d.toNat) (isFF w.a.toNat || isSZ l w.a.toNat)
  | .kset w => chkCtl l w (isFF w.a.toNat || w.md == 0) (isK w.d.toNat) (isFF w.a.toNat || isSZ l w.a.toNat)
  | .krd w => chkCtl l w (w.md == 0) (isSZ l w.d.toNat) (isK w.a.toNat)
  | .time w => timeChk w (w.md == 0) (isSZ l w.d.toNat && isK w.a.toNat)
  | .waitt w => timeChk w (w.md.toNat < 2) (isK w.d.toNat && isSZ l w.a.toNat)
  | .phase w =>
    { c2 := w.md == 0 && w.imm.toNat < 16 && (l || w.g.prd == 0), c3 := true, c4 := isFF w.d.toNat && isFF w.a.toNat, uni := true }
  | .trig w => chkCtl l w (w.md == 0 && w.ty == 0) (isFF w.d.toNat) (isFF w.a.toNat)
  | .mma w =>
    { c2 := reqOk s c w.g && benOk w.ben w.bar && w.z39 == 0 && w.chk == 0 && w.tol == 0 && w.bscr == 0 && w.rl == 0 &&
        (w.ty.toNat == 15 || w.bsel == 0) && ringFits w.abase.toNat 1 (w.ty.toNat == 15) &&
        ringFits w.bbase.toNat 1 (w.ty.toNat == 15)
      c3 := tMma.contains w.ty.toNat
      c4 := isFF w.sk.toNat && isFF w.sd.toNat, uni := true }
  | .mloop w =>
    let q4 := w.ty.toNat == 15
    { c2 := reqOk s c w.g && benOk w.ben w.bar && w.z39 == 0 && w.bsel == 0 && (w.chk == 1 || w.tol == 0) &&
        (w.chk == 0 || w.za == 1) && (w.bscr == 0 || w.bbase == 0) && ringFits w.abase.toNat (w.rl.toNat + 1) q4 &&
        (w.bscr == 1 || ringFits w.bbase.toNat (w.rl.toNat + 1) q4)
      c3 := tMma.contains w.ty.toNat
      c4 := isS false w.sk.toNat && isS false w.sd.toNat, uni := true }
  | .mzero w => { c2 := reqOk s c w.g && bare w, c3 := true, c4 := isFF w.sk.toNat && isFF w.sd.toNat, uni := true }
  | .mdrain w => { c2 := reqOk s c w.g && bare w, c3 := true, c4 := isFF w.sk.toNat && isS false w.sd.toNat, uni := true }
  | .mstat w => { c2 := w.sel != 3 && w.g.prd == 0, c3 := true, c4 := isSZ false w.d.toNat, uni := true }
  | .mchk w => { c2 := w.sel.toNat < 2 && w.g.prd == 0, c3 := true, c4 := isSZ false w.d.toNat, uni := true }
  | .dpload w =>
    { c2 := reqOk s c w.g && benOk w.ben w.bar && w.nul == 0xFF &&
        (if w.tab == 1 then w.first.toNat + w.cnt.toNat + 1 ≤ 256 else w.cnt == 0 && w.first.toNat < 64)
      c3 := true, c4 := isS false w.src.toNat, uni := true }
  | .launch w =>
    { c2 := l || w.g.prd == 0, c3 := true,
      c4 := isSZ l w.d.toNat && isS l w.a.toNat && (isS l w.t.toNat || isFF w.t.toNat), uni := true }
  | .probe w =>
    let a := w.a.toNat
    let d := w.d.toNat
    { c2 := w.md == 0 && (isV false a || w.g.prd == 0), c3 := w.ty == 0,
      c4 := ((isV false a && a % 2 == 0 && (isV false d || isZ d)) || (isS false a && isSZ false d)) && isK w.b.toNat &&
        isFF w.c.toNat, uni := !isV false a }
  | .tinv w =>
    let k := w.md.toNat
    { c2 := k ≤ 2 && w.g.prd == 0, c3 := w.ty == 0,
      c4 := isK w.d.toNat && (isS false w.a.toNat || (k == 2 && isZ w.a.toNat)) &&
        (if k = 0 then isSZ false w.b.toNat else isFF w.b.toNat) && isFF w.c.toNat, uni := true }
  | .trap w => { c2 := w.md == 0 && w.imm.toNat < 65536, c3 := true, c4 := isFF w.d.toNat && isFF w.a.toNat }
  | .bkpt w => { c2 := w.md == 0 && w.imm.toNat < 65536, c3 := true, c4 := isFF w.d.toNat && isFF w.a.toNat }
  | .sysrd w =>
    { c2 := w.md == 0 && w.imm.toNat < 65536 && sysAssigned w.imm.toNat && w.g.prd == 0, c3 := true,
      c4 := isSZ false w.d.toNat && isK w.a.toNat, uni := true }
  | .syswr w =>
    { c2 := w.md == 0 && w.imm.toNat < 65536 && sysAssigned w.imm.toNat && w.g.prd == 0, c3 := true,
      c4 := isK w.d.toNat && isSZ false w.a.toNat, uni := true }
  | _ => { c2 := true, c3 := true, c4 := true, uni := true }
where
  /-- QSWPH, QSWPV, QSWPD, QBC (Table 6.4). -/
  quad (w : RF) (md : Bool) : Chk :=
    xchg w.g false md (w.ty.toNat == 6)
      ((isV l w.d.toNat || isZ w.d.toNat) && isV l w.a.toNat && isFF w.b.toNat && isFF w.c.toNat)
  /-- The SHFL forms (Table 6.4). -/
  shf (w : RF) : Chk :=
    xchg w.g false (w.md.toNat ≤ 4) (w.ty.toNat == 6)
      ((isV l w.d.toNat || isZ w.d.toNat) && isV l w.a.toNat && val l false w.b.toNat && isFF w.c.toNat)
  /-- LDS and STS (Table 9.2). -/
  scr (w : MF) (load : Bool) : Chk :=
    { c2 := (w.ord == 0 && w.sco == 0) || (w.sco == 1 && (w.ord == 1 || w.ord == (if load then 2 else 3))),
      c3 := w.sz.toNat ≤ 4, c4 := memRegs load false w }
  /-- LDG and STG (Table 10.5). -/
  glob (w : MF) (load : Bool) : Chk :=
    { c2 := (w.ord == 0 && w.sco == 0) || ((w.ord == 1 || w.ord == (if load then 2 else 3)) && w.sco.toNat ≤ 4),
      c3 := w.sz.toNat ≤ 4, c4 := memRegs load true w }
  /-- What COPY and COPYR share (Table 11.4). -/
  cpy (w : CopyF) : Bool :=
    benOk w.ben w.bar && (l || w.g.prd == 0) && (shapeOf s c w.shape.toNat).isSome && ownsChannel s c w.ch.toNat &&
      (w.sched == 0 || schedOf s c)
  /-- Source and destination addresses of a copy (Table 11.3). -/
  cpyRegs (w : CopyF) : Bool := isSZ l w.src.toNat && isS l w.dst.toNat
  /-- EXIT and NOP (Table 6.5): a TY other than 0 violates the table, so it fails check 2 (R141). -/
  plain (w : RF) : Chk :=
    { c2 := w.md == 0 && w.ty == 0, c3 := true,
      c4 := isFF w.d.toNat && isFF w.a.toNat && isFF w.b.toNat && isFF w.c.toNat }
  /-- TIME and WAITT (Table 18.8): every field but the registers is decided by check 2. -/
  timeChk (w : RF) (md regs : Bool) : Chk :=
    { c2 := md && w.ty == 0 && (l || w.g.prd == 0), c3 := true, c4 := regs && isFF w.b.toNat && isFF w.c.toNat, uni := true }
  /-- MZERO and MDRAIN: every other field zero (Table 12.3). -/
  bare (w : ReqF) : Bool :=
    w.pri == 0 && w.za == 0 && w.bscr == 0 && benOk w.ben w.bar && w.ty == 0 && w.chk == 0 && w.tol == 0 && w.z39 == 0 &&
      w.bsel == 0 && w.rl == 0 && w.bbase == 0 && w.abase == 0

/-- The guard of an instruction: PRD = 0 has PNG = 0 (R38). -/
def guardBits : Instr → Bool := fun i =>
  match encode i with
  | some (.inl w) => fld w 9 3 != 0 || fld w 12 1 == 0
  | _ => true

/-- The first decode check that fails: trap kind and subcode (Table 2.9). Register classes are those of the clause kind
that may hold the opcode, so that an opcode foreign to the clause reaches check 5 (log 9). -/
def decodeCheck (s : State) (c : Cur) (i : Instr) : Option (Nat × Nat) :=
  let lead := c.u.lead
  let op := opcodeOf i
  let l := if op = 0xD2 then true else lead && leadMay op
  let k := chk s c l i
  if !(guardBits i && k.c2) then some (1, 2)
  else if !k.c3 then some (1, 3)
  else if !k.c4 then some (1, 4)
  else if !kindMay lead op then some (1, 5)
  else if !c.hdr.getLsbD (4 + classOf op) then some (3, 0)
  else none

/-- Lanes of a fault record for an instruction's own trap: the issuing sub-gang's EXEC that passes the guard, all of it for a
uniform instruction; 0 for a lead unit (Table 15.4). -/
def trapLanes (s : State) (c : Cur) (uni : Bool) (g : Guard) : BitVec 32 :=
  if c.u.lead then 0 else maskPhys (activeLanes s c (if uni then { prd := 0, png := 0 } else g))

/-- The guard fields of a machine instruction. -/
def guardOfInstr (i : Instr) : Guard :=
  match encode i with
  | some (.inl w) => guardOf w
  | _ => { prd := 0, png := 0 }

/-- Is an instruction of the issuing warp uniform? -/
def instrUni (s : State) (c : Cur) (i : Instr) : Bool := (chk s c false i).uni

/-- Is an instruction word uniform whose reserved bits are not zero: as it is without them? The other formats with zero
fields hold uniform instructions. -/
def wordUni (s : State) (c : Cur) (w : Word64) : Bool :=
  match decode (w &&& 0x03FFFFFFFFFFFFFF#64), decode (w &&& 0xFFFFFFFF1FFFFFFF#64) with
  | .ok i, _ => instrUni s c i
  | _, .ok i => instrUni s c i
  | _, _ => true

end Sys2Proof.Machine
end

