-- ==== Sys2Proof/Machine/Clause.lean ====
section
/-! DEFINITION. Clauses: header fields and checks (R24, R30), the sub-gang a window serves (R120), eligibility
(R26, R196, R249, R296, R382), region entries (R156), the slots of an issuing clause (R27) and what happens at its end
(R121, R143, R144). -/

namespace Sys2Proof.Machine

/-! ### Header fields (Table 2.1) -/

/-- Instruction count minus one. -/
def hN (h : Word64) : Nat := (fld h 0 4).toNat
/-- Idle cycles before the first instruction. -/
def hPad (h : Word64) : Nat := (fld h 42 4).toNat
/-- Is it a region entry? -/
def hRgn (h : Word64) : Bool := h.getLsbD 12
/-- Address of the next clause header (R21). -/
def nextHeader (pc : Nat) (h : Word64) : Nat := pc + 8 * (hN h + 2)

/-- A word of the staged code image of a kernel (R336). -/
def codeWord (s : State) (kid off : Nat) : Word64 := BitVec.ofNat 64 (s.code.readN (codeAddr kid off) 8)

/-- Lowest quad of a mask; 8 for none. -/
def lowQuad (q : BitVec 8) : Nat := ((List.range 8).find? fun i => q.getLsbD i).getD 8

/-- The first header check that fails (Table 2.3): `size` is the image size in bytes. -/
def headerCause (s : State) (kid size : Nat) (lead : Bool) (pc : Nat) : Option Nat :=
  let h := codeWord s kid pc
  if pc % 8 ≠ 0 ∨ pc + 8 > size ∨ pc + 8 * (hN h + 2) > size then some 1
  else if (fld h 56 8).toNat ≠ 0xC7 then some 2
  else if (fld h 48 8).toNat ≠ 0 ∨ h.getLsbD 36 ∨ h.getLsbD 24 then some 3
  else if hPad h + hN h + 1 > 16 then some 4
  else if h.getLsbD 47 ≠ lead then some 5
  else if lead = true ∧ h.getLsbD 46 = true then some 6
  else if (List.range (hN h)).any (fun i =>
      let op := (opOf (codeWord s kid (pc + 8 * (i + 1)))).toNat
      0x180 ≤ op && op ≤ 0x187) then some 7
  else none

/-- Fetch the header at `pc` for the sub-gang whose lowest quad is `q`, at cycle `c` (R336). -/
def State.schedFetch (s : State) (u : UnitId) (q c : Nat) : State :=
  s.schedCyc u.die u.core c 2 (evU .clauseFetch u [q])

/-- Fetch the header of every sub-gang that has none. -/
def State.schedFetches (s : State) (x : ExecUnit) (c : Nat) : State :=
  x.gangs.foldl (fun s g => if g.hdr.isNone && !g.wait then s.schedFetch x.id (lowQuad g.quads) c else s) s

/-- EXEC of a sub-gang as physical lanes, for a fault record. -/
def gangExec (s : State) (x : ExecUnit) (g : SubGang) : BitVec 32 :=
  if x.id.lead then 0 else x.exec &&& quadLanes (protOf s x.id) g.quads

/-- The word number under which poison of a staged code word is kept (R392). -/
def poisonCode (a : Nat) : Nat := 2 * (2 ^ 60 + a / 8) + 1

/-! ### Service and eligibility -/

/-- The sub-gang a window serves (R120). -/
def served (x : ExecUnit) : Option SubGang :=
  let low (gs : List SubGang) : Option SubGang :=
    gs.foldl (fun a g => match a with
      | none => some g
      | some b => if lowQuad g.quads < lowQuad b.quads then some g else some b) none
  let cands := x.gangs.filter fun g => !g.wait
  let above := cands.filter fun g => x.pi < lowQuad g.quads || (x.split && x.pi == lowQuad g.quads)
  if above.isEmpty then low cands else low above

/-- Does an instruction word enter the stopper (Table 10.1)? STS does in team form (R190). -/
def entersStopper (w : Word64) : Bool :=
  let op := (opOf w).toNat
  (0x141 ≤ op && op ≤ 0x14A) || (0x14C ≤ op && op ≤ 0x156) || (0x10D ≤ op && op ≤ 0x110) || op == 0x1C7 || op == 0x194 ||
    op == 0x18D || op == 0x1CD || (op == 0x101 && (fld w 43 3).toNat == 1)

/-- Is it an engine request (R249)? -/
def isRequest (w : Word64) : Bool :=
  let op := (opOf w).toNat
  (0x1C0 ≤ op && op ≤ 0x1C3) || op == 0x1C6

/-- Stopper entries a unit owns (R196). -/
def stopperCap (x : ExecUnit) : Nat := if x.id.lead then 16 * x.wins.length else 112

/-- Does an operation hold a stopper entry of its unit (R195, R196)? -/
def Op.inStopper (o : Op) : Bool := o.ordinal != 0 && (o.stage == .held || o.stage == .released)

/-- Entries of the unit that are occupied (R196). -/
def stopperUsed (s : State) (u : UnitId) : Nat := (s.ops.filter fun o => o.u = u && o.inStopper).length

/-- The row of a warp in its engine's reservation table (R249). -/
def passRowNo (u : UnitId) : Nat := 4 * ((quartetCores (quartetOf u.core)).idxOf u.core) + u.slot

/-- The request in a warp's row, if there is one (R249). -/
def passRow? (s : State) (u : UnitId) : Option PassRow :=
  (s.engine u.die (quartetOf u.core)).rows.find? fun r => r.row == passRowNo u

/-- Are they one request? A warp has at most one grant a cycle, and at most one request not granted. -/
def PassRow.same (a b : PassRow) : Bool := a.row % 16 == b.row % 16 && a.grant == b.grant

/-- Is it the drain of a request? -/
def DrainRun.drains (d : DrainRun) (r : PassRow) : Bool := d.row == r.row % 16 && d.grant == r.grant

/-- Requests of a warp, those issued and not yet posted among them (R249). -/
def warpRows (s : State) (u : UnitId) : List PassRow :=
  (s.engine u.die (quartetOf u.core)).rows.filter fun r => r.row % 16 == passRowNo u

/-- Does the warp's row hold a posted request? A request counts from its issue on. -/
def rowPosted (s : State) (u : UnitId) : Bool := (warpRows s u).any fun r => r.st == 1

/-- Is a request of the warp unfinished: posted, granted, stepping, draining or frozen? -/
def rowBusy (s : State) (u : UnitId) : Bool := (warpRows s u).any fun r => (1 ≤ r.st && r.st ≤ 4) || r.st == 7

/-- Is an access of the unit pending at the probe (R296)? -/
def probing (s : State) (u : UnitId) : Bool :=
  s.ops.any fun o => o.u = u && o.stage != .done && o.stage != .cancelled && o.lanes.any fun l => l.st == .walking

/-- Records of the ring that are kept at cycle `c`: a record goes once the next newer one is more than D + 48 old (R382). -/
def pruneRing (ring : List RegionRec) (c : Nat) : List RegionRec :=
  match ring with
  | [] => []
  | a :: rest =>
    let go := rest.foldl (fun (st : List RegionRec × RegionRec × Bool) r =>
      if st.2.2 || st.2.1.cycle + Config.hold + 48 < c then (st.1, r, true) else (st.1 ++ [r], r, false)) ([a], a, false)
    go.1

/-- Free the old records of a unit, and advance Pr with the oldest kept (R137, R382). -/
def ExecUnit.prune (x : ExecUnit) (c : Nat) : ExecUnit :=
  let ring := pruneRing x.ring c
  let pr := match ring.getLast? with | some r => r.pp | none => x.pr
  { x with ring := ring, pr := pr, dq := x.dq.filter fun e => pr ≤ e.1 }

/-- Is the newest record that of the entry the unit issues next: a restart has set RGNC back by one (R157)? Numbers count
modulo 2^32 (R159). -/
def ExecUnit.reenters (x : ExecUnit) : Bool :=
  match x.ring with | r :: _ => r.number == (x.rgnc + 1) % 2 ^ 32 | [] => false

/-- Does the unit's next issue record a region entry: RGN is set, or the entry of its start or of its restart is due
(R150, R156, R157)? -/
def recordsEntry (x : ExecUnit) (h : Word64) : Bool := hRgn h || x.ring.isEmpty || x.reenters

/-- The instruction words of a clause. -/
def clauseWords (s : State) (kid pc : Nat) (h : Word64) : List Word64 :=
  (List.range (hN h + 1)).map fun i => codeWord s kid (pc + 8 * (i + 1))

/-- One enabled counter wait holds (R26). -/
def waitK (g : Group) (h : Word64) (en lvl id c : Nat) : Bool :=
  !h.getLsbD en || (kValue g (fld h id 4).toNat c).v ≤ (fld h lvl 6).toNat

/-- The room that the pushes of a lead clause need in every queue (R138). -/
def pushRoom (s : State) (g : Group) (ws : List Word64) (c : Nat) : Bool :=
  (List.range g.slots.length).all fun n =>
    let need := (ws.filter fun w => (opOf w).toNat == 0xD2 &&
      ((fld w 52 1).toNat == 1 || (fld w 50 2).toNat == n)).length
    need == 0 || (match s.unit? (warpId g n) with
      | some x => need + (x.ps - (x.prune c).pr) ≤ 16
      | none => true)

/-- Is the clause eligible in the window that begins at cycle `w0` (R26, R136, R138, R196, R249, R296, R382)? -/
def eligible (s : State) (g : Group) (x : ExecUnit) (h : Word64) (ws : List Word64) (w0 : Nat) : Bool :=
  waitK g h 13 18 14 w0 && waitK g h 25 30 26 w0 &&
    (!h.getLsbD 37 || (bValue g (fld h 38 4).toNat w0).passed x.id.rank) &&
    (!h.getLsbD 46 || (0 < w0 && 0 < x.dqn (w0 - 1))) &&
    (ws.filter entersStopper).length + stopperUsed s x.id ≤ stopperCap x &&
    (!ws.any isRequest || !rowPosted s x.id) &&
    (!recordsEntry x h ||
      (!rowBusy s x.id && !probing s x.id &&
        ((x.prune w0).ring.length < 8 || x.ring.isEmpty || x.reenters))) &&
    (!x.id.lead || pushRoom s g ws w0)

/-- The first period boundary, in its local ticks, that a unit at path distance `d` meets after the notice has reached it: it stops
there (R355, step 3). -/
def Lay.stopAt (y : Lay) (d : Nat) : Nat :=
  y.baseTick + ((y.noteTick - d - y.baseTick) / max y.period 1 + 1) * y.period

/-- Is the unit stopped for a resynchronisation of its lay at a window's start (R355, R356)? -/
def layStops (s : State) (g : Group) (w0 : Nat) : Bool :=
  match (s.kernelOf g).bind fun k => k.lay with
  | none => false
  | some l =>
    let y := s.lay l
    y.noticed && (y.state == .faulted || y.state == .resyncing || y.state == .abandoned) &&
      y.stopAt (coreDist s g.die g.core) ≤ localTime s g.die g.core (instantOf s g.die g.core w0)

/-- May the unit issue in a window that begins at cycle `w0`? -/
def mayIssue (s : State) (g : Group) (x : ExecUnit) (w0 : Nat) : Bool :=
  !x.ended && x.stop.isNone && x.laySt == 0 && x.holdUntil ≤ w0 && (g.state == .running || g.state == .faulted) &&
    ((s.ctx g.ctx).state == .running || (s.ctx g.ctx).state == .faulted) && (s.die x.id.die).st == 0 &&
    !layStops s g w0 && g.start ≤ w0 && !(s.zone (zoneOf x.id.die x.id.core)).rolling

/-- The record of a region entry (R122, R137, R156, R382). -/
def regionRecord (x : ExecUnit) (pc cycle number : Nat) : RegionRec :=
  { entry := pc, cycle := cycle, number := number, gangs := x.gangs, exec := x.exec, marked := x.marked, pi := x.pi,
    split := x.split, pp := x.pp, push := x.push, nEnter := x.nEnter, nBar := x.nBar, nCpy := x.nCpy }

/-- Is the entry numbered `n` the first new one after a lay restart? What the run before kept beyond it is issued anew (R418). -/
def ExecUnit.leavesRerun (x : ExecUnit) (n : Nat) : Bool :=
  match x.rerun with | some m => n == (m + 1) % 2 ^ 32 | none => false

/-- Record a region entry (R156). An entry issued again records the same number. Replays are counted from the restart's target
(R385); in a rerun of a period they end at the first new entry (R418). -/
def ExecUnit.enter (x : ExecUnit) (pc cycle : Nat) : ExecUnit :=
  let n := (x.rgnc + 1) % 2 ^ 32
  let again := x.reenters
  let r := regionRecord x pc cycle n
  let x := if !x.leavesRerun n then x
    else { x with rerun := none, keepEnter := min x.keepEnter x.nEnter, keepBar := min x.keepBar x.nBar, keepCpy := min x.keepCpy x.nCpy }
  { x with rgnc := n, ring := r :: (if again then x.ring.drop 1 else x.ring),
           mark := match x.mark with | some m => if regionBefore m n then none else some m | none => none }

/-- The period of a lay that a local tick lies in (R348, R355). -/
def Lay.perAt (y : Lay) (t : Nat) : Nat := (t - y.baseTick) / max y.period 1 - y.shift

/-- The first region entry that a unit of a scheduled kernel records in a period is copied into its period record (R354). -/
def State.periodRecord (s : State) (g : Group) (x : ExecUnit) (cycle : Nat) : ExecUnit :=
  match (s.kernelOf g).bind (fun k => k.lay), x.ring with
  | some l, r :: _ =>
    let per := (s.lay l).perAt (localTime s x.id.die x.id.core (instantOf s x.id.die x.id.core cycle))
    if x.perDone = per + 1 then x else { x with perPrev := x.perCur, perCur := some (per, r), perDone := per + 1 }
  | _, _ => x

/-- Entries that a lay restart kept beyond a new entry's counts are replayed no more (R418): their ordinals leave the range that a
renewed count can reach. -/
def State.forgetKept (s : State) (x : ExecUnit) : State :=
  { s with ops := s.ops.map fun o =>
      if o.u = x.id ∧ x.nEnter < o.ordinal ∧ o.ordinal < 2 ^ 40 then { o with ordinal := o.ordinal + 2 ^ 40 } else o }

/-- Begin a clause in the window of cycle `w0`: record the entry, take the header, issue position 0 at w0 + PAD (R27). -/
def beginClause (s : State) (g : Group) (x : ExecUnit) (y : SubGang) (h : Word64) (w0 : Nat) : State :=
  let c0 := w0 + hPad h
  let entry := recordsEntry x h
  let x2 := if entry then s.periodRecord g ((x.enter y.pc c0).prune c0) c0 else x
  let x3 := { x2 with
    pi := lowQuad y.quads, split := false,
    gangs := x2.gangs.map fun z => if z.quads = y.quads then { z with hdr := none } else z
    clause := some { w0 := w0, pc := y.pc, hdr := h, quads := y.quads, xfer := .fall, reqs := 0 } }
  let s := s.modUnit x.id fun _ => x3
  let s := if entry && x.leavesRerun ((x.rgnc + 1) % 2 ^ 32) then s.forgetKept x else s
  let s := if entry && !x.id.lead then s.settleLines x.id.die x.id.core x.id.slot (some x3.rgnc) else s
  s.sched (max s.now (instantOf s x.id.die x.id.core c0)) 9 (.slot x.id 0)

/-- A window of a unit at cycle `w0`: whether a clause issues in it, and the state after. -/
def window (s : State) (x : ExecUnit) (w0 : Nat) : Bool × State :=
  match s.group? x.gid with
  | none => (false, s)
  | some g =>
    if x.clause.isSome && x.resume.isNone then (false, s)
    else if !mayIssue s g x w0 then (false, s.schedWindow x (w0 + 1))
    else
      match x.resume, x.clause with
      | some i, some r =>
        let s := s.modUnit x.id fun x => { x with resume := none, clause := some { r with w0 := w0 } }
        (true, s.sched (max s.now (instantOf s x.id.die x.id.core (w0 + hPad r.hdr + i))) 9 (.slot x.id i))
      | _, _ =>
        match served x with
        | none => (false, s)
        | some y =>
          let sIdle := (s.modUnit x.id fun x => { x with pi := lowQuad y.quads, split := false }).schedWindow x (w0 + 1)
          match y.hdr with
          | none => (false, sIdle)
          | some h =>
            let ws := clauseWords s g.kid y.pc h
            if (!x.id.lead || x.issued.isEmpty || x.lastIssue + 48 ≤ w0) && eligible s g x h ws w0 then
              (true, beginClause s g x y h w0)
            else (false, sIdle)

/-- Is the unit's group frozen (R315)? Its core's clocks are stopped. -/
def unitFrozen (s : State) (x : ExecUnit) : Bool :=
  match s.group? x.gid with | some g => g.state == .frozen | none => true

/-- Requests of a warp that wait for its first window after a resume (R259). -/
def awaiting (s : State) (u : UnitId) : List PassRow := (warpRows s u).filter fun r => r.await && r.u == u

/-- Does a warp's next clause wait, in the window at `w0`, for a request of its own that in turn waits for the warp: for its counter or
its barrier, by a wait that is not met, or, at a region entry, for its end? -/
def waitsOwn (s : State) (x : ExecUnit) (w0 : Nat) : Bool :=
  match (served x).bind fun y => y.hdr, s.group? x.gid with
  | some h, some g => (awaiting s x.id).any fun r =>
      (!waitK g h 13 18 14 w0 && (fld h 14 4).toNat == r.k) || (!waitK g h 25 30 26 w0 && (fld h 26 4).toNat == r.k) ||
        (h.getLsbD 37 && r.bar == some (fld h 38 4).toNat && !(bValue g (fld h 38 4).toNat w0).passed x.id.rank) || recordsEntry x h
  | _, _ => false

/-- The requests of a resumed warp go on from its window at `wr` (R259, R282): step s reads at wr + Δ, a drain starts at wr from
its next row. -/
def State.wakePasses (s : State) (u : UnitId) (wr : Nat) : State :=
  let q := quartetOf u.core
  (awaiting s u).foldl (fun s r =>
    let t : Int := (wr + r.delta : Nat) - (32 * r.step + r.sigma : Nat)
    let dr := (s.engine u.die q).drain.filter fun x => x.drains r
    let next := match dr with | some x => x.dones.length | none => 0
    let s := s.modEngine u.die q fun e => { e with
      rows := e.rows.map fun x => if x.same r then
        { x with await := false, delta := 0, t0 := if r.st = 4 then x.t0 else t } else x
      drain := e.drain.map fun x => if x.drains r then { x with start := wr, next := next } else x }
    let at' (s : State) (c ph : Nat) (i : Instr) (n : List Nat) : State := s.schedCyc u.die u.core c ph (ev i n)
    if r.st ≠ 4 then at' s (wr + r.delta) 9 .passStep [u.die, q, r.row % 16, r.grant]
    else if dr.isSome then at' s (wr + 24) 0 .drainRow [u.die, q, next, wr]
    else at' s wr 20 .drainStart [u.die, q, r.row % 16, r.grant]) s

/-- CLAUSE_ISSUE: at the start of a window of a warp its waits are tested and, if it is eligible, a clause issues; the
window counts as busy or idle (R26, R27, R120, R151). -/
def execClauseIssue (s : State) : Host.Outcome State Fault Refusal :=
  let u := s.arg.u
  match s.unit? u with
  | none => .next s
  | some x =>
    let w0 := s.ucyc u
    if x.ended || w0 % 16 ≠ 0 || !x.wins.contains (w0 / 16 % 4) || unitFrozen s x then .next s
    else
      let r := window s x w0
      let t := if r.1 || waitsOwn s x w0 then r.2.wakePasses u w0 else r.2
      .next (t.modCore u.die u.core fun c => c.credit (w0 / 16) r.1)

/-- LEAD_CLAUSE_ISSUE: a window of a lead stream, at least 48 cycles after its last instruction (R136). -/
def execLeadClauseIssue (s : State) : Host.Outcome State Fault Refusal :=
  let u := s.arg.u
  match s.unit? u with
  | none => .next s
  | some x =>
    let w0 := s.ucyc u
    if x.ended || w0 % 16 ≠ 0 || !x.wins.contains (w0 / 16 % 4) || unitFrozen s x then .next s
    else .next (window s x w0).2

/-! ### The end of a clause -/

/-- Exited and absent quads hold no live lane: the quads of any sub-gang are the unexited ones (R118, R125). -/
def unexited (x : ExecUnit) : BitVec 8 := x.gangs.foldl (fun m g => m ||| g.quads) 0

/-- The quads of a mask that still have a lane in EXEC. -/
def liveQuads (prot : Bool) (exec : BitVec 32) (qs : BitVec 8) : BitVec 8 :=
  BitVec.ofFnLE fun q : Fin 8 =>
    qs.getLsbD q.val && (exec &&& quadLanes prot (1#8 <<< q.val)) != 0

/-- Merge every sub-gang waiting at `a` when their masks are covered (R143); `next` continues after the clause there. -/
def regangAt (prot : Bool) (x : ExecUnit) (a next : Nat) : Option ExecUnit :=
  let wg := x.gangs.filter fun g => g.wait && g.pc == a
  let set := wg.foldl (fun m g => m ||| g.quads) (0 : BitVec 8)
  let need := wg.foldl (fun m g => m ||| g.wmask ||| g.quads) (0 : BitVec 8) &&& unexited x
  if wg.isEmpty || need &&& ~~~set != 0 then none
  else
    let lanes := quadLanes prot set
    let exec := x.exec &&& ~~~(x.marked &&& lanes)
    let qs := liveQuads prot exec set
    let rest := x.gangs.filter fun g => !(g.wait && g.pc == a)
    let merged := if qs = 0 then [] else [{ pc := next, quads := qs, wait := false, wmask := 0, hdr := none : SubGang }]
    some { x with exec := exec, gangs := rest ++ merged }

/-- Test the addresses at which sub-gangs wait until none passes (R143): a quad that exits tests the others again. -/
def regangAll (s : State) (kid : Nat) (prot : Bool) : Nat → ExecUnit → ExecUnit
  | 0, x => x
  | n + 1, x =>
    match (x.gangs.filter fun g => g.wait).findSome? fun g =>
        regangAt prot x g.pc (nextHeader g.pc (codeWord s kid g.pc)) with
    | none => x
    | some y => regangAll s kid prot n y

/-- The sub-gangs that leave a clause: one for each target (R121). -/
def splitGangs (ts : List (Nat × Nat)) : List SubGang :=
  let tgts := ts.foldl (fun a t => if a.contains t.2 then a else a ++ [t.2]) []
  tgts.map fun t =>
    { pc := t, quads := (ts.filter fun x => x.2 = t).foldl (fun m x => m ||| (1#8 <<< x.1)) 0, wait := false, wmask := 0,
      hdr := none }

/-- The lead stream or warp has ended (R144): rolled lines of a warp are settled (R186) and the group drains once its
last unit has ended (Table 7.2). -/
def State.unitEnd (s : State) (x : ExecUnit) (cyc : Nat) : State :=
  let s := s.modUnit x.id fun x => { x with ended := true, clause := none, gangs := [], exec := 0 }
  let s := if x.id.lead then s else s.settleLines x.id.die x.id.core x.id.slot none
  if (s.unitsOf x.gid).all (fun y => y.ended) then
    let s := s.modGroup x.gid fun g =>
      if g.state = GState.running ∨ g.state = GState.faulted then { g with state := .draining } else g
    s.schedCyc x.id.die x.id.core (cyc + 1) 20 (ev .groupRetire [x.gid])
  else s

/-- The boundary of the clause that issued its last instruction at cycle `cyc` (R121, R143, R144). -/
def clauseEnd (s : State) (x : ExecUnit) (r : ClauseRun) (cyc : Nat) : State :=
  match s.group? x.gid with
  | none => s
  | some g =>
    let next := nextHeader r.pc r.hdr
    let rest := x.gangs.filter fun y => y.quads ≠ r.quads
    let one (pc : Nat) : SubGang := { pc := pc, quads := r.quads, wait := false, wmask := 0, hdr := none }
    let parts : List SubGang := match r.xfer with
      | .fall => [one next]
      | .goto pc => [one pc]
      | .quads ts => splitGangs ts
      | .regang m => [{ pc := r.pc, quads := r.quads, wait := true, wmask := m ||| r.quads, hdr := none }]
    let x1 : ExecUnit := { x with clause := none, gangs := rest ++ parts, split := decide (1 < parts.length) }
    if !x.id.lead && x1.exec == 0 then s.unitEnd x1 cyc
    else
      let x2 := match r.xfer with
        | .regang _ => regangAll s g.kid g.prot 9 x1
        | _ => x1
      if x2.gangs.isEmpty then s.unitEnd x2 cyc
      else if x2.gangs.all (fun y => y.wait) then
        let gs := sortBy (fun a b => lowQuad a.quads ≤ lowQuad b.quads) x2.gangs
        let masks := gs.foldr (fun y a => y.quads.toNat + 256 * a) 0
        let s := s.modUnit x.id fun _ => { x2 with clause := some r }
        s.takeTrap x.id
          { kind := 5, sub := gs.length, cycle := cyc, time := localTime s x.id.die x.id.core s.now,
            pc := r.pc + 8 * (hN r.hdr + 1), idx := hN r.hdr, quads := r.quads, clause := none, lanes := 0,
            detail := [masks], sgpc := gs.map fun y => y.pc, final := false, byWalk := false, waitOnly := false, waits := [] }
      else
        let s := s.modUnit x.id fun _ => x2
        (s.schedFetches x2 (cyc + 24)).schedWindow x2 (cyc + 1)

/-! ### The slots of a clause -/

/-- Take the slot `idx` of the unit's clause: the word it holds, with the slot as the one being issued. -/
def slotWord (s : State) (u : UnitId) (idx : Nat) : Option (Word64 × State) :=
  match s.unit? u with
  | none => none
  | some x =>
    match x.clause, s.group? x.gid with
    | some r, some g =>
      let cyc := s.ucyc u
      if x.stop.isSome || x.ended || r.w0 + hPad r.hdr + idx ≠ cyc || hN r.hdr < idx then none
      else
        let pc := r.pc + 8 * (idx + 1)
        some (codeWord s g.kid pc,
          { s with cur := some { u := u, cycle := cyc, pc := pc, idx := idx, hdr := r.hdr, quads := r.quads } })
    | _, _ => none

/-- An instruction word that does not decode: the trap of checks 1 and 2 (Table 2.9). -/
def slotIllegal (s : State) (sub : Nat) (w : Word64) : State :=
  match s.cur with
  | none => s
  | some c => trapCur s c 1 sub (if sub = 1 then maskPhys (activeLanes s c (guardOf w)) else trapLanes s c (wordUni s c w) (guardOf w)) []

/-- After an issued slot: note it for R383, then issue the next position or end the clause (R27, R144). -/
def slotDone (s : State) : State :=
  match s.cur with
  | none => s
  | some c =>
    let s : State := { s with cur := none }
    match s.unit? c.u with
    | none => s
    | some x =>
      if x.stop.isSome then s
      else
        let land := (s.pend.filter fun p => p.u = c.u && p.issue = c.cycle && p.op = 0).foldl (fun a p => max a p.land) 0
        let x := { x with lastIssue := c.cycle,
                          issued := { cycle := c.cycle, land := land } :: x.issued.filter fun i => c.cycle < i.cycle + 1024 }
        let s := s.modUnit c.u fun _ => x
        match x.clause with
        | none => s
        | some r =>
          if x.id.lead && x.ended then s.unitEnd x c.cycle
          else if c.idx < hN r.hdr then
            s.sched (max s.now (instantOf s c.u.die c.u.core (c.cycle + 1))) 9 (.slot c.u (c.idx + 1))
          else clauseEnd s x r c.cycle

end Sys2Proof.Machine
end

