-- ==== Sys2Proof/Machine/Fate.lean ====
section
/-! DEFINITION. What ends or repeats work: fault records (R311, R312), discarded and cancelled operations (R198), aborted
engine requests (R260), the region restart (R157), consumed errors (R392), the kill of a team (R153) and the schedule
fault (R353). -/

namespace Sys2Proof.Machine

/-! ### Fault records -/

/-- A record joins its die's holding buffer, the records of traps in the order of their trapping cycles, and is written when the
ring has room (R312). -/
def State.queueRecord (s : State) (r : FaultRec) : State :=
  let s := s.modDie r.die fun d => { d with hold := insertBy (fun a b => !a.async && !b.async && a.cycle < b.cycle) r d.hold }
  s.schedEv (max s.now r.due) 25 (ev .faultRecordWrite [r.die, r.ctx])

/-- The record of a stopped unit (Table 15.4). It may be written once every trap of its cycle on the die has become final
(R312, R314): at the instant at which the core farthest on the mesh reaches that cycle. -/
def stopRecord (s : State) (x : ExecUnit) (ctx : Nat) (t : Stop) : FaultRec :=
  { ctx := ctx, kind := t.kind, sub := t.sub, die := x.id.die, core := x.id.core, slot := x.id.slot, lead := x.id.lead,
    async := false, pc := t.pc, time := t.time, rgnc := x.rgnc, lanes := t.lanes.toNat, detail := t.detail,
    entry := (match x.ring with | r :: _ => r.entry | [] => 0), sgpc := t.sgpc, cycle := t.cycle,
    due := instantOf s x.id.die 255 t.due }

/-- An asynchronous record with its TIME, written at once (R310, R314); RGNC and ENTRY are those of the unit of group `gid` that
raised it, and 0 where no unit did (`gid` 0; groups are numbered from 1). -/
def State.asyncRecordAt (s : State) (time ctx kind sub : Nat) (u : UnitId) (gid pc : Nat) (detail : List Nat) : State :=
  let x := (s.unit? u).filter fun x => x.gid == gid
  s.queueRecord
    { ctx := ctx, kind := kind, sub := sub, die := u.die, core := u.core, slot := u.slot, lead := u.lead, async := true,
      pc := pc, time := time, rgnc := (match x with | some y => y.rgnc | none => 0), lanes := 0,
      detail := detail,
      entry := (match x with | some y => (match y.ring with | r :: _ => r.entry | [] => 0) | none => 0), sgpc := [] }

/-- An asynchronous record of a unit at its local TIME. -/
def State.asyncRecord (s : State) (ctx kind sub : Nat) (u : UnitId) (gid pc : Nat) (detail : List Nat) : State :=
  s.asyncRecordAt (localTime s u.die u.core s.now) ctx kind sub u gid pc detail

/-! ### Operations -/

/-- The decrement of an operation's counter, once (R170). -/
def State.opUncount (s : State) (o : Op) (cyc : Nat) : State :=
  if o.kdone then s
  else
    let s := s.modOp o.id fun o => { o with kdone := true }
    match o.k with
    | some k => s.kAdd o.u k (-1) cyc
    | none => s

/-- Cancel an operation: nothing of it lands, its counter falls, its barrier gets no arrival (R157, R198). -/
def State.cancelOp (s : State) (o : Op) (cyc : Nat) : State :=
  let s := s.opUncount o cyc
  let s := o.binds.foldl (fun s b => match b.k with | some k => s.kAdd b.u k (-1) cyc | none => s) s
  s.modOp o.id fun o => { o with stage := .cancelled, binds := [] }

/-- Is the operation still running? -/
def Op.live (o : Op) : Bool := o.stage != .done && o.stage != .cancelled

/-- Is it held in the stopper, so that it can still be discarded (R197)? -/
def Op.held (o : Op) : Bool := o.ordinal != 0 && o.stage == .held

/-- Discard the held entries that satisfy `p` (R198); a discarded entry is not counted as kept (R385), and the post of a
discarded copy and the test of a discarded TBAR go with it: neither has an effect anywhere. -/
def State.discardHeld (s : State) (cyc : Nat) (p : Op → Bool) : State :=
  (s.ops.filter fun o => o.held && p o).foldl (fun s o =>
    let s := (s.cancelOp o cyc).modOp o.id fun o => { o with ordinal := o.ordinal + 2 ^ 40 }
    if o.bar.isSome then s.modGroup o.gid fun g =>
      { g with bLog := g.bLog.filter fun b =>
          !(b.u = o.u && (b.ev == .post || b.ev == .tbarTest) && b.issue = o.issue + 4 && some b.bar == o.bar) }
    else s) s

/-- The issuing side of an operation that a restart keeps: its counter falls now and its results land only through a
replay (R157, R385). -/
def State.detachOp (s : State) (o : Op) (cyc : Nat) : State := s.opUncount o cyc

/-- The key of a warp's check word in an engine (R265): its group and its row. -/
def PassRow.checkKey (r : PassRow) : Nat := 16 * r.gid + r.row % 16

/-- The flags of a pass are raised in its zone at cycle `cyc` (R246, R323). -/
def State.passFlags (s : State) (r : PassRow) (cyc : Nat) : State :=
  match s.group? r.gid with
  | none => s
  | some g =>
    if r.flags = 0 then s
    else
      let q := quartetOf r.u.core
      let s : State := { s with heldFlags := s.heldFlags ++
        [{ die := r.u.die, q := q, core := r.u.core, ctx := g.ctx, cycle := cyc, flags := r.flags, oor := 0 }] }
      s.schedCyc r.u.die r.u.core (cyc + Config.hold) 20 (ev .flagReachContext [r.u.die, q])

/-- Abort engine requests (R260): no further step or row; the counter falls, the posting is withdrawn, the flags of a pass that
stepped are raised (R246), and the row reads as one with no request. A tile keeps what it holds. -/
def State.abortPasses (s : State) (die q cyc : Nat) (p : PassRow → Bool) : State :=
  let e := s.engine die q
  let gone := e.rows.filter fun r => p r && ((1 ≤ r.st && r.st ≤ 4) || r.st == 7)
  let s := gone.foldl (fun s r => (s.passFlags r cyc).kAdd r.u r.k (-1) cyc) s
  let s := gone.foldl (fun s r => s.modGroup r.gid fun g =>
    { g with bLog := g.bLog.filter fun b => !(b.u = r.u && b.ev == .post && b.issue = r.post && !b.instr) }) s
  if gone.isEmpty then s
  else s.modEngine die q fun e =>
    let keys := (gone.filter fun r => r.chk).map PassRow.checkKey
    { e with rows := e.rows.filter fun r => !(gone.any fun x => x.row % 16 = r.row % 16)
             checks := keys.foldl Tab.del e.checks
             aborted := keys ++ e.aborted.filter fun k => !keys.contains k
             drain := e.drain.filter fun d => !gone.any d.drains }

/-! ### The region restart (R157) -/

/-- Highest ordinal among the unit's entries that are not discarded; a discarded entry has left the range. -/
def keptOrdinal (s : State) (u : UnitId) : Nat :=
  ((s.ops.filter fun o => o.u = u && o.ordinal < 2 ^ 40).map fun o => o.ordinal).foldl max 0

/-- Is it a CPY-class operation (R241)? -/
def OpKind.isCopy (k : OpKind) : Bool := k == .copy || k == .copyr || k == .cpyst || k == .cpycan

/-- The CPY-class count up to which a unit's commands are kept, counted from a record's (R241). -/
def keptCopies (s : State) (u : UnitId) (r : RegionRec) : Nat :=
  r.nCpy + (s.ops.filter fun o => o.u = u && o.kind.isCopy && r.nEnter < o.ordinal && o.ordinal < 2 ^ 40).length

/-- Restore a region record (R122, R137, R138, R172, R382): newer records go, counts are renewed, what was kept is
replayed. `bar` is how many of the unit's barrier and counter instructions stay applied. -/
def ExecUnit.restore (x : ExecUnit) (r : RegionRec) (keptEnter keptCpy bar cyc : Nat) : ExecUnit :=
  { x with
    clause := none, resume := none, stop := none,
    gangs := r.gangs.map fun g => { g with hdr := none },
    exec := r.exec, marked := r.marked, pi := r.pi, split := r.split, pp := r.pp, push := r.push,
    rgnc := (r.number + 2 ^ 32 - 1) % 2 ^ 32, ended := false,
    ring := r :: x.ring.filter fun y => y.cycle < r.cycle
    nEnter := r.nEnter, nBar := r.nBar, nCpy := r.nCpy,
    keepEnter := keptEnter, keepBar := bar, keepCpy := keptCpy,
    holdUntil := max x.holdUntil (cyc + 1) }

/-- Decrements of a unit's counters that were to come later are made at the restart (R157). -/
def State.advanceCounts (s : State) (x : ExecUnit) (cyc : Nat) : State :=
  s.modGroup x.gid fun g =>
    let late := fun c : KChange => c.u = x.id && cyc < c.cyc && !c.instr && c.delta == -1
    { g with kLog := (g.kLog.filter late).foldl (fun l c => insertK { c with cyc := cyc } l) (g.kLog.filter fun c => !late c) }

/-- The replays of a unit bound since a record's cycle are dropped: their counters fall now, and nothing lands through them
(R157, R385). -/
def State.dropBinds (s : State) (u : UnitId) (since cyc : Nat) : State :=
  let mine (b : Replay) : Bool := b.u = u && since ≤ b.issue
  let s := (s.ops.flatMap fun o => o.binds.filter mine).foldl (fun s b =>
    match b.k with | some k => s.kAdd b.u k (-1) cyc | none => s) s
  { s with ops := s.ops.map fun o => { o with binds := o.binds.filter fun b => !mine b } }

/-- The region restart of a unit at cycle `cyc` to record `r`; entries in `disc` are discarded, `bar` barrier and counter
instructions stay. Passes of the warp are aborted (R260). The caller says when it resumes. -/
def State.restart (s : State) (u : UnitId) (r : RegionRec) (cyc : Nat) (disc : Op → Bool) (bar : Nat) : State :=
  match s.unit? u with
  | none => s
  | some x =>
    let s : State := { s with pend := s.pend.filter fun w => !(w.u = u && (w.op = 0 || r.cycle ≤ w.issue)) }
    let s := (s.advanceCounts x cyc).discardHeld cyc fun o => o.u = u && disc o
    let s := (s.ops.filter fun o => o.u = u && o.live && r.cycle ≤ o.issue).foldl (fun s o =>
      if o.ordinal = 0 then s.cancelOp o cyc else s.detachOp o cyc) s
    let s := s.dropBinds u r.cycle cyc
    let s := if u.lead then s else s.abortPasses u.die (quartetOf u.core) cyc fun p => p.u = u
    let kept := keptOrdinal s u
    let copies := keptCopies s u r
    let s := s.modUnit u fun x => x.restore r (if kept ≤ r.nEnter then r.nEnter else kept) copies bar cyc
    let s := s.modGroup x.gid fun g => if g.state = GState.draining then { g with state := .running } else g
    s.unfaultGroup x.gid

/-- A restart for any cause but a strike (R157, R172): the newest record; held entries since its cycle are discarded and
every barrier and counter instruction stays. -/
def State.restartNewest (s : State) (u : UnitId) (cyc : Nat) : State :=
  match s.unit? u with
  | none => s
  | some x =>
    match x.ring with
    | [] => s
    | r :: _ => s.restart u r cyc (fun o => r.cycle ≤ o.issue) (max x.keepBar x.nBar)

/-- Let a restarted unit go on at its first window at or after cycle `c`: its sub-gangs' headers are fetched (R336). -/
def State.resumeUnit (s : State) (u : UnitId) (c : Nat) : State :=
  match s.unit? u with
  | none => s
  | some x =>
    let s := s.modUnit u fun x => { x with holdUntil := max x.holdUntil c }
    (s.schedFetches x (s.ucyc u)).schedWindow x c

/-! ### Schedule faults (R353) -/

/-- Path distance of the unit that word 4 of a record of kind 9 names, in ticks (Tables 15.4, 18.1): cores and copy
channels at their core, a gateway at the Wyusk port (log 30); 8, which no record names, is the PCI Express controller. -/
def unitDist (s : State) (u : UnitId) (w4 : Nat) : Nat :=
  let l := if u.die = s.originDie then 0 else 40
  let n := w4 / 256
  match w4 % 16 with
  | 1 => l + 2 * (n % 16) + 30 * (n / 16) + 4
  | 2 => l + 2 * (15 + n)
  | 3 => l + 30
  | 5 => l + 4 * (n % 8 + n / 8)
  | 6 => l
  | 7 => l + 30
  | 8 => l + 8
  | _ => l + meshTicks u.core

/-- Local TIME at a path distance now (R18). -/
def timeAt (s : State) (d : Nat) : Nat := (s.now / Config.unitsPerTick + s.timeAdj + 2 ^ 64 - d) % 2 ^ 64

/-- Raise a schedule fault against a lay that runs or resynchronises: a record of kind 9, and the module's own notice.
`detail` is word 4, and for cause 4 also the translation word in word 6. A fallback cause of the instant is not lost to another
(R356). -/
def State.schedFault (s : State) (l cause : Nat) (u : UnitId) (pc : Nat) (detail : List Nat) : State :=
  let y := s.lay l
  if y.state = .running ∨ y.state = .faulted ∨ y.state = .resyncing then
    let t := timeAt s (unitDist s u (detail.getD 0 0))
    let gid := if detail.getD 0 0 % 16 = 0 then (match s.unit? u with | some x => x.gid | none => 0) else 0
    let s := s.asyncRecordAt t (y.ctl % 64) 9 cause u gid pc detail
    let s := s.modLay l fun y =>
      { y with cause := if y.cause = 7 ∨ y.cause = 8 then y.cause else cause, lastCause := cause
               faultTick := if y.noticed then y.faultTick else t }
    s.schedEv s.now 20 (ev .faultNotice [l])
  else s

/-- The lay of a unit's kernel, when that kernel runs under one. -/
def layOf (s : State) (u : UnitId) : Option Nat :=
  ((s.groupOf u).bind s.kernelOf).bind fun k => if k.lpb.sched then some (k.lay.getD 0) else none

/-! ### Kills (R153, R318) -/

/-- Discard a group: its units go, its held entries are discarded, its copies cancelled, its passes aborted. One that has
retired stays retired (Table 7.2). -/
def State.discardGroup (s : State) (gid : Nat) : State :=
  match s.group? gid with
  | none => s
  | some g =>
    if g.state = .retired then s else
    let cyc := s.cyc g.die g.core
    let us := s.unitsOf gid
    let s := s.abortPasses g.die (quartetOf g.core) cyc fun p => p.gid = gid
    let s := s.discardHeld cyc fun o => o.gid = gid
    let s := (s.ops.filter fun o => o.gid = gid && o.live).foldl (fun s o =>
      if o.ordinal = 0 then s.cancelOp o cyc
      else if o.copy.isSome then s.schedEv s.now 20 (ev .copyCancel [o.id])
      else s.detachOp o cyc) s
    let s := us.foldl (fun s x => if x.id.lead || x.id.sh then s else s.settleLines x.id.die x.id.core x.id.slot none) s
    let s := us.foldl (fun s x => s.clearRegs x.id) s
    { s with units := s.units.filter fun x => x.gid ≠ gid
             groups := s.groups.map fun y => if y.gid = gid then
               { y with state := .discarded, slots := [], kLog := [], bLog := [] } else y }

/-- Discard a team whole: every member, and the scratch that a retired member still held (R153, R154). -/
def State.discardTeam (s : State) (t : Team) : State :=
  let s := (t.members ++ t.twins).foldl State.discardGroup s
  { s with groups := s.groups.map fun g => if g.tid = t.tid ∧ g.state = .retired then { g with ssize := 0 } else g }

/-- End the boost lease of a die, as a kill or a pre-emption does (R398): it expires now. -/
def State.endLease (s : State) (d : Nat) : State :=
  match (s.die d).boost with
  | none => s
  | some _ => (s.modDie d fun x => { x with boost := some 0 }).schedEv s.now 20 (ev .boostExpiry [d])

/-- Is a group on its die: placed and neither retired nor discarded? -/
def Group.onDie (g : Group) : Bool :=
  g.state == .placed || g.state == .running || g.state == .faulted || g.state == .frozen || g.state == .draining

/-- The leases of the dies that hold a group of a context end: it is pre-empted (R398). -/
def State.endLeases (s : State) (n : Nat) : State :=
  (s.groups.filter fun g => g.ctx = n && g.onDie).foldl (fun s g => s.endLease g.die) s

/-- Kill a team with a barrier code (R153, R168): every member is discarded; it relaunches unless `final`. A lease of a die that holds a
group of it ends (R398). -/
def State.killTeam (s : State) (tid : Nat) (final : Bool) : State :=
  match s.team? tid with
  | none => s
  | some t =>
    if t.state = .killed ∨ t.state = .retired then s
    else
      let on := (t.members ++ t.twins).any fun m => match s.group? m with | some g => g.onDie | none => false
      let s := (if on then s.endLease t.die else s).discardTeam t
      let s := match s.kernel? t.kid with
        | some k => s.unfaultCtx k.ctx
        | none => s
      let s := s.modTeam tid fun t =>
        { t with state := .killed, killAt := s.now, tb := t.tb.map fun b => { b with err := if b.err = 0 then 6 else b.err } }
      let s := match (s.kernel? t.kid) with
        | some k => if k.lpb.sched && !final then
            (s.schedFault (k.lay.getD 0) 5 { die := t.die, core := 0, lead := false, slot := 0 } 0 [6]) else s
        | none => s
      if final then s else s.schedEv s.now 20 (ev .teamRelaunch [tid])

/-- Put a queue into error (Table 16.4); an earlier error stays. -/
def State.queueErr (s : State) (q code : Nat) : State :=
  s.modQueue q fun x => if x.en && x.err = 0 then { x with err := code } else x

/-- The core number of the queue block among issuers of writes: the slot is the queue (R330). -/
def queueCore : Nat := 256

/-- The write of a SIGNAL ends in a permanent fault: the record never completes, and its queue enters error (Table 16.5). -/
def State.signalFault (s : State) (o : Op) : State :=
  let q := o.u.slot
  if !(s.queue q).pend.any fun p => p.1 = o.id then s
  else
    let s := s.modQueue q fun x =>
      { x with pend := x.pend.filter fun p => p.1 ≠ o.id, outst := x.outst - 1, behind := x.behind || x.err = 0 }
    s.queueErr q 3

/-- The team of a group. -/
def State.teamOf (s : State) (gid : Nat) : Option Team := (s.group? gid).bind fun g => s.team? g.tid

/-- An uncorrectable error consumed by a unit (R392): a record of kind 14 with the source and the address; the team is
killed; UECNT counts it. -/
def State.consume (s : State) (u : UnitId) (gid source addr pc : Nat) : State :=
  match s.group? gid with
  | none => s
  | some g =>
    let s := s.asyncRecord g.ctx 14 source u gid pc [addr]
    let s : State := { s with uecnt := if s.uecnt % 2 ^ 32 = 2 ^ 32 - 1 then s.uecnt else s.uecnt + 1 }
    s.killTeam g.tid false

/-- Consume an uncorrectable word of a place to which the spec gives no address (a register, a tile, drain memory, a stopper
entry, a shadow image): DETAIL word 4 is a free value (log 79). -/
def State.consumeAt (s : State) (u : UnitId) (gid source pc : Nat) : State :=
  State.consume { s with freeCtr := s.freeCtr + 1 } u gid source (Config.freeNat s.freeCtr) pc

end Sys2Proof.Machine
end

