-- ==== Sys2Proof/Machine/Poison.lean ====
section
/-! DEFINITION. The issue of an instruction (R46): its decode checks, then the uncorrectable words that it reads as
operands (R53, R392), then its effect. -/

namespace Sys2Proof.Machine

/-- V registers that one operand spans. -/
def spanV (wide : Bool) : Nat := if wide then 2 else 1

/-- V registers that the data of a format M store span (Table 9.2). -/
def spanSz (sz : BitVec 3) : Nat := if sz = 3 then 2 else if sz = 4 then 4 else 1

/-- One source field. -/
def src1 (w : RF) (n : Nat) : List (Nat × Nat) := [(w.a.toNat, n)]
/-- Two source fields. -/
def src2 (w : RF) (n m : Nat) : List (Nat × Nat) := [(w.a.toNat, n), (w.b.toNat, m)]
/-- Three source fields. -/
def src3 (w : RF) (n m k : Nat) : List (Nat × Nat) := [(w.a.toNat, n), (w.b.toNat, m), (w.c.toNat, k)]
/-- Three fields at the width of TY. -/
def srcTy (w : RF) : List (Nat × Nat) := src3 w (spanV (isWide w.ty.toNat)) (spanV (isWide w.ty.toNat)) (spanV (isWide w.ty.toNat))
/-- Address and data of a scratch or global access. -/
def srcMem (w : MF) (store glob : Bool) : List (Nat × Nat) :=
  [(w.base.toNat, spanV glob), (w.index.toNat, 1)] ++ (if store then [(w.data.toNat, spanSz w.sz)] else [])
/-- Address, value and comparand of an atomic. -/
def srcAtom (w : RF) (glob : Bool) : List (Nat × Nat) :=
  src3 w (spanV glob) (spanV (isWide w.ty.toNat)) (spanV (isWide w.ty.toNat))
/-- Partner, address, value and comparand of a remote atomic. -/
def srcRatom (w : RatomF) : List (Nat × Nat) :=
  [(w.p.toNat, 1), (w.a.toNat, 2), (w.b.toNat, spanV (isWide w.ty.toNat)), (w.c.toNat, spanV (isWide w.ty.toNat))]

/-- The register fields an instruction reads as operands, each with the V registers it spans. A field that names no
register file, or 0xFF, is read from none. XMOV and RDLANE have their own lines in `sourcePoisoned`. -/
def srcRegs : Instr → List (Nat × Nat)
  | .iadd w | .isub w | .imul w | .imulh w | .imad w | .imin w | .imax w | .iabs w | .ineg w | .and w | .or w | .xor w
  | .andn w | .not w | .popc w | .clz w | .ffs w | .brev w | .mov w | .matchLanes w => srcTy w
  | .iaddc w | .icmp w | .sel w => src3 w (spanV (isWide w.ty.toNat)) (spanV (isWide w.ty.toNat)) 1
  | .shl w | .shr w | .sar w | .rotl w => src2 w (spanV (isWide w.ty.toNat)) 1
  | .bfe w | .bfi w | .plop w => src3 w 1 1 1
  | .movhi w => [(w.a.toNat, 2)]
  | .lea w => src2 w 2 1
  | .iaddi w => [(w.a.toNat, spanV (w.md.toNat % 2 = 1))]
  | .imuli w | .andi w | .ori w | .xori w | .icmpi w | .syswr w => [(w.a.toNat, 1)]
  | .fadd w | .fsub w | .fmul w | .ffma w | .fmin w | .fmax w | .fabs w | .fneg w | .fcmp w | .frnd w | .fclass w
  | .fscale w | .fdot2 w | .dot4 w | .cvtf w | .cvtfi w | .pack2 w | .unpk w | .qdesc w | .frcp w | .frsq w | .fsqrt w
  | .fexp2 w | .flog2 w | .fsin w | .fcos w | .ftanh w | .dqnt w | .qswph w | .qswpv w | .qswpd w | .qbc w | .shfl w
  | .shflu w | .shfld w | .shflx w | .vote w | .ballot w | .lpopc w | .wreduce w | .wscan w | .wrlane w | .lpush w =>
    src3 w 1 1 1
  | .cvti w => src1 w (spanV (isWide (w.md.toNat / 8)))
  | .pack4 w => src2 w 2 2
  | .qnt w => src1 w (if w.ty.toNat = 8 then 4 else 2) ++ [(w.d.toNat, 1)]
  | .lds w => srcMem w false false
  | .sts w => srcMem w true false
  | .ldsb w => srcMem w false false
  | .ldg w => srcMem w false true
  | .stg w => srcMem w true true
  | .atomsAdd w | .atomsSub w | .atomsMin w | .atomsMax w | .atomsAnd w | .atomsOr w | .atomsXor w | .atomsExch w
  | .atomsCas w => srcAtom w false
  | .atomgAdd w | .atomgSub w | .atomgMin w | .atomgMax w | .atomgAnd w | .atomgOr w | .atomgXor w | .atomgExch w
  | .atomgCas w => srcAtom w true
  | .rld w => [(w.base.toNat, 1), (w.index.toNat, 2)]
  | .rst w => [(w.base.toNat, 1), (w.index.toNat, 2), (w.data.toNat, spanSz w.sz)]
  | .ratomAdd w | .ratomSub w | .ratomMin w | .ratomMax w | .ratomAnd w | .ratomOr w | .ratomXor w | .ratomExch w
  | .ratomCas w => srcRatom w
  | .copy w | .copyr w => [(w.src.toNat, 1), (w.dst.toNat, 1), (w.seq.toNat, 1)]
  | .cpyst w => [(w.val.toNat, 1), (w.addr.toNat, 1)]
  | .brq w => [(0xA0 + w.cond.toNat % 8, 1)]
  | .brs w => [(w.a.toNat, 1)]
  | .ret w | .jmpx w => [(w.a.toNat, 2)]
  | .bara w | .barinit w | .kinc w | .kset w | .waitt w => src1 w 1
  | .mloop w => [(w.sk.toNat, 1), (w.sd.toNat, 1)]
  | .mdrain w => [(w.sd.toNat, 1)]
  | .dpload w => [(w.src.toNat, 1)]
  | .launch w => [(w.a.toNat, 1), (w.t.toNat, 1)]
  | .probe w => src1 w 2
  | .tinv w => src2 w 1 1
  | _ => []

/-- Is a register that a unit reads marked (R53)? V and P registers are read in the given lanes. -/
def regPoisoned (s : State) (u : UnitId) (ls : List Nat) (r n : Nat) : Bool :=
  if isV u.lead r then (List.range n).any fun k => ls.any fun l => s.arrPoisoned 0 (vKey u (r + k) l) 1
  else if isS u.lead r then (if u.lead then s.arrPoisoned 2 (gKey u r) 1 else s.arrPoisoned 1 (sKey u (r - 0x80)) 1)
  else if isP r then ls.any fun l => s.arrPoisoned 3 (pKey u (r - 0xA0) l) 1
  else false

/-- The lanes in which an instruction reads its operands: those that compute in groups 0 to 2, active lanes elsewhere,
lane 0 of a lead stream (R60, R61). -/
def readLanes (s : State) (c : Cur) (i : Instr) : List Nat :=
  if c.u.lead then (if guardLead s c.u (guardOfInstr i) then [0] else [])
  else (List.range 32).filter fun l =>
    if opcodeOf i < 0x100 then laneCompute s c (guardOfInstr i) l else laneActive s c (guardOfInstr i) l

/-- The lanes in which an instruction reads its first source field: an exchange reads its source lanes whatever their state
(R129-R131), a vote or a reduction the lanes that contribute (R133, R134), an indirect branch lane 4q of each quad (R142), any
other the lanes `ls` of its operands. -/
def firstLanes (s : State) (c : Cur) (i : Instr) (ls : List Nat) : List Nat :=
  let p := protOf s c.u
  let visible (f : Nat → Nat → Nat) : List Nat := ls.filterMap fun l =>
    let v := f (visLane p l) l
    if v < visCount p then some (physLane p v l) else none
  let quad (f : Nat → Nat) : List Nat := visible fun v _ => v / 4 * 4 + f (v % 4)
  let shfl (w : RF) (op : Nat) : List Nat := visible fun v l =>
    shflSrc op (segWidth (w.md.toNat % 8)) v ((readField s c w.b.toNat l false).toNat % 32)
  match i with
  | .qswph _ => quad fun j => j ^^^ 1
  | .qswpv _ => quad fun j => j ^^^ 2
  | .qswpd _ => quad fun j => j ^^^ 3
  | .qbc w => quad fun _ => w.md.toNat % 4
  | .shfl w => shfl w 0
  | .shflu w => shfl w 1
  | .shfld w => shfl w 2
  | .shflx w => shfl w 3
  | .vote w | .ballot w | .wreduce w | .wscan w | .qnt w => activeLanes s c w.g
  | .ret _ | .jmpx _ => if c.u.lead then ls
    else ((List.range 8).filter fun q => c.quads.getLsbD q).map fun q => if p then 8 * q else 4 * q
  | _ => ls

/-- Does the instruction read an uncorrectable register (R53, R392)? The guard counts in every lane that it decides in: those of
EXEC and, in groups 0 to 2, the helper lanes of their quads (R60); an instruction that acts in no lane reads no other operand,
but for a uniform one of a warp, which reads its S registers (R59). -/
def sourcePoisoned (s : State) (c : Cur) (i : Instr) : Bool :=
  !s.poison.isEmpty &&
    (let g := guardOfInstr i
     let ls := readLanes s c i
     let ex := if c.u.lead then [0] else (List.range 32).filter fun l =>
       if opcodeOf i < 0x100 then laneCompute s c { prd := 0, png := 0 } l else (execMask s c).getLsbD l
     let regs := srcRegs i
     (g.prd != 0 && regPoisoned s c.u ex (0xA0 + g.prd.toNat) 1) ||
       ((!ls.isEmpty || (!c.u.lead && g.prd == 0 && instrUni s c i)) &&
        (((regs.take 1).any fun x => regPoisoned s c.u (firstLanes s c i ls) x.1 x.2) ||
         ((regs.drop 1).any fun x => regPoisoned s c.u ls x.1 x.2) ||
         (match i with
          | .rdlane w =>
            let p := protOf s c.u
            let n := (readField s c w.b.toNat 0 false).toNat % 32
            regPoisoned s c.u [] w.b.toNat 1 ||
              (n < visCount p && regPoisoned s c.u [physLane p n 0] w.a.toNat (spanV (isWide w.ty.toNat)))
          | .xmov w =>
            (match s.groupOf c.u with
             | some x => regPoisoned s (warpId x (w.md.toNat % 4)) ls w.a.toNat 1
             | none => false)
          | _ => false))))

/-- An uncorrectable register of the issuing unit is consumed (R53). -/
def consumeRegister (s : State) (c : Cur) : State :=
  s.consumeAt c.u (match s.unit? c.u with | some x => x.gid | none => 0) 1 c.pc

/-- Issue an instruction (R46): the first failed check traps with its lanes; an uncorrectable operand is consumed (R53);
otherwise its effect `f` happens. Without an issuing unit nothing can be issued. -/
def issue (i : Instr) (s : State) (f : Cur → State) : Host.Outcome State Fault Refusal :=
  match s.cur with
  | none => .fault .noIssuingUnit
  | some c =>
    match decodeCheck s c i with
    | some k => .next (trapCur s c k.1 k.2 (trapLanes s c (instrUni s c i) (guardOfInstr i)) [])
    | none => if sourcePoisoned s c i then .next (consumeRegister s c) else .next (f c)

end Sys2Proof.Machine
end

