-- ==== Sys2Proof/Machine/Integer.lean ====
section
/-! DEFINITION. Group 0: integer, logic, shift, bit-field, compare, select and move instructions (R64-R77). Each lands
4 cycles after issue and raises no flag. -/

namespace Sys2Proof.Machine

/-- Width of an integer or bit type. -/
def tyBits (ty : Nat) : Nat := if isWide ty then 64 else 32

/-- An operand read as its type says (R64). -/
def intOf (ty : Nat) (x : Word64) : Int :=
  if ty = 2 then sgn 32 x.toNat else if ty = 4 then sgn 64 x.toNat else ((x.toNat % 2 ^ tyBits ty : Nat) : Int)

/-- Smallest and largest value of an integer type (R66). -/
def intRange (ty : Nat) : Int × Int :=
  if ty = 2 ∨ ty = 4 then (-(2 ^ (tyBits ty - 1) : Nat), (2 ^ (tyBits ty - 1) : Nat) - 1)
  else (0, (2 ^ tyBits ty : Nat) - 1)

/-- The result of R66: saturated to the type's range, or its low bits. -/
def intResult (ty : Nat) (st : Bool) (x : Int) : Word64 :=
  let r := intRange ty
  BitVec.ofNat 64 (wrap (tyBits ty) (if st then sat x r.1 r.2 else x))

/-- Relation codes of Table 3.6 on integers. -/
def intCond (cond : Nat) (a b : Int) : Bool :=
  match cond with
  | 0 => a == b
  | 1 => a != b
  | 2 => a < b
  | 3 => a ≤ b
  | 4 => b < a
  | _ => b ≤ a

/-- Combine modes of Table 3.6. -/
def combine (m : Nat) (t c : Bool) : Bool :=
  match m with
  | 0 => t
  | 1 => t && c
  | 2 => t || c
  | _ => t != c

/-- Operand `i` of the ones read. -/
def opnd (xs : List Word64) (i : Nat) : Word64 := xs.getD i 0

/-- A group 0 instruction of one source. -/
def int1 (s : State) (c : Cur) (w : RF) (dw aw : Bool) (f : Word64 → Word64) : State :=
  alu s c w.g [w.d.toNat] [(w.a.toNat, aw)] 4 fun xs => ([(w.d.toNat, dw, f (opnd xs 0))], 0)

/-- A group 0 instruction of two sources. -/
def int2 (s : State) (c : Cur) (w : RF) (dw aw bw : Bool) (f : Word64 → Word64 → Word64) : State :=
  alu s c w.g [w.d.toNat] [(w.a.toNat, aw), (w.b.toNat, bw)] 4 fun xs =>
    ([(w.d.toNat, dw, f (opnd xs 0) (opnd xs 1))], 0)

/-- Two integers of the instruction's type, saturating when MOD[0] says so (R66). -/
def arith2 (s : State) (c : Cur) (w : RF) (f : Int → Int → Int) : State :=
  let ty := w.ty.toNat
  let wd := isWide ty
  int2 s c w wd wd wd fun a b => intResult ty (w.md.getLsbD 0) (f (intOf ty a) (intOf ty b))

/-- One integer of the instruction's type (R66). -/
def arith1 (s : State) (c : Cur) (w : RF) (f : Int → Int) : State :=
  let ty := w.ty.toNat
  let wd := isWide ty
  int1 s c w wd wd fun a => intResult ty (w.md.getLsbD 0) (f (intOf ty a))

/-- Bitwise logic on two operands (R68). -/
def logic2 (s : State) (c : Cur) (w : RF) (f : Word64 → Word64 → Word64) : State :=
  let wd := isWide w.ty.toNat
  int2 s c w wd wd wd f

/-- The low `w` bits of a word. -/
def low (w : Nat) (x : Nat) : Nat := x % 2 ^ w

/-- Shift by `n` as R69: 0 SHL, 1 SHR, 2 SAR, 3 ROTL. -/
def shiftBits (op w a n : Nat) : Nat :=
  if op = 3 then
    let k := n % w
    low w (a * 2 ^ k + a / 2 ^ (w - k))
  else if w ≤ n then (if op = 2 ∧ a / 2 ^ (w - 1) % 2 = 1 then 2 ^ w - 1 else 0)
  else if op = 0 then low w (a * 2 ^ n)
  else if op = 1 then a / 2 ^ n
  else wrap w (sgn (w - n) (a / 2 ^ n))

/-- A shift instruction: the amount is b[31:0], or MOD[5:0] when MOD[7] is set (R69). -/
def shift (s : State) (c : Cur) (w : RF) (op : Nat) : State :=
  let wd := isWide w.ty.toNat
  let bits := tyBits w.ty.toNat
  if w.md.toNat ≥ 128 then
    int1 s c w wd wd fun a => BitVec.ofNat 64 (shiftBits op bits a.toNat (w.md.toNat % 64))
  else int2 s c w wd wd false fun a b => BitVec.ofNat 64 (shiftBits op bits a.toNat b.toNat)

/-- Number of set bits among the low `n`. -/
def popCount (x : Nat) (n : Nat) : Nat := ((List.range n).filter fun i => x.testBit i).length

/-- BFE of R70. -/
def bitExtract (signed : Bool) (a b : Nat) : Nat :=
  let pos := b % 256
  let len := b / 256 % 256
  if len = 0 ∨ 32 ≤ pos then 0
  else
    let n := min len (32 - pos)
    let f := a / 2 ^ pos % 2 ^ n
    if signed then wrap 32 (sgn n f) else f

/-- BFI of R70. -/
def bitInsert (a b c : Nat) : Nat :=
  let pos := b % 256
  let len := b / 256 % 256
  if len = 0 ∨ 32 ≤ pos then c
  else
    let n := min len (32 - pos)
    c % 2 ^ pos + (a % 2 ^ n) * 2 ^ pos + c / 2 ^ (pos + n) * 2 ^ (pos + n)

/-- 1 or 0. -/
def bit64 (b : Bool) : Word64 := if b then 1 else 0

/-- An I-format instruction of group 0 (R77). -/
def immInt (s : State) (c : Cur) (w : IF) (wide : Bool) (f : Word64 → Word64) : State :=
  alu s c w.g [w.d.toNat] [(w.a.toNat, wide)] 4 fun xs => ([(w.d.toNat, wide, f (opnd xs 0))], 0)

/-- IADD: a + b, wrapped or saturated (R66). -/
def execIadd (w : RF) (s : State) : Host.Outcome State Fault Refusal :=
  issue (.iadd w) s fun c =>
    arith2 s c w fun a b => a + b

/-- ISUB: a - b (R66). -/
def execIsub (w : RF) (s : State) : Host.Outcome State Fault Refusal :=
  issue (.isub w) s fun c =>
    arith2 s c w fun a b => a - b

/-- IMUL: a * b (R66). -/
def execImul (w : RF) (s : State) : Host.Outcome State Fault Refusal :=
  issue (.imul w) s fun c =>
    arith2 s c w fun a b => a * b

/-- IMULH: the upper half of the product, floor (a * b / 2^w) (R66). -/
def execImulh (w : RF) (s : State) : Host.Outcome State Fault Refusal :=
  issue (.imulh w) s fun c =>
    arith2 s c w fun a b => a * b / ((2 ^ tyBits w.ty.toNat : Nat) : Int)

/-- IMAD: a * b + c, rounded once (R66). -/
def execImad (w : RF) (s : State) : Host.Outcome State Fault Refusal :=
  issue (.imad w) s fun c =>
    let ty := w.ty.toNat
    let wd := isWide ty
    alu s c w.g [w.d.toNat] [(w.a.toNat, wd), (w.b.toNat, wd), (w.c.toNat, wd)] 4 fun xs =>
      ([(w.d.toNat, wd, intResult ty (w.md.getLsbD 0)
          (intOf ty (opnd xs 0) * intOf ty (opnd xs 1) + intOf ty (opnd xs 2)))], 0)

/-- IMIN: the smaller (R66). -/
def execImin (w : RF) (s : State) : Host.Outcome State Fault Refusal :=
  issue (.imin w) s fun c =>
    arith2 s c w fun a b => if b < a then b else a

/-- IMAX: the larger (R66). -/
def execImax (w : RF) (s : State) : Host.Outcome State Fault Refusal :=
  issue (.imax w) s fun c =>
    arith2 s c w fun a b => if a < b then b else a

/-- IADDC: a + b + carry, with a carry-out predicate that P0 discards (R67). DEDUCED (log 14): one that names a carry-out
predicate is lane-wise in a warp clause, also where no register field of it is. -/
def execIaddc (w : RF) (s : State) : Host.Outcome State Fault Refusal :=
  issue (.iaddc w) s fun c =>
    let wd := isWide w.ty.toNat
    let bits := tyBits w.ty.toNat
    let co := w.md.toNat % 8
    let ds := if co = 0 then [w.d.toNat] else [w.d.toNat, 0xA0 + co]
    alu s c w.g ds [(w.a.toNat, wd), (w.b.toNat, wd), (w.c.toNat, false)] 4 fun xs =>
      let t := low bits (opnd xs 0).toNat + low bits (opnd xs 1).toNat + (opnd xs 2).toNat % 2
      ((w.d.toNat, wd, BitVec.ofNat 64 (low bits t)) ::
        (if co = 0 then [] else [(0xA0 + co, false, bit64 (2 ^ bits ≤ t))]), 0)

/-- IABS: |a| (R66). -/
def execIabs (w : RF) (s : State) : Host.Outcome State Fault Refusal :=
  issue (.iabs w) s fun c =>
    arith1 s c w fun a => ((a.natAbs : Nat) : Int)

/-- INEG: -a (R66). -/
def execIneg (w : RF) (s : State) : Host.Outcome State Fault Refusal :=
  issue (.ineg w) s fun c =>
    arith1 s c w fun a => -a

/-- AND (R68). -/
def execAnd (w : RF) (s : State) : Host.Outcome State Fault Refusal :=
  issue (.and w) s fun c =>
    logic2 s c w fun a b => a &&& b

/-- OR (R68). -/
def execOr (w : RF) (s : State) : Host.Outcome State Fault Refusal :=
  issue (.or w) s fun c =>
    logic2 s c w fun a b => a ||| b

/-- XOR (R68). -/
def execXor (w : RF) (s : State) : Host.Outcome State Fault Refusal :=
  issue (.xor w) s fun c =>
    logic2 s c w fun a b => a ^^^ b

/-- ANDN: a AND NOT b (R68). -/
def execAndn (w : RF) (s : State) : Host.Outcome State Fault Refusal :=
  issue (.andn w) s fun c =>
    logic2 s c w fun a b => a &&& ~~~b

/-- NOT (R68). -/
def execNot (w : RF) (s : State) : Host.Outcome State Fault Refusal :=
  issue (.not w) s fun c =>
    int1 s c w (isWide w.ty.toNat) (isWide w.ty.toNat) fun a => ~~~a

/-- SHL: left, zero fill (R69). -/
def execShl (w : RF) (s : State) : Host.Outcome State Fault Refusal :=
  issue (.shl w) s fun c =>
    shift s c w 0

/-- SHR: right, zero fill (R69). -/
def execShr (w : RF) (s : State) : Host.Outcome State Fault Refusal :=
  issue (.shr w) s fun c =>
    shift s c w 1

/-- SAR: right, sign fill (R69). -/
def execSar (w : RF) (s : State) : Host.Outcome State Fault Refusal :=
  issue (.sar w) s fun c =>
    shift s c w 2

/-- ROTL: rotate left (R69). -/
def execRotl (w : RF) (s : State) : Host.Outcome State Fault Refusal :=
  issue (.rotl w) s fun c =>
    shift s c w 3

/-- BFE: extract a field, sign-extended for I32 (R70). -/
def execBfe (w : RF) (s : State) : Host.Outcome State Fault Refusal :=
  issue (.bfe w) s fun c =>
    int2 s c w false false false fun a b => BitVec.ofNat 64 (bitExtract (w.ty.toNat == 2) a.toNat b.toNat)

/-- BFI: insert a field into c (R70). -/
def execBfi (w : RF) (s : State) : Host.Outcome State Fault Refusal :=
  issue (.bfi w) s fun c =>
    alu s c w.g [w.d.toNat] [(w.a.toNat, false), (w.b.toNat, false), (w.c.toNat, false)] 4 fun xs =>
      ([(w.d.toNat, false, BitVec.ofNat 64 (bitInsert (opnd xs 0).toNat (opnd xs 1).toNat (opnd xs 2).toNat))], 0)

/-- POPC: set bits (R71). -/
def execPopc (w : RF) (s : State) : Host.Outcome State Fault Refusal :=
  issue (.popc w) s fun c =>
    let wd := isWide w.ty.toNat
    let bits := tyBits w.ty.toNat
    int1 s c w wd wd fun a => BitVec.ofNat 64 (popCount a.toNat bits)

/-- CLZ: zero bits above the highest set bit (R71). -/
def execClz (w : RF) (s : State) : Host.Outcome State Fault Refusal :=
  issue (.clz w) s fun c =>
    let wd := isWide w.ty.toNat
    let bits := tyBits w.ty.toNat
    int1 s c w wd wd fun a => BitVec.ofNat 64 (if a = 0 then bits else bits - 1 - Nat.log2 a.toNat)

/-- FFS: index of the lowest set bit, all ones for 0 (R71). -/
def execFfs (w : RF) (s : State) : Host.Outcome State Fault Refusal :=
  issue (.ffs w) s fun c =>
    let wd := isWide w.ty.toNat
    let bits := tyBits w.ty.toNat
    int1 s c w wd wd fun a => 
      BitVec.ofNat 64 (((List.range bits).find? fun i => a.getLsbD i).getD (2 ^ bits - 1))

/-- BREV: bits reversed (R71). -/
def execBrev (w : RF) (s : State) : Host.Outcome State Fault Refusal :=
  issue (.brev w) s fun c =>
    let wd := isWide w.ty.toNat
    let bits := tyBits w.ty.toNat
    int1 s c w wd wd fun a => 
      BitVec.ofNat 64 (((List.range bits).filter fun i => a.getLsbD i).foldl (fun t i => t + 2 ^ (bits - 1 - i)) 0)

/-- ICMP: compare, combine with a predicate, write 1 or 0 (R72). -/
def execIcmp (w : RF) (s : State) : Host.Outcome State Fault Refusal :=
  issue (.icmp w) s fun c =>
    let ty := w.ty.toNat
    let wd := isWide ty
    let comb := w.md.toNat / 8 % 4
    let cs := if comb = 0 then [] else [(w.c.toNat, false)]
    alu s c w.g [w.d.toNat] ([(w.a.toNat, wd), (w.b.toNat, wd)] ++ cs) 4 fun xs =>
      let t := intCond (w.md.toNat % 8) (intOf ty (opnd xs 0)) (intOf ty (opnd xs 1))
      ([(w.d.toNat, false, bit64 (combine comb t ((opnd xs 2).getLsbD 0)))], 0)

/-- SEL: a when c[31:0] is not zero, else b (R73). -/
def execSel (w : RF) (s : State) : Host.Outcome State Fault Refusal :=
  issue (.sel w) s fun c =>
    let wd := isWide w.ty.toNat
    alu s c w.g [w.d.toNat] [(w.a.toNat, wd), (w.b.toNat, wd), (w.c.toNat, false)] 4 fun xs =>
      ([(w.d.toNat, wd, if opnd xs 2 = 0 then opnd xs 1 else opnd xs 0)], 0)

/-- MOV (R74). -/
def execMov (w : RF) (s : State) : Host.Outcome State Fault Refusal :=
  issue (.mov w) s fun c =>
    int1 s c w (isWide w.ty.toNat) (isWide w.ty.toNat) fun a => a

/-- MOVI: an immediate, sign-extended into S or G with SX (R77). -/
def execMovi (w : IF) (s : State) : Host.Outcome State Fault Refusal :=
  issue (.movi w) s fun c =>
    let v : Word64 := if w.md.getLsbD 0 then w.imm.signExtend 64 else w.imm.setWidth 64
    alu s c w.g [w.d.toNat] [] 4 fun _ => ([(w.d.toNat, !isV c.u.lead w.d.toNat, v)], 0)

/-- MOVHI: (i << 32) OR a[31:0] (R77). -/
def execMovhi (w : IF) (s : State) : Host.Outcome State Fault Refusal :=
  issue (.movhi w) s fun c =>
    immInt s c w true fun a => (w.imm.setWidth 64 <<< 32) ||| (a &&& 0xFFFFFFFF#64)

/-- LEA: a + (index << shift) (R76). -/
def execLea (w : RF) (s : State) : Host.Outcome State Fault Refusal :=
  issue (.lea w) s fun c =>
    int2 s c w true true false fun a b =>
      let i : Word64 := if w.md.getLsbD 3 then (b.setWidth 32).signExtend 64 else b
      a + (i <<< (w.md.toNat % 8))

/-- IADDI: a + SignExtend(i), I32 or I64 (R77). -/
def execIaddi (w : IF) (s : State) : Host.Outcome State Fault Refusal :=
  issue (.iaddi w) s fun c =>
    let ty := if w.md.getLsbD 0 then 4 else 2
    immInt s c w (isWide ty) fun a => intResult ty (w.md.getLsbD 1) (intOf ty a + w.imm.toInt)

/-- IMULI: a * i as IMUL.I32 (R77). -/
def execImuli (w : IF) (s : State) : Host.Outcome State Fault Refusal :=
  issue (.imuli w) s fun c =>
    immInt s c w false fun a => intResult 2 (w.md.getLsbD 0) (intOf 2 a * w.imm.toInt)

/-- ANDI (R77). -/
def execAndi (w : IF) (s : State) : Host.Outcome State Fault Refusal :=
  issue (.andi w) s fun c =>
    immInt s c w false fun a => a &&& w.imm.setWidth 64

/-- ORI (R77). -/
def execOri (w : IF) (s : State) : Host.Outcome State Fault Refusal :=
  issue (.ori w) s fun c =>
    immInt s c w false fun a => a ||| w.imm.setWidth 64

/-- XORI (R77). -/
def execXori (w : IF) (s : State) : Host.Outcome State Fault Refusal :=
  issue (.xori w) s fun c =>
    immInt s c w false fun a => a ^^^ w.imm.setWidth 64

/-- ICMPI: signed compare with an immediate (R77). -/
def execIcmpi (w : IF) (s : State) : Host.Outcome State Fault Refusal :=
  issue (.icmpi w) s fun c =>
    immInt s c w false fun a => bit64 (intCond w.md.toNat (intOf 2 a) w.imm.toInt)

/-- PLOP: any function of three predicates (R75). -/
def execPlop (w : RF) (s : State) : Host.Outcome State Fault Refusal :=
  issue (.plop w) s fun c =>
    alu s c w.g [w.d.toNat] [(w.a.toNat, false), (w.b.toNat, false), (w.c.toNat, false)] 4 fun xs =>
      ([(w.d.toNat, false,
          bit64 (w.md.getLsbD (4 * (opnd xs 0).toNat + 2 * (opnd xs 1).toNat + (opnd xs 2).toNat)))], 0)

end Sys2Proof.Machine
end

