-- ==== Sys2Proof/Machine/Float.lean ====
section
/-! DEFINITION. Numbers: the floating-point formats (R78), exact values as dyadic rationals, the one rounding (R82-R85),
exact sums and products with their special cases (R91, R93, R99, R105). -/

namespace Sys2Proof.Machine

/-- A floating-point format: fraction bits, exponent bits; `fin` is E4M3, which has no infinity (Table 4.1). -/
structure Fmt where
  p : Nat
  eb : Nat
  fin : Bool
  deriving DecidableEq, Repr

/-- F32. -/
def F32 : Fmt := ⟨23, 8, false⟩
/-- F16. -/
def F16 : Fmt := ⟨10, 5, false⟩
/-- BF16. -/
def BF16 : Fmt := ⟨7, 8, false⟩
/-- E4M3. -/
def E4M3 : Fmt := ⟨3, 4, true⟩
/-- E5M2. -/
def E5M2 : Fmt := ⟨2, 5, false⟩

/-- Exponent bias. -/
def Fmt.bias (f : Fmt) : Nat := 2 ^ (f.eb - 1) - 1
/-- The sign bit's value. -/
def Fmt.sbit (f : Fmt) : Nat := 2 ^ (f.p + f.eb)
/-- The pattern of +infinity in a format that has one. -/
def Fmt.infPat (f : Fmt) : Nat := (2 ^ f.eb - 1) * 2 ^ f.p
/-- The pattern of the largest finite value (Table 4.1). -/
def Fmt.maxPat (f : Fmt) : Nat := if f.fin then 2 ^ (f.p + f.eb) - 2 else f.infPat - 1
/-- The canonical NaN (Table 4.1). -/
def Fmt.nan (f : Fmt) : Nat := if f.fin then 2 ^ (f.p + f.eb) - 1 else f.infPat + 2 ^ (f.p - 1)

/-- The value of a pattern: NaN, an infinity, or (-1)^neg * m * 2^e. -/
inductive FV where
  | nan
  | inf (neg : Bool)
  | fin (neg : Bool) (m : Nat) (e : Int)
  deriving DecidableEq, Repr

/-- The value of a pattern (R78). -/
def Fmt.value (f : Fmt) (x : Nat) : FV :=
  let fr := x % 2 ^ f.p
  let e := x / 2 ^ f.p % 2 ^ f.eb
  let neg := x / f.sbit % 2 == 1
  if f.fin && e == 2 ^ f.eb - 1 && fr == 2 ^ f.p - 1 then .nan
  else if !f.fin && e == 2 ^ f.eb - 1 then (if fr == 0 then .inf neg else .nan)
  else if e == 0 then .fin neg fr (1 - (f.bias : Int) - f.p)
  else .fin neg (2 ^ f.p + fr) ((e : Int) - f.bias - f.p)

/-- Sign. -/
def FV.neg : FV → Bool
  | .nan => false
  | .inf n => n
  | .fin n _ _ => n

/-- Is it NaN? -/
def FV.isNan : FV → Bool
  | .nan => true
  | _ => false

/-- Is it infinite? -/
def FV.isInf : FV → Bool
  | .inf _ => true
  | _ => false

/-- Is it a zero? -/
def FV.isZero : FV → Bool
  | .fin _ m _ => m == 0
  | _ => false

/-- Negation. -/
def FV.negate : FV → FV
  | .nan => .nan
  | .inf n => .inf (!n)
  | .fin n m e => .fin (!n) m e

/-- Does rounding go up in magnitude? `odd` is the kept significand's low bit; `half` compares the discarded part with
one half (R82). -/
def roundUp (rm : Nat) (neg odd : Bool) (half : Ordering) (exact : Bool) : Bool :=
  if exact then false
  else match rm with
    | 0 => (match half with | .lt => false | .eq => odd | .gt => true)
    | 1 => false
    | 2 => !neg
    | _ => neg

/-- Round m * 2^e, with `sticky` for a non-zero remainder below the last bit of m, into a format (R82-R85). Answers
the pattern and the flags. -/
def roundTo (f : Fmt) (rm : Nat) (sat' : Bool) (neg : Bool) (m : Nat) (e : Int) (sticky : Bool) : Nat × Nat :=
  let sg := if neg then f.sbit else 0
  if m = 0 ∧ sticky = false then (sg, 0)
  else
    let m4 := 4 * m + (if sticky then 1 else 0)
    let e4 := e - 2
    let emin : Int := 1 - (f.bias : Int)
    let top : Int := (Nat.log2 m4 : Int) + e4
    let q : Int := max top emin - f.p
    let sh : Int := q - e4
    let kept : Nat := if sh ≤ 0 then m4 * 2 ^ (-sh).toNat else m4 / 2 ^ sh.toNat
    let rest : Nat := if sh ≤ 0 then 0 else m4 % 2 ^ sh.toNat
    let unit : Nat := if sh ≤ 0 then 1 else 2 ^ sh.toNat
    let exact := rest == 0
    let up := roundUp rm neg (kept % 2 == 1) (compare (2 * rest) unit) exact
    let r := if up then kept + 1 else kept
    let pat : Nat :=
      if r < 2 ^ f.p then r
      else if r = 2 ^ (f.p + 1) then (q + f.p + 1 + f.bias).toNat * 2 ^ f.p
      else (q + f.p + f.bias).toNat * 2 ^ f.p + (r - 2 ^ f.p)
    if f.maxPat < pat then
      let toInf := rm = 0 ∨ (rm = 2 ∧ neg = false) ∨ (rm = 3 ∧ neg = true)
      let out := if toInf then (if sat' then f.maxPat + sg else if f.fin then f.nan else f.infPat + sg) else f.maxPat + sg
      (out, roundFlags true false true)
    else (sg + pat, roundFlags false (decide (top < emin)) (!exact))

/-- Round a value into a format; a NaN is canonical, an infinity stays one (E4M3: NaN). -/
def roundFV (f : Fmt) (rm : Nat) (sat' : Bool) : FV → Nat × Nat
  | .nan => (f.nan, 0)
  | .inf n => (if f.fin then f.nan else f.infPat + (if n then f.sbit else 0), 0)
  | .fin n m e => roundTo f rm sat' n m e false

/-- The product of two values and whether it is 0 * infinity. -/
def FV.mul : FV → FV → FV × Bool
  | .nan, _ => (.nan, false)
  | _, .nan => (.nan, false)
  | .inf a, .inf b => (.inf (a != b), false)
  | .inf a, .fin b m _ => if m = 0 then (.nan, true) else (.inf (a != b), false)
  | .fin a m _, .inf b => if m = 0 then (.nan, true) else (.inf (a != b), false)
  | .fin a m e, .fin b n k => (.fin (a != b) (m * n) (e + k), false)

/-- A signed dyadic n * 2^e. -/
abbrev Dy := Int × Int

/-- Exact sum of dyadics. -/
def Dy.add (a b : Dy) : Dy :=
  if a.1 = 0 then b else if b.1 = 0 then a
  else
    let e := min a.2 b.2
    (a.1 * 2 ^ (a.2 - e).toNat + b.1 * 2 ^ (b.2 - e).toNat, e)

/-- The dyadic of a finite value. -/
def FV.dy : FV → Dy
  | .fin n m e => (if n then -(m : Int) else (m : Int), e)
  | _ => (0, 0)

/-- The value of a dyadic; zero is +0. -/
def Dy.fv (a : Dy) : FV := .fin (a.1 < 0) a.1.natAbs a.2

/-- Compare dyadics. -/
def Dy.lt (a b : Dy) : Bool :=
  let e := min a.2 b.2
  a.1 * 2 ^ (a.2 - e).toNat < b.1 * 2 ^ (b.2 - e).toNat

/-- The exact sum of values with the special cases of Table 5.2, R93 and R105. `bad` says that a product was
0 * infinity. An exact zero is -0 when every term is -0, else +0, or -0 in mode RD (Table 5.2). -/
def sumFV (rm : Nat) (ts : List FV) (bad : Bool) : FV × Nat :=
  let pinf := ts.any fun t => t == .inf false
  let ninf := ts.any fun t => t == .inf true
  let inv := bad || (pinf && ninf)
  if inv then (.nan, flInvalid)
  else if ts.any FV.isNan then (.nan, 0)
  else if pinf then (.inf false, 0)
  else if ninf then (.inf true, 0)
  else
    let t := ts.foldl (fun a x => Dy.add a x.dy) (0, 0)
    if t.1 = 0 then
      let allNeg := ts.all fun x => x.neg
      let allPos := ts.all fun x => !x.neg || !x.isZero
      let zerosOnly := ts.all FV.isZero
      (.fin (if zerosOnly && allNeg then true else if zerosOnly && allPos then false else rm == 3) 0 0, 0)
    else (Dy.fv t, 0)

/-- Sum of values rounded once. -/
def sumRound (f : Fmt) (rm : Nat) (sat' : Bool) (ts : List FV) (bad : Bool) : Nat × Nat :=
  let r := sumFV rm ts bad
  let o := roundFV f rm sat' r.1
  (o.1, flOr r.2 o.2)

/-- FADD: a + b (R98, Table 5.2). -/
def fAdd (f : Fmt) (rm : Nat) (sat' : Bool) (a b : Nat) : Nat × Nat :=
  let x := f.value a
  let y := f.value b
  if x.isNan || y.isNan then (f.nan, 0) else sumRound f rm sat' [x, y] false

/-- FSUB: FADD with b negated, NaN excepted (R98). -/
def fSub (f : Fmt) (rm : Nat) (sat' : Bool) (a b : Nat) : Nat × Nat :=
  let x := f.value a
  let y := f.value b
  if x.isNan || y.isNan then (f.nan, 0) else sumRound f rm sat' [x, y.negate] false

/-- FMUL (R98, Table 5.2). -/
def fMul (f : Fmt) (rm : Nat) (sat' : Bool) (a b : Nat) : Nat × Nat :=
  let r := (f.value a).mul (f.value b)
  let o := roundFV f rm sat' r.1
  (o.1, if r.2 then flInvalid else o.2)

/-- FFMA: one rounding; any NaN operand hides an invalid product (R91, Table 5.2). -/
def fFma (f : Fmt) (rm : Nat) (sat' : Bool) (a b c : Nat) : Nat × Nat :=
  let x := f.value a
  let y := f.value b
  let z := f.value c
  if x.isNan || y.isNan || z.isNan then (f.nan, 0)
  else
    let r := x.mul y
    if r.2 then (f.nan, flInvalid) else sumRound f rm sat' [r.1, z] false

/-- Exact dot product with an addend, rounded once to F32 (R105): `xs` and `ys` are the element values. -/
def fDot (rm : Nat) (sat' : Bool) (xs ys : List FV) (c : FV) : Nat × Nat :=
  let ps := List.zipWith FV.mul xs ys
  sumRound F32 rm sat' (ps.map (·.1) ++ [c]) (ps.any (·.2))

/-- Order of two values that are not NaN, -0 below +0 when `zeros` (R100, R101). -/
def FV.less (zeros : Bool) (a b : FV) : Bool :=
  match a, b with
  | .inf x, .inf y => x && !y
  | .inf x, _ => x
  | _, .inf y => !y
  | _, _ =>
    if a.isZero && b.isZero then zeros && a.neg && !b.neg
    else Dy.lt a.dy b.dy

/-- FMIN and FMAX (R100). -/
def fMinMax (f : Fmt) (max' : Bool) (a b : Nat) : Nat :=
  let x := f.value a
  let y := f.value b
  let m := f.sbit * 2
  if x.isNan && y.isNan then f.nan
  else if x.isNan then b % m
  else if y.isNan then a % m
  else if FV.less true x y != max' then a % m else b % m

/-- FABS (R100). -/
def fAbs (f : Fmt) (a : Nat) : Nat := if (f.value a).isNan then f.nan else a % f.sbit
/-- FNEG (R100). -/
def fNeg (f : Fmt) (a : Nat) : Nat :=
  if (f.value a).isNan then f.nan else (if a / f.sbit % 2 = 1 then a % f.sbit else a % f.sbit + f.sbit)

/-- The eight conditions of FCMP (R101). -/
def fCond (cond : Nat) (x y : FV) : Bool :=
  let un := x.isNan || y.isNan
  let lt := !un && FV.less false x y
  let gt := !un && FV.less false y x
  match cond with
  | 0 => !un && !lt && !gt
  | 1 => un || lt || gt
  | 2 => lt
  | 3 => !un && !gt
  | 4 => gt
  | 5 => !un && !lt
  | 6 => un
  | _ => !un

/-- Round a finite value to an integer by a mode: magnitude and whether it was inexact. -/
def toIntegral (rm : Nat) (neg : Bool) (m : Nat) (e : Int) : Nat × Bool :=
  if 0 ≤ e then (m * 2 ^ e.toNat, false)
  else
    let sh := (-e).toNat
    let k := m / 2 ^ sh
    let r := m % 2 ^ sh
    let up := roundUp rm neg (k % 2 == 1) (compare (2 * r) (2 ^ sh)) (r == 0)
    (if up then k + 1 else k, r != 0)

/-- FRND: to an integral value in the same format, sign kept (R102). -/
def fRnd (f : Fmt) (rm : Nat) (a : Nat) : Nat × Nat :=
  match f.value a with
  | .nan => (f.nan, 0)
  | .inf _ => (a % (f.sbit * 2), 0)
  | .fin n m e =>
    let r := toIntegral rm n m e
    if r.2 then ((roundTo f rm false n r.1 0 false).1, flInexact) else (a % (f.sbit * 2), 0)

/-- FCLASS (R103): the bit of the class. -/
def fClass (a : Nat) : Nat :=
  match F32.value a with
  | .nan => 256
  | .inf n => if n then 1 else 128
  | .fin n m _ =>
    if m = 0 then (if n then 8 else 16)
    else if m < 2 ^ 23 then (if n then 4 else 32)
    else (if n then 2 else 64)

/-- FSCALE: a * 2^b, rounded once (R104). -/
def fScale (rm : Nat) (sat' : Bool) (a : Nat) (b : Int) : Nat × Nat :=
  match F32.value a with
  | .nan => (F32.nan, 0)
  | .inf _ => (a, 0)
  | .fin n m e => if m = 0 then (a, 0) else roundTo F32 rm sat' n m (max (-4096) (min 4096 (e + max (-8192) (min 8192 b)))) false

/-- CVTF: a value of any format into another (R106, Table 5.3). -/
def cvtF (fs fd : Fmt) (rm : Nat) (sat' : Bool) (a : Nat) : Nat × Nat :=
  match fs.value a with
  | .nan => (fd.nan, 0)
  | .inf n =>
    let sg := if n then fd.sbit else 0
    if sat' then (fd.maxPat + sg, flInexact)
    else if fd.fin then (fd.nan, flInvalid) else (fd.infPat + sg, 0)
  | .fin n m e => roundTo fd rm sat' n m e false

/-- CVTI: an exact integer into a format (R107); zero is +0. -/
def cvtI (fd : Fmt) (rm : Nat) (sat' : Bool) (x : Int) : Nat × Nat := roundTo fd rm sat' (x < 0) x.natAbs 0 false

/-- CVTFI: a value to an integer range, always saturating (R108). -/
def cvtFI (fs : Fmt) (rm : Nat) (lo hi : Int) (a : Nat) : Int × Nat :=
  match fs.value a with
  | .nan => (0, flInvalid)
  | .inf n => (if n then lo else hi, flInvalid)
  | .fin n m e =>
    let r := toIntegral rm n m (min e 128)
    let x : Int := if n then -(r.1 : Int) else (r.1 : Int)
    if x < lo then (lo, flInvalid) else if x > hi then (hi, flInvalid) else (x, if r.2 then flInexact else 0)

end Sys2Proof.Machine
end

