-- ==== Sys2Proof/Machine/Quant.lean ====
section
/-! DEFINITION. Q4: code values, scale bytes, span descriptors and the quantiser (R86-R90). -/

namespace Sys2Proof.Machine

/-- Eight times the value of a code of a block type (Table 4.4). -/
def codeVal8 (t c : Nat) : Int :=
  if t = 0 then 8 * sgn4 c
  else
    let m : Int := match t, c % 8 with
      | _, 0 => 0
      | 1, 1 => 4 | 1, 2 => 8 | 1, 3 => 12 | 1, 4 => 16 | 1, 5 => 24 | 1, 6 => 32 | 1, _ => 48
      | 2, 1 => 1 | 2, 2 => 2 | 2, 3 => 4 | 2, 4 => 8 | 2, 5 => 16 | 2, 6 => 32 | 2, _ => 64
      | _, 1 => 8 | _, 2 => 16 | _, 3 => 24 | _, 4 => 32 | _, 5 => 48 | _, 6 => 64 | _, _ => 128
    if c % 16 < 8 then m else -m
where
  /-- A 4-bit two's-complement number. -/
  sgn4 (c : Nat) : Int := if c % 16 < 8 then (c % 16 : Nat) else ((c % 16 : Nat) : Int) - 16

/-- The largest code value of a type (Table 4.4). -/
def codeMax (t : Nat) : Nat := match t with | 0 => 7 | 1 => 6 | 2 => 8 | _ => 16

/-- BMAP of a descriptor (Table 4.5). -/
def bmapOf (d : Nat) : Nat := d % 256

/-- Number of set bits of the low 8 bits up to granule `g`. -/
def bmapCount (d g : Nat) : Nat := ((List.range (g + 1)).filter fun i => d / 2 ^ i % 2 = 1).length

/-- A descriptor is valid when bit 0 of BMAP is set and at most three bits are (R89). -/
def descValid (d : Nat) : Bool := d % 2 == 1 && bmapCount d 7 ≤ 3

/-- Block of granule `g` in a valid descriptor (R89). -/
def descBlock (d g : Nat) : Nat := bmapCount d g - 1

/-- Scale byte of block `j` (Table 4.5). -/
def descScale (d j : Nat) : Nat := d / 2 ^ (8 + 8 * j) % 256

/-- The value of element `e` of a span with descriptor `d` and code `c` (R86, R87, R89). -/
def q4Value (d e c : Nat) : FV :=
  if !descValid d then .nan
  else
    let sc := descScale d (descBlock d (e / 16))
    let ex := sc % 64
    if ex = 63 then .nan
    else
      let t := sc / 64
      let v := codeVal8 t c
      .fin (v < 0 || (t != 0 && c % 16 == 8)) v.natAbs ((ex : Int) - 43)

/-- The code of v * 8 = n * 2^e, v already divided by the scale (R88): nearest, ties to the code with bit 0 clear. -/
def nearestCode (t : Nat) (v8 : Dy) : Nat :=
  let dist (c : Nat) : Dy :=
    let d := Dy.add v8 (-(codeVal8 t c), 0)
    (d.1.natAbs, d.2)
  let cs := (List.range 16).filter fun c => t = 0 || c != 8
  cs.foldl (fun best c =>
    if Dy.lt (dist c) (dist best) then c
    else if Dy.lt (dist best) (dist c) then best
    else if c % 2 = 0 then c else best) 0

/-- The code of a value in a block of type `t` and exponent `ex`, with its flags (R85, R88, R90). -/
def codeOf (t ex : Nat) : FV → Nat × Nat
  | .nan => (0, 0)
  | .inf n => (if n then (if t = 0 then 8 else 15) else 7, flOverflow ||| flInexact)
  | .fin n m e =>
    let v8 : Dy := (if n then -(m : Int) else (m : Int), e + 43 - ex)
    let hi : Dy := (8 * codeMax t, 0)
    let lo : Dy := if t = 0 then (-64, 0) else (-(8 * codeMax t : Int), 0)
    if Dy.lt hi v8 then (7, flOverflow ||| flInexact)
    else if Dy.lt v8 lo then (if t = 0 then 8 else 15, flOverflow ||| flInexact)
    else
      let c := nearestCode t v8
      let c := if codeVal8 t c = 0 then 0 else c
      let d := Dy.add v8 (-(codeVal8 t c), 0)
      (c, if d.1 = 0 then 0 else flInexact)

/-- A magnitude: `none` is infinity. -/
abbrev Mag := Option Dy

/-- |x| of a value that is not NaN. -/
def magOf : FV → Mag
  | .fin _ m e => some ((m : Int), e)
  | _ => none

/-- a < b on magnitudes. -/
def Mag.lt : Mag → Mag → Bool
  | some a, some b => Dy.lt a b
  | some _, none => true
  | none, _ => false

/-- The larger magnitude. -/
def Mag.max (a b : Mag) : Mag := if Mag.lt a b then b else a

/-- Is it zero? -/
def Mag.zero : Mag → Bool
  | some a => a.1 == 0
  | none => false

/-- Differ(a, b, H) of R90. -/
def differ (a b : Mag) (h : Nat) : Bool :=
  if !Mag.lt a b && !Mag.lt b a then false
  else
    let lo := if Mag.lt a b then a else b
    let hi := if Mag.lt a b then b else a
    if lo.zero then true
    else match lo, hi with
      | some x, some y => Dy.lt (x.1, x.2 + h) y
      | _, _ => true

/-- ChooseExp(T, M) of R90: the smallest exponent with M ≤ Vmax * 2^(E-40), or 62. -/
def chooseExp (t : Nat) (m : Mag) : Nat :=
  ((List.range 63).find? fun (ex : Nat) =>
    match m with
    | none => false
    | some x => !Dy.lt ((codeMax t : Int), (ex : Int) - 40) x).getD 62

/-- ChooseType(els, M) of R90. -/
def chooseType (els : List FV) (m : Mag) : Nat :=
  let zs := els.filter fun x => !x.isZero
  let far := zs.any fun x =>
    match magOf x, m with
    | some a, some b => !Dy.lt b (a.1, a.2 + 6)
    | some _, none => true
    | none, _ => false
  if far then 2
  else
    let e0 := chooseExp 0 m
    let good := els.all fun x =>
      match x with
      | .fin _ _ _ => (codeOf 0 e0 x).2 == 0
      | _ => false
    if good then 0 else 1

/-- The blocks of 128 values under threshold `h`: BMAP (R90). -/
def blockMap (gs : List Mag) (h : Nat) : Nat :=
  match gs with
  | [] => 1
  | m0 :: rest =>
    (rest.zipIdx 1).foldl (fun (acc : Nat × Nat × Mag) x =>
      if acc.2.1 < 3 && differ x.1 acc.2.2 h then (acc.1 + 2 ^ x.2, acc.2.1 + 1, x.1)
      else (acc.1, acc.2.1, Mag.max acc.2.2 x.1)) (1, 1, m0) |>.1

/-- The quantiser (R90): codes and descriptor of 128 values, threshold `h`, mode 0 AUTO or 4 + type; and its flags. -/
def quantise (xs : List FV) (h mode : Nat) : List Nat × Nat × Nat :=
  let gran (g : Nat) : List FV := (xs.drop (16 * g)).take 16
  let gs := (List.range 8).map fun g =>
    (gran g).foldl (fun (a : Mag) x => if x.isNan then a else Mag.max a (magOf x)) (some (0, 0))
  let bm := blockMap gs h
  let blocks := (List.range 3).map fun j =>
    let els := ((List.range 8).filter fun g => bmapCount bm g - 1 = j).flatMap gran
    if els.isEmpty then (0, 0)
    else if els.any FV.isNan then (63, flInvalid)
    else
      let m := els.foldl (fun (a : Mag) x => Mag.max a (magOf x)) (some (0, 0))
      let t := if mode = 0 then chooseType els m else mode - 4
      (64 * t + chooseExp t m, 0)
  let codes := xs.zipIdx.map fun x =>
    let b := blocks.getD (bmapCount bm (x.2 / 16) - 1) (0, 0)
    if b.1 % 64 = 63 then (0, 0) else codeOf (b.1 / 64) (b.1 % 64) x.1
  let fl := (codes.foldl (fun a x => a ||| x.2) 0) ||| (blocks.foldl (fun a x => a ||| x.2) 0)
  let sc (j : Nat) : Nat := (blocks.getD j (0, 0)).1
  (codes.map (·.1), bm + 256 * sc 0 + 65536 * sc 1 + 16777216 * sc 2, fl)

end Sys2Proof.Machine
end

