-- ==== Sys2Proof/Machine/Trans.lean ====
section
/-! DEFINITION. The transcendentals (R115, R116): the exact function value is enclosed in fixed point with more than
300 fraction bits and rounded once. A value that is not one of the exact cases of Table 5.4 lies strictly between two
fixed-point neighbours, which the sticky bit says; that no F32 argument comes nearer than the working precision to a
rounding boundary is log 8. -/

namespace Sys2Proof.Machine

/-- Working fraction bits. -/
def fxP : Nat := 400

/-- Integer square root by digits: `n` digits, result so far `r`, of `x`. -/
def isqrtGo (x : Nat) : Nat → Nat → Nat
  | 0, r => r
  | n + 1, r =>
    let t := r + 2 ^ n
    isqrtGo x n (if t * t ≤ x then t else r)

/-- Floor of the square root. -/
def isqrt (x : Nat) : Nat := isqrtGo x (Nat.log2 x / 2 + 1) 0

/-- ln 2 in fixed point with `p` bits: the sum of 1 / (k * 2^k). -/
def ln2Go (p : Nat) : Nat → Nat → Nat
  | 0, a => a
  | k + 1, a => ln2Go p k (a + 2 ^ p / ((k + 1) * 2 ^ (k + 1)))

/-- ln 2 with `fxP` bits. -/
def ln2Fix : Nat := ln2Go (fxP + 40) (fxP + 40) 0 / 2 ^ 40

/-- arctan (1/n) with `p` bits: `t` is the current power, `k` counts terms. -/
def atanGo (n2 : Nat) : Nat → Nat → Nat → Int → Int
  | 0, _, _, a => a
  | fuel + 1, t, k, a =>
    atanGo n2 fuel (t / n2) (k + 1) (if k % 2 = 0 then a + (t / (2 * k + 1) : Nat) else a - (t / (2 * k + 1) : Nat))

/-- Fraction bits of pi. -/
def piP : Nat := 680
/-- pi / 2 with `piP` bits, by Machin's formula. -/
def halfPi : Nat :=
  (((8 * atanGo 25 160 (2 ^ (piP + 20) / 5) 0 0 - 2 * atanGo 57121 60 (2 ^ (piP + 20) / 239) 0 0) : Int) / 2 ^ 20).toNat

/-- exp(x) for x in [0, 1) in fixed point: the sum of x^k / k!. -/
def expGo (x : Nat) : Nat → Nat → Nat → Nat → Nat
  | 0, _, _, a => a
  | fuel + 1, k, t, a =>
    let t' := t * x / 2 ^ fxP / (k + 1)
    expGo x fuel (k + 1) t' (a + t')

/-- exp(x) for fixed-point x below 1. -/
def expFix (x : Nat) : Nat := expGo x 100 0 (2 ^ fxP) (2 ^ fxP)

/-- Alternating series x^k/k! with every second k: sine from k = 1, cosine from k = 0. -/
def trigGo (x2 : Nat) : Nat → Nat → Nat → Bool → Int → Int
  | 0, _, _, _, a => a
  | fuel + 1, k, t, neg, a =>
    let t' := t * x2 / 2 ^ fxP / ((k + 1) * (k + 2))
    trigGo x2 fuel (k + 2) t' (!neg) (if neg then a - (t' : Int) else a + (t' : Int))

/-- sin of a fixed-point angle below pi/2. -/
def sinFix (x : Nat) : Nat := (trigGo (x * x / 2 ^ fxP) 60 1 x true (x : Int)).toNat
/-- cos of a fixed-point angle below pi/2. -/
def cosFix (x : Nat) : Nat := (trigGo (x * x / 2 ^ fxP) 60 0 (2 ^ fxP) true ((2 ^ fxP : Nat) : Int)).toNat

/-- 2 * artanh(t) for fixed-point t: the sum of t^(2k+1)/(2k+1). -/
def lnGo (t2 : Nat) : Nat → Nat → Nat → Nat → Nat
  | 0, _, _, a => a
  | fuel + 1, k, t, a => lnGo t2 fuel (k + 1) (t * t2 / 2 ^ fxP) (a + t / (2 * k + 1))

/-- ln y for y = 1 + f / 2^fxP in [1, 2). -/
def lnFix (f : Nat) : Nat :=
  let t := f * 2 ^ fxP / (2 * 2 ^ fxP + f)
  2 * lnGo (t * t / 2 ^ fxP) 140 0 t 0

/-- Just below m * 2^e. -/
def below (m : Nat) (e : Int) : Nat × Int := (m * 2 ^ 64 - 1, e - 64)

/-- 1/x (R116). -/
def fRcp (rm : Nat) (st : Bool) (a : Nat) : Nat × Nat :=
  match F32.value a with
  | .nan => (F32.nan, 0)
  | .inf n => (if n then F32.sbit else 0, 0)
  | .fin n m e =>
    if m = 0 then (F32.infPat + (if n then F32.sbit else 0), 0)
    else roundTo F32 rm st n (2 ^ 128 / m) (-128 - e) (2 ^ 128 % m != 0)

/-- 1/sqrt x (R116). -/
def fRsq (rm : Nat) (st : Bool) (a : Nat) : Nat × Nat :=
  match F32.value a with
  | .nan => (F32.nan, 0)
  | .inf n => if n then (F32.nan, flInvalid) else (0, 0)
  | .fin n m e =>
    if m = 0 then (F32.infPat + (if n then F32.sbit else 0), 0)
    else if n then (F32.nan, flInvalid)
    else
      let m' := if e % 2 = 0 then m else 2 * m
      let e' := if e % 2 = 0 then e else e - 1
      let r := isqrt (2 ^ 256 / m')
      roundTo F32 rm st false r (-128 - e' / 2) (r * r * m' != 2 ^ 256)

/-- sqrt x (R116). -/
def fSqrt (rm : Nat) (st : Bool) (a : Nat) : Nat × Nat :=
  match F32.value a with
  | .nan => (F32.nan, 0)
  | .inf n => if n then (F32.nan, flInvalid) else (F32.infPat, 0)
  | .fin n m e =>
    if m = 0 then (a, 0)
    else if n then (F32.nan, flInvalid)
    else
      let m' := (if e % 2 = 0 then m else 2 * m) * 2 ^ 80
      let e' := (if e % 2 = 0 then e else e - 1) - 80
      let r := isqrt m'
      roundTo F32 rm st false r (e' / 2) (r * r != m')

/-- 2^x (R116). -/
def fExp2 (rm : Nat) (st : Bool) (a : Nat) : Nat × Nat :=
  match F32.value a with
  | .nan => (F32.nan, 0)
  | .inf n => (if n then 0 else F32.infPat, 0)
  | .fin n m e =>
    if m = 0 then (0x3F800000, 0)
    else if e + (Nat.log2 m : Int) > 12 then roundTo F32 rm st false 1 (if n then -1000 else 1000) n
    else
      let x : Int := if n then -(m : Int) else (m : Int)
      let fx : Int := x * 2 ^ (e + 300).toNat          -- x * 2^300; e ≥ -149
      let k := fx / 2 ^ 300
      let f := (fx % 2 ^ 300).toNat
      if f = 0 then roundTo F32 rm st false 1 k false
      else roundTo F32 rm st false (expFix (f * ln2Fix / 2 ^ 300)) (k - fxP) true

/-- log2 x (R116). -/
def fLog2 (rm : Nat) (st : Bool) (a : Nat) : Nat × Nat :=
  match F32.value a with
  | .nan => (F32.nan, 0)
  | .inf n => if n then (F32.nan, flInvalid) else (F32.infPat, 0)
  | .fin n m e =>
    if m = 0 then (F32.infPat + F32.sbit, 0)
    else if n then (F32.nan, flInvalid)
    else
      let l := Nat.log2 m
      let k : Int := e + l
      let f := (m - 2 ^ l) * 2 ^ (fxP - l)
      if f = 0 then cvtI F32 rm st k
      else
        let v : Int := k * 2 ^ fxP + (lnFix f * 2 ^ fxP / ln2Fix : Nat)
        -- the series truncates: v is just below the value
        if v < 0 then roundTo F32 rm st true (v.natAbs - 1) (-(fxP : Int)) true
        else roundTo F32 rm st false v.natAbs (-(fxP : Int)) true

/-- The quadrant and the reduced angle of a finite magnitude m * 2^e, e ≥ -64. -/
def reduce (m : Nat) (e : Int) : Nat × Nat :=
  let x := m * 2 ^ (e + piP).toNat
  (x / halfPi % 4, x % halfPi / 2 ^ (piP - fxP))

/-- sin x (R116). -/
def fSin (rm : Nat) (st : Bool) (a : Nat) : Nat × Nat :=
  match F32.value a with
  | .nan => (F32.nan, 0)
  | .inf _ => (F32.nan, flInvalid)
  | .fin n m e =>
    if m = 0 then (a, 0)
    else if e + (Nat.log2 m : Int) < -40 then
      let b := below m e
      roundTo F32 rm st n b.1 b.2 true
    else
      let r := reduce m e
      let v := if r.1 % 2 = 0 then sinFix r.2 else cosFix r.2
      roundTo F32 rm st (n != decide (2 ≤ r.1)) v (-(fxP : Int)) true

/-- cos x (R116). -/
def fCos (rm : Nat) (st : Bool) (a : Nat) : Nat × Nat :=
  match F32.value a with
  | .nan => (F32.nan, 0)
  | .inf _ => (F32.nan, flInvalid)
  | .fin _ m e =>
    if m = 0 then (0x3F800000, 0)
    else if e + (Nat.log2 m : Int) < -40 then
      let b := below 1 0
      roundTo F32 rm st false b.1 b.2 true
    else
      let r := reduce m e
      let v := if r.1 % 2 = 0 then cosFix r.2 else sinFix r.2
      roundTo F32 rm st (r.1 = 1 || r.1 = 2) v (-(fxP : Int)) true

/-- tanh x (R116). -/
def fTanh (rm : Nat) (st : Bool) (a : Nat) : Nat × Nat :=
  match F32.value a with
  | .nan => (F32.nan, 0)
  | .inf n => (0x3F800000 + (if n then F32.sbit else 0), 0)
  | .fin n m e =>
    if m = 0 then (a, 0)
    else if e + (Nat.log2 m : Int) < -40 then
      let b := below m e
      roundTo F32 rm st n b.1 b.2 true
    else if e + (Nat.log2 m : Int) > 6 then
      let b := below 1 0
      roundTo F32 rm st n b.1 b.2 true
    else
      let x := 2 * m * 2 ^ (e + fxP).toNat              -- 2|x|, e ≥ -64
      let k := x / ln2Fix
      let g := expFix (x % ln2Fix) * 2 ^ k
      roundTo F32 rm st n ((g - 2 ^ fxP) * 2 ^ fxP / (g + 2 ^ fxP)) (-(fxP : Int)) true

end Sys2Proof.Machine
end

