-- ==== Sys2Proof/Machine/FloatOps.lean ====
section
/-! DEFINITION. Groups 1 and 2: floating-point arithmetic, conversions, quantise and transcendentals (R95-R117). Flags
are raised when the results land (R97). -/

namespace Sys2Proof.Machine

/-- The format of a type code; a packed type names the format of its elements (Table 2.7). -/
def fmtOf (ty : Nat) : Fmt :=
  match ty with
  | 9 => F16
  | 10 => BF16
  | 11 => F16
  | 12 => BF16
  | 13 => E4M3
  | 14 => E5M2
  | _ => F32

/-- Width in bits of a format. -/
def Fmt.width (f : Fmt) : Nat := 1 + f.eb + f.p

/-- Element `i` of width `w` of a pattern. -/
def elem (w : Nat) (x : Word64) (i : Nat) : Nat := x.toNat / 2 ^ (w * i) % 2 ^ w

/-- Number of elements of a type of groups 1 and 2. -/
def elems (ty : Nat) : Nat := if ty = 11 ∨ ty = 12 then 2 else 1

/-- Pack elements of width `w`, element 0 lowest. -/
def packElems (w : Nat) (xs : List Nat) : Nat := xs.foldr (fun x a => x + 2 ^ w * a) 0

/-- RM of MOD[1:0]. -/
def rmOf (w : RF) : Nat := w.md.toNat % 4
/-- SAT of MOD[2]. -/
def satOf (w : RF) : Bool := w.md.getLsbD 2

/-- An element-wise instruction: every source and the result have the instruction's type (R95). -/
def fElem (s : State) (c : Cur) (w : RF) (srcs : List (BitVec 8)) (lat : Nat) (f : Fmt → List Nat → Nat × Nat) : State :=
  let ty := w.ty.toNat
  let fm := fmtOf ty
  alu s c w.g [w.d.toNat] (srcs.map fun r => (r.toNat, false)) lat fun xs =>
    let rs := (List.range (elems ty)).map fun i => f fm (xs.map fun x => elem fm.width x i)
    ([(w.d.toNat, false, BitVec.ofNat 64 (packElems fm.width (rs.map (·.1))))], rs.foldl (fun a r => flOr a r.2) 0)

/-- One value of a list of element patterns. -/
def pat (xs : List Nat) (i : Nat) : Nat := xs.getD i 0

/-- An F32 instruction of one operand (R115). -/
def fTrans (s : State) (c : Cur) (w : RF) (f : Nat → Bool → Nat → Nat × Nat) : State :=
  fElem s c w [w.a] 16 fun _ xs => f (rmOf w) (satOf w) (pat xs 0)

/-- The range of an integer destination of CVTFI (R108). -/
def cvtRange (ty : Nat) : Int × Int :=
  match ty with
  | 2 => (-2147483648, 2147483647)
  | 3 => (0, 4294967295)
  | 0 => (-128, 127)
  | _ => (0, 255)

/-- Pack elements converted from two pairs of sources (R109). -/
def pack4 (w : RF) (xs : List Nat) : Nat × Nat :=
  let ty := w.ty.toNat
  if 13 ≤ ty then
    let rs := xs.map fun x => cvtF F32 (fmtOf ty) (rmOf w) (satOf w) x
    (packElems 8 (rs.map (·.1)), rs.foldl (fun a r => flOr a r.2) 0)
  else
    let one (x : Nat) : Nat :=
      if ty = 0 then wrap 8 (sat (sgn 32 x) (-128) 127) else (sat (x : Int) 0 255).toNat
    (packElems 8 (xs.map one), 0)

/-- Element `p` of a lane's four span elements in register `r` (R111), as a value. -/
def spanElem (s : State) (u : UnitId) (ty r l p : Nat) : FV :=
  if ty = 8 then F32.value (s.v u (r + p) l).toNat
  else (fmtOf ty).value ((s.v u (r + p / 2) l).toNat / 2 ^ (16 * (p % 2)) % 65536)

/-- The 128 inputs of a QNT on the primary or shadow side (R111, R112): a lane that is not active reads +0. -/
def quantIn (s : State) (c : Cur) (w : RF) (side : Nat) : List FV :=
  let p := protOf s c.u
  (List.range 128).map fun e =>
    let l := if p then 2 * (e / 4) + side else e / 4
    if l < 32 && laneActive s c w.g l then spanElem s c.u w.ty.toNat w.a.toNat l (e % 4) else .fin false 0 0

/-- The code field of a lane (R111). -/
def codeField (codes : List Nat) (i : Nat) : Nat :=
  packElems 4 ((List.range 4).map fun p => codes.getD (4 * i + p) 0)

/-- Land one side of a QNT in the lanes of that side (R112). -/
def quantSide (s : State) (c : Cur) (w : RF) (side : Nat) (q : List Nat × Nat × Nat) : State :=
  let p := protOf s c.u
  let bo := if w.md.getLsbD 6 then 16 else 0
  let ls := (List.range 32).filter fun l => laneCompute s c w.g l && (!p || l % 2 == side)
  ls.foldl (fun t l =>
    let old := (s.v c.u w.d.toNat l).toNat
    let fld' := codeField q.1 (visLane p l)
    let v := if bo = 0 then old / 65536 * 65536 + fld' else old % 65536 + fld' * 65536
    let t := landField t c w.d.toNat l false (BitVec.ofNat 64 v) (c.cycle + 12) 0
    if isV c.u.lead w.c.toNat then landField t c w.c.toNat l false (BitVec.ofNat 64 q.2.1) (c.cycle + 12) 0 else t) s

/-- Land element `p` of a lane in span register `r` (R111): the halves of one register come together. -/
def landSpan (s : State) (c : Cur) (ty r l : Nat) (xs : List Nat) : State :=
  let regs := if ty = 8 then xs else [pat xs 0 + 65536 * pat xs 1, pat xs 2 + 65536 * pat xs 3]
  regs.zipIdx.foldl (fun t x => landField t c (r + x.2) l false (BitVec.ofNat 64 x.1) (c.cycle + 12) 0) s

/-- The four values a lane of DQNT lands, with flags (R113). -/
def dqLane (s : State) (c : Cur) (w : RF) (l : Nat) : List (Nat × Nat) :=
  let p := protOf s c.u
  let d := (readField s c w.b.toNat l false).toNat
  let wd := (s.v c.u w.a.toNat l).toNat / (if w.md.getLsbD 6 then 65536 else 1) % 65536
  (List.range 4).map fun i =>
    roundFV (fmtOf w.ty.toNat) (rmOf w) (satOf w) (q4Value d (4 * visLane p l + i) (wd / 16 ^ i % 16))

/-- QDESC queries (R114). -/
def descQuery (q d g : Nat) : Nat :=
  let ok := descValid d
  let sc := descScale d (descBlock d g)
  match q with
  | 0 => if ok then bmapCount d 7 else 0
  | 1 => if ok then descBlock d g else 0xFFFFFFFF
  | 2 => if ok then sc else 0xFFFFFFFF
  | _ => if ok && sc % 64 != 63 then (roundTo F32 0 false false 1 ((sc % 64 : Nat) - 40) false).1 else F32.nan

/-- FADD (R98). -/
def execFadd (w : RF) (s : State) : Host.Outcome State Fault Refusal :=
  issue (.fadd w) s fun c =>
    fElem s c w [w.a, w.b] 6 fun f x => fAdd f (rmOf w) (satOf w) (pat x 0) (pat x 1)

/-- FSUB (R98). -/
def execFsub (w : RF) (s : State) : Host.Outcome State Fault Refusal :=
  issue (.fsub w) s fun c =>
    fElem s c w [w.a, w.b] 6 fun f x => fSub f (rmOf w) (satOf w) (pat x 0) (pat x 1)

/-- FMUL (R98). -/
def execFmul (w : RF) (s : State) : Host.Outcome State Fault Refusal :=
  issue (.fmul w) s fun c =>
    fElem s c w [w.a, w.b] 6 fun f x => fMul f (rmOf w) (satOf w) (pat x 0) (pat x 1)

/-- FFMA: one rounding (R91, R98). -/
def execFfma (w : RF) (s : State) : Host.Outcome State Fault Refusal :=
  issue (.ffma w) s fun c =>
    fElem s c w [w.a, w.b, w.c] 6 fun f x => fFma f (rmOf w) (satOf w) (pat x 0) (pat x 1) (pat x 2)

/-- FMIN (R100). -/
def execFmin (w : RF) (s : State) : Host.Outcome State Fault Refusal :=
  issue (.fmin w) s fun c =>
    fElem s c w [w.a, w.b] 6 fun f x => (fMinMax f false (pat x 0) (pat x 1), 0)

/-- FMAX (R100). -/
def execFmax (w : RF) (s : State) : Host.Outcome State Fault Refusal :=
  issue (.fmax w) s fun c =>
    fElem s c w [w.a, w.b] 6 fun f x => (fMinMax f true (pat x 0) (pat x 1), 0)

/-- FABS (R100). -/
def execFabs (w : RF) (s : State) : Host.Outcome State Fault Refusal :=
  issue (.fabs w) s fun c =>
    fElem s c w [w.a] 6 fun f x => (fAbs f (pat x 0), 0)

/-- FNEG (R100). -/
def execFneg (w : RF) (s : State) : Host.Outcome State Fault Refusal :=
  issue (.fneg w) s fun c =>
    fElem s c w [w.a] 6 fun f x => (fNeg f (pat x 0), 0)

/-- FCMP: compare, combine, write 1 or 0 (R101). -/
def execFcmp (w : RF) (s : State) : Host.Outcome State Fault Refusal :=
  issue (.fcmp w) s fun c =>
    let fm := fmtOf w.ty.toNat
    let comb := w.md.toNat / 8 % 4
    let cs := if comb = 0 then [] else [(w.c.toNat, false)]
    alu s c w.g [w.d.toNat] ([(w.a.toNat, false), (w.b.toNat, false)] ++ cs) 6 fun xs =>
      let t := fCond (w.md.toNat % 8) (fm.value (elem fm.width (opnd xs 0) 0)) (fm.value (elem fm.width (opnd xs 1) 0))
      ([(w.d.toNat, false, bit64 (combine comb t ((opnd xs 2).getLsbD 0)))], 0)

/-- FRND: to an integral value (R102). -/
def execFrnd (w : RF) (s : State) : Host.Outcome State Fault Refusal :=
  issue (.frnd w) s fun c =>
    fElem s c w [w.a] 6 fun f x => fRnd f (rmOf w) (pat x 0)

/-- FCLASS (R103). -/
def execFclass (w : RF) (s : State) : Host.Outcome State Fault Refusal :=
  issue (.fclass w) s fun c =>
    fElem s c w [w.a] 6 fun _ x => (fClass (pat x 0), 0)

/-- FSCALE: a * 2^b (R104). -/
def execFscale (w : RF) (s : State) : Host.Outcome State Fault Refusal :=
  issue (.fscale w) s fun c =>
    fElem s c w [w.a, w.b] 6 fun _ x => fScale (rmOf w) (satOf w) (pat x 0) (sgn 32 (pat x 1))

/-- FDOT2: two products and an F32 addend, rounded once (R105). -/
def execFdot2 (w : RF) (s : State) : Host.Outcome State Fault Refusal :=
  issue (.fdot2 w) s fun c =>
    let fm := fmtOf w.ty.toNat
    alu s c w.g [w.d.toNat] [(w.a.toNat, false), (w.b.toNat, false), (w.c.toNat, false)] 6 fun xs =>
      let es (i : Nat) : List FV := (List.range 2).map fun j => fm.value (elem 16 (opnd xs i) j)
      let r := fDot (rmOf w) (satOf w) (es 0) (es 1) (F32.value (opnd xs 2).toNat)
      ([(w.d.toNat, false, BitVec.ofNat 64 r.1)], r.2)

/-- DOT4: four 8-bit products and an addend; the integer form wraps or saturates and raises no flag (R105). -/
def execDot4 (w : RF) (s : State) : Host.Outcome State Fault Refusal :=
  issue (.dot4 w) s fun c =>
    let ty := w.ty.toNat
    alu s c w.g [w.d.toNat] [(w.a.toNat, false), (w.b.toNat, false), (w.c.toNat, false)] 6 fun xs =>
      let es (i : Nat) : List Nat := (List.range 4).map fun j => elem 8 (opnd xs i) j
      if 13 ≤ ty then
        let r := fDot (rmOf w) (satOf w) ((es 0).map (fmtOf ty).value) ((es 1).map (fmtOf ty).value)
          (F32.value (opnd xs 2).toNat)
        ([(w.d.toNat, false, BitVec.ofNat 64 r.1)], r.2)
      else
        let it := if ty = 0 then 2 else 3
        let b (x : Nat) : Int := if ty = 0 then sgn 8 x else (x : Int)
        let t := (List.zipWith (fun x y => b x * b y) (es 0) (es 1)).foldl (· + ·) (intOf it (opnd xs 2))
        ([(w.d.toNat, false, intResult it (satOf w) t)], 0)

/-- CVTF: from the format MOD[7:3] into TY (R106). -/
def execCvtf (w : RF) (s : State) : Host.Outcome State Fault Refusal :=
  issue (.cvtf w) s fun c =>
    let src := fmtOf (w.md.toNat / 8)
    alu s c w.g [w.d.toNat] [(w.a.toNat, false)] 8 fun xs =>
      let r := cvtF src (fmtOf w.ty.toNat) (rmOf w) (satOf w) (elem src.width (opnd xs 0) 0)
      ([(w.d.toNat, false, BitVec.ofNat 64 r.1)], r.2)

/-- CVTI: from the integer type MOD[7:3] into TY (R107). -/
def execCvti (w : RF) (s : State) : Host.Outcome State Fault Refusal :=
  issue (.cvti w) s fun c =>
    let st := w.md.toNat / 8
    alu s c w.g [w.d.toNat] [(w.a.toNat, isWide st)] 8 fun xs =>
      let r := cvtI (fmtOf w.ty.toNat) (rmOf w) (satOf w) (intOf st (opnd xs 0))
      ([(w.d.toNat, false, BitVec.ofNat 64 r.1)], r.2)

/-- CVTFI: from the format MOD[7:3] to an integer, always saturating (R108). -/
def execCvtfi (w : RF) (s : State) : Host.Outcome State Fault Refusal :=
  issue (.cvtfi w) s fun c =>
    let src := fmtOf (w.md.toNat / 8)
    let rg := cvtRange w.ty.toNat
    alu s c w.g [w.d.toNat] [(w.a.toNat, false)] 8 fun xs =>
      let r := cvtFI src (rmOf w) rg.1 rg.2 (elem src.width (opnd xs 0) 0)
      ([(w.d.toNat, false, BitVec.ofNat 64 (wrap 32 r.1))], r.2)

/-- PACK2: two F32 values into a packed pair (R109). -/
def execPack2 (w : RF) (s : State) : Host.Outcome State Fault Refusal :=
  issue (.pack2 w) s fun c =>
    let fm := fmtOf w.ty.toNat
    alu s c w.g [w.d.toNat] [(w.a.toNat, false), (w.b.toNat, false)] 8 fun xs =>
      let r (i : Nat) : Nat × Nat := cvtF F32 fm (rmOf w) (satOf w) (opnd xs i).toNat
      ([(w.d.toNat, false, BitVec.ofNat 64 ((r 0).1 + 65536 * (r 1).1))], flOr (r 0).2 (r 1).2)

/-- PACK4: elements 0 and 1 from A, 2 and 3 from B (R109). -/
def execPack4 (w : RF) (s : State) : Host.Outcome State Fault Refusal :=
  issue (.pack4 w) s fun c =>
    alu s c w.g [w.d.toNat] [(w.a.toNat, true), (w.b.toNat, true)] 8 fun xs =>
      let r := pack4 w [elem 32 (opnd xs 0) 0, elem 32 (opnd xs 0) 1, elem 32 (opnd xs 1) 0, elem 32 (opnd xs 1) 1]
      ([(w.d.toNat, false, BitVec.ofNat 64 r.1)], r.2)

/-- UNPK: packed elements exactly to F32 (R110). -/
def execUnpk (w : RF) (s : State) : Host.Outcome State Fault Refusal :=
  issue (.unpk w) s fun c =>
    let fm := fmtOf w.ty.toNat
    let hi := if w.md.getLsbD 0 then 2 else 0
    alu s c w.g [w.d.toNat] [(w.a.toNat, false)] 8 fun xs =>
      let r (i : Nat) : Nat := (cvtF fm F32 0 false (elem fm.width (opnd xs 0) (hi + i))).1
      ([(w.d.toNat, true, BitVec.ofNat 64 (r 0 + 2 ^ 32 * r 1))], 0)

/-- QNT: quantise one span across the warp (R112). In protected mode each side works on its own lanes (R111). -/
def execQnt (w : RF) (s : State) : Host.Outcome State Fault Refusal :=
  issue (.qnt w) s fun c =>
    if (activeLanes s c w.g).isEmpty then s
    else
      let p := protOf s c.u
      let q (side : Nat) := quantise (quantIn s c w side) (w.md.toNat % 8 + 1) (w.md.toNat / 8 % 8)
      let q0 := q 0
      let s1 := quantSide s c w 0 q0
      let s1 := if p then quantSide s1 c w 1 (q 1) else s1
      let s1 := if isS c.u.lead w.c.toNat then
          landField s1 c w.c.toNat 0 false (BitVec.ofNat 64 q0.2.1) (c.cycle + 12) 0 else s1
      s1.raise c.u q0.2.2 (c.cycle + 12) c.cycle

/-- DQNT: expand codes (R113); elements 64 to 127 are not written in protected mode. -/
def execDqnt (w : RF) (s : State) : Host.Outcome State Fault Refusal :=
  issue (.dqnt w) s fun c =>
    let ls := (List.range 32).filter (laneCompute s c w.g)
    let rs := ls.map fun l => (l, dqLane s c w l)
    let s1 := rs.foldl (fun t r => landSpan t c w.ty.toNat w.d.toNat r.1 (r.2.map (·.1))) s
    let act := realLanes s c w.g
    let fl := (rs.filter fun r => act.contains r.1).foldl (fun a r => r.2.foldl (fun a x => flOr a x.2) a) 0
    s1.raise c.u fl (c.cycle + 12) c.cycle

/-- QDESC: query a span descriptor (R114). -/
def execQdesc (w : RF) (s : State) : Host.Outcome State Fault Refusal :=
  issue (.qdesc w) s fun c =>
    alu s c w.g [w.d.toNat] [(w.a.toNat, false), (w.b.toNat, false)] 8 fun xs =>
      ([(w.d.toNat, false,
          BitVec.ofNat 64 (descQuery (w.md.toNat % 4) (opnd xs 0).toNat ((opnd xs 1).toNat % 8)))], 0)

/-- FRCP (R115, R116). -/
def execFrcp (w : RF) (s : State) : Host.Outcome State Fault Refusal :=
  issue (.frcp w) s fun c =>
    fTrans s c w fRcp

/-- FRSQ (R115, R116). -/
def execFrsq (w : RF) (s : State) : Host.Outcome State Fault Refusal :=
  issue (.frsq w) s fun c =>
    fTrans s c w fRsq

/-- FSQRT (R115, R116). -/
def execFsqrt (w : RF) (s : State) : Host.Outcome State Fault Refusal :=
  issue (.fsqrt w) s fun c =>
    fTrans s c w fSqrt

/-- FEXP2 (R115, R116). -/
def execFexp2 (w : RF) (s : State) : Host.Outcome State Fault Refusal :=
  issue (.fexp2 w) s fun c =>
    fTrans s c w fExp2

/-- FLOG2 (R115, R116). -/
def execFlog2 (w : RF) (s : State) : Host.Outcome State Fault Refusal :=
  issue (.flog2 w) s fun c =>
    fTrans s c w fLog2

/-- FSIN (R115, R116). -/
def execFsin (w : RF) (s : State) : Host.Outcome State Fault Refusal :=
  issue (.fsin w) s fun c =>
    fTrans s c w fSin

/-- FCOS (R115, R116). -/
def execFcos (w : RF) (s : State) : Host.Outcome State Fault Refusal :=
  issue (.fcos w) s fun c =>
    fTrans s c w fCos

/-- FTANH (R115, R116). -/
def execFtanh (w : RF) (s : State) : Host.Outcome State Fault Refusal :=
  issue (.ftanh w) s fun c =>
    fTrans s c w fTanh

end Sys2Proof.Machine
end

