-- ==== Sys2Proof/Machine/Lane.lean ====
section
/-! DEFINITION. Group 3: exchange between lanes, quads and warps, and the decision queues (R126-R139). In protected
launch mode every lane number is a visible one and each side reads its own side (R126); visible lanes 16 to 31 are those
of exited quads and read 0 (log 10). -/

namespace Sys2Proof.Machine

/-- Field `r` of visible lane `i`, on the side of lane `l`. -/
def readVis (s : State) (c : Cur) (r i l : Nat) (wide : Bool) : Word64 :=
  let p := protOf s c.u
  if p && 16 ≤ i then 0 else readField s c r (physLane p i l) wide

/-- A lane-wise exchange: lane `l` lands `f` of its visible number when it computes (R129). -/
def xLanes (s : State) (c : Cur) (w : RF) (lat : Nat) (f : Nat → Nat → Word64) : State :=
  let p := protOf s c.u
  ((List.range 32).filter (laneCompute s c w.g)).foldl (fun t l =>
    landField t c w.d.toNat l false (f (visLane p l) l) (c.cycle + lat) 0) s

/-- Exchange inside each quad: position `j` of R130 from position `i`. -/
def quadSwap (s : State) (c : Cur) (w : RF) (f : Nat → Nat) : State :=
  xLanes s c w 4 fun v l => readVis s c w.a.toNat (v / 4 * 4 + f (v % 4)) l false

/-- A SHFL form (R131). -/
def shflOp (s : State) (c : Cur) (w : RF) (op : Nat) : State :=
  xLanes s c w 8 fun v l =>
    let n := (readField s c w.b.toNat l false).toNat % 32
    readVis s c w.a.toNat (shflSrc op (segWidth (w.md.toNat % 8)) v n) l false

/-- The active lanes of a side of the warp: all of them outside protected mode. -/
def sideActive (s : State) (c : Cur) (g : Guard) (side : Nat) : List Nat :=
  let p := protOf s c.u
  (activeLanes s c g).filter fun l => !p || l % 2 == side

/-- A warp-wide value: an S destination receives the primary side's once, a V or P destination each side's in every
computing lane (R129). -/
def warpWide (s : State) (c : Cur) (w : RF) (lat : Nat) (f : Nat → Word64) : State :=
  if isSZ c.u.lead w.d.toNat then landField s c w.d.toNat 0 false (f 0) (c.cycle + lat) 0
  else
    let p := protOf s c.u
    let f0 := f 0
    let f1 := if p then f 1 else f0
    xLanes s c w lat fun _ l => if p && l % 2 == 1 then f1 else f0

/-- VOTE over the values of the contributing lanes (R133). -/
def voteVal (m : Nat) (xs : List Bool) : Bool :=
  match m with
  | 0 => xs.any id
  | 1 => xs.all id
  | _ => xs.all id || !xs.any id

/-- Add two contributions: I32 wraps, F32 rounds by RN (R92). -/
def nodeAdd (f32 : Bool) (a b : Nat × Nat) : Nat × Nat :=
  if f32 then
    let r := fAdd F32 0 false a.1 b.1
    (r.1, flOr (flOr a.2 b.2) r.2)
  else ((a.1 + b.1) % 2 ^ 32, 0)

/-- One level of the tree: neighbours are added (R92). -/
def treeLevel (f32 : Bool) : List (Nat × Nat) → List (Nat × Nat)
  | a :: b :: rest => nodeAdd f32 a b :: treeLevel f32 rest
  | xs => xs

/-- The node of level `k` that covers contributions i·2^k onward, with the flags of its additions. -/
def treeNode (f32 : Bool) : Nat → List (Nat × Nat) → Nat → Nat × Nat
  | 0, xs, i => xs.getD i (0, 0)
  | k + 1, xs, i => treeNode f32 k (treeLevel f32 xs) i

/-- The 32 contributions of a side (R92): the identity is 0, or -0.0 for F32. -/
def contribs (s : State) (c : Cur) (w : RF) (side : Nat) : List (Nat × Nat) :=
  let p := protOf s c.u
  let act := sideActive s c w.g side
  (List.range 32).map fun i =>
    let l := if p then 2 * i + side else i
    if act.contains l then ((readField s c w.a.toNat l false).toNat, 0)
    else (if w.ty.toNat = 8 then 0x80000000 else 0, 0)

/-- The inclusive scan for lane `i`: aligned blocks, largest first, by the set bits of i + 1 (R92); a NaN is the canonical
one, also that of lane 0, which no addition forms (R79). -/
def scanAt (f32 : Bool) (xs : List (Nat × Nat)) (i : Nat) : Nat × Nat :=
  let n := i + 1
  let go := [5, 4, 3, 2, 1, 0].foldl (fun (a : Nat × Option (Nat × Nat)) k =>
    if n.testBit k then
      let nd := treeNode f32 k xs (a.1 / 2 ^ k)
      (a.1 + 2 ^ k, some (match a.2 with | none => nd | some v => nodeAdd f32 v nd))
    else a) (0, none)
  let r := go.2.getD (0, 0)
  if f32 && (F32.value r.1).isNan then (F32.nan, r.2) else r

/-- The decision-underrun trap: LANES is the sub-gang's EXEC, DETAIL word 4 is DQN (R139, Table 15.4). -/
def underrun (s : State) (c : Cur) : State := trapCur s c 4 0 (execMask s c) [0]

/-- The head entry of the warp's decision queue at cycle `c`, if one has been appended (R137, R139). DEDUCED (log 103): an
entry appended in that very cycle is there. -/
def dqHead (x : ExecUnit) (c : Nat) : Option Word64 :=
  (x.dq.find? fun e => e.1 == x.pp && e.2.1 ≤ c).map fun e => e.2.2

/-- Pop the head entry. -/
def dqDrop (s : State) (u : UnitId) : State := s.modUnit u fun x => { x with pp := x.pp + 1 }

/-- Push `v` to the queue of warp `n` (R138): a push whose renewed count does not exceed Ps is a replay and is dropped. -/
def pushTo (g : Group) (lead : UnitId) (v : Word64) (cyc : Nat) (s : State) (n : Nat) : State :=
  match s.unit? lead with
  | none => s
  | some x =>
    let p := x.push.getD n 0 + 1
    let s := s.modUnit lead fun x => { x with push := x.push.set n p }
    s.modUnit (warpId g n) fun y =>
      if p ≤ y.ps then y else { y with ps := y.ps + 1, dq := y.dq ++ [(y.ps, cyc + 4, v)] }

/-- QSWPH: position i XOR 1 (R130). -/
def execQswph (w : RF) (s : State) : Host.Outcome State Fault Refusal :=
  issue (.qswph w) s fun c =>
    quadSwap s c w fun i => i ^^^ 1

/-- QSWPV: position i XOR 2 (R130). -/
def execQswpv (w : RF) (s : State) : Host.Outcome State Fault Refusal :=
  issue (.qswpv w) s fun c =>
    quadSwap s c w fun i => i ^^^ 2

/-- QSWPD: position i XOR 3 (R130). -/
def execQswpd (w : RF) (s : State) : Host.Outcome State Fault Refusal :=
  issue (.qswpd w) s fun c =>
    quadSwap s c w fun i => i ^^^ 3

/-- QBC: broadcast position MOD[1:0] (R130). -/
def execQbc (w : RF) (s : State) : Host.Outcome State Fault Refusal :=
  issue (.qbc w) s fun c =>
    quadSwap s c w fun _ => w.md.toNat % 4

/-- SHFL (R131). -/
def execShfl (w : RF) (s : State) : Host.Outcome State Fault Refusal :=
  issue (.shfl w) s fun c =>
    shflOp s c w 0

/-- SHFLU (R131). -/
def execShflu (w : RF) (s : State) : Host.Outcome State Fault Refusal :=
  issue (.shflu w) s fun c =>
    shflOp s c w 1

/-- SHFLD (R131). -/
def execShfld (w : RF) (s : State) : Host.Outcome State Fault Refusal :=
  issue (.shfld w) s fun c =>
    shflOp s c w 2

/-- SHFLX (R131). -/
def execShflx (w : RF) (s : State) : Host.Outcome State Fault Refusal :=
  issue (.shflx w) s fun c =>
    shflOp s c w 3

/-- VOTE (R133). -/
def execVote (w : RF) (s : State) : Host.Outcome State Fault Refusal :=
  issue (.vote w) s fun c =>
    warpWide s c w 8 fun side =>
      bit64 (voteVal (w.md.toNat % 4) ((sideActive s c w.g side).map fun l => s.p c.u (w.a.toNat - 0xA0) l))

/-- BALLOT: mask of contributing visible lanes whose predicate is 1 (R133). -/
def execBallot (w : RF) (s : State) : Host.Outcome State Fault Refusal :=
  issue (.ballot w) s fun c =>
    warpWide s c w 8 fun side =>
      (maskOf (protOf s c.u) ((sideActive s c w.g side).filter fun l => s.p c.u (w.a.toNat - 0xA0) l)).setWidth 64

/-- MATCH: mask of active visible lanes that hold the same value (R132). -/
def execMatchLanes (w : RF) (s : State) : Host.Outcome State Fault Refusal :=
  issue (.matchLanes w) s fun c =>
    let wd := isWide w.ty.toNat
    xLanes s c w 8 fun _ l =>
      let v := readField s c w.a.toNat l wd
      (maskOf (protOf s c.u)
        ((sideActive s c w.g (l % 2)).filter fun k => readField s c w.a.toNat k wd == v)).setWidth 64

/-- LPOPC: set bits of a[31:0] below the own lane (R132). -/
def execLpopc (w : RF) (s : State) : Host.Outcome State Fault Refusal :=
  issue (.lpopc w) s fun c =>
    xLanes s c w 8 fun v l => BitVec.ofNat 64 (popCount (readField s c w.a.toNat l false).toNat v)

/-- RDLANE: lane b[4:0] of A into an S register (R135). -/
def execRdlane (w : RF) (s : State) : Host.Outcome State Fault Refusal :=
  issue (.rdlane w) s fun c =>
    let wd := isWide w.ty.toNat
    let i := (readField s c w.b.toNat 0 false).toNat % 32
    landField s c w.d.toNat 0 true (readVis s c w.a.toNat i 0 wd) (c.cycle + 8) 0

/-- WRLANE: a into lane b[4:0] of D only (R135); in protected mode into both sides of the lane. A register of an absent lane
goes on to read 0 (R129). -/
def execWrlane (w : RF) (s : State) : Host.Outcome State Fault Refusal :=
  issue (.wrlane w) s fun c =>
    let wd := isWide w.ty.toNat
    let i := (readField s c w.b.toNat 0 false).toNat % 32
    let v := readField s c w.a.toNat 0 wd
    if !lanePresent s c.u i then s
    else if protOf s c.u then
      landField (landField s c w.d.toNat (2 * i) wd v (c.cycle + 8) 0) c w.d.toNat (2 * i + 1) wd v (c.cycle + 8) 0
    else landField s c w.d.toNat i wd v (c.cycle + 8) 0

/-- WREDUCE: the fixed tree over the active lanes (R92, R134). -/
def execWreduce (w : RF) (s : State) : Host.Outcome State Fault Refusal :=
  issue (.wreduce w) s fun c =>
    let f32 := w.ty.toNat == 8
    let r (side : Nat) : Nat × Nat := treeNode f32 5 (contribs s c w side) 0
    let r0 := r 0
    (warpWide s c w 20 fun side => BitVec.ofNat 64 (if side = 0 then r0.1 else (r side).1)).raise c.u r0.2 (c.cycle + 20)
      c.cycle

/-- WSCAN: the inclusive combination for each lane (R92, R134); flags of the active lanes only. -/
def execWscan (w : RF) (s : State) : Host.Outcome State Fault Refusal :=
  issue (.wscan w) s fun c =>
    let f32 := w.ty.toNat == 8
    let p := protOf s c.u
    let xs0 := contribs s c w 0
    let xs1 := if p then contribs s c w 1 else xs0
    let val (v l : Nat) : Nat × Nat := scanAt f32 (if p && l % 2 == 1 then xs1 else xs0) v
    let fl := (realLanes s c w.g).foldl (fun a l => flOr a (val (visLane p l) l).2) 0
    (xLanes s c w 20 fun v l => BitVec.ofNat 64 (val v l).1).raise c.u fl (c.cycle + 20) c.cycle

/-- XMOV: a register of warp n of the group, at the issue cycle (R135). -/
def execXmov (w : RF) (s : State) : Host.Outcome State Fault Refusal :=
  issue (.xmov w) s fun c =>
    match s.groupOf c.u with
    | none => s
    | some g =>
      let src := warpId g (w.md.toNat % 4)
      if isS c.u.lead w.a.toNat then
        landField s c w.d.toNat 0 true (s.sr src (w.a.toNat - 0x80)) (c.cycle + 8) 0
      else xLanes s c w 8 fun _ l => (s.v src w.a.toNat l).setWidth 64

/-- DQPOP: the head entry lands in S; an empty queue traps and pops nothing (R139). -/
def execDqpop (w : RF) (s : State) : Host.Outcome State Fault Refusal :=
  issue (.dqpop w) s fun c =>
    match (s.unit? c.u).bind fun x => dqHead x c.cycle with
    | none => underrun s c
    | some v => landField (dqDrop s c.u) c w.d.toNat 0 true v (c.cycle + 4) 0

/-- LPUSH: append a[63:0] to one queue or to all, at issue + 4 (R138). -/
def execLpush (w : RF) (s : State) : Host.Outcome State Fault Refusal :=
  issue (.lpush w) s fun c =>
    match s.groupOf c.u with
    | none => s
    | some g =>
      if !guardLead s c.u w.g then s
      else
        let v := readU s c w.a.toNat
        let ns := if w.md.getLsbD 2 then List.range g.slots.length else [w.md.toNat % 4]
        ns.foldl (pushTo g c.u v c.cycle) s

end Sys2Proof.Machine
end

