-- ==== Sys2Proof/Machine/Page.lean ====
section
/-! DEFINITION. Translation: region entries, walks and their faults (R288-R292), held translations (R293), the probe of an
access (R294, R295), and how a probe fault is delivered (R296, R297). -/

namespace Sys2Proof.Machine

/-- Bits [hi:lo] of a number. -/
def bits (x lo n : Nat) : Nat := x / 2 ^ lo % 2 ^ n

/-- log2 of a page size code (R289). -/
def pageBits (c : Nat) : Nat := match c with | 0 => 12 | 1 => 16 | 2 => 21 | _ => 28

/-- What a walk ends with (R289, R295): a cause with level and SEQ, the leaf with its companion's place, or a poisoned
entry. -/
structure WalkEnd where
  cause : Nat
  lvl : Nat
  seq : Nat
  leaf : Option (Nat × Nat × Nat)    -- leaf word, die and byte address of its slot
  xl : Option Xlat
  poison : Option (Nat × Nat)
  deriving DecidableEq, Repr

/-- A fault of a walk. -/
def WalkEnd.fault (cause lvl seq : Nat) : WalkEnd :=
  { cause := cause, lvl := lvl, seq := seq, leaf := none, xl := none, poison := none }

/-- A region attribute word as a die's walker holds it (R288). -/
def rafWord (s : State) (die ctx i : Nat) : Nat := Tab.get (0 : Nat) (Tab.get [] (s.die die).rafCopy ctx) i

/-- Index width of level `lv` (Table 14.1). -/
def idxWidth (w0 lv : Nat) : Nat := bits w0 (33 + 4 * lv) 4

/-- States in which a die belongs to a context (R306). -/
def CState.holdsDie (c : CState) : Bool := c == .bound || c == .running || c == .faulted || c == .freezing

/-- Is a die in the context's partition? -/
def inPartition (s : State) (ctx die : Nat) : Bool := (s.ctx ctx).partition.testBit die

/-- Effective key id of a leaf (R292). -/
def leafKey (w0 e : Nat) : Nat := if bits e 41 8 = 0 then bits w0 49 8 else bits e 41 8

/-- Is a leaf malformed (R290, R292, R308)? `w0` is word 0 of the region entry. -/
def leafBad (s : State) (ctx w0 e : Nat) : Bool :=
  let p := pageBits (bits w0 61 2)
  let tgt := bits e 56 2
  let tid := bits e 49 7
  let hpol := bits w0 57 2
  let key := leafKey w0 e
  bits e 0 5 != 0 || tgt == 3 || (e.testBit 60 && !e.testBit 61) || (e.testBit 59 && e.testBit 58) ||
    bits e 5 32 % 2 ^ (p - 12) != 0 || (tgt ≤ 1 && bits e 37 4 != 0) ||
    (tgt == 0 && (16 ≤ tid || (hpol == 1 && !inPartition s ctx tid))) || (tgt == 1 && 2 ≤ tid) ||
    (tgt == 2 && !s.podmask.testBit tid) ||
    (hpol == 1 && tgt != 0) || (hpol == 2 && tgt != 1) || (hpol == 3 && tgt != 2) ||
    (tgt == 0 && key == 0 && (s.ctx ctx).viaTdisp) || (tgt != 0 && key != 0) ||
    (tgt == 0 && key != 0 && ((s.ctx ctx).keys.get? key).isNone)

/-- The translation a leaf gives (R289, R293, R378). -/
def leafXlat (ctx va w0 e : Nat) (dirty : Bool) : Xlat :=
  let p := pageBits (bits w0 61 2)
  { ctx := ctx, page := va / 2 ^ p * 2 ^ p, psize := p, r := e.testBit 62, w := e.testBit 61, at' := e.testBit 60,
    pin := e.testBit 59, tgt := bits e 56 2, tid := bits e 49 7, preg := bits e 37 4,
    frame := bits e 5 32 * 4096, key := leafKey w0 e, dirty := dirty }

/-- The levels of a walk (R289): `hi` is the next index's top bit, (die, t) the table. -/
def walkLevels (s : State) (ctx va w0 levels : Nat) : Nat → Nat → Nat → Nat → Nat → WalkEnd
  | 0, _, _, _, _ => WalkEnd.fault 4 0 0
  | fuel + 1, lv, hi, die, t =>
    let iw := idxWidth w0 lv
    let a := t + 16 * (bits va (hi - iw) iw)
    if s.hbmPoisoned die a 16 then { WalkEnd.fault 0 lv 0 with poison := some (die, a) }
    else
      let e := s.hbmRead ctx die 0 a 8
      if !e.testBit 63 then
        if lv = levels then { WalkEnd.fault 2 lv (s.hbmRead ctx die 0 (a + 12) 4) with leaf := some (e, die, a) }
        else WalkEnd.fault 2 lv 0
      else if lv < levels then
        if bits e 56 7 != 0 || bits e 36 16 != 0 || bits e 0 4 != 0 then WalkEnd.fault 4 lv 0
        else walkLevels s ctx va w0 levels fuel (lv + 1) (hi - iw) (bits e 52 4) (bits e 4 32 * 16)
      else
        let seq := s.hbmRead ctx die 0 (a + 12) 4
        let leaf := some (e, die, a)
        if leafBad s ctx w0 e then { WalkEnd.fault 4 lv seq with leaf := leaf }
        else if e.testBit 58 then { WalkEnd.fault 5 lv seq with leaf := leaf }
        else { cause := 0, lvl := lv, seq := seq, leaf := leaf, xl := some (leafXlat ctx va w0 e false), poison := none }

/-- A walk on a die (R289). -/
def walk (s : State) (die ctx va : Nat) : WalkEnd :=
  if bits va 56 8 ≠ 0 then WalkEnd.fault 3 0 0
  else
    let j := bits va 52 4
    let w0 := rafWord s die ctx (2 * j)
    let w1 := rafWord s die ctx (2 * j + 1)
    let levels := bits w0 59 2
    let p := pageBits (bits w0 61 2)
    let iws := (List.range (levels + 1)).map (idxWidth w0)
    if !w0.testBit 63 then WalkEnd.fault 1 0 0
    else if iws.any (fun w => w = 0 || 13 < w) || iws.foldl (· + ·) 0 ≠ 52 - p then WalkEnd.fault 4 0 0
    else walkLevels s ctx va w0 levels 4 0 52 (bits w1 52 4) (bits w1 4 32 * 16)

/-- Set the companion bits of the leaf a walk has read (R291). -/
def State.setCompanion (s : State) (ctx die : Nat) (write : Bool) (w : WalkEnd) : State :=
  match w.xl, w.leaf with
  | some _, some (_, d, a) =>
    let v := s.hbmRead ctx d 0 (a + 8) 4
    s.hbmWrite ctx d 0 (a + 8) (leBytes 4 (v ||| 2 ^ die ||| (if write then 65536 else 0)))
  | _, _ => s

/-- Leaf level of the region of an address, for causes 6 and 7 (Table 14.5). -/
def regionLevels (s : State) (die ctx va : Nat) : Nat := bits (rafWord s die ctx (2 * bits va 52 4)) 59 2

/-- Does a held translation cover an address of a context? -/
def Xlat.covers (x : Xlat) (ctx va : Nat) : Bool := x.ctx == ctx && x.page == va / 2 ^ x.psize * 2 ^ x.psize

/-- The translation at hand for a lane or channel: its last-page register `idx`, then the buffer; an entry with a parity error
is invalid (R293). -/
def heldXlat (s : State) (die core idx ctx va : Nat) (write : Bool) : Option Xlat :=
  let ok (e : XlEnt) : Bool := e.die == die && e.core == core && e.x.covers ctx va && (!write || e.x.dirty) &&
    !s.arrPoisoned 9 (xlPlace die core e.idx) 1
  ((s.xlb.find? fun e => e.idx == idx && ok e).orElse fun _ => s.xlb.find? fun e => 132 ≤ e.idx && ok e).map (·.x)

/-- Put a translation into one place of a core. -/
def State.putXlat (s : State) (die core idx : Nat) (x : Xlat) : State :=
  { s.healArr 9 (xlPlace die core idx) 1 with
    xlb := { die := die, core := core, idx := idx, x := x } :: s.xlb.filter fun e => !(e.die == die && e.core == core && e.idx == idx) }

/-- Fill a last-page register and the buffer; which entry a full buffer gives up is not published (log 5). -/
def State.fillXlat (s : State) (die core idx : Nat) (x : Xlat) : State :=
  let s := s.putXlat die core idx x
  let used := (s.xlb.filter fun e => e.die == die && e.core == core && 132 ≤ e.idx).map (·.idx)
  let same := s.xlb.find? fun e => e.die == die && e.core == core && 132 ≤ e.idx && e.x.covers x.ctx x.page
  match same with
  | some e => s.putXlat die core e.idx x
  | none =>
    match (List.range 256).find? fun i => !used.contains (132 + i) with
    | some i => s.putXlat die core (132 + i) x
    | none =>
      let v := Config.freeNat s.freeCtr % 256
      State.putXlat { s with freeCtr := s.freeCtr + 1 } die core (132 + v) x

/-- Is the access permitted (R294)? `need` is 0 read, 1 write, 2 atomic. -/
def Xlat.permits (x : Xlat) (need : Nat) : Bool :=
  match need with
  | 0 => x.r
  | 1 => x.w
  | _ => x.r && x.w && x.at'

/-- The cause of a translation that is at hand: 7 for an unpinned page of a scheduled kernel, 6, or none (R295). -/
def xlCause (sched : Bool) (need : Nat) (x : Xlat) : Nat :=
  if sched && !x.pin then 7 else if x.permits need then 0 else 6

/-- Physical place of a virtual address under a translation: the byte address in its target. -/
def Xlat.place (x : Xlat) (va : Nat) : Nat := x.frame + va % 2 ^ x.psize

/-- Home code of a translation: die 0-15, host port 16-17, peer module 32 + m (R207). -/
def Xlat.home (x : Xlat) : Nat := match x.tgt with | 0 => x.tid % 16 | 1 => 16 + x.tid % 2 | _ => 32 + x.tid

/-- The home code of a lane whose home is not known: it walks, or waits for a translation, and names no peer. -/
def unknownHome : Nat := 4128

/-- A lane about to be probed: no peer, and no translation yet. -/
def laneReq (lane addr data cmp : Nat) : LaneReq :=
  { lane := lane, addr := addr, data := data, cmp := cmp, peer := unknownHome - 32, xl := none, cause := 0, lvl := 0, seq := 0, st := .idle,
    arr := 0, res := 0, poison := false }

/-- The outcome of a lane once its translation or its fault is known; `seq` is the SEQ of a leaf that a walk reached, else 0
(Table 14.5). -/
def LaneReq.settle (l : LaneReq) (sched : Bool) (need lvl seq : Nat) (x : Xlat) : LaneReq :=
  let c := xlCause sched need x
  if c = 0 then { l with xl := some x, st := .ready } else { l with cause := c, lvl := lvl, seq := seq, st := .faulted }

/-- Probe a lane at its issue cycle (R294): hit, pending or faulted. -/
def probeLane (s : State) (die core idx ctx : Nat) (sched : Bool) (need : Nat) (l : LaneReq) : LaneReq :=
  if bits l.addr 56 8 ≠ 0 then { l with cause := 3, st := .faulted }
  else
    match heldXlat s die core idx ctx l.addr (need != 0) with
    | some x => l.settle sched need (regionLevels s die ctx l.addr) 0 x
    | none => { l with st := .walking }

/-- The listed lanes of a faulted access: those with causes 1 to 5, else those with 7, else those with 6 (R295, R297). -/
def listedLanes (ls : List LaneReq) : List LaneReq :=
  let f := ls.filter fun l => l.st == .faulted
  let pf := f.filter fun l => 1 ≤ l.cause && l.cause ≤ 5
  if !pf.isEmpty then pf
  else
    let un := f.filter fun l => l.cause == 7
    if un.isEmpty then f else un

/-- The words of Table 14.5 of a faulted access; a copy or a uniform access lists bit 0. -/
def faultDetail (ls : List LaneReq) (write uni : Bool) : List Nat :=
  match listedLanes ls with
  | [] => []
  | l :: rest =>
    let mask := if uni then 1 else (maskPhys ((l :: rest).map (·.lane))).toNat
    [l.addr, l.seq * 2 ^ 32 + mask, (if write then 32 else 0) + 8 * l.lvl + l.cause]

/-- Trap kind of a faulted access: 7 for causes 1 to 5, else 8; SUB is the cause. -/
def faultKind (ls : List LaneReq) : Nat × Nat :=
  match listedLanes ls with
  | [] => (7, 0)
  | l :: _ => if l.cause ≤ 5 then (7, l.cause) else (8, l.cause)

/-- LANES of the record: the faulting lanes, 0 for a uniform access or a lead unit (Table 15.4). -/
def faultLanes (ls : List LaneReq) (uni : Bool) : BitVec 32 :=
  if uni then 0 else maskPhys ((listedLanes ls).map (·.lane))

/-- A probe fault known at issue (R295): a precise trap, or a schedule fault with cause 4 for a scheduled kernel. No unit stops
through that one's record: the access does nothing and the unit goes on until the lay stops it (R297, R353, R355; log 139). -/
def probeFault (s : State) (c : Cur) (ls : List LaneReq) (write uni : Bool) : State :=
  let d := faultDetail ls write uni
  match layOf s c.u with
  | some l => s.schedFault l 4 c.u c.pc [0, 0, d.getD 2 0]
  | none =>
    let k := faultKind ls
    trapCur s c k.1 k.2 (faultLanes ls uni) d

/-! ### Starting a shoot-down (R298, R304) -/

/-- Does a shoot-down cover an address range [lo, hi) of a context? -/
def ShootDown.covers (d : ShootDown) (ctx lo hi : Nat) : Bool :=
  d.ctx == ctx && (d.kind == 2 || (d.lo < hi && lo < d.hi))

/-- The dies of a context's partition. -/
def partitionDies (s : State) (ctx : Nat) : List Nat := (List.range 16).filter fun d => inPartition s ctx d

/-- Page size of the region of an address as a die's walker holds it. -/
def regionPage (s : State) (die ctx va : Nat) : Nat := pageBits (bits (rafWord s die ctx (2 * bits va 52 4)) 61 2)

/-- The byte range a shoot-down covers: `n` pages within the region for kind 0, the region for kind 1 (R304). -/
def shootRange (s : State) (die ctx kind a n : Nat) : Nat × Nat :=
  let p := regionPage s die ctx a
  let top := (bits a 52 4 + 1) * 2 ^ 52
  match kind with
  | 0 => let lo := a % 2 ^ 56 / 2 ^ p * 2 ^ p; (lo, min top (lo + n * 2 ^ p))
  | 1 => (bits a 52 4 * 2 ^ 52, top)
  | _ => (0, 2 ^ 56)

/-- Read and clear the accessed bits of the leaf of one page, adding its dies (R298 step 2). -/
def State.snapshot (s : State) (die ctx va : Nat) (acc : Nat) : Nat × State :=
  match (walk s die ctx va).leaf with
  | some (_, d, a) =>
    let v := s.hbmRead ctx d 0 (a + 8) 4
    (acc ||| v % 2 ^ 16, s.hbmWrite ctx d 0 (a + 8) (leBytes 4 (v / 2 ^ 16 * 2 ^ 16)))
  | none => (acc, s)

/-- Start a shoot-down of a context on behalf of operation `op` (0 for the host): the die set is taken from the accessed
bits for kind 0 and is the partition otherwise; a sweep goes to each die (R298). -/
def State.startShoot (s : State) (ctx die kind a n op : Nat) : State :=
  let r := shootRange s die ctx kind a n
  let p := regionPage s die ctx a
  let snap : Nat × State :=
    if kind = 0 then (List.range ((r.2 - r.1) / 2 ^ p)).foldl (fun x i => x.2.snapshot die ctx (r.1 + i * 2 ^ p) x.1) (0, s)
    else (2 ^ 16 - 1, s)
  let ds := (List.range 16).filter fun d => snap.1.testBit d && (kind = 0 || inPartition s ctx d)
  let f := snap.2.fresh
  let s : State := { f.2 with sds := f.2.sds ++
    [{ id := f.1, ctx := ctx, kind := kind, lo := r.1, hi := r.2, op := op, dies := ds, waiting := [] }] }
  if ds.isEmpty then s.schedFree 20 (ev .shootdownComplete [f.1])
  else ds.foldl (fun s d => s.schedFree 20 (ev .shootdownSweep [f.1, d])) s

end Sys2Proof.Machine
end

