-- ==== Sys2Proof/Machine/Stopper.lean ====
section
/-! DEFINITION. The stopper and the outbound queues: how an operation starts, is held, replayed, released, gated and
dispatched (R195-R206, R211-R213, R220, R221, R224, R232, R241, R328, R385), and how it completes. -/

namespace Sys2Proof.Machine

/-! ### Operations -/

/-- An operation of the instruction being issued, with nothing in it yet. -/
def opBase (s : State) (c : Cur) (kind : OpKind) : Op :=
  let g := s.groupOf c.u
  { id := 0, u := c.u, gid := (match g with | some g => g.gid | none => 0),
    ctx := (match g with | some g => g.ctx | none => 0), kind := kind, fn := 0, ty := 0, size := 0, ord := 0, sco := 0,
    issue := c.cycle, pc := c.pc, seq := 0, ordinal := 0, k := none, bar := none, dest := 0xFF, helpers := 0, lanes := [],
    stage := .ready, leave := 0, clock := [], front := [], kdone := false, binds := [], args := [], copy := none,
    doneAt := 0, fwd := 0, mism := false }

/-- Start an operation: it takes its number and its place in program order, and its counter rises at issue (R170). -/
def State.startOp (s : State) (o : Op) : Nat × State :=
  let f := s.fresh
  let n := match s.unit? o.u with | some x => x.nSeq + 1 | none => 1
  let s := f.2.modUnit o.u fun x => { x with nSeq := n }
  let s := match o.k with | some k => s.kAdd o.u k 1 o.issue | none => s
  (f.1, s.addOp { o with id := f.1, seq := n })

/-- The slot an operation of unit `u` issued in at cycle `iss`, as far as landing needs it. -/
def landCur (u : UnitId) (iss : Nat) : Cur := { u := u, cycle := iss, pc := 0, idx := 0, hdr := 0, quads := 0 }

/-- Land a result of `n` bytes of lane `l` in destination field `d` (R189, R218): one register for up to 4 bytes, two or
four registers for 8 or 16, lowest address first; a uniform field takes 8 bytes. -/
def landBytes (s : State) (c : Cur) (d l n v cyc op : Nat) : State :=
  if isS c.u.lead d then landField s c d 0 true (BitVec.ofNat 64 v) cyc op
  else
    let k := if n = 16 then 4 else if n = 8 then 2 else 1
    (List.range k).foldl (fun s j =>
      if isV c.u.lead d then landField s c (d + j) l false (BitVec.ofNat 64 (v / 2 ^ (32 * j) % 2 ^ 32)) cyc op else s) s

/-- Is it an atomic? -/
def OpKind.isAtomic (k : OpKind) : Bool := k == .atomic || k == .ratom
/-- Does it write (R201, R233)? -/
def OpKind.isWrite (k : OpKind) : Bool :=
  k == .store || k == .atomic || k == .teamStore || k == .rst || k == .ratom || k == .copy || k == .copyr || k == .cpyst
/-- Does it pass the outbound queue (R204)? -/
def OpKind.outbound (k : OpKind) : Bool := k.isWrite || k == .rld || k == .cpycan || k == .launch || k == .doorbell
/-- Is it a global access or copy, for R294 and R304? -/
def OpKind.isGlobal (k : OpKind) : Bool := k.isWrite || k == .load || k == .rld || k == .cpycan || k == .probe

/-- Land the results of an operation for the unit `u` that issued it, or replays it, at cycle `iss` (R218, R385). -/
def State.landOp (s : State) (o : Op) (u : UnitId) (iss cyc : Nat) : State :=
  if o.dest = 0xFF then s
  else
    let c := landCur u iss
    -- in protected mode the shadow lane takes its primary's result (R387)
    let both (l : Nat) : List Nat := if protOf s u && isV u.lead o.dest then [l, l + 1] else [l]
    let s := o.lanes.foldl (fun s l => (both l.lane).foldl (fun s k => landBytes s c o.dest k o.size l.res cyc o.id) s) s
    ((List.range 32).filter fun l => o.helpers.getLsbD l).foldl (fun s l => landBytes s c o.dest l o.size 0 cyc o.id) s

/-- End the replays bound to an operation: results land, each counter falls once (R385). -/
def State.endBinds (s : State) (o : Op) (cyc : Nat) : State :=
  o.binds.foldl (fun s b =>
    let s := s.landOp o b.u b.issue cyc
    match b.k with | some k => s.kAdd b.u k (-1) cyc | none => s) s

/-- Complete an operation at cycle `cyc`: results land unless a restart has taken its issuing side, counters fall. -/
def State.completeAt (s : State) (id cyc : Nat) : State :=
  match s.op? id with
  | none => s
  | some o =>
    if !o.live then s
    else
      let s := if o.kdone then s else s.landOp o o.u o.issue cyc
      let s := (s.opUncount o cyc).endBinds o cyc
      s.modOp id fun o => { o with stage := .done, binds := [], doneAt := cyc }

/-- Complete at the first cycle of the unit after now: the time of a dynamic completion is not published (R218). -/
def State.complete (s : State) (id : Nat) : State :=
  match s.op? id with
  | none => s
  | some o => s.completeAt id (s.ucyc o.u + 1)

/-! ### Entering the stopper -/

/-- The kept operation that a re-executed entry of ordinal `n` binds to; a twin's entry follows the primary's (R390). -/
def keptOp (s : State) (u : UnitId) (n : Nat) : Option Op :=
  match s.ops.find? fun o => o.u = u && o.ordinal = n with
  | some o => if o.fwd = 0 then some o else s.op? o.fwd
  | none => none

/-- Is a unit's next stopper-entering instruction a replay of a kept one (R385)? Copy commands are counted by themselves, since a
restart for a page fault keeps every command that has left the stopper (R241). -/
def replaysNext (s : State) (x : ExecUnit) (copy : Bool) : Bool :=
  if copy then x.nCpy + 1 ≤ x.keepCpy
  else x.nEnter + 1 ≤ x.keepEnter && s.ops.any fun o => o.u = x.id && o.ordinal = x.nEnter + 1

/-- A replay (R241, R385): no entry; the counter rises again and falls when the kept operation's results land. -/
def State.replay (s : State) (o : Op) (n : Nat) : State :=
  let s := match o.k with | some k => s.kAdd o.u k 1 o.issue | none => s
  let s := if o.copy.isSome then s.bEvent o.u o.bar .post (o.issue + 4) else s
  match keptOp s o.u n with
  | some p =>
    if p.live then s.modOp p.id fun p => { p with binds := p.binds ++ [{ u := o.u, issue := o.issue, k := o.k }] }
    else
      let s := if p.stage = .done then
          (if p.kind.isAtomic then s.raise o.u (p.args.getD 0 0) (o.issue + 4) o.issue else s).landOp p o.u o.issue (o.issue + 4)
        else s
      match o.k with | some k => s.kAdd o.u k (-1) (o.issue + 4) | none => s
  | none => match o.k with | some k => s.kAdd o.u k (-1) (o.issue + 4) | none => s

/-- Does the unit's kernel run twice (R389)? -/
def dualOf (s : State) (u : UnitId) : Bool :=
  match (s.groupOf u).bind s.kernelOf with | some k => k.lpb.dual | none => false

/-- Enter the stopper (R195): a new entry is held until issue + D (R197); a re-executed one that was kept is a replay. An
entry of a dual-run pair is compared once both cores have reached issue + 2 (R390). -/
def State.enterStopper (s : State) (o : Op) : State :=
  match s.unit? o.u with
  | none => s
  | some x =>
    let n := x.nEnter + 1
    let s := s.modUnit o.u fun x => { x with nEnter := n, nCpy := if o.kind.isCopy then x.nCpy + 1 else x.nCpy }
    if replaysNext s x o.kind.isCopy then s.replay o n
    else
      let r := s.startOp { o with ordinal := n, stage := .held, leave := o.issue + Config.hold }
      let s := if o.copy.isSome then r.2.bEvent o.u o.bar .post (o.issue + 4) else r.2
      let s := s.schedCyc o.u.die o.u.core (o.issue + Config.hold) (10 + o.u.rank) (ev .stopperLeave [r.1])
      let s := if o.mism then s.schedCyc o.u.die o.u.core (o.issue + 2) 20 (evU .protectedMismatch o.u [o.issue]) else s
      let both := max (instantOf s o.u.die o.u.core (o.issue + 2)) (instantOf s o.u.die (o.u.core ^^^ 32) (o.issue + 2))
      if dualOf s o.u then s.sched (max s.now both) 20 (ev .dualRunMismatch [r.1]) else s

/-! ### Ordering conditions -/

/-- Is counter `a` at or past counter `b`? Counters have 24 bits and those compared lie less than 2^23 apart (R211, R213). -/
def ctrGe (a b : Nat) : Bool := (a % 2 ^ 24 + 2 ^ 24 - b % 2 ^ 24) % 2 ^ 24 < 2 ^ 23

/-- Is it a load for R204 and R205? -/
def OpKind.isLoad (k : OpKind) : Bool := k == .load || k == .teamLoad || k == .rld
/-- Earlier operations of the same unit: of the same group, since a later unit of its slot is another one (R210). -/
def before (s : State) (o : Op) : List Op := s.ops.filter fun e => e.u = o.u && e.gid = o.gid && e.seq < o.seq

/-- Home code of a lane (R207): die, host port, peer, or `unknownHome` while it has no translation and names no peer. -/
def LaneReq.home (l : LaneReq) : Nat := match l.xl with | some x => x.home | none => 32 + l.peer

/-- Does a lane go to a peer module? -/
def LaneReq.atPeer (l : LaneReq) : Bool := 32 ≤ l.home && l.home < unknownHome

/-- Do the `n` bytes of lane `k` and the `m` bytes of lane `l`, of one context, meet: by place where both are translated (a peer's
byte is one of its port region too, R378), else by address? -/
def sameBytes (k : LaneReq) (n : Nat) (l : LaneReq) (m : Nat) : Bool :=
  match k.xl, l.xl with
  | some x, some y => x.home == y.home && (x.tgt != 2 || x.preg == y.preg) &&
      x.place k.addr < y.place l.addr + m && y.place l.addr < x.place k.addr + n
  | _, _ => k.addr < l.addr + m && l.addr < k.addr + n

/-- Has a lane left for its home? -/
def LaneReq.gone (l : LaneReq) : Bool :=
  l.st == .sent || l.st == .atHome || l.st == .applied || l.st == .answered || l.st == .acked

/-- The PKG condition for one earlier write (Table 10.4): copies until acknowledged (R233), the writes homed on the
issuing die or in host memory until visible, those on other dies until dispatched, peers not waited for. A lane whose home is not
known may be homed anywhere, and is waited for. -/
def pkgDone (o : Op) : Bool :=
  !o.live || (!o.kind.isCopy && o.kind != .teamStore &&
    o.lanes.all fun l =>
      if l.home < 16 ∧ l.home ≠ o.u.die then l.gone
      else l.atPeer || l.st == .acked)

/-- The release condition of a scope over earlier accesses (Table 10.4). -/
def releaseOk (s : State) (es : List Op) (sco : Nat) (d : Nat) : Bool :=
  (es.filter fun o => o.kind.isLoad).all (fun o => !o.live) &&
    (if sco = 3 then (es.filter fun o => o.kind.isWrite).all pkgDone
     else (es.filter fun o => o.kind.isWrite).all fun o => !o.live) &&
    (sco < 3 || (List.range 16).all fun h => ctrGe ((s.die d).vc.getD d 0 + 1) ((s.die h).frontier.getD d 0))

/-- Does the operation carry acquire semantics (R205)? -/
def Op.acquires (o : Op) : Bool := (o.kind.isLoad || o.kind.isAtomic) && (o.ord == 2 || o.ord == 4)
/-- Does it carry release semantics itself (R204)? -/
def Op.releases (o : Op) : Bool := o.kind.isWrite && (o.ord == 3 || o.ord == 4)

/-- The gates that hold every later access of the unit (R205, R221, R294, R304). -/
def gatesOpen (s : State) (o : Op) : Bool :=
  let es := before s o
  !es.any (fun e => e.live && e.acquires) &&
    (es.filter fun e => e.kind = .fence && (e.ord == 2 || e.ord == 4)).all (fun f =>
      (es.filter fun e => e.seq < f.seq && (e.kind.isLoad || e.kind.isAtomic)).all fun e => !e.live) &&
    (!o.kind.isGlobal ||
      (!es.any (fun e => e.live && e.kind = .tinv) &&
       !es.any (fun e => e.live && e.lanes.any fun l => l.st == .walking))) &&
    !o.lanes.any (fun l => l.st == .walking || l.st == .faulted)

/-- Bytes of a unit. -/
def Shape.unit (x : Shape) : Nat := if x.esz = 4 then 64 else 2 ^ x.esz

/-- Number of units. -/
def Shape.count (x : Shape) : Nat := x.ext.foldl (· * ·) 1

/-- The destination bounding ranges of a copy (R226, R231): 0 from the first to the last data byte, 1 its descriptor array
when it is Q4. -/
def copyRanges (r : CopyRec) : List (Nat × Nat × Nat) :=
  let e := r.shape.unit
  let last : Int := (r.dst : Int) + (List.range 4).foldl (fun a i =>
    a + ((r.shape.ext.getD i 1 : Int) - 1) * (if i = 0 then (e : Int) else r.shape.dstr.getD (i - 1) 0)) 0
  let d0 := wrap 64 ((r.dst : Int) + r.shape.ddoff)
  (0, r.dst, last.toNat + e) :: (if r.shape.esz = 4 then [(1, d0, d0 + 4 * r.shape.count)] else [])

/-- Does the access touch a line of the destination of an earlier copy of its unit whose claims are not entered yet (R231,
R232)? A load or atomic waits for a held one too; a store stands behind it in the outbound queue. A remote access, whose addresses are
those of another module, waits until the claims of every dispatched one have been sent. -/
def ownCopyBlocks (s : State) (o : Op) : Bool :=
  let remote := o.kind = .rld || o.kind = .rst || o.kind = .ratom
  (remote || o.kind = .load || o.kind = .atomic || o.kind = .store) && (before s o).any fun e =>
    (e.stage == .inflight || (!remote && o.kind != .store && (e.stage == .held || e.stage == .released))) &&
      match e.copy with
      | some r => !r.dstScr && !r.sched && (remote || (copyRanges r).any fun g => o.lanes.any fun l =>
          g.2.1 / 64 * 64 < l.addr + o.size && l.addr < (g.2.2 + 63) / 64 * 64)
      | none => false

/-- Is an earlier atomic of the unit on the load's bytes not applied yet? Its result cannot be forwarded, so the load waits for
it (R210; log 112). -/
def ownAtomicBlocks (s : State) (o : Op) : Bool :=
  o.kind = .load && (before s o).any fun e => e.kind = .atomic && e.live && e.lanes.any fun k =>
    k.st != .applied && k.st != .acked && o.lanes.any fun l => sameBytes k e.size l o.size

/-- No fence before a load orders earlier writes that are not visible before it (R221). -/
def arFencesOpen (s : State) (o : Op) : Bool :=
  ((before s o).filter fun e => e.kind = .fence && e.ord == 4).all fun f =>
    ((before s f).filter fun e => e.kind.isWrite).all (fun e => !e.live) && releaseOk s (before s f) f.sco o.u.die

/-- May a load, or another access outside the outbound queue, be dispatched now (R205, R210, R221, R232)? -/
def loadMayGo (s : State) (o : Op) : Bool :=
  gatesOpen s o && !ownCopyBlocks s o && !ownAtomicBlocks s o && arFencesOpen s o

/-- Parked writes in a core's replay queue (R216). -/
def replayUsed (s : State) (die core : Nat) : Nat :=
  (s.ops.filter fun o => o.u.die = die && o.u.core = core && o.live && o.lanes.any fun l => l.st == .parked).length

/-- Commands that a copy channel holds (R224). -/
def channelUsed (s : State) (die core ch : Nat) : Nat :=
  (s.ops.filter fun o => o.u.die = die && o.u.core = core && !o.u.sh &&
    (o.stage == .inflight || o.stage == .claimed || o.stage == .streaming || o.stage == .delivered) &&
    (match o.copy with | some r => r.ch == ch | none => false)).length

/-- The fences with release semantics before a write (R204, R221). -/
def releaseFences (s : State) (o : Op) : List Op :=
  (before s o).filter fun e => e.kind = .fence && (e.ord == 3 || e.ord == 4)

/-- Earlier commands of a CPYST's channel count as its earlier writes (R239). -/
def cpystOk (s : State) (o : Op) : Bool :=
  o.kind != .cpyst || match o.copy with
    | some r => !s.ops.any fun e => e.u.die = o.u.die && e.u.core = o.u.core && e.u.sh = o.u.sh && e.live && e.id < o.id &&
        (e.stage == .inflight || e.stage == .claimed || e.stage == .streaming || e.stage == .delivered) &&
        (match e.copy with | some q => q.ch == r.ch | none => false)
    | none => true

/-- May the head of an outbound queue be dispatched now (R204, R205, R216, R221, R224, R231, R328, R343)? A write behind a
release fence waits for every access before the write itself. -/
def writeMayGo (s : State) (o : Op) : Bool :=
  let es := before s o
  gatesOpen s o && !ownCopyBlocks s o && (o.kind != .rld || arFencesOpen s o) &&
    replayUsed s o.u.die o.u.core < 32 && (!o.releases || releaseOk s es o.sco o.u.die) && cpystOk s o &&
    (!o.kind.isWrite || (releaseFences s o).all fun f => !f.args.isEmpty || releaseOk s es f.sco o.u.die) &&
    (match o.copy with
     | some r => o.kind == .cpycan || channelUsed s o.u.die o.u.core r.ch < 8
     | none => true) &&
    (!(o.kind == .doorbell || o.kind == .launch) || (es.filter fun e => e.kind.isWrite).all fun e => !e.live)

/-! ### Clocks and markers (R211-R213) -/

/-- Take the larger counter entry by entry; no clock at all takes the other. -/
def maxClock (a b : List Nat) : List Nat :=
  if a.isEmpty then b
  else (List.range 16).map fun i => if ctrGe (a.getD i 0) (b.getD i 0) then a.getD i 0 else b.getD i 0

/-- A die clock absorbs frontiers (R205). -/
def State.absorb (s : State) (d : Nat) (f : List Nat) : State :=
  if f.isEmpty then s else s.modDie d fun x => { x with vc := maxClock x.vc f }

/-- A die issues a release marker: its own counter rises and the marker goes to every home (R212). -/
def State.issueMarker (s : State) (d : Nat) : State :=
  let r := ((s.die d).vc.getD d 0 + 1) % 2 ^ 24
  let s := s.modDie d fun x => { x with vc := (List.range 16).map fun i => if i = d then r else x.vc.getD i 0 }
  (List.range 16).foldl (fun s h => s.schedFree 20 (ev .markerReceive [d, h, r])) s

/-- Does a dispatched lane stand unapplied at home `h`? One that a home has parked stands where the page is now: its write may not be
passed by a frontier of the page's new home either (R206, R212, R216, R301; log 140). -/
def unappliedAt (s : State) (o : Op) (h : Nat) (l : LaneReq) : Bool :=
  match l.st with
  | .sent | .atHome => l.home = h
  | .parked => l.arr ≠ 0 && (l.home = h ||
      match (walk s o.u.die o.ctx l.addr).xl with | some x => x.home = h | none => false)
  | _ => false

/-- Counter `e` of a home's frontier: the last marker received from `e`, held back by the writes that `e` dispatched to
the home before it and that are not applied, the words of copies among them (R212). -/
def frontierOf (s : State) (h e : Nat) : Nat :=
  let least (a b : Nat) : Nat := if ctrGe a b then b else a
  let waiting := (s.ops.filter fun o => o.u.die = e && o.live && o.kind.isWrite && o.kind != .teamStore &&
    o.lanes.any (unappliedAt s o h)).map fun o => o.clock.getD e 0
  waiting.foldl least (Tab.get (0 : Nat) (s.die h).markers e)

/-- Bring a home's frontier up to date. -/
def State.updFrontier (s : State) (h : Nat) : State :=
  let f := (List.range 16).map (frontierOf s h)
  s.modDie h fun x => { x with frontier := f }

/-- Does a home's frontier cover a clock (R213)? -/
def covered (s : State) (h : Nat) (clock : List Nat) : Bool :=
  (List.range 16).all fun e => ctrGe ((s.die h).frontier.getD e 0) (clock.getD e 0)

/-- MARKER_RECEIVE: a home receives marker `r` of a die and its frontier advances (R212). -/
def execMarkerReceive (s : State) : Host.Outcome State Fault Refusal :=
  let h := s.num 1
  let old := Tab.get (0 : Nat) (s.die h).markers (s.num 0)
  if linkHolds s (s.num 0) h then .next (s.schedIn 1 20 (ev .markerReceive [s.num 0, h, s.num 2]))
  else .next ((s.modDie h fun x =>
    { x with markers := Tab.put x.markers (s.num 0) (if ctrGe (s.num 2) old then s.num 2 else old) }).updFrontier h)

/-! ### Dispatch -/

/-- Keep each home or peer once, ascending. -/
def distinct (xs : List Nat) : List Nat := sortBy (· ≤ ·) (xs.foldl (fun a x => if a.contains x then a else a ++ [x]) [])

/-- The address that an access carries to a peer (R378). -/
def peerAddr (x : Xlat) (va : Nat) : Nat := x.preg * 2 ^ 52 + x.place va % 2 ^ 44

/-- The message that takes lanes of an operation to a peer (R368, R377). -/
def peerMsg (o : Op) (p : Nat) (ls : List LaneReq) : Msg :=
  { kind := if o.kind = .load ∨ o.kind = .rld then 1 else if o.kind.isAtomic then 3 else 2
    peer := p, ctx := o.ctx, rid := o.id % 4096, op := o.fn, ty := o.ty, sz := o.size, ord := o.ord, sco := o.sco,
    sdie := o.u.die, score := o.u.core, sunit := if o.u.lead then 4 + o.u.slot else o.u.slot,
    lmask := (maskPhys (ls.map fun l => l.lane)).toNat,
    addrs := ls.map fun l => (match l.xl with | some x => peerAddr x l.addr | none => l.addr),
    data := ls.map fun l => l.data, cmps := ls.map fun l => l.cmp, cause := 0, seq := none, rop := 0 }

/-- Queue a message for the die's Wyusk port (R362, R368): messages leave in the order of their numbers (R209, R369). -/
def State.sendMsg (s : State) (die : Nat) (m : Msg) : State :=
  let f := s.fresh
  f.2.sched s.now 20 (.ev .dynamicMessage { Arg.none with n := [die, 0, f.1], msg := some { m with smod := s.modl } })

/-- Queue a message on VC3 for a port of the module; die 16 takes the first port that can send when it goes (log 147). -/
def State.sendVc3 (s : State) (die : Nat) (m : Vc3) : State :=
  let f := s.fresh
  f.2.sched s.now 20 (.ev .dynamicMessage { Arg.none with n := [die, 4, f.1], vc3 := some m })

/-- Send the lanes of an operation that go to home `h`. -/
def State.sendHome (s : State) (o : Op) (h : Nat) : State :=
  let s := s.modOp o.id fun o =>
    { o with lanes := o.lanes.map fun l => if l.st == .ready && l.home = h then { l with st := .sent } else l }
  if 32 ≤ h then s.sendMsg o.u.die (peerMsg o (h - 32) (o.lanes.filter fun l => l.st == .ready && l.home = h))
  else if o.kind = .load then s.schedFree 20 (ev .readAnswer [o.id, h])
  else s.schedFree 20 (ev .writeApply [o.id, h])

/-- Does a parked write of the unit to the lane's page, at the same destination, stand before it (R216)? The page size is that
of the issuing side's region (log 113). -/
def behindParked (s : State) (o : Op) (l : LaneReq) : Bool :=
  let p := regionPage s o.u.die o.ctx l.addr
  (before s o).any fun e => e.live && e.lanes.any fun k =>
    k.st == .parked && k.addr / 2 ^ p = l.addr / 2 ^ p && (k.xl.isSome || l.xl.isSome || k.peer = l.peer)

/-- Permission an operation needs (R294). -/
def Op.need (o : Op) : Nat := if o.kind.isAtomic then 2 else if o.kind = .load then 0 else 1

/-- The lay of a scheduled kernel's operation, whose translation faults are schedule faults (R297). -/
def schedLay (s : State) (o : Op) : Option Nat :=
  match (s.group? o.gid).bind s.kernelOf with
  | some k => if k.lpb.sched then layOf s o.u else none
  | none => none

/-- Translate again the lanes whose translation was swept before dispatch (R300): causes 2 and 5 park the lane, others
are permanent; in a scheduled kernel every cause is a fault, an unpinned leaf among them (R297). A lane behind a parked write to its
page is parked too (R216). DESIGN CHOICE (log 123): a lane whose walk reads an uncorrectable entry is parked. -/
def rewalkLane (s : State) (o : Op) (l : LaneReq) : LaneReq :=
  let sched := (schedLay s o).isSome
  let l := match l.xl with
    | some _ => l
    | none =>
      let w := walk s o.u.die o.ctx l.addr
      match w.xl with
      | some x =>
        let c := xlCause sched o.need x
        if c = 0 then { l with xl := some { x with dirty := o.need != 0 } } else { l with cause := c, lvl := w.lvl, seq := w.seq }
      | none => { l with cause := if w.poison.isSome then 2 else w.cause, lvl := w.lvl, seq := w.seq }
  if l.xl.isNone then (if !sched && (l.cause = 2 || l.cause = 5) then { l with st := .parked } else { l with st := .faulted })
  else
    if behindParked s o l then { l with st := .parked, cause := 5 } else { l with st := .ready }

/-- What the walks of `rewalkLane` do besides: they set the companion words and fill the core's translations (R291, R293); an
uncorrectable entry is consumed (R392). -/
def State.renewXlats (s : State) (o : Op) (ls : List LaneReq) : State :=
  (ls.filter fun l => l.xl.isNone).foldl (fun s l =>
    let w := walk s o.u.die o.ctx l.addr
    match w.poison, w.xl with
    | some p, _ => s.consume o.u o.gid 5 p.2 o.pc
    | none, some x => (s.setCompanion o.ctx o.u.die (o.need != 0) w).fillXlat o.u.die o.u.core (o.u.slot * 32 + l.lane)
        { x with dirty := o.need != 0 }
    | none, none => s) s

/-- A permanent fault of a write (R216, R378): a record of kind 12 with the address; the issuing team is killed. The write of a
SIGNAL puts its queue into error (R330). -/
def State.writeFault (s : State) (o : Op) (addr : Nat) : State :=
  if o.u.core = queueCore then s.signalFault o else
  let s := s.asyncRecord o.ctx 12 0 o.u o.gid 0 [addr]
  match s.group? o.gid with | some g => s.killTeam g.tid false | none => s

/-- A translation fault at dispatch ends an operation: a schedule fault with the words of Table 14.5 in a scheduled kernel (R297), else
the permanent fault of a write (R216). -/
def State.dispatchFault (s : State) (o : Op) (ls : List LaneReq) : State :=
  let s := s.cancelOp o (s.ucyc o.u + 1)
  match schedLay s o with
  | some l => s.schedFault l 4 o.u o.pc [0, 0, (faultDetail ls (o.need != 0) false).getD 2 0]
  | none => match ls.find? fun l => l.st == .faulted with | some l => s.writeFault o l.addr | none => s

/-- Dispatch a global access: each home gets its lanes, peers in ascending order (R201, R377). -/
def State.dispatchGlobal (s : State) (o : Op) : State :=
  let remote := o.kind = .rld ∨ o.kind = .rst ∨ o.kind = .ratom
  let ls := if remote then o.lanes.map fun l =>
      if behindParked s o l then { l with st := .parked, cause := 5 } else { l with st := .ready }
    else o.lanes.map (rewalkLane s o)
  let s := if remote then s else s.renewXlats o o.lanes
  let s := s.modOp o.id fun o => { o with lanes := ls, stage := .inflight, clock := (s.die o.u.die).vc }
  match ls.find? fun l => l.st == .faulted, s.op? o.id with
  | some _, some o => s.dispatchFault o ls
  | none, some o =>
    (distinct ((ls.filter fun l => l.st == .ready).map LaneReq.home)).foldl (fun s h =>
      match s.op? o.id with | some o => s.sendHome o h | none => s) s
  | _, none => s

/-- Target core of a team-form lane. -/
def teamCore (s : State) (u : UnitId) (a : Nat) : Nat :=
  let c := bits a 19 8
  match s.groupOf u with
  | some g => if g.twinOf.isSome then c ^^^ 32 else c
  | none => c

/-- Dispatch what stands at the head of an outbound queue. -/
def State.dispatch (s : State) (o : Op) : State :=
  let fs := (releaseFences s o).filter fun f => f.args.isEmpty
  let mark := o.kind.isWrite && ((o.releases && 3 ≤ o.sco) || fs.any fun f => 3 ≤ f.sco)
  let s := if mark then s.issueMarker o.u.die else s
  let s := if o.kind.isWrite then fs.foldl (fun s f => s.modOp f.id fun f => { f with args := [1] }) s else s
  match o.kind with
  | .teamStore =>
    let cyc := s.ucyc o.u
    let s := s.modOp o.id fun o =>
      { o with stage := .inflight, lanes := o.lanes.map fun l => if l.st == .ready then { l with st := .sent } else l }
    let cs := distinct ((o.lanes.filter fun l => l.st == .ready).map fun l => teamCore s o.u l.addr)
    cs.foldl (fun s t =>
      s.schedCyc o.u.die o.u.core (cyc + 2 * meshHops o.u.core t) 8 (ev .teamStoreApply [o.id, t])) s
  | .copy | .copyr | .cpyst =>
    let f := s.fresh
    let s := f.2.modOp o.id fun o =>
      { o with stage := .inflight, clock := (s.die o.u.die).vc,
               copy := o.copy.map fun r => { r with order := f.1, marker := (s.core o.u.die o.u.core).marker } }
    s.sched s.now 20 (ev .copyClaim [o.id])
  | .cpycan =>
    let f := s.fresh
    (f.2.modOp o.id fun o => { o with stage := .inflight, args := [f.1] }).sched s.now 20 (ev .copyCancel [o.id])
  | .launch => (s.modOp o.id fun o => { o with stage := .inflight }).schedFree 20 (ev .launchDelivered [o.id])
  | .doorbell =>
    (s.modOp o.id fun o => { o with stage := .inflight }).schedFree 20 (ev .doorbell [o.ctx, o.args.getD 0 0, o.args.getD 1 0, o.id])
  | _ => s.dispatchGlobal o

/-- The released operations of a unit in queue order (R197, R204). -/
def outQueue (s : State) (u : UnitId) : List Op :=
  sortBy (fun a b => a.seq ≤ b.seq) (s.ops.filter fun o => o.u = u && o.stage == .released && o.kind.outbound)

/-- The loads of a unit that wait for a gate, in program order. -/
def waitingLoads (s : State) (u : UnitId) : List Op :=
  sortBy (fun a b => a.seq ≤ b.seq) (s.ops.filter fun o => o.u = u && o.stage == .ready &&
    (o.kind = .load || o.kind = .teamLoad || o.kind = .probe || o.kind = .tinv))

/-- Fences with acquire semantics whose earlier loads and atomics have completed absorb their frontiers (R221). -/
def State.settleFences (s : State) (u : UnitId) : State :=
  (s.ops.filter fun f => f.u = u && f.kind = .fence && (f.ord == 2 || f.ord == 4) && f.doneAt = 0).foldl (fun s f =>
    let es := (before s f).filter fun e => e.kind.isLoad || e.kind.isAtomic
    if es.all fun e => !e.live then
      let s := es.foldl (fun s e => s.absorb u.die e.front) s
      s.modOp f.id fun f => { f with doneAt := 1 }
    else s) s

/-- Start a load or another access that waits outside the outbound queue. DEDUCED (log 114): the cycles that R190 counts from the
issue or the release of a team access are those of the issuing core. -/
def State.startLoad (s : State) (o : Op) : State :=
  match o.kind with
  | .load => s.dispatchGlobal o
  | .teamLoad =>
    let cyc := s.ucyc o.u
    let s := s.modOp o.id fun o =>
      { o with stage := .inflight, lanes := o.lanes.map fun l => if l.st == .ready then { l with st := .sent } else l }
    (o.lanes.filter fun l => l.st == .ready).foldl (fun s l =>
      s.schedCyc o.u.die o.u.core (cyc + 2 + 2 * meshHops o.u.core (teamCore s o.u l.addr)) 8 (ev .teamLoadServe [o.id, l.lane])) s
  | .probe =>
    let s := s.modOp o.id fun o => { o with stage := .inflight }
    o.lanes.foldl (fun s l => s.schedFree 20 (ev .walkComplete [o.id, l.lane])) s
  | .tinv =>
    (s.modOp o.id fun o => { o with stage := .inflight }).startShoot o.ctx o.u.die o.fn (o.args.getD 0 0) (o.args.getD 1 0)
      o.id
  | _ => s

/-- Is an earlier write or copy visible, as step 1 of a shoot-down wants it: every lane homed on this module acknowledged,
peers not waited for (R298, Table 10.4)? The snapshot then comes after every table write of the unit, on whichever die. -/
def visibleHere (o : Op) : Bool :=
  !o.live || (!o.kind.isCopy && o.kind != .teamStore && o.lanes.all fun l => l.atPeer || l.st == .acked)

/-- May it start? A shoot-down first waits until every earlier write and copy of its unit is visible (R298). -/
def mayStart (s : State) (o : Op) : Bool :=
  loadMayGo s o && (o.kind != .tinv || ((before s o).filter fun e => e.kind.isWrite).all visibleHere)

/-- Dispatch what a unit may dispatch now: loads whose gates are open, then the heads of its outbound queue; `fuel`
bounds how many go. -/
def State.pump (s : State) (u : UnitId) : Nat → State
  | 0 => s
  | n + 1 =>
    let s := s.settleFences u
    match (waitingLoads s u).find? fun o => mayStart s o with
    | some o => (s.startLoad o).pump u n
    | none =>
      match outQueue s u with
      | [] => s
      | o :: _ => if writeMayGo s o then (s.dispatch o).pump u n else s

/-- Is the group of a unit frozen (R199, R315)? -/
def frozenUnit (s : State) (u : UnitId) : Bool := match s.groupOf u with | some g => g.state = .frozen | none => false

/-- WRITE_DISPATCH: released writes leave the outbound queue while their gates are open, and gated loads go; what still
waits is tried again at the next cycle (R204, R205). -/
def execWriteDispatch (s : State) : Host.Outcome State Fault Refusal :=
  let u := s.arg.u
  if frozenUnit s u then .next s
  else
    let s := s.pump u (s.ops.length + 1)
    .next (if (outQueue s u).isEmpty && (waitingLoads s u).isEmpty then s
      else s.schedCyc u.die u.core (s.ucyc u + 1) 20 (evU .writeDispatch u []))

/-- Ask for a dispatch attempt now. -/
def State.kick (s : State) (u : UnitId) : State := s.schedEv s.now 20 (evU .writeDispatch u [])

/-- STOPPER_LEAVE: an entry leaves the stopper D cycles after its issue: the point of no return (R197). An uncorrectable entry
is read as it leaves, and consumed (R392). -/
def execStopperLeave (s : State) : Host.Outcome State Fault Refusal :=
  match s.op? (s.num 0) with
  | none => .next s
  | some o =>
    if !o.held || frozenUnit s o.u || s.ucyc o.u < o.leave then .next s
    else if s.arrPoisoned 7 o.id 1 then .next ((s.healArr 7 o.id 1).consumeAt o.u o.gid 12 o.pc)
    else
      -- R159: a released TRIG, ATOMG, RATOM, LAUNCH or team-barrier arrival commits the team
      let s := if o.kind.isAtomic || o.kind = .launch || o.kind = .trig || o.kind = .tbar then
          (match s.group? o.gid with
           | some g => s.modTeam g.tid fun t => { t with committed := true }
           | none => s)
        else s
      match o.kind with
      | .tbar =>
        .next ((s.modOp o.id fun o => { o with stage := .inflight }).schedCyc o.u.die o.u.core (o.leave + 32) 20 (ev .teamBarrierApply [o.id]))
      | .trig =>
        .next ((s.modOp o.id fun o => { o with stage := .inflight }).schedEv s.now 20 (ev .trigSignal [o.id]))
      | _ =>
        -- R190: out-of-range lanes of a team store are acknowledged as the entry leaves
        let s := if o.kind = .teamStore && o.lanes.all (fun l => l.st == .idle) then s.completeAt o.id o.leave
          else s.modOp o.id fun o =>
          { o with stage := .released,
                   lanes := if o.kind = .teamStore then
                     o.lanes.map fun l => if l.st == .idle then { l with st := .acked } else l else o.lanes }
        .next (s.kick o.u)

end Sys2Proof.Machine
end

