-- ==== Sys2Proof/Machine/Barrier.lean ====
section
/-! DEFINITION. Barriers, counters, time and triggers: BARA to KRD (R162-R173), TIME, WAITT, PHASE (R360), TRIG (R160),
and the events of team barriers (R167-R169). -/

namespace Sys2Proof.Machine

/-- Does a uniform control instruction take effect: always in a warp clause, by its guard in a lead clause (R61, R171)? -/
def ctlOk (s : State) (c : Cur) (g : Guard) : Bool := !c.u.lead || guardLead s c.u g

/-- Does a BARINIT that a lay restart makes a replay find its barrier in the error phase? DESIGN CHOICE (log 137): R172 drops every
replay, while R418, R419 and Table 26.4 have the rerun of a period clear the error phase that its fault left; such a BARINIT is
performed, any other replay is dropped. -/
def clearsRerun (s : State) (c : Cur) (x : ExecUnit) (bar : Nat) : Bool :=
  x.rerun.isSome && (match s.groupOf c.u with
    | some g => (bBefore g bar (c.cycle + 4) c.u.rank).mode == 3
    | none => false)

/-- Count a state-changing barrier or counter instruction; a replay is dropped (R172) unless `always`. -/
def countBar (s : State) (c : Cur) (f : State → State) (always : ExecUnit → Bool := fun _ => false) : State :=
  match s.unit? c.u with
  | none => s
  | some x =>
    let n := x.nBar + 1
    let s := s.modUnit c.u fun x => { x with nBar := n }
    if n ≤ x.keepBar && !always x then s else f s

/-- A barrier change made by an instruction: applied at issue + 4 (R163). -/
def barInstr (s : State) (c : Cur) (bar : Nat) (e : BEv) : State :=
  match s.unit? c.u with
  | none => s
  | some x => s.bChange x.gid
      { cyc := c.cycle + 4, rank := c.u.rank, bar := bar, ev := e, u := c.u, issue := c.cycle, instr := true }

/-- A counter change made by an instruction: applied at issue + 4 (R170). -/
def kInstr (s : State) (c : Cur) (k : Nat) (set : Option Nat) (d : Int) : State :=
  match s.unit? c.u with
  | none => s
  | some x => s.kChange x.gid
      { cyc := c.cycle + 4, k := k, set := set, delta := d, u := c.u, issue := c.cycle, instr := true }

/-- The members of a team that have not retired. -/
def State.aliveMembers (s : State) (t : Team) : List Nat :=
  (t.members.filter fun m => match s.group? m with | some g => g.state != .retired | none => false)

/-- Place of a member in its team. -/
def State.tmbrOf (s : State) (gid : Nat) : Nat := match s.group? gid with | some g => g.tmbr | none => 0

/-- A team barrier by number. -/
def Team.bar (t : Team) (j : Nat) : TeamBar := t.tb.getD j { bits := [], phases := 0, err := 0, reinit := [] }

/-- Change a team barrier. -/
def State.modTeamBar (s : State) (tid j : Nat) (f : TeamBar → TeamBar) : State :=
  s.modTeam tid fun t => { t with tb := t.tb.mapIdx fun i b => if i = j then f b else b }

/-- Tell the members of a completion (code 0) or of an error of a team barrier 32 cycles later (R169). DESIGN CHOICE: the 32
cycles are counted on the core of the team's first member, whose count the other cores' differ from by their path distance;
the spec does not say whose cycles they are (log 111). -/
def State.notifyTeam (s : State) (t : Team) (j code : Nat) : State :=
  match t.members.findSome? fun m => s.group? m with
  | some g => s.schedCyc g.die g.core (s.cyc g.die g.core + 32) 20 (ev .teamBarrierNotify [t.tid, j, code])
  | none => s

/-- Complete the phase of a team barrier once every remaining member has arrived (R167). -/
def State.testTeamBar (s : State) (tid j : Nat) : State :=
  match s.team? tid with
  | none => s
  | some t =>
    let b := t.bar j
    let ms := (s.aliveMembers t).map s.tmbrOf
    if b.err = 0 ∧ !ms.isEmpty ∧ ms.all (fun m => b.bits.contains m) then
      (s.modTeamBar tid j fun b => { b with bits := [], phases := (b.phases + 1) % 65536 }).notifyTeam t j 0
    else s

/-- A team barrier enters its error phase with a code (R168). -/
def State.failTeamBar (s : State) (tid j code : Nat) : State :=
  match s.team? tid with
  | none => s
  | some t =>
    if (t.bar j).err ≠ 0 then s
    else (s.modTeamBar tid j fun b => { b with err := code, reinit := [] }).notifyTeam t j code

/-- The error phase of a team barrier ends once every remaining member has issued BARINIT.TEAM since the error (R168). -/
def State.testTeamErr (s : State) (tid j : Nat) : State :=
  match s.team? tid with
  | none => s
  | some t =>
    let b := t.bar j
    let ms := (s.aliveMembers t).map s.tmbrOf
    if b.err ≠ 0 ∧ !ms.isEmpty ∧ ms.all (fun m => b.reinit.any fun r => r.1 = m) then
      s.modTeamBar tid j fun b => { bits := [], phases := (b.phases + 1) % 65536, err := 0, reinit := [] }
    else s

/-- A member's BARINIT.TEAM counts towards leaving the error phase (R168). -/
def State.reinitTeamBar (s : State) (tid j m : Nat) (u : UnitId) (issue : Nat) : State :=
  (s.modTeamBar tid j fun b => if b.err = 0 then b else { b with reinit := (m, u, issue) :: b.reinit }).testTeamErr tid j

/-- A member has retired: each team barrier completes its phase, or ends its error phase, if the others have done their part
(R167, R168). -/
def State.retireMember (s : State) (tid : Nat) : State :=
  (List.range 4).foldl (fun s j => (s.testTeamBar tid j).testTeamErr tid j) s

/-- BARA: an arrival of a count at issue + 4; count 0 makes none (R163, R171), and counts as a change that changes nothing
(R172). -/
def execBara (w : RF) (s : State) : Host.Outcome State Fault Refusal :=
  issue (.bara w) s fun c =>
    if !ctlOk s c w.g then s
    else
      let n := if w.a = 0xFF then w.md.toNat + 1 else (readU s c w.a.toNat).toNat % 65536
      countBar s c fun s => if n = 0 then kInstr s c 0 none 0 else barInstr s c (w.d.toNat % 16) (.arrive n)

/-- BARINIT and BARINIT.TEAM at issue + 4 (Table 8.3, R168, R171). -/
def execBarinit (w : RF) (s : State) : Host.Outcome State Fault Refusal :=
  issue (.barinit w) s fun c =>
    if !ctlOk s c w.g then s
    else
      let bar := w.d.toNat % 16
      countBar (always := fun x => clearsRerun s c x bar) s c fun s =>
        if 128 ≤ w.md.toNat then
          let j := w.md.toNat % 4
          let s := barInstr s c bar (.initTeam j)
          match s.groupOf c.u with | some g => s.reinitTeamBar g.tid j g.tmbr c.u c.cycle | none => s
        else
          let n := if w.a = 0xFF then w.md.toNat else (readU s c w.a.toNat).toNat % 65536
          barInstr s c bar (.init n)

/-- BARST: lands the barrier status word as read at issue (Table 8.1, R171). -/
def execBarst (w : RF) (s : State) : Host.Outcome State Fault Refusal :=
  issue (.barst w) s fun c =>
    match s.groupOf c.u with
    | some g =>
      if !ctlOk s c w.g then s
      else landField s c w.d.toNat 0 true (BitVec.ofNat 64 ((bValue g (w.a.toNat % 16) c.cycle).word c.cycle)) (c.cycle + 4) 0
    | none => s

/-- TBAR: tested at issue + 4, held in the stopper, applied to the team barrier 32 cycles after it leaves (R169). -/
def execTbar (w : RF) (s : State) : Host.Outcome State Fault Refusal :=
  issue (.tbar w) s fun c =>
    if !ctlOk s c w.g then s
    else
      match s.unit? c.u with
      | none => s
      | some x =>
        let bar := w.d.toNat % 16
        let s := if replaysNext s x false then s else s.bEvent c.u (some bar) .tbarTest (c.cycle + 4)
        s.enterStopper { opBase s c .tbar with bar := some bar }

/-- KINC: VALUE changes at issue + 4 by an I8 immediate or an I16 register value (R170, R171). -/
def execKinc (w : RF) (s : State) : Host.Outcome State Fault Refusal :=
  issue (.kinc w) s fun c =>
    if !ctlOk s c w.g then s
    else
      let d := if w.a = 0xFF then w.md.toInt else sgn 16 (readU s c w.a.toNat).toNat
      countBar s c fun s => kInstr s c (w.d.toNat % 16) none d

/-- KSET: VALUE is set and OVF and UNF are cleared at issue + 4 (R170, R171). -/
def execKset (w : RF) (s : State) : Host.Outcome State Fault Refusal :=
  issue (.kset w) s fun c =>
    if !ctlOk s c w.g then s
    else
      let n := if w.a = 0xFF then w.md.toNat else (readU s c w.a.toNat).toNat % 65536
      countBar s c fun s => kInstr s c (w.d.toNat % 16) (some n) 0

/-- KRD: lands the counter word as read at issue (Table 8.4, R171). -/
def execKrd (w : RF) (s : State) : Host.Outcome State Fault Refusal :=
  issue (.krd w) s fun c =>
    match s.groupOf c.u with
    | some g =>
      if !ctlOk s c w.g then s
      else landField s c w.d.toNat 0 true (BitVec.ofNat 64 (kValue g (w.a.toNat % 16) c.cycle).word) (c.cycle + 4) 0
    | none => s

/-- TEAM_BARRIER_APPLY: a TBAR that passed its test at issue + 4, when its turn came, reaches its team barrier; the wait targets of its unit, and of a
twin's bound to it, are set if the group barrier is still the same TEAM barrier (R167, R169). -/
def execTeamBarrierApply (s : State) : Host.Outcome State Fault Refusal :=
  match s.op? (s.num 0) with
  | none => .next s
  | some o =>
    if !o.live then .next s
    else
      match s.group? o.gid, o.bar with
      | some g, some bar =>
        let v := bBefore g bar (o.issue + 4) o.u.rank
        let cyc := s.ucyc o.u
        if v.mode ≠ 2 then .next (s.completeAt o.id cyc)
        else
          let j := v.tidx
          let s := s.modTeamBar g.tid j fun b =>
            if b.err ≠ 0 ∨ b.bits.contains g.tmbr then b else { b with bits := g.tmbr :: b.bits }
          let s := s.bEvent o.u (some bar) (.tbarTarget j) cyc
          let s := o.binds.foldl (fun s b => s.bEvent b.u (some bar) (.tbarTarget j) cyc) s
          .next ((s.testTeamBar g.tid j).completeAt o.id cyc)
      | _, _ => .next s

/-- TEAM_BARRIER_NOTIFY: the completion or error reaches the TEAM barriers of every member (R169). DESIGN CHOICE (log 154): one still
under way when its team is killed and relaunched reaches the members that the team then has. -/
def execTeamBarrierNotify (s : State) : Host.Outcome State Fault Refusal :=
  match s.team? (s.num 0) with
  | none => .next s
  | some t =>
    let j := s.num 1
    let e : BEv := if s.num 2 = 0 then .teamDone j else .teamErr j (s.num 2)
    .next ((t.members ++ t.twins).foldl (fun s m =>
      match s.group? m with
      | some g =>
        let cyc := s.cyc g.die g.core
        (List.range 16).foldl (fun s b => s.bChange m
          { cyc := cyc, rank := 8, bar := b, ev := e, u := leadId g, issue := cyc, instr := false }) s
      | none => s) s)

/-! ### Triggers (R160) -/

/-- TRIG: enters the stopper (R160). -/
def execTrig (w : RF) (s : State) : Host.Outcome State Fault Refusal :=
  issue (.trig w) s fun c =>
    if !ctlOk s c w.g then s else s.enterStopper (opBase s c .trig)

/-- TRIG_SIGNAL: once every write that any unit of the group issued at or before the TRIG is visible, the group's first
TRIG signals the dispatcher; a later one has no effect (R160, R339). -/
def execTrigSignal (s : State) : Host.Outcome State Fault Refusal :=
  match s.op? (s.num 0) with
  | none => .next s
  | some o =>
    if !o.live then .next s
    else
      let busy := s.ops.any fun e => e.gid = o.gid && e.kind.isWrite && e.live && e.issue ≤ o.issue
      if busy then .next (s.schedCyc o.u.die o.u.core (s.ucyc o.u + 1) 20 (ev .trigSignal [o.id]))
      else
        match s.group? o.gid with
        | none => .next s
        | some g =>
          let s := s.completeAt o.id (s.ucyc o.u)
          if g.trig = 2 then .next s
          else
            let s := s.modGroup g.gid fun g => { g with trig := 2 }
            .next (s.modKernel g.kid fun k =>
              { k with trig := if k.trig.contains (g.tid * 256 + g.tmbr) then k.trig else (g.tid * 256 + g.tmbr) :: k.trig })

/-! ### Time (R360) -/

/-- The first cycle of a unit's core that begins at or after now. -/
def cycUp (s : State) (u : UnitId) : Nat :=
  let c := s.ucyc u
  if instantOf s u.die u.core c < s.now then c + 1 else c

/-- TIME: lands local TIME of the issue cycle at issue + 4 (R360). -/
def execTime (w : RF) (s : State) : Host.Outcome State Fault Refusal :=
  issue (.time w) s fun c =>
    if !ctlOk s c w.g then s
    else
      let k := w.a.toNat % 16
      let s := (s.kAdd c.u k 1 c.cycle).kAdd c.u k (-1) (c.cycle + 4)
      landField s c w.d.toNat 0 true (BitVec.ofNat 64 (localTime s c.u.die c.u.core s.now)) (c.cycle + 4) 0

/-- WAITT: counted until local TIME reaches the target, at issue + 4 at the earliest (R360). -/
def execWaitt (w : RF) (s : State) : Host.Outcome State Fault Refusal :=
  issue (.waitt w) s fun c =>
    if !ctlOk s c w.g then s
    else
      let a := (readU s c w.a.toNat).toNat
      let t := if w.md.getLsbD 0 then (localTime s c.u.die c.u.core s.now + a) % 2 ^ 64 else a
      let r := s.startOp { opBase s c .waitt with k := some (w.d.toNat % 16), args := [t], stage := .inflight }
      r.2.schedEv (instantOfLocal r.2 c.u.die c.u.core t) 20 (ev .waittExpiry [r.1])

/-- WAITT_EXPIRY: local TIME has reached the target and the counter falls (R360). -/
def execWaittExpiry (s : State) : Host.Outcome State Fault Refusal :=
  match s.op? (s.num 0) with
  | none => .next s
  | some o =>
    let t := o.args.getD 0 0
    if localTime s o.u.die o.u.core s.now < t then
      .next (s.schedEv (max (s.now + 1) (instantOfLocal s o.u.die o.u.core t)) 20 (ev .waittExpiry [o.id]))
    else .next (s.completeAt o.id (max (o.issue + 4) (cycUp s o.u)))

/-- PHASE: the core's current marker from issue + 1; windows up to now were credited to the old one (R151, R360). -/
def execPhase (w : IF) (s : State) : Host.Outcome State Fault Refusal :=
  issue (.phase w) s fun c =>
    if !ctlOk s c w.g then s
    else s.modCore c.u.die c.u.core fun x =>
      { (x.settle (c.cycle / 16 + 1)) with marker := w.imm.toNat % 16 }

end Sys2Proof.Machine
end

