-- ==== Sys2Proof/Machine/Scratch.lean ====
section
/-! DEFINITION. Scratch: reach and the out-of-range record (R174-R176, R187), banks and passes (R178-R183), LDS, STS,
LDSB, ATOMS, SCRFLG (R188-R194), the team form (R190) and the landing of register writes (R54). -/

namespace Sys2Proof.Machine

/-! ### Reach -/

/-- The groups whose allocations a unit's team reaches: the members, or the twins for a twin (R175, R389). -/
def reachGroups (s : State) (gid : Nat) : List Group :=
  match s.group? gid with
  | none => []
  | some g =>
    match s.team? g.tid with
    | none => [g]
    | some t => (if g.twinOf.isSome then t.twins else t.members).filterMap s.group?

/-- The core an address names, as the group forms it (R174, R389). -/
def scrCore (s : State) (gid a : Nat) : Nat :=
  match s.group? gid with
  | some g => if g.twinOf.isSome then bits a 19 8 ^^^ 32 else bits a 19 8
  | none => bits a 19 8

/-- Does byte `off` of a core lie in an allocation of the groups? -/
def byteInReach (gs : List Group) (core off : Nat) : Bool :=
  gs.any fun g => g.core == core && g.sbase ≤ off && off < g.sbase + g.ssize

/-- Do `n` bytes at offset `off` of a core? -/
def rangeInReach (gs : List Group) (core off n : Nat) : Bool :=
  (List.range n).all fun i => byteInReach gs core (off + i)

/-- Why an access of `n` bytes is out of range, lowest cause first (Table 9.1); none when it is in range (R175). -/
def oorCause (s : State) (gid own : Nat) (plain : Bool) (a n : Nat) : Option Nat :=
  let gs := reachGroups s gid
  let core := scrCore s gid a
  let inTeam := gs.any fun g => g.core == core
  if inTeam && !rangeInReach gs core (a % 2 ^ 19) n then some 1
  else if !inTeam then some 2
  else if bits a 27 5 ≠ 0 then some 3
  else if plain && core != own then some 4
  else none

/-- The out-of-range record word (Table 9.1). -/
def oorWord (cause : Nat) (write : Bool) (die core slot lane a : Nat) : Nat :=
  2 ^ 63 + cause * 2 ^ 60 + (if write then 2 ^ 59 else 0) + die * 2 ^ 52 + core * 2 ^ 44 + slot * 2 ^ 42 + lane * 2 ^ 37 +
    a % 2 ^ 32

/-- An out-of-range access: the fill reaches the context's record D cycles later (R187, R323). -/
def State.recordOor (s : State) (u : UnitId) (ctx word cyc : Nat) : State :=
  let q := quartetOf u.core
  let s : State := { s with heldFlags := s.heldFlags ++
    [{ die := u.die, q := q, core := u.core, ctx := ctx, cycle := cyc, flags := 0, oor := word }] }
  s.schedCyc u.die u.core (cyc + Config.hold) 20 (ev .flagReachContext [u.die, q])

/-! ### Banks (R178-R183) -/

/-- The bank of a word of a core. -/
def bankKey (die core word : Nat) : Nat := (die * 256 + core) * 32 + word % 32

/-- The words an access of `n` bytes covers. -/
def wordsOf (a n : Nat) : List Nat := if n = 16 then [a % 2 ^ 19 / 8, a % 2 ^ 19 / 8 + 1] else [a % 2 ^ 19 / 8]

/-- Words that each bank serves, each word once. -/
def bankLoads (ws : List Nat) : List (Nat × Nat) :=
  let ds := ws.foldl (fun a x => if a.contains x then a else x :: a) []
  (List.range 32).filterMap fun b =>
    let n := (ds.filter fun w => w % 32 = b).length
    if n = 0 then none else some (b, n)

/-- Accesses of each bank when lanes do not merge (R180). -/
def bankHits (ws : List Nat) : List (Nat × Nat) :=
  (List.range 32).filterMap fun b =>
    let n := (ws.filter fun w => w % 32 = b).length
    if n = 0 then none else some (b, n)

/-- The largest count. -/
def maxLoad (bs : List (Nat × Nat)) : Nat := bs.foldl (fun a b => max a b.2) 0

/-- Banks and pass counts of the halves of an access: one half for up to 8 bytes, lanes 0-15 and 16-31 for 16 bytes
(R178, R179). -/
def halves (ls : List (Nat × Nat)) (n : Nat) : List (List (Nat × Nat)) :=
  let ws (p : Nat → Bool) : List Nat := (ls.filter fun x => p x.1).flatMap fun x => wordsOf x.2 n
  if n = 16 then [bankLoads (ws (· < 16)), bankLoads (ws (16 ≤ ·))] else [bankLoads (ws fun _ => true)]

/-- Occupy banks from cycle `c` on: pass k of a half at its cycle (R181). DESIGN CHOICE (log 115): a bank that serves fewer words
than there are passes has its words in the first passes. Uses too old to matter are forgotten. -/
def State.useBanks (s : State) (die core c : Nat) (hs : List (List (Nat × Nat))) : State :=
  let add := fun (x : Nat × List (Nat × Nat)) (h : List (Nat × Nat)) =>
    (x.1 + maxLoad h,
      h.foldl (fun a b => (List.range b.2).foldl (fun a k => (bankKey die core b.1, x.1 + k) :: a) a) x.2)
  let keep := s.bankUse.filter fun b => !(b.1 / 32 = die * 256 + core && b.2 + 64 < c)
  { s with bankUse := (hs.foldl add (c, keep)).2 }

/-- Is a bank free of passes, and of secondary accesses already made, in cycle `c` (R183)? -/
def bankFree (s : State) (die core word c : Nat) : Bool := !s.bankUse.contains (bankKey die core word, c)

/-! ### Reading and writing lanes -/

/-- The scratch address of a lane (R174): `off` is the signed offset. -/
def lineAddr (s : State) (c : Cur) (w : MF) (off : Int) (l : Nat) : Nat :=
  let i := if w.index = 0xFF then 0 else (readField s c w.index.toNat l false).toNat
  wrap 32 (((readField s c w.base.toNat l false).toNat : Int) + (i : Int) + off)

/-- The `n` data bytes of a lane, lowest register first. -/
def dataOf (s : State) (c : Cur) (d l n : Nat) : Nat :=
  let r (j : Nat) : Nat := (readField s c (d + j) l false).toNat
  if n = 16 then r 0 + 2 ^ 32 * r 1 + 2 ^ 64 * r 2 + 2 ^ 96 * r 3
  else if n = 8 then r 0 + 2 ^ 32 * r 1
  else r 0 % 2 ^ (8 * n)

/-- Do the lanes of a pair differ in activity or in `f` (R387)? -/
def pairsDiffer (s : State) (c : Cur) (act : List Nat) (f : Nat → List Nat) : Bool :=
  protOf s c.u && (List.range 16).any fun i =>
    act.contains (2 * i) != act.contains (2 * i + 1) || (act.contains (2 * i) && f (2 * i) != f (2 * i + 1))

/-- Report a mismatch of a protected pair at cycle `c` (R388). -/
def State.reportPair (s : State) (c : Cur) (at' : Nat) : State :=
  s.schedCyc c.u.die c.u.core at' 20 (evU .protectedMismatch c.u [c.cycle])

/-- Bytes of a scratch location of a core as the warp port reads them. -/
def scrOf (s : State) (u : UnitId) (a n : Nat) : Nat := s.scrRead u.die u.core (a % 2 ^ 19) n

/-- A warp-port write: bytes and the line's record (R182, R184). -/
def State.scrPut (s : State) (u : UnitId) (a v n cyc : Nat) : State :=
  let region := match s.unit? u with | some x => x.rgnc | none => 0
  (s.scrWrite u.die u.core (a % 2 ^ 19) v n).touchLine u.die u.core (a % 2 ^ 19) cyc u.slot region

/-- The first uncorrectable word among what lanes read: its source and address (R186, R392). -/
def scratchBad (s : State) (c : Cur) (as : List (Nat × Nat)) : Option (Nat × Nat) :=
  (as.find? fun a => s.scrPoisoned c.u.die c.u.core (a.1 % 2 ^ 19) a.2).map fun a =>
    (scrSource s c.u.die c.u.core (a.1 % 2 ^ 19) a.2, a.1)

/-- Consume the uncorrectable word that an access has read, if any (R392). -/
def State.consumeBad (s : State) (c : Cur) (bad : Option (Nat × Nat)) : State :=
  match bad, s.unit? c.u with
  | some b, some x => s.consume c.u x.gid b.1 b.2 c.pc
  | _, _ => s

/-- Primary lane whose access a lane shares. -/
def ownerLane (s : State) (c : Cur) (l : Nat) : Nat := if protOf s c.u then l / 2 * 2 else l

/-- Number and context of the issuing group. -/
def curGroup (s : State) (c : Cur) : Nat × Nat :=
  match s.groupOf c.u with | some g => (g.gid, g.ctx) | none => (0, 0)

/-- The misaligned-access trap (R176). -/
def misaligned (s : State) (c : Cur) (ls : List Nat) : State := trapCur s c 6 0 (maskPhys ls) []

/-- Out-of-range lanes of a plain access are recorded at its perform cycle (R187). -/
def recordLanes (s : State) (c : Cur) (plain write : Bool) (n cyc : Nat) (ls : List (Nat × Nat)) : State :=
  let g := curGroup s c
  ls.foldl (fun s x =>
    match oorCause s g.1 c.u.core plain x.2 n with
    | some k => s.recordOor c.u g.2 (oorWord k write c.u.die c.u.core c.u.slot (visLane (protOf s c.u) x.1) x.2) cyc
    | none => s) s

/-- Is a lane's access in range? -/
def laneInRange (s : State) (c : Cur) (plain : Bool) (n a : Nat) : Bool :=
  (oorCause s (curGroup s c).1 c.u.core plain a n).isNone

/-- LDS and STS, plain form (R189). -/
def scrPlain (s : State) (c : Cur) (w : MF) (load : Bool) : State :=
  let n := 2 ^ w.sz.toNat
  let act := activeLanes s c w.g
  let ad := lineAddr s c w w.off.toInt
  let mis := act.filter fun l => ad l % n ≠ 0
  if !mis.isEmpty then misaligned s c mis
  else
    let all := (realLanes s c w.g).map fun l => (l, ad l)
    let ok := all.filter fun x => laneInRange s c true n x.2
    let hs := halves ok n
    let p := (hs.map maxLoad).foldl (· + ·) 0
    let cyc := c.cycle + 12 + (p - 1)
    let val (l : Nat) : Nat :=
      match ok.find? fun x => x.1 = ownerLane s c l with | some x => scrOf s c.u x.2 n | none => 0
    let comp := (List.range 32).filter (laneCompute s c w.g)
    let s1 := recordLanes (s.useBanks c.u.die c.u.core (c.cycle + 1) hs) c true (!load) n (c.cycle + 1) all
    let s2 := if pairsDiffer s c act (fun l => [ad l, if load then 0 else dataOf s c w.data.toNat l n])
      then s1.reportPair c (c.cycle + 1) else s1
    if load then
      let s3 := comp.foldl (fun t l =>
        landBytes t c w.data.toNat l n (if act.contains l then val l else 0) cyc 0) s2
      s3.consumeBad c (scratchBad s c (ok.map fun x => (x.2, n)))
    else
      ok.foldl (fun t x => t.scrPut c.u x.2 (dataOf s c w.data.toNat x.1 n) n (c.cycle + 1)) s2

/-- The lanes of a team-form access: in-range lanes wait for their target, the others are idle (R190). -/
def teamLanes (s : State) (c : Cur) (w : MF) (load : Bool) (n : Nat) (ls : List (Nat × Nat)) : List LaneReq :=
  ls.map fun x =>
    { laneReq x.1 x.2 (if load then 0 else dataOf s c w.data.toNat x.1 n) 0 with
      st := if laneInRange s c false n x.2 then .ready else .idle }

/-- The computing lanes that are not active: they land 0 (R60). -/
def helperMask (s : State) (c : Cur) (g : Guard) : BitVec 32 :=
  let act := activeLanes s c g
  maskPhys (((List.range 32).filter (laneCompute s c g)).filter fun l => !act.contains l)

/-- LDS and STS, team form: a counted operation (R190). -/
def scrTeam (s : State) (c : Cur) (w : MF) (load : Bool) : State :=
  let n := 2 ^ w.sz.toNat
  let act := activeLanes s c w.g
  let ad := lineAddr s c w (w.off.setWidth 14).toInt
  let mis := act.filter fun l => ad l % n ≠ 0
  if act.isEmpty then s
  else if !mis.isEmpty then misaligned s c mis
  else
    let all := (realLanes s c w.g).map fun l => (l, ad l)
    let ls := teamLanes s c w load n all
    let s1 := recordLanes s c false (!load) n c.cycle all
    let o := { opBase s c (if load then .teamLoad else .teamStore) with
      k := some (w.off.toNat / 2 ^ 14), size := n, ord := w.ord.toNat, sco := 1, lanes := ls,
      dest := if load then w.data.toNat else 0xFF, helpers := if load then helperMask s c w.g else 0,
      mism := !load && pairsDiffer s c act (fun l => [ad l, dataOf s c w.data.toNat l n]) }
    if load then
      let r := s1.startOp o
      if ls.all fun l => l.st == .idle then r.2.completeAt r.1 (c.cycle + 2) else r.2.kick c.u
    else s1.enterStopper o

/-- LDS (R188-R190). -/
def execLds (w : MF) (s : State) : Host.Outcome State Fault Refusal :=
  issue (.lds w) s fun c => if w.sco = 1 then scrTeam s c w true else scrPlain s c w true

/-- STS (R188-R190). -/
def execSts (w : MF) (s : State) : Host.Outcome State Fault Refusal :=
  issue (.sts w) s fun c => if w.sco = 1 then scrTeam s c w false else scrPlain s c w false

/-- LDSB: one uniform value, at issue + 12 (R191). -/
def execLdsb (w : MF) (s : State) : Host.Outcome State Fault Refusal :=
  issue (.ldsb w) s fun c =>
    let n := 2 ^ w.sz.toNat
    let a := lineAddr s c w w.off.toInt 0
    if a % n ≠ 0 then misaligned s c []
    else
      let ok := laneInRange s c true n a
      let v := if ok then scrOf s c.u a n else 0
      let s1 := s.useBanks c.u.die c.u.core (c.cycle + 1) (if ok then [bankLoads (wordsOf a n)] else [])
      let s2 := recordLanes s1 c true false n (c.cycle + 1) [(0, a)]
      let s3 := landField s2 c w.data.toNat 0 true (BitVec.ofNat 64 v) (c.cycle + 12) 0
      if ok then s3.consumeBad c (scratchBad s c [(a, n)]) else s3

/-! ### Atomic operations -/

/-- F(m, b, c) of Table 9.3 and its flags; `fn` counts the members from ADD. -/
def atomF (fn ty m b c : Nat) : Nat × Nat :=
  let w := if ty = 7 then 64 else 32
  match fn with
  | 0 =>
    if ty = 8 then fAdd F32 0 false m b
    else if ty = 11 then
      let lo := fAdd F16 0 false (m % 65536) (b % 65536)
      let hi := fAdd F16 0 false (m / 65536) (b / 65536 % 65536)
      (lo.1 + 65536 * hi.1, flOr lo.2 hi.2)
    else ((m + b) % 2 ^ w, 0)
  | 1 => ((m + 2 ^ w - b % 2 ^ w) % 2 ^ w, 0)
  | 2 => if ty = 8 then (fMinMax F32 false m b, 0) else if ty = 2 then (if sgn 32 m ≤ sgn 32 b then m else b, 0) else (min m b, 0)
  | 3 => if ty = 8 then (fMinMax F32 true m b, 0) else if ty = 2 then (if sgn 32 b ≤ sgn 32 m then m else b, 0) else (max m b, 0)
  | 4 => (m &&& b, 0)
  | 5 => (m ||| b, 0)
  | 6 => (m ^^^ b, 0)
  | 7 => (b, 0)
  | _ => (if m = c then b else m, 0)

/-- A 4- or 8-byte operand of lane `l`. -/
def atomOpnd (s : State) (c : Cur) (r l n : Nat) : Nat :=
  if r = 0xFF then 0 else (readField s c r l (n == 8)).toNat % 2 ^ (8 * n)

/-- The ATOMS family: each taking part lane in ascending order reads, computes and writes at issue + 1, and lands the old
value (R180, R192). -/
def atoms (s : State) (c : Cur) (w : RF) (fn : Nat) : State :=
  let n := if w.ty.toNat = 7 then 8 else 4
  let act := activeLanes s c w.g
  let ad (l : Nat) : Nat := (readField s c w.a.toNat l false).toNat
  let mis := act.filter fun l => ad l % n ≠ 0
  if !mis.isEmpty then misaligned s c mis
  else
    let all := (realLanes s c w.g).map fun l => (l, ad l)
    let ok := all.filter fun x => laneInRange s c true n x.2
    let h := bankHits (ok.flatMap fun x => wordsOf x.2 n)
    let cyc := c.cycle + 12 + (maxLoad h - 1)
    let s1 := recordLanes (s.useBanks c.u.die c.u.core (c.cycle + 1) [h]) c true true n (c.cycle + 1) all
    let s2 := if pairsDiffer s c act (fun l => [ad l, atomOpnd s c w.b.toNat l n, atomOpnd s c w.c.toNat l n])
      then s1.reportPair c (c.cycle + 1) else s1
    let go := fun (x : State × Nat × List (Nat × Nat)) (y : Nat × Nat) =>
      let m := scrOf x.1 c.u y.2 n
      let r := atomF fn w.ty.toNat m (atomOpnd s c w.b.toNat y.1 n) (atomOpnd s c w.c.toNat y.1 n)
      (x.1.scrPut c.u y.2 r.1 n (c.cycle + 1), flOr x.2.1 r.2, (y.1, m) :: x.2.2)
    let r := ok.foldl go (s2, 0, [])
    let old (l : Nat) : Nat := match r.2.2.find? fun x => x.1 = ownerLane s c l with | some x => x.2 | none => 0
    let s3 := act.foldl (fun t l => landBytes t c w.d.toNat l n (old l) cyc 0) r.1
    (s3.raise c.u r.2.1 cyc c.cycle).consumeBad c (scratchBad s c (ok.map fun x => (x.2, n)))

/-- ATOMS.ADD (R192). -/
def execAtomsAdd (w : RF) (s : State) : Host.Outcome State Fault Refusal :=
  issue (.atomsAdd w) s fun c => atoms s c w 0

/-- ATOMS.SUB (R192). -/
def execAtomsSub (w : RF) (s : State) : Host.Outcome State Fault Refusal :=
  issue (.atomsSub w) s fun c => atoms s c w 1

/-- ATOMS.MIN (R192). -/
def execAtomsMin (w : RF) (s : State) : Host.Outcome State Fault Refusal :=
  issue (.atomsMin w) s fun c => atoms s c w 2

/-- ATOMS.MAX (R192). -/
def execAtomsMax (w : RF) (s : State) : Host.Outcome State Fault Refusal :=
  issue (.atomsMax w) s fun c => atoms s c w 3

/-- ATOMS.AND (R192). -/
def execAtomsAnd (w : RF) (s : State) : Host.Outcome State Fault Refusal :=
  issue (.atomsAnd w) s fun c => atoms s c w 4

/-- ATOMS.OR (R192). -/
def execAtomsOr (w : RF) (s : State) : Host.Outcome State Fault Refusal :=
  issue (.atomsOr w) s fun c => atoms s c w 5

/-- ATOMS.XOR (R192). -/
def execAtomsXor (w : RF) (s : State) : Host.Outcome State Fault Refusal :=
  issue (.atomsXor w) s fun c => atoms s c w 6

/-- ATOMS.EXCH (R192). -/
def execAtomsExch (w : RF) (s : State) : Host.Outcome State Fault Refusal :=
  issue (.atomsExch w) s fun c => atoms s c w 7

/-- ATOMS.CAS (R192). -/
def execAtomsCas (w : RF) (s : State) : Host.Outcome State Fault Refusal :=
  issue (.atomsCas w) s fun c => atoms s c w 8

/-! ### SCRFLG -/

/-- An instant no earlier than cycle `cyc` of a unit, at a free distance after it. -/
def State.schedAfter (s : State) (u : UnitId) (cyc : Nat) (d : Due) : State :=
  let r := s.freeDelay
  r.2.schedEv (max s.now (instantOf s u.die u.core cyc) + r.1 * Config.unitsPerTick) 20 d

/-- SCRFLG: a counted read of the context's out-of-range record (R193). -/
def execScrflg (w : RF) (s : State) : Host.Outcome State Fault Refusal :=
  issue (.scrflg w) s fun c =>
    let r := s.startOp { opBase s c .scrflg with
      k := some (w.a.toNat % 16), dest := w.d.toNat, size := 8, stage := .inflight, fn := w.md.toNat % 2 }
    r.2.schedAfter c.u (c.cycle + 4) (ev .scrflgComplete [r.1])

/-- SCRFLG_COMPLETE: the record lands; with CLR it is cleared in the same action (R193). -/
def execScrflgComplete (s : State) : Host.Outcome State Fault Refusal :=
  match s.op? (s.num 0) with
  | none => .next s
  | some o =>
    if !o.live then .next s
    else
      let v := (s.ctx o.ctx).oor
      let s := s.modOp o.id fun o => { o with lanes := [{ laneReq 0 0 0 0 with res := v }] }
      let s := if o.fn = 1 then s.modCtx o.ctx fun x => { x with oor := 0 } else s
      .next (s.complete o.id)

/-! ### Events of the team form and of landing -/

/-- REGISTER_LAND: the unit's writes due at this cycle land (R54, R55). -/
def execRegisterLand (s : State) : Host.Outcome State Fault Refusal :=
  .next (s.landDue s.arg.u (s.ucyc s.arg.u))

/-- Change the lanes of an operation. -/
def State.modLanes (s : State) (id : Nat) (f : LaneReq → LaneReq) : State :=
  s.modOp id fun o => { o with lanes := o.lanes.map f }

/-- Change one lane of an operation. -/
def State.modLane (s : State) (id lane : Nat) (f : LaneReq → LaneReq) : State :=
  s.modLanes id fun l => if l.lane = lane then f l else l

/-- The team accesses that wait at a core, in the order of their arrival: instant, operation, lane (R183). DESIGN CHOICE (log 155): of
two that arrive at one instant the operation that started first goes first, and in it the lower lane. -/
def teamQueue (s : State) (die t : Nat) : List (Nat × Nat × LaneReq) :=
  sortBy (fun a b => a.1 ≤ b.1) ((s.ops.filter fun o => (o.kind = .teamLoad || o.kind = .teamStore) && o.live && o.u.die = die).flatMap
    fun o => (o.lanes.filter fun l => l.st == .atHome && teamCore s o.u l.addr == t).map fun l => (l.arr, o.id, l))

/-- Does a team store of the same core to the same target that issued earlier still wait (R190)? -/
def teamBehind (s : State) (o : Op) (t : Nat) : Bool :=
  s.ops.any fun e => e.kind = .teamStore && e.live && e.ctx = o.ctx && e.u.die = o.u.die && e.u.core = o.u.core && e.u.sh = o.u.sh &&
    (e.issue < o.issue || (e.issue = o.issue && e.id < o.id)) &&
    e.lanes.any fun l => (l.st == .ready || l.st == .sent || l.st == .atHome) && teamCore s e.u l.addr == t

/-- Serve one waiting lane at core `t` if its banks and the quarantine allow (R183, R185, R190); `x.2` holds the words that each
instruction has taken in this cycle, whose lanes merge (R178). What returns is counted in cycles of the issuing core (log 114). -/
def serveLane (die t : Nat) (x : State × List (Nat × Nat)) (e : Nat × Nat × LaneReq) : State × List (Nat × Nat) :=
  let s := x.1
  match s.op? e.2.1 with
  | none => x
  | some o =>
    let l := e.2.2
    let c := s.cyc die t
    let off := l.addr % 2 ^ 19
    let ws := wordsOf l.addr o.size
    let new := ws.filter fun w => !x.2.contains (o.id, w)
    let load := o.kind = .teamLoad
    let may := new.all (fun w => bankFree s die t w c) &&
      (if load then decide (t = o.u.core) || lineClear s die t off c else !teamBehind s o t)
    if !may then x
    else
      let s : State := { s with bankUse := new.map (fun w => (bankKey die t w, c)) ++ s.bankUse }
      let back := s.ucyc o.u + 2 * meshHops o.u.core t
      let s := if load then s.modLane o.id l.lane fun k =>
            { k with st := .answered, res := s.scrRead die t off o.size, seq := back + 1, poison := s.scrPoisoned die t off o.size
                     cause := scrSource s die t off o.size }
        else (s.scrWrite die t off l.data o.size).modLane o.id l.lane fun k => { k with st := .applied }
      let s := match s.op? o.id with
        | none => s
        | some o =>
          if load then
            if o.lanes.any fun k => k.st == .sent || k.st == .atHome then s
            else s.schedCyc die o.u.core ((o.lanes.map fun k => k.seq).foldl max 0 + 2) 0 (ev .teamLoadComplete [o.id])
          else if o.lanes.any fun k => (k.st == .sent || k.st == .atHome) && teamCore s o.u k.addr == t then s
          else s.schedCyc die o.u.core back 0 (ev .writeAck [o.id, 256 + t])
      (s, ws.map (fun w => (o.id, w)) ++ x.2)

/-- A cycle of a core's secondary port for team accesses: those that wait are served in the order of their arrival (R183);
`again` tries what is left, and what has come since its cycle began, at the next one. -/
def State.serveTeam (s : State) (die t : Nat) (again : Due) : State :=
  let s := if s.atStart die t then ((teamQueue s die t).foldl (serveLane die t) (s, [])).1 else s
  if (teamQueue s die t).isEmpty then s else s.schedEv (s.nextStart die t) 8 again

/-- TEAM_LOAD_SERVE: the lanes of a request for one core reach it together, and it serves them at the first cycles that its banks and
the quarantine allow (R178, R183, R185, R190). -/
def execTeamLoadServe (s : State) : Host.Outcome State Fault Refusal :=
  match s.op? (s.num 0) with
  | none => .next s
  | some o =>
    match o.lanes.find? fun l => l.lane == s.num 1 with
    | none => .next s
    | some l =>
      let t := teamCore s o.u l.addr
      let s' := if o.live then s.modLanes o.id fun k =>
          if k.st == .sent && teamCore s o.u k.addr == t then { k with st := .atHome, arr := s.now } else k
        else s
      .next (s'.serveTeam o.u.die t (ev .teamLoadServe [o.id, l.lane]))

/-- TEAM_LOAD_COMPLETE: two cycles after the last lane's data has returned every lane lands and the counter falls (R190).
An uncorrectable lane is consumed (R186, R392). -/
def execTeamLoadComplete (s : State) : Host.Outcome State Fault Refusal :=
  match s.op? (s.num 0) with
  | none => .next s
  | some o =>
    if !o.live then .next s
    else
      let s := (s.completeAt o.id (s.ucyc o.u)).kick o.u
      match o.lanes.find? fun l => l.poison with
      | some l => .next (s.consume o.u o.gid l.cause l.addr o.pc)
      | none => .next s

/-- TEAM_STORE_APPLY: a released team store reaches a target core, which writes its words as their banks are free; stores of
one core to one target stay in issue order (R183, R190). -/
def execTeamStoreApply (s : State) : Host.Outcome State Fault Refusal :=
  match s.op? (s.num 0) with
  | none => .next s
  | some o =>
    let t := s.num 1
    let s' := if o.live then s.modLanes o.id fun l =>
        if l.st == .sent && teamCore s o.u l.addr == t then { l with st := .atHome, arr := s.now } else l
      else s
    .next (s'.serveTeam o.u.die t (ev .teamStoreApply [o.id, t]))

end Sys2Proof.Machine
end

