-- ==== Sys2Proof/Machine/Global.lean ====
section
/-! DEFINITION. Global memory: LDG, STG, ATOMG, FENCE (R217-R222), what happens at a home (R207-R213), parked writes (R216),
and the end of a walk (R289, R295-R297). -/

namespace Sys2Proof.Machine

/-! ### Issue -/

/-- The 64-bit address of a lane of LDG, STG, RLD or RST (R218, R377): base field, index field, 14-bit offset. -/
def globAddr (s : State) (c : Cur) (w : MF) (l : Nat) : Nat :=
  let i : Int := if w.index = 0xFF then 0 else sgn 32 (readField s c w.index.toNat l false).toNat
  wrap 64 (((readField s c w.base.toNat l true).toNat : Int) + i + (w.off.setWidth 14).toInt)

/-- Probe lanes at issue (R293, R294). -/
def probeAll (s : State) (c : Cur) (need : Nat) (ls : List LaneReq) : List LaneReq :=
  ls.map fun l =>
    probeLane s c.u.die c.u.core (c.u.slot * 32 + l.lane) (curGroup s c).2 (schedOf s c) need l

/-- Keep the translations used by lanes in their last-page registers (R293). -/
def State.keepXlats (s : State) (u : UnitId) (ls : List LaneReq) : State :=
  ls.foldl (fun s l => match l.xl with
    | some x => s.putXlat u.die u.core (u.slot * 32 + l.lane) x
    | none => s) s

/-- Start the walks that an operation waits for; their time is not published (R294). -/
def State.startWalks (s : State) (id : Nat) : State :=
  match s.op? id with
  | none => s
  | some o => (o.lanes.filter fun l => l.st == .walking).foldl (fun s l => s.schedFree 20 (ev .walkComplete [id, l.lane])) s

/-- Issue a probed access: a fault known at issue traps; otherwise the operation `o` starts (R295). -/
def issueGlobal (s : State) (c : Cur) (write : Bool) (o : Op) : State :=
  if !(o.lanes.any fun l => l.st == .walking) && o.lanes.any (fun l => l.st == .faulted) then
    probeFault s c o.lanes write false
  else
    let s := s.keepXlats c.u o.lanes
    if o.kind = .load then
      let r := s.startOp { o with stage := if o.lanes.any fun l => l.st == .walking then .probing else .ready }
      (r.2.startWalks r.1).kick c.u
    else
      let n := s.nextId
      (s.enterStopper o).startWalks n

/-- LDG and STG (R217, R218). -/
def glob (s : State) (c : Cur) (w : MF) (load : Bool) : State :=
  let n := 2 ^ w.sz.toNat
  let act := activeLanes s c w.g
  let ad := globAddr s c w
  let mis := act.filter fun l => ad l % n ≠ 0
  if act.isEmpty then s
  else if !mis.isEmpty then misaligned s c mis
  else
    let real := realLanes s c w.g
    let data (l : Nat) : Nat := if load then 0 else dataOf s c w.data.toNat l n
    let ls := probeAll s c (if load then 0 else 1) (real.map fun l => laneReq l (ad l) (data l) 0)
    let differ := pairsDiffer s c act fun l => [ad l, data l]
    let s := if load && differ then s.reportPair c c.cycle else s
    issueGlobal s c (!load) { opBase s c (if load then .load else .store) with
      k := some (w.off.toNat / 2 ^ 14), size := n, ord := w.ord.toNat, sco := w.sco.toNat, lanes := ls,
      dest := if load then w.data.toNat else 0xFF, helpers := if load then helperMask s c w.g else 0,
      mism := !load && differ }

/-- LDG (R217, R218). -/
def execLdg (w : MF) (s : State) : Host.Outcome State Fault Refusal :=
  issue (.ldg w) s fun c => glob s c w true

/-- STG (R217, R218). -/
def execStg (w : MF) (s : State) : Host.Outcome State Fault Refusal :=
  issue (.stg w) s fun c => glob s c w false

/-- The ATOMG family: counted on K15, held in the stopper, applied at the home (R219). -/
def atomg (s : State) (c : Cur) (w : RF) (fn : Nat) : State :=
  let n := if w.ty.toNat = 7 then 8 else 4
  let act := activeLanes s c w.g
  let ad (l : Nat) : Nat := (readField s c w.a.toNat l true).toNat
  let mis := act.filter fun l => ad l % n ≠ 0
  if act.isEmpty then s
  else if !mis.isEmpty then misaligned s c mis
  else
    let b (l : Nat) : Nat := atomOpnd s c w.b.toNat l n
    let k (l : Nat) : Nat := atomOpnd s c w.c.toNat l n
    let ls := probeAll s c 2 ((realLanes s c w.g).map fun l => laneReq l (ad l) (b l) (k l))
    issueGlobal s c true { opBase s c .atomic with
      k := some 15, size := n, fn := fn, ty := w.ty.toNat, ord := w.md.toNat % 8, sco := w.md.toNat / 8 % 8, lanes := ls,
      dest := w.d.toNat, helpers := helperMask s c w.g, mism := pairsDiffer s c act fun l => [ad l, b l, k l] }

/-- ATOMG.ADD (R219). -/
def execAtomgAdd (w : RF) (s : State) : Host.Outcome State Fault Refusal :=
  issue (.atomgAdd w) s fun c => atomg s c w 0

/-- ATOMG.SUB (R219). -/
def execAtomgSub (w : RF) (s : State) : Host.Outcome State Fault Refusal :=
  issue (.atomgSub w) s fun c => atomg s c w 1

/-- ATOMG.MIN (R219). -/
def execAtomgMin (w : RF) (s : State) : Host.Outcome State Fault Refusal :=
  issue (.atomgMin w) s fun c => atomg s c w 2

/-- ATOMG.MAX (R219). -/
def execAtomgMax (w : RF) (s : State) : Host.Outcome State Fault Refusal :=
  issue (.atomgMax w) s fun c => atomg s c w 3

/-- ATOMG.AND (R219). -/
def execAtomgAnd (w : RF) (s : State) : Host.Outcome State Fault Refusal :=
  issue (.atomgAnd w) s fun c => atomg s c w 4

/-- ATOMG.OR (R219). -/
def execAtomgOr (w : RF) (s : State) : Host.Outcome State Fault Refusal :=
  issue (.atomgOr w) s fun c => atomg s c w 5

/-- ATOMG.XOR (R219). -/
def execAtomgXor (w : RF) (s : State) : Host.Outcome State Fault Refusal :=
  issue (.atomgXor w) s fun c => atomg s c w 6

/-- ATOMG.EXCH (R219). -/
def execAtomgExch (w : RF) (s : State) : Host.Outcome State Fault Refusal :=
  issue (.atomgExch w) s fun c => atomg s c w 7

/-- ATOMG.CAS (R219). -/
def execAtomgCas (w : RF) (s : State) : Host.Outcome State Fault Refusal :=
  issue (.atomgCas w) s fun c => atomg s c w 8

/-- FENCE: no entry, no counter; it gates dispatch (R220, R221). -/
def execFence (w : MF) (s : State) : Host.Outcome State Fault Refusal :=
  issue (.fence w) s fun c =>
    ((s.startOp { opBase s c .fence with ord := w.ord.toNat, sco := w.sco.toNat, stage := .done }).2).kick c.u

/-! ### Homes -/

/-- Place of a host byte: the port's address space (Table 14.3). -/
def hostAddr (port a : Nat) : Nat := port * 2 ^ 64 + a

/-- Read `n` bytes at a translated place. -/
def readPlace (s : State) (x : Xlat) (va n : Nat) : Nat :=
  if x.tgt = 0 then s.hbmRead x.ctx (x.tid % 16) x.key (x.place va) n
  else s.hostMem.readN (hostAddr (x.tid % 2) (x.place va)) n

/-- Write bytes at a translated place. -/
def State.writePlace (s : State) (x : Xlat) (va : Nat) (bs : List Byte) : State :=
  if x.tgt = 0 then s.hbmWrite x.ctx (x.tid % 16) x.key (x.place va) bs
  else { s with hostMem := s.hostMem.writeBytes (hostAddr (x.tid % 2) (x.place va)) bs }

/-- Is a place poisoned? -/
def placePoisoned (s : State) (x : Xlat) (va n : Nat) : Bool := x.tgt = 0 && s.hbmPoisoned (x.tid % 16) (x.place va) n

/-- The mark of a poisoned stack word whose home logic failed its replay (R393). -/
def homeMark (w : Nat) : Nat := 2 ^ 100 + w

/-- The source code of a poisoned place: 10 for home logic, else 5 for HBM4 (Table 20.3). -/
def poisonSource (s : State) (x : Option Xlat) (va n : Nat) : Nat :=
  match x with
  | none => 5
  | some x =>
    let a := hbmAddr (x.tid % 16) (x.place va)
    if s.poison.any fun p => (List.range ((a % 8 + n + 7) / 8)).any fun i => p == homeMark (poisonHbm (a + 8 * i)) then 10 else 5

/-- Does a claim that was entered at a home by cycle `t` cover bytes [a, a + n) of it (R231, R232)? Lines are 64 bytes. -/
def claimed (s : State) (h a n t : Nat) : Bool :=
  s.claims.any fun c => c.home = h && c.stamp ≤ t &&
    max c.lo c.passed / 64 * 64 < a + n && a < (c.hi + 63) / 64 * 64 && c.passed < c.hi

/-- The byte of a lane's place that an earlier write's lane covers. -/
def laneByte (k : LaneReq) (n : Nat) (l : LaneReq) (i : Nat) : Option Nat :=
  let l := { l with addr := l.addr + i }
  if sameBytes k n l 1 then
    some (match k.xl, l.xl with | some x, some y => y.place l.addr - x.place k.addr | _, _ => l.addr - k.addr)
  else none

/-- The byte of place `a + i` as an earlier write of the same unit leaves it, while that write is not applied (R210). -/
def ownByte (s : State) (o : Op) (l : LaneReq) (i : Nat) : Option Byte :=
  let ws := sortBy (fun a b => b.seq ≤ a.seq) ((before s o).filter fun e => e.kind = .store && e.live &&
    (e.stage == .held || e.stage == .released || e.stage == .inflight))
  ws.findSome? fun e => e.lanes.reverse.findSome? fun k =>
    if k.st == .ready || k.st == .sent || k.st == .atHome || k.st == .parked || k.st == .walking then
      (laneByte k e.size l i).map fun j => BitVec.ofNat 8 (k.data / 256 ^ j)
    else none

/-- The value a load takes for a lane: byte by byte from the unit's own pending writes, else from the home (R210). -/
def loadValue (s : State) (o : Op) (l : LaneReq) : Nat :=
  match l.xl with
  | none => 0
  | some x =>
    let base := leBytes o.size (readPlace s x l.addr o.size)
    ofLeBytes ((List.range o.size).map fun i => (ownByte s o l i).getD (base.getD i 0))

/-- Does a request still travel: the die link to the home carries no dynamic messages now (Table 19.7), or an earlier request of the
unit to this home has not arrived (R209)? -/
def notArrived (s : State) (o : Op) (h : Nat) : Bool :=
  (linkHolds s o.u.die h && o.lanes.any fun l => l.st == .sent && l.home = h) || (before s o).any fun e => e.live && e.lanes.any fun l => l.st == .sent && l.home = h

/-- Does an earlier write of the unit to the same bytes wait at the home (R209)? Loads see plain stores by forwarding. -/
def ownPending (s : State) (o : Op) (h : Nat) : Bool :=
  (before s o).any fun e => e.live && (e.kind = .atomic || (e.kind = .store && o.kind != .load)) &&
    e.lanes.any fun k => (k.st == .sent || k.st == .atHome) && k.home = h &&
      o.lanes.any fun l => l.home = h && sameBytes k e.size l o.size

/-- The cycle of a home: of core 0 of its die; ports of hosts count ticks (R207; log 116). -/
def homeCycle (s : State) (h : Nat) : Nat := if h < 16 then s.cyc h 0 else s.now / Config.unitsPerTick

/-- The instant at which the next cycle of a home begins. -/
def homeNext (s : State) (h : Nat) : Nat :=
  if h < 16 then s.nextStart h 0 else (s.now / Config.unitsPerTick + 1) * Config.unitsPerTick

/-- The lanes of an operation that stand at or travel to a home. -/
def lanesAt (o : Op) (h : Nat) : List LaneReq := o.lanes.filter fun l => (l.st == .sent || l.st == .atHome) && l.home = h

/-- Does it wait at the home? -/
def waitsAt (o : Op) (h : Nat) : Bool := o.live && (lanesAt o h).any fun l => l.st == .atHome

/-- What orders the requests at a home: the cycle of arrival, then source die, core and unit, then issue (R207). -/
def homeKey (o : Op) (h : Nat) : List Nat :=
  [(lanesAt o h).foldl (fun a l => max a l.arr) 0, o.u.die, o.u.core, o.u.rank, o.id]

/-- Is `a` before `b` at the first number in which they differ? -/
def lexLess : List Nat → List Nat → Bool
  | a :: as, b :: bs => a < b || (a == b && lexLess as bs)
  | _, _ => false

/-- Is an earlier request of the home still to be tried in this cycle (R207)? -/
def yieldsTurn (s : State) (o : Op) (h : Nat) : Bool :=
  s.agenda.any fun e => e.at' == s.now && (match e.due with
    | .ev .writeApply a | .ev .readAnswer a =>
      a.n.getD 1 0 == h && (match s.op? (a.n.getD 0 0) with
        | some p => p.id != o.id && waitsAt p h && lexLess (homeKey p h) (homeKey o h)
        | none => false)
    | _ => false)

/-- Is it a read behind one that the home does not answer yet for want of cover? A held write blocks nothing (R207, R213), and
the write that a read waits for is not held up by it (log 116). -/
def readBehind (s : State) (o : Op) (h : Nat) : Bool :=
  o.kind = .load && h < 16 && s.ops.any fun p =>
    p.id != o.id && p.kind = .load && waitsAt p h && lexLess (homeKey p h) (homeKey o h) && !covered s h p.clock

/-- Do lanes of two requests at a home touch the same bytes of it? -/
def meetAt (p o : Op) (h : Nat) : Bool :=
  (lanesAt p h).any fun k => (lanesAt o h).any fun l =>
    match k.xl, l.xl with
    | some x, some y => x.place k.addr < y.place l.addr + o.size && y.place l.addr < x.place k.addr + p.size
    | _, _ => false

/-- Does a request that waits at the home, or a copy that writes there, wait for this write: its clock holds a later marker of the
write's die (R213)? -/
def neededAt (s : State) (o : Op) (h : Nat) : Bool :=
  h < 16 && s.ops.any fun p => p.id != o.id && p.live &&
    (waitsAt p h || (p.kind.isCopy && p.stage == .streaming && !covered s h p.clock)) &&
    !ctrGe (o.clock.getD o.u.die 0) (p.clock.getD o.u.die 0)

/-- Does it stand behind an earlier read that still waits at the home for the same bytes: a write behind any read, unless something there
waits for the write itself, and a load behind an earlier load of its unit (R207, R209; log 141)? -/
def behindRead (s : State) (o : Op) (h : Nat) : Bool :=
  s.ops.any fun p => p.id != o.id && p.kind = .load && waitsAt p h && lexLess (homeKey p h) (homeKey o h) && meetAt p o h &&
    (if o.kind = .load then p.u == o.u && p.gid == o.gid else !neededAt s o h)

/-- Must a request wait at its home: not covered (R213), claimed before it arrived (R232), at a channel that pauses (R394), or behind its
own earlier write or an earlier read (R207, R209)? -/
def homeWaits (s : State) (o : Op) (h : Nat) : Bool :=
  (h < 16 && !covered s h o.clock) || ownPending s o h || readBehind s o h || behindRead s o h ||
    (lanesAt o h).any fun l => match l.xl with
      | some x => claimed s h (x.place l.addr) o.size l.arr || chanPaused s h (x.place l.addr) o.size
      | none => false

/-- A request arrives at its home and is served in a later cycle, in its turn. -/
def State.arrive (s : State) (id h : Nat) (again : Due) : State :=
  (s.modLanes id fun l => if l.st == .sent && l.home = h then { l with st := .atHome, arr := homeCycle s h + 1 } else l).schedEv
    (homeNext s h) 20 again

/-- Is a home's die offlined (R401)? -/
def homeGone (s : State) (h : Nat) : Bool := h < 16 && (s.die h).st == 2

/-- An access that reaches an offlined die is a permanent fault (R401): its home reports cause 4. -/
def State.homeFault (s : State) (o : Op) (ls : List LaneReq) : State :=
  ls.foldl (fun s l => s.schedFree 20 (ev .faultReport [o.id, l.lane, 4])) s

/-- READ_ANSWER: a load's lanes reach a home, which answers them in arrival order once its frontier covers the clock (R207,
R210, R213). -/
def execReadAnswer (s : State) : Host.Outcome State Fault Refusal :=
  match s.op? (s.num 0) with
  | none => .next s
  | some o =>
    let h := s.num 1
    let mine := lanesAt o h
    if !o.live || mine.isEmpty then .next s
    else
      let again := ev .readAnswer [o.id, h]
      if homeGone s h then .next (s.homeFault o mine)
      else if notArrived s o h then .next (s.schedEv (homeNext s h) 20 again)
      else if mine.any fun l => l.st == .sent then .next (s.arrive o.id h again)
      else if yieldsTurn s o h then .next (s.sched s.now 20 again)
      else
        let s := if h < 16 then s.updFrontier h else s
        if homeWaits s o h then .next (s.schedEv (homeNext s h) 20 again)
        else
          let s := s.modLanes o.id fun l =>
            if l.st == .atHome && l.home = h then
              { l with st := .answered, res := loadValue s o l,
                       poison := match l.xl with | some x => placePoisoned s x l.addr o.size | none => false } else l
          let s := s.modOp o.id fun o => { o with front := if h < 16 then maxClock o.front (s.die h).frontier else o.front }
          match s.op? o.id with
          | none => .next s
          | some o =>
            if o.lanes.all fun l => l.st == .answered then .next (s.schedFree 20 (ev .loadComplete [o.id])) else .next s

/-- LOAD_COMPLETE: the last response has returned, once the die links that the responses take are keyed (Table 19.7): lanes land, the counter falls, an acquire absorbs its frontier (R205,
R218); poison is consumed (R392). -/
def execLoadComplete (s : State) : Host.Outcome State Fault Refusal :=
  match s.op? (s.num 0) with
  | none => .next s
  | some o =>
    if !o.live then .next s
    else if o.lanes.any fun l => linkHolds s o.u.die l.home then .next (s.schedIn 1 20 (ev .loadComplete [o.id]))
    else
      let s := if o.acquires then s.absorb o.u.die o.front else s
      let s := (s.complete o.id).kick o.u
      match o.lanes.find? fun l => l.poison with
      | some l => .next (s.consume o.u o.gid (poisonSource s l.xl l.addr o.size) l.addr o.pc)
      | none => .next s

/-- Apply one lane of a write or atomic at its home (R207, R219): the state, the flags raised and the old value. DESIGN CHOICE
(log 117): the two halves of a 16-byte access are read, or written, together; R208 promises no such thing. -/
def applyLane (s : State) (o : Op) (l : LaneReq) : State × Nat × Nat :=
  match l.xl with
  | none => (s, 0, 0)
  | some x =>
    if o.kind = .atomic then
      let m := readPlace s x l.addr o.size
      let r := atomF o.fn o.ty m l.data l.cmp
      (s.writePlace x l.addr (leBytes o.size r.1), r.2, m)
    else (s.writePlace x l.addr (leBytes o.size l.data), 0, 0)

/-- Does a write meet a page set migrating at its home (R216, R301)? -/
def migrating (s : State) (o : Op) (l : LaneReq) : Bool :=
  s.sds.any (fun d => d.covers o.ctx l.addr (l.addr + o.size)) && (walk s o.u.die o.ctx l.addr).cause == 5

/-- WRITE_APPLY: a write or atomic reaches its home and is applied in its turn once the frontier covers its clock; lanes in
ascending order; a lane on a migrating page, or behind a parked one, is parked (R207, R213, R216). -/
def execWriteApply (s : State) : Host.Outcome State Fault Refusal :=
  match s.op? (s.num 0) with
  | none => .next s
  | some o =>
    let h := s.num 1
    let mine := lanesAt o h
    if !o.live || mine.isEmpty then .next s
    else
      let again := ev .writeApply [o.id, h]
      if homeGone s h then .next (s.homeFault o mine)
      else if notArrived s o h then .next (s.schedEv (homeNext s h) 20 again)
      else if mine.any fun l => l.st == .sent then .next (s.arrive o.id h again)
      else if yieldsTurn s o h then .next (s.sched s.now 20 again)
      else
        let s := if h < 16 then s.updFrontier h else s
        let park := mine.filter fun l => migrating s o l || behindParked s o l
        let held := homeWaits s o h
        if held && park.isEmpty then .next (s.schedEv (homeNext s h) 20 again)
        else
          let rest := mine.filter fun l => !(park.any fun k => k.lane == l.lane)
          let go := if held then [] else rest
          let r := go.foldl (fun (x : State × Nat × List (Nat × Nat × Bool)) l =>
            let y := applyLane x.1 o l
            let p := match l.xl with | some t => o.kind == .atomic && placePoisoned x.1 t l.addr o.size | none => false
            (y.1, flOr x.2.1 y.2.1, (l.lane, y.2.2, p) :: x.2.2)) (s, 0, [])
          let s := r.1.modOp o.id fun o =>
            { o with args := [flOr (o.args.getD 0 0) r.2.1], front := if h < 16 then maxClock o.front (s.die h).frontier else o.front
                     lanes := o.lanes.map fun l =>
                       match r.2.2.find? fun y => y.1 == l.lane with
                       | some y => { l with st := .applied, res := y.2.1, poison := y.2.2 }
                       | none => if park.any fun k => k.lane == l.lane then { l with st := .parked, cause := 5 } else l }
          let s := if h < 16 then s.updFrontier h else s
          .next (if !go.isEmpty then s.schedFree 20 (ev .writeAck [o.id, h])
            else if rest.isEmpty then s else s.schedEv (homeNext s h) 20 again)

/-- The flags of an atomic: those that homes of this module have reported, and those of the old values from peers (R97, R219). -/
def atomFlags (o : Op) : Nat :=
  (o.lanes.filter LaneReq.atPeer).foldl (fun a l => flOr a (atomF o.fn o.ty l.res l.data l.cmp).2) (o.args.getD 0 0)

/-- The flags of an atomic that completes are raised where its results land: for its unit, or for the replays bound to it; none is
raised for a unit that a kill has taken away (R97, R385). They are kept for a replay still to come. -/
def State.raiseAtom (s : State) (o : Op) (cyc : Nat) : State :=
  let fl := atomFlags o
  let s := if o.kdone then s else s.raise o.u fl cyc o.issue
  let s := o.binds.foldl (fun s b => s.raise b.u fl cyc b.issue) s
  s.modOp o.id fun o => { o with args := [fl] }

/-- Finish a write or atomic once every lane is acknowledged: it is visible (R201); an atomic lands its old values, raises
its flags and, as an acquire, absorbs its frontier (R205, R219). A team store ends in the cycle of the acknowledgement (R190). -/
def State.finishWrite (s : State) (id : Nat) : State :=
  match s.op? id with
  | none => s
  | some o =>
    if !o.live || !(o.lanes.all fun l => l.st == .acked) then s
    else
      let cyc := if o.kind = .teamStore then s.ucyc o.u else s.ucyc o.u + 1
      let s := if o.acquires then s.absorb o.u.die o.front else s
      let s := if o.kind.isAtomic then s.raiseAtom o cyc else s
      let s := (s.completeAt id cyc).kick o.u
      match o.lanes.find? fun l => l.poison with
      | some l => s.consume o.u o.gid (poisonSource s l.xl l.addr o.size) l.addr o.pc
      | none => s

/-- WRITE_ACK: the acknowledgement of a home, peer or target core reaches the issuing core (R190, R201); over a die link it waits
until the link is keyed (Table 19.7). -/
def execWriteAck (s : State) : Host.Outcome State Fault Refusal :=
  match s.op? (s.num 0) with
  | none => .next s
  | some o =>
    let h := s.num 1
    let mine (l : LaneReq) : Bool :=
      if 256 ≤ h then l.st == .applied && teamCore s o.u l.addr == h - 256
      else (l.st == .applied || (32 ≤ h && l.st == .sent)) && l.home == h
    if linkHolds s o.u.die h then .next (s.schedIn 1 20 (ev .writeAck [o.id, h]))
    else
      let s := s.modOp o.id fun o =>
        { o with lanes := o.lanes.map fun l => if mine l then { l with st := .acked } else l }
      .next (s.finishWrite o.id)

/-! ### Faults at a destination (R216, R378) -/

/-- Send parked lanes again, translated afresh on this module (R216, R300). -/
def State.resend (s : State) (id : Nat) (p : LaneReq → Bool) : State :=
  match s.op? id with
  | none => s
  | some o =>
    if !o.live then s
    else
      let fresh (l : LaneReq) : LaneReq :=
        if l.st == .parked && p l then
          (if o.kind = .rld ∨ o.kind = .rst ∨ o.kind = .ratom then
            (if behindParked s o l then l else { l with st := .ready })
           else rewalkLane s o { l with xl := none, st := .ready, cause := 0 })
        else l
      let ls := o.lanes.map fresh
      let remote : Bool := o.kind = .rld ∨ o.kind = .rst ∨ o.kind = .ratom
      let s := if remote then s
        else s.renewXlats o ((o.lanes.filter fun l => l.st == .parked && p l).map fun l => { l with xl := none })
      let s := s.modOp id fun o => { o with lanes := ls }
      match ls.find? fun l => l.st == .faulted with
      | some _ => s.dispatchFault o ls
      | none => (distinct ((ls.filter fun l => l.st == .ready).map LaneReq.home)).foldl (fun s h =>
          match s.op? id with | some o => s.sendHome o h | none => s) s

/-! ### The end of a walk -/

/-- The operations that a walk fault takes with it: its own and every later one of the region not yet dispatched (R295); never a
copy command that has left the stopper (R241). -/
def State.cancelRegion (s : State) (o : Op) : State :=
  let cyc := s.ucyc o.u
  (s.ops.filter fun e => e.u = o.u && e.live && o.seq ≤ e.seq &&
    ((e.stage == .released && !e.kind.isCopy) || e.stage == .probing || e.stage == .ready || e.id == o.id)).foldl (fun s e =>
      (s.cancelOp e cyc).modOp e.id fun e => { e with ordinal := if e.ordinal = 0 then 0 else e.ordinal + 2 ^ 40 }) s

/-- Walk again the accesses of a unit that a fault has left without their region's record (R296; log 142). -/
def State.rewalkStuck (s : State) (u : UnitId) : State :=
  (s.ops.filter fun o => o.u = u && o.stage == .probing && o.lanes.any fun l => l.st == .faulted).foldl (fun s o =>
    let s := s.modOp o.id fun o =>
      { o with lanes := o.lanes.map fun l => if l.st == .faulted then { l with st := .walking, cause := 0 } else l }
    s.startWalks o.id) s

/-- Deliver a fault found by a walk (R295-R297): the unit takes the restart of the region that holds the access and waits; a unit of a
scheduled kernel raises a schedule fault instead and goes on (log 139); a unit that has ended is not restarted. An access whose record
is no longer kept stays and is walked again when the unit goes on (log 142). -/
def State.walkFault (s : State) (o : Op) : State :=
  let write := o.need != 0
  let d := faultDetail o.lanes write false
  let k := faultKind o.lanes
  match layOf s o.u with
  | some l => (s.cancelOp o (s.ucyc o.u + 1)).schedFault l 4 o.u o.pc [0, 0, d.getD 2 0]
  | none =>
    match s.unit? o.u with
    | none => s
    | some x =>
      let cyc := s.ucyc o.u
      let s := if x.ended then s.cancelRegion o
        else match x.ring.find? fun r => r.cycle ≤ o.issue with
        | some r => (s.cancelRegion o).restart o.u r cyc (fun e => r.cycle ≤ e.issue) (max x.keepBar x.nBar)
        | none => s.restartNewest o.u cyc
      s.takeTrap o.u
        { kind := k.1, sub := k.2, cycle := cyc, time := localTime s o.u.die o.u.core s.now, pc := o.pc, idx := 0, quads := 0,
          clause := none, lanes := faultLanes o.lanes false, detail := d, sgpc := [], final := false, byWalk := true,
          waitOnly := k == (7, 5) && !x.ended
          waits := (o.lanes.filter fun l => l.st == .faulted && l.cause == 5).map (·.addr) }

/-- A lane of an access whose walk ends: translation kept, or the fault noted (R289, R293). -/
def State.endWalk (s : State) (o : Op) (l : LaneReq) : State :=
  let w := walk s o.u.die o.ctx l.addr
  match w.poison with
  | some (_, a) => s.consume o.u o.gid 5 a o.pc
  | none =>
    let write := o.need != 0
    let s := s.setCompanion o.ctx o.u.die write w
    let sched := match (s.groupOf o.u).bind s.kernelOf with | some k => k.lpb.sched | none => false
    match w.xl with
    | some x =>
      let x := { x with dirty := write }
      let s := s.fillXlat o.u.die o.u.core (o.u.slot * 32 + l.lane) x
      s.modLanes o.id fun k => if k.lane = l.lane then (k.settle sched o.need w.lvl w.seq x) else k
    | none => s.modLanes o.id fun k =>
        if k.lane = l.lane then { k with cause := w.cause, lvl := w.lvl, seq := w.seq, st := .faulted } else k

/-- The word a PROBE lane lands (Table 14.7). DESIGN CHOICE (log 143): PSIZE is 0 where no region is known (FLT 1 and 3), and TGT, TID
and KEYID are 0 where no valid leaf was reached; the table says so of the leaf bits only. -/
def probeWord (s : State) (die ctx va : Nat) : Nat :=
  let w := walk s die ctx va
  let w0 := rafWord s die ctx (2 * bits va 52 4)
  let ps := if w.cause = 3 ∨ w.cause = 1 then 0 else bits w0 61 2
  let fl := w.cause * 2 ^ 4 + w.lvl * 2 ^ 2
  match w.leaf with
  | some (e, _, _) =>
    if !e.testBit 63 then ps * 2 ^ 24 + fl
    else
      (if w.cause = 0 then 2 ^ 31 else 0) +
        ((if e.testBit 62 then 2 ^ 30 else 0) + (if e.testBit 61 then 2 ^ 29 else 0) + (if e.testBit 60 then 2 ^ 28 else 0) +
         (if e.testBit 59 then 2 ^ 27 else 0) + (if e.testBit 58 then 2 ^ 26 else 0)) +
        ps * 2 ^ 24 + bits e 56 2 * 2 ^ 22 + bits e 49 7 * 2 ^ 15 + leafKey w0 e * 2 ^ 7 + fl
  | none => ps * 2 ^ 24 + fl

/-- WALK_COMPLETE: a walk ends; once no lane of the access waits, its faults are delivered or it may be dispatched. For a
PROBE it ends the lane with its result word (R294, R295, R303). -/
def execWalkComplete (s : State) : Host.Outcome State Fault Refusal :=
  match s.op? (s.num 0) with
  | none => .next s
  | some o =>
    match o.lanes.find? fun l => l.lane == s.num 1 with
    | none => .next s
    | some l =>
      if !o.live then .next s
      -- Table 14.6: a frozen unit's translations are refilled after the resume
      else if frozenUnit s o.u then .next (s.schedIn 1 20 (ev .walkComplete [o.id, l.lane]))
      else if o.kind = .probe then
        let s := s.modLanes o.id fun k =>
          if k.lane = l.lane then { k with st := .answered, res := probeWord s o.u.die o.ctx l.addr } else k
        match s.op? o.id with
        | some o => .next (if o.lanes.all fun k => k.st == .answered then s.complete o.id else s)
        | none => .next s
      else if l.st != .walking then .next s
      else
        let s := s.endWalk o l
        match s.op? o.id with
        | none => .next s
        | some o =>
          if !o.live || o.lanes.any (fun k => k.st == .walking) then .next s
          else if o.lanes.any fun k => k.st == .faulted then .next (s.walkFault o)
          else .next ((s.modOp o.id fun o => { o with stage := if o.stage == .probing then .ready else o.stage }).kick o.u)

/-! ### PROBE and TINV (R303, R304) -/

/-- PROBE: counted walks without access; lane-wise for a V address, uniform for an S address (R303). -/
def execProbe (w : RF) (s : State) : Host.Outcome State Fault Refusal :=
  issue (.probe w) s fun c =>
    let uni := isS false w.a.toNat
    let ls := if uni then [0] else realLanes s c w.g
    if ls.isEmpty then s
    else
      let ls := ls.map fun l => laneReq l (readField s c w.a.toNat l true).toNat 0 0
      let r := s.startOp { opBase s c .probe with
        k := some (w.b.toNat % 16), dest := w.d.toNat, size := 4, lanes := ls,
        helpers := if uni then 0 else helperMask s c w.g }
      r.2.kick c.u

/-- TINV: a counted shoot-down of the issuing context; it needs the page-control privilege (R304). -/
def execTinv (w : RF) (s : State) : Host.Outcome State Fault Refusal :=
  issue (.tinv w) s fun c =>
    match kernelOfCur s c with
    | some k =>
      if !k.lpb.pagectl then trapCur s c 8 6 0 [0, 0, 6]
      else
        let a := (readU s c w.a.toNat).toNat % 2 ^ 56
        let n := if w.b = 0xFF then 0 else (readU s c w.b.toNat).toNat % 2 ^ 32
        let r := s.startOp { opBase s c .tinv with k := some (w.d.toNat % 16), fn := w.md.toNat % 4, args := [a, n] }
        r.2.kick c.u
    | none => s

end Sys2Proof.Machine
end

