-- ==== Sys2Proof/Machine/Remote.lean ====
section
/-! DEFINITION. Remote accesses (R376-R378) and the events of a shoot-down (R298-R300). -/

namespace Sys2Proof.Machine

/-! ### RLD, RST, RATOM -/

/-- The peer a lane names (R376): a V register gives 32 bits, an S register 64. -/
def peerOf (s : State) (c : Cur) (r l : Nat) : Nat := (readField s c r l (isS false r)).toNat

/-- May the lane name this peer (R377): 7 bits, in the pod, not this module? -/
def peerOk (s : State) (p : Nat) : Bool := p < 128 && p != s.modl && s.podmask.testBit p

/-- The checks of R377, in order, then one stopper entry for all lanes. -/
def remote (s : State) (c : Cur) (g : Guard) (n : Nat) (write : Bool) (ad peer : Nat → Nat) (o : Op) : State :=
  let act := activeLanes s c g
  let mis := act.filter fun l => ad l % n ≠ 0
  let high := act.filter fun l => bits (ad l) 56 8 ≠ 0
  let bad := act.filter fun l => !peerOk s (peer l)
  let det (ls : List Nat) (cause : Nat) : List Nat :=
    [ad (ls.headD 0), (maskPhys ls).toNat, (if write then 32 else 0) + cause]
  if act.isEmpty then s
  else if !mis.isEmpty then misaligned s c mis
  else if !high.isEmpty then trapCur s c 7 3 (maskPhys high) (det high 3)
  else if !bad.isEmpty then trapCur s c 8 6 (maskPhys bad) (det bad 6)
  else s.enterStopper o

/-- RLD and RST (R376, R377). -/
def remoteM (s : State) (c : Cur) (w : MF) (load : Bool) : State :=
  let n := 2 ^ w.sz.toNat
  let ad (l : Nat) : Nat := wrap 64 (((readField s c w.index.toNat l true).toNat : Int) + (w.off.setWidth 14).toInt)
  let peer := fun l => peerOf s c w.base.toNat l
  let data (l : Nat) : Nat := if load then 0 else dataOf s c w.data.toNat l n
  let act := activeLanes s c w.g
  let differ := pairsDiffer s c act fun l => [ad l, peer l, data l]
  remote s c w.g n (!load) ad peer { opBase s c (if load then .rld else .rst) with
    k := some (w.off.toNat / 2 ^ 14), size := n, ord := w.ord.toNat, sco := 4,
    dest := if load then w.data.toNat else 0xFF, helpers := if load then helperMask s c w.g else 0, mism := differ,
    lanes := (realLanes s c w.g).map fun l => { laneReq l (ad l) (data l) 0 with peer := peer l, st := .ready } }

/-- RLD (R376, R377). -/
def execRld (w : MF) (s : State) : Host.Outcome State Fault Refusal :=
  issue (.rld w) s fun c => remoteM s c w true

/-- RST (R376, R377). -/
def execRst (w : MF) (s : State) : Host.Outcome State Fault Refusal :=
  issue (.rst w) s fun c => remoteM s c w false

/-- The RATOM family, counted on K15 (R376, R377). -/
def ratom (s : State) (c : Cur) (w : RatomF) (fn : Nat) : State :=
  let n := if w.ty.toNat = 7 then 8 else 4
  let ad (l : Nat) : Nat := (readField s c w.a.toNat l true).toNat
  let peer := fun l => peerOf s c w.p.toNat l
  let b (l : Nat) : Nat := atomOpnd s c w.b.toNat l n
  let k (l : Nat) : Nat := atomOpnd s c w.c.toNat l n
  let act := activeLanes s c w.g
  remote s c w.g n true ad peer { opBase s c .ratom with
    k := some 15, size := n, fn := fn, ty := w.ty.toNat, ord := w.ord.toNat, sco := 4, dest := w.d.toNat,
    helpers := helperMask s c w.g, mism := pairsDiffer s c act fun l => [ad l, peer l, b l, k l],
    lanes := (realLanes s c w.g).map fun l => { laneReq l (ad l) (b l) (k l) with peer := peer l, st := .ready } }

/-- RATOM.ADD (R376, R377). -/
def execRatomAdd (w : RatomF) (s : State) : Host.Outcome State Fault Refusal :=
  issue (.ratomAdd w) s fun c => ratom s c w 0

/-- RATOM.SUB (R376, R377). -/
def execRatomSub (w : RatomF) (s : State) : Host.Outcome State Fault Refusal :=
  issue (.ratomSub w) s fun c => ratom s c w 1

/-- RATOM.MIN (R376, R377). -/
def execRatomMin (w : RatomF) (s : State) : Host.Outcome State Fault Refusal :=
  issue (.ratomMin w) s fun c => ratom s c w 2

/-- RATOM.MAX (R376, R377). -/
def execRatomMax (w : RatomF) (s : State) : Host.Outcome State Fault Refusal :=
  issue (.ratomMax w) s fun c => ratom s c w 3

/-- RATOM.AND (R376, R377). -/
def execRatomAnd (w : RatomF) (s : State) : Host.Outcome State Fault Refusal :=
  issue (.ratomAnd w) s fun c => ratom s c w 4

/-- RATOM.OR (R376, R377). -/
def execRatomOr (w : RatomF) (s : State) : Host.Outcome State Fault Refusal :=
  issue (.ratomOr w) s fun c => ratom s c w 5

/-- RATOM.XOR (R376, R377). -/
def execRatomXor (w : RatomF) (s : State) : Host.Outcome State Fault Refusal :=
  issue (.ratomXor w) s fun c => ratom s c w 6

/-- RATOM.EXCH (R376, R377). -/
def execRatomExch (w : RatomF) (s : State) : Host.Outcome State Fault Refusal :=
  issue (.ratomExch w) s fun c => ratom s c w 7

/-- RATOM.CAS (R376, R377). -/
def execRatomCas (w : RatomF) (s : State) : Host.Outcome State Fault Refusal :=
  issue (.ratomCas w) s fun c => ratom s c w 8

/-! ### Shoot-downs -/

/-- Does a shoot-down cover a translation? -/
def ShootDown.hits (d : ShootDown) (x : Xlat) : Bool := d.covers x.ctx x.page (x.page + 2 ^ x.psize)

/-- A shoot-down in progress. -/
def State.sd? (s : State) (i : Nat) : Option ShootDown := s.sds.find? fun d => d.id = i

/-- Change a shoot-down. -/
def State.modSd (s : State) (i : Nat) (f : ShootDown → ShootDown) : State :=
  { s with sds := s.sds.map fun d => if d.id = i then f d else d }

/-- Is an access of the operation under way to a home under a translation that the shoot-down covers? A copy's writes to a peer
count until the peer has answered. -/
def underWay (s : State) (d : ShootDown) (o : Op) : Bool :=
  o.live &&
    (o.lanes.any (fun l => (l.st == .sent || l.st == .atHome) && match l.xl with | some x => d.hits x | none => false) ||
      (match o.copy with
       | some r => !r.dstScr && (copyRanges r).any (fun g => d.covers o.ctx g.2.1 g.2.2) &&
           s.peerFaults.any fun f => f.1 = 16 + o.u.die && f.2.rid == o.id % 4096 && f.2.cause == 0
       | none => false))

/-- A load that has not been dispatched when its translation is swept waits for a new walk, like any pending access (R294). -/
def State.rewalkLoad (s : State) (o : Op) : State :=
  let ls := (o.lanes.filter fun l => l.st == .ready && l.xl.isNone).map (·.lane)
  if o.kind != .load || !(o.stage == .ready || o.stage == .probing) || ls.isEmpty then s
  else
    let s := s.modOp o.id fun o => { o with
      stage := .probing
      lanes := o.lanes.map fun l => if ls.contains l.lane then { l with st := .walking } else l }
    ls.foldl (fun s l => s.schedFree 20 (ev .walkComplete [o.id, l])) s

/-- Complete a shoot-down once every die is swept and every core has acknowledged (R298). -/
def State.testSd (s : State) (i : Nat) : State :=
  match s.sd? i with
  | some d => if d.dies.isEmpty && d.waiting.isEmpty then s.schedFree 20 (ev .shootdownComplete [i]) else s
  | none => s

/-- SHOOTDOWN_SWEEP: a die drops every matching held translation; what is not yet dispatched under one is translated again
at dispatch; a core with accesses under way acknowledges when they are applied (R298-R300). DESIGN CHOICE (log 144): so does a core
of a frozen context, which R299 lets acknowledge at once, since R300 lets nothing be applied under a swept translation after the end. -/
def execShootdownSweep (s : State) : Host.Outcome State Fault Refusal :=
  match s.sd? (s.num 0) with
  | none => .next s
  | some d =>
    let die := s.num 1
    let out := s.ops.filter fun o => o.u.die = die && underWay s d o
    let strip (l : LaneReq) : LaneReq :=
      match l.xl with | some x => if l.st == .ready && d.hits x then { l with xl := none } else l | none => l
    let s : State := { s with
      xlb := s.xlb.filter fun e => !(e.die == die && d.hits e.x)
      ops := s.ops.map fun o => if o.u.die = die ∧ o.live = true then { o with lanes := o.lanes.map strip } else o }
    let s := (s.ops.filter fun o => o.u.die = die && o.live).foldl State.rewalkLoad s
    let s := s.modSd d.id fun d =>
      { d with dies := d.dies.filter (· ≠ die), waiting := d.waiting ++ out.map fun o => (o.u.die * 256 + o.u.core, o.id) }
    let s := (distinct (out.map fun o => o.u.core)).foldl (fun s c => s.schedFree 20 (ev .sweepAck [d.id, die, c])) s
    .next (s.testSd d.id)

/-- SWEEP_ACK: a core acknowledges once every access it dispatched under a swept translation has been applied (R298). -/
def execSweepAck (s : State) : Host.Outcome State Fault Refusal :=
  match s.sd? (s.num 0) with
  | none => .next s
  | some d =>
    let core := s.num 1 * 256 + s.num 2
    let busy := d.waiting.any fun w => w.1 = core && match s.op? w.2 with | some o => underWay s d o | none => false
    if busy then .next (s.schedIn 1 20 (ev .sweepAck [d.id, s.num 1, s.num 2]))
    else .next ((s.modSd d.id fun d => { d with waiting := d.waiting.filter fun w => w.1 ≠ core }).testSd d.id)

/-- Units that wait with cause 5 on a page a shoot-down covers go on from their region entry (R297, R300). -/
def State.requeueWaiters (s : State) (d : ShootDown) : State :=
  (s.units.filter fun x => match x.stop with
    | some t => t.waitOnly && (match s.group? x.gid with
        | some g => t.waits.any fun a => d.covers g.ctx a (a + 1)
        | none => false)
    | none => false).foldl (fun s x =>
      let s := (s.modUnit x.id fun x => { x with stop := none }).rewalkStuck x.id
      (s.unfaultGroup x.gid).resumeUnit x.id (s.ucyc x.id + 1)) s

/-- SHOOTDOWN_COMPLETE: waiting units are requeued, parked writes sent again, paused copies retried; kind ALL renews the
walkers' copies of the region file; peers whose requests were parked here are told (R288, R300, R378). -/
def execShootdownComplete (s : State) : Host.Outcome State Fault Refusal :=
  match s.sd? (s.num 0) with
  | none => .next s
  | some d =>
    let s : State := { s with sds := s.sds.filter fun x => x.id ≠ d.id }
    let s := if d.kind = 2 then
        (partitionDies s d.ctx).foldl (fun s i => s.modDie i fun x =>
          { x with rafCopy := Tab.put x.rafCopy d.ctx (s.ctx d.ctx).raf }) s
      else s
    let s := s.requeueWaiters d
    let hit (o : Op) (l : LaneReq) : Bool := d.covers o.ctx l.addr (l.addr + 1)
    let parked := sortBy (fun a b => a.seq ≤ b.seq)
      (s.ops.filter fun o => o.live && o.lanes.any fun l => l.st == .parked && hit o l)
    let s := parked.foldl (fun s o => s.resend o.id (hit o)) s
    let s := (s.ops.filter fun o => o.live &&
        match o.copy with | some r => r.paused && d.covers o.ctx r.pauseVa (r.pauseVa + 1) | none => false).foldl (fun s o =>
      (s.modOp o.id fun o => { o with copy := o.copy.map fun r => { r with paused := false } }).schedFree
        (match o.copy with | some r => 4 + r.ch | none => 4) (ev .copyUnitDeliver [o.id])) s
    let told := s.peerFaults.filter fun f => f.1 < 16 && f.2.addrs.any fun a => d.covers f.2.ctx a (a + 1)
    let s := told.foldl (fun s f => s.sendMsg f.1 { f.2 with kind := 10, addrs := [], data := [], cmps := [] }) s
    let s : State := { s with peerFaults := s.peerFaults.filter fun f => !told.contains f }
    if d.op = 0 then .next (s.modCtx d.ctx fun c => { c with tinvBusy := false })
    else
      match s.op? d.op with
      | some o => .next ((s.complete d.op).kick o.u)
      | none => .next s

end Sys2Proof.Machine
end

