-- ==== Sys2Proof/Machine/Copy.lean ====
section
/-! DEFINITION. Copies: COPY, COPYR, CPYST, CPYCAN (R237-R241), delivery and write pointers (R229, R230), claims (R231,
R232), the region table (R234) and scheduled copies (R235). -/

namespace Sys2Proof.Machine

/-! ### Units of a shape (R226, R227) -/

/-- Offset of unit `n` along the given strides of dimensions 1 to 3. -/
def Shape.offset (x : Shape) (str : List Int) (n : Nat) : Int :=
  let e0 := x.ext.getD 0 1
  let e1 := x.ext.getD 1 1
  let e2 := x.ext.getD 2 1
  ((n % e0 * x.unit : Nat) : Int) + ((n / e0 % e1 : Nat) : Int) * str.getD 0 0 +
    ((n / e0 / e1 % e2 : Nat) : Int) * str.getD 1 0 + ((n / e0 / e1 / e2 : Nat) : Int) * str.getD 2 0

/-- The pieces of unit `n`: source, destination, bytes; a Q4 span's descriptor goes first (R227). -/
def CopyRec.pieces (r : CopyRec) (n : Nat) : List (Nat × Nat × Nat) :=
  let w (i : Int) : Nat := wrap 64 i
  let main := (w ((r.src : Int) + r.shape.offset r.shape.sstr n), w ((r.dst : Int) + r.shape.offset r.shape.dstr n), r.shape.unit)
  if r.shape.esz = 4 then
    [(w ((r.src : Int) + r.shape.sdoff + 4 * (n : Int)), w ((r.dst : Int) + r.shape.ddoff + 4 * (n : Int)), 4), main]
  else [main]

/-- The words in which unit `n` moves: at most 8 bytes each, a Q4 span's descriptor first (R183, R227, R229). -/
def CopyRec.words (r : CopyRec) (n : Nat) : List (Nat × Nat × Nat) :=
  (r.pieces n).flatMap fun p => (List.range ((p.2.2 + 7) / 8)).map fun i => (p.1 + 8 * i, p.2.1 + 8 * i, min 8 (p.2.2 - 8 * i))

/-- Every piece of a copy. A CPYST is one piece whose source is a register value. -/
def CopyRec.all (r : CopyRec) : List (Nat × Nat × Nat) := (List.range r.shape.count).flatMap r.pieces

/-- Is a scratch operand wholly in the team's reach (Table 11.2)? -/
def scrReach (s : State) (gid : Nat) (as : List (Nat × Nat)) : Bool :=
  let gs := reachGroups s gid
  as.all fun a => bits a.1 27 5 == 0 && rangeInReach gs (scrCore s gid a.1) (a.1 % 2 ^ 19) a.2

/-! ### Ends of a copy -/

/-- Withdraw the claims of a copy (R231). -/
def State.dropClaims (s : State) (id : Nat) : State := { s with claims := s.claims.filter fun c => c.op ≠ id }

/-- Entries of the context's region table that apply to a copy: number, first and last page, SEQ, writer word (R234). -/
def regionEntries (s : State) (o : Op) (r : CopyRec) : List (Nat × Nat × Nat × Bool × Nat) :=
  if !(s.ctx o.ctx).det then []
  else
    (List.range 64).filterMap fun j =>
      let w0 := Tab.get (0 : Nat) (s.ctx o.ctx).rgt (2 * j)
      let w1 := Tab.get (0 : Nat) (s.ctx o.ctx).rgt (2 * j + 1)
      if w0.testBit 63 && bits w0 44 4 == r.marker &&
          r.all.any fun p => bits w0 0 44 ≤ (p.2.1 + p.2.2 - 1) / 4096 && p.2.1 / 4096 ≤ bits w1 0 44
      then some (j, bits w0 0 44, bits w1 0 44, w0.testBit 48, bits w1 44 14) else none

/-- The number at which a counter stops from `n` on: numbers given up are passed over. -/
def seqNext (skip : List Nat) : Nat → Nat → Nat
  | 0, n => n
  | k + 1, n => if skip.contains n then seqNext skip k ((n + 1) % 65536) else n

/-- The counter of region entry `j` passes number `n`, now or, for a cancelled COPYR that came early, once it gets there (R234). -/
def Context.passSeq (c : Context) (j n : Nat) : Context :=
  let cur := Tab.get (0 : Nat) c.rgtseq j
  let old := Tab.get [] c.rgtskip j
  let skip := if (n + 65536 - cur) % 65536 < 32768 then n :: old else old
  let nxt := seqNext skip (skip.length + 1) cur
  { c with rgtseq := c.rgtseq.put j nxt
           rgtskip := c.rgtskip.put j (skip.filter fun x => (nxt + 65536 - cur) % 65536 ≤ (x + 65536 - cur) % 65536) }

/-- A sequenced COPYR that was applied, cancelled or refused advances the counters of its SEQ regions (R234); a scheduled one has
none (R235). -/
def State.advanceSeq (s : State) (o : Op) (r : CopyRec) : State :=
  match if r.sched then none else r.seq with
  | none => s
  | some n => (regionEntries s o r).foldl (fun s e => if e.2.2.2.1 then s.modCtx o.ctx fun c => c.passSeq e.1 n else s) s

/-- The pages of a byte range: start and end of each part. -/
def pageParts (p lo hi : Nat) : List (Nat × Nat) :=
  (List.range (hi / 2 ^ p - lo / 2 ^ p + 1)).filterMap fun i =>
    let a := max lo ((lo / 2 ^ p + i) * 2 ^ p)
    let b := min hi ((lo / 2 ^ p + i + 1) * 2 ^ p)
    if a < b then some (a, b) else none

/-- The parts of a copy's destination ranges that lie at peers: module, address carried, bytes (R231, R378). -/
def peerClaims (s : State) (o : Op) (r : CopyRec) : List (Nat × Nat × Nat) :=
  if r.dstScr || r.sched then []
  else (copyRanges r).flatMap fun g =>
    (pageParts (regionPage s o.u.die o.ctx g.2.1) g.2.1 g.2.2).filterMap fun b =>
      match (walk s o.u.die o.ctx b.1).xl with
      | some x => if x.tgt = 2 then some (x.tid, peerAddr x b.1, b.2 - b.1) else none
      | none => none

/-- Send the claims of a copy to its peers (R231, R368); a length of 0 withdraws one (log 33). -/
def State.sendClaims (s : State) (o : Op) (r : CopyRec) (drop : Bool) : State :=
  (peerClaims s o r).foldl (fun s c => s.sendMsg o.u.die
    { (peerMsg o c.1 []) with kind := 4, lmask := 1, addrs := [c.2.1], data := [if drop then 0 else c.2.2], rop := r.rop,
                              ty := r.ty, seq := r.seq }) s

/-- The barrier change that ends a copy also reaches the barrier of a twin's copy bound to it (R390). -/
def State.copyEvent (s : State) (o : Op) (e : BEv) (cyc : Nat) : State :=
  let s := s.bEvent o.u o.bar e cyc
  o.binds.foldl (fun s b =>
    if (match s.unit? b.u with | some x => x.gid != o.gid | none => false) then s.bEvent b.u o.bar e cyc else s) s

/-- Withdraw the claims of a copy at its peers. A sequenced COPYR that had not sent them sends them first, so that its peers' counters
advance as well (R231, R234). -/
def State.withdrawClaims (s : State) (o : Op) (r : CopyRec) : State :=
  if o.stage == .claimed || o.stage == .streaming || o.stage == .delivered then s.sendClaims o r true
  else if r.seq.isSome then (s.sendClaims o r false).sendClaims o r true
  else s

/-- End a copy without its effect: claims withdrawn, counters fall; the barrier gets an error code (0 for none) or, for a
CPYCAN, its arrival (Table 11.2). -/
def State.cancelCopy (s : State) (o : Op) (err : Nat) (arrive : Bool) : State :=
  match o.copy with
  | none => s
  | some r =>
    let cyc := s.ucyc o.u + 1
    let s := s.withdrawClaims o r
    let s := ((s.dropClaims o.id).advanceSeq o r).cancelOp o cyc
    let s := if err ≠ 0 then s.copyEvent o (.fault err) cyc else s
    (if arrive then s.copyEvent o .bound cyc else s).kick o.u

/-- Finish a copy: counter, arrival, flags to the context at once (R236, R238, R323). -/
def State.finishCopy (s : State) (o : Op) (cyc : Nat) : State :=
  let s := (s.dropClaims o.id).modCtx o.ctx fun c => { c with flags := flOr c.flags (o.args.getD 2 0) }
  ((s.completeAt o.id cyc).copyEvent o .bound cyc).kick o.u

/-- Count delivered bytes on a channel's write pointer, modulo 2^32: reads count them from the next cycle on (R230). A frozen
group's count is kept with it (R315). -/
def State.addWptr (s : State) (u : UnitId) (ch n : Nat) : State :=
  let now := s.ucyc u
  s.modCore u.die u.core fun c =>
    if u.sh then { c with wsh := onChannels [ch] c.wsh fun _ x => (x + n) % 2 ^ 32 }
    else { c with wptr := onChannels [ch] c.wptr fun _ x => (x + n) % 2 ^ 32
                  fresh := (ch, now, n) :: c.fresh.filter fun e => e.2.1 = now }

/-! ### Issue -/

/-- The slot of a scheduled copy: the earliest occurrence of a KIND 5 entry of its core and channel, at or after `t` in
local ticks, that no copy has taken: start and length (R235). -/
def findSlot (s : State) (l : Nat) (die core ch t : Nat) : Option (Nat × Nat) :=
  let y := s.lay l
  let es := y.slots.filter fun e => e.die = die && e.kind = 5 && bits e.arg 8 8 = core && e.arg % 4 = ch
  let base := y.baseTick + y.shift * y.period
  let n0 := (t - base) / max y.period 1
  let occ := (List.range (y.taken.length + 3)).flatMap fun i =>
    if y.nperiod ≠ 0 ∧ y.nperiod ≤ n0 + i then [] else es.map fun e => (base + y.period * (n0 + i) + e.off, e.len)
  let free := occ.filter fun o => t ≤ o.1 && !y.taken.contains (die, core, ch, o.1)
  free.foldl (fun a o => match a with
    | none => some o
    | some b => if o.1 < b.1 then some o else some b) none

/-- Take the slot of a scheduled copy that is not a replay. -/
def takeSlot (s : State) (c : Cur) (ch : Nat) : Option Nat × State :=
  match layOf s c.u, s.unit? c.u with
  | some l, some x =>
    if replaysNext s x true then (none, s)
    else
      match findSlot s l c.u.die c.u.core ch (localTime s c.u.die c.u.core s.now) with
      | some o => (some o.1, s.modLay l fun y => { y with taken := (c.u.die, c.u.core, ch, o.1) :: y.taken })
      | none => (none, s)
  | _, _ => (none, s)

/-- COPY and COPYR at issue (R237): a misaligned base traps and nothing is held. -/
def copyIssue (s : State) (c : Cur) (w : CopyF) (red : Bool) : State :=
  if !ctlOk s c w.g then s
  else
    match shapeOf s c w.shape.toNat with
    | none => s
    | some x =>
      let src := (readU s c w.src.toNat).toNat
      let dst := (readU s c w.dst.toNat).toNat
      if src % x.unit ≠ 0 ∨ dst % x.unit ≠ 0 then misaligned s c []
      else
        let r := if w.sched = 1 then takeSlot s c w.ch.toNat else (none, s)
        let rec' : CopyRec :=
          { ch := w.ch.toNat, src := src, dst := dst, shape := x, srcScr := w.skind = 1
            dstScr := !red && w.kind.toNat % 2 = 1, sched := w.sched = 1, red := red, rop := w.kind.toNat,
            ty := w.ty.toNat,
            seq := if red && w.seq != 0xFF then some ((readU s c w.seq.toNat).toNat % 65536) else none
            value := none, units := 0, bytes := 0, paused := false, pauseVa := 0, slotTick := r.1, faulted := false, order := 0,
            marker := 0 }
        r.2.enterStopper { opBase s c (if red then .copyr else .copy) with
          k := some w.k.toNat, bar := if w.ben = 1 then some w.bar.toNat else none, copy := some rec', size := x.unit }

/-- COPY (R237). -/
def execCopy (w : CopyF) (s : State) : Host.Outcome State Fault Refusal :=
  issue (.copy w) s fun c => copyIssue s c w false

/-- COPYR (R237, R238). -/
def execCopyr (w : CopyF) (s : State) : Host.Outcome State Fault Refusal :=
  issue (.copyr w) s fun c => copyIssue s c w true

/-- A record of one 8-byte unit. -/
def oneUnit : Shape :=
  { ext := [1, 1, 1, 1], sstr := [0, 0, 0], dstr := [0, 0, 0], esz := 3, sdoff := 0, ddoff := 0, good := true }

/-- CPYST: an 8-byte write after the channel's earlier commands, with release semantics (R239). -/
def execCpyst (w : CpystF) (s : State) : Host.Outcome State Fault Refusal :=
  issue (.cpyst w) s fun c =>
    if !ctlOk s c w.g then s
    else
      let dst := (readU s c w.addr.toNat).toNat
      if dst % 8 ≠ 0 then misaligned s c []
      else s.enterStopper { opBase s c .cpyst with
        k := some w.k.toNat, bar := if w.ben = 1 then some w.bar.toNat else none, ord := 3, sco := w.sco.toNat, size := 8,
        copy := some
          { ch := w.ch.toNat, src := 0, dst := dst, shape := oneUnit, srcScr := false, dstScr := false, sched := false,
            red := false, rop := 0, ty := 0, seq := none, value := some (readU s c w.val.toNat).toNat, units := 0,
            bytes := 0, paused := false, pauseVa := 0, slotTick := none, faulted := false, order := 0, marker := 0 } }

/-- CPYCAN: held like a command; it cancels what its channel then holds (R240). -/
def execCpycan (w : CpycanF) (s : State) : Host.Outcome State Fault Refusal :=
  issue (.cpycan w) s fun c =>
    if !ctlOk s c w.g then s
    else s.enterStopper { opBase s c .cpycan with k := some w.k.toNat, fn := w.ch.toNat }

/-! ### Translation and data -/

/-- The cause that `copyXlat` gives for a walk that read an uncorrectable entry: the error is consumed, and there is no fault (R392). -/
def walkPoison : Nat := 9

/-- Translate an address of a copy (R293, R294): the fault, if any, with level and SEQ, or the translation, which the channel's
register then holds. A page homed on an offlined die is a permanent fault (R401). -/
def copyXlat (s : State) (o : Op) (r : CopyRec) (va need : Nat) : (Nat × Nat × Nat) × Option Xlat × State :=
  let idx := 128 + r.ch
  let fin (x : Xlat) (lvl seq : Nat) (s : State) : (Nat × Nat × Nat) × Option Xlat × State :=
    if x.tgt = 0 ∧ (s.die (x.tid % 16)).st = 2 then ((4, lvl, seq), none, s)
    else if r.sched && !x.pin then ((7, lvl, seq), none, s)
    else if x.permits need then ((0, 0, 0), some x, s) else ((6, lvl, seq), none, s)
  if bits va 56 8 ≠ 0 then ((3, 0, 0), none, s)
  else
    match heldXlat s o.u.die o.u.core idx o.ctx va (need != 0) with
    | some x =>
      let here := s.xlb.any fun e => e.die == o.u.die && e.core == o.u.core && e.idx == idx && e.x == x
      fin x (regionLevels s o.u.die o.ctx va) 0 (if here then s else s.putXlat o.u.die o.u.core idx x)
    | none =>
      let w := walk s o.u.die o.ctx va
      match w.poison, w.xl with
      | some p, _ => ((walkPoison, w.lvl, 0), none, s.consume o.u o.gid 5 p.2 o.pc)
      | none, some x =>
        let x := { x with dirty := need != 0 }
        fin x w.lvl w.seq ((s.setCompanion o.ctx o.u.die (need != 0) w).fillXlat o.u.die o.u.core idx x)
      | none, none => ((w.cause, w.lvl, w.seq), none, s)

/-- The record of a copy's translation fault (Table 15.3 kind 13). -/
def State.copyFaultRecord (s : State) (o : Op) (f : Nat × Nat × Nat) (va : Nat) (write : Bool) : State :=
  s.asyncRecord o.ctx 13 f.1 o.u o.gid o.pc [va, f.2.2 * 2 ^ 32 + 1, (if write then 32 else 0) + 8 * f.2.1 + f.1]

/-- A translation fault of a dynamic copy (Table 11.2): cause 2 pauses it with a record, 5 without, others cancel it; with a poisoned
entry the kill of its team does (R392). -/
def State.copyFault (s : State) (o : Op) (f : Nat × Nat × Nat) (va : Nat) (write : Bool) : State :=
  let pause (s : State) : State := s.modOp o.id fun o =>
    { o with copy := o.copy.map (fun r => { r with paused := true, pauseVa := va }), lanes := [] }
  if f.1 = walkPoison then s
  else if f.1 = 5 then pause s
  else if f.1 = 2 then (pause s).copyFaultRecord o f va write
  else (s.copyFaultRecord o f va write).cancelCopy o 4 false

/-- Combine an element: COPYR's operation (R238); `op` is 0 ADD, 1 MIN, 2 MAX. -/
def copyrF (rop ty m v : Nat) : Nat × Nat :=
  match ty with
  | 2 =>
    match rop with
    | 0 => ((m + v) % 2 ^ 32, 0)
    | 1 => (if sgn 32 m ≤ sgn 32 v then m else v, 0)
    | _ => (if sgn 32 v ≤ sgn 32 m then m else v, 0)
  | _ =>
    let f := if ty = 8 then F32 else if ty = 9 then F16 else BF16
    match rop with
    | 0 => fAdd f 0 false m v
    | 1 => (fMinMax f false m v, 0)
    | _ => (fMinMax f true m v, 0)

/-- Poison the words of written bytes of a stack or of scratch (R392: a copy carries poison). -/
def State.poisonHbmRange (s : State) (die a n : Nat) : State :=
  { s with poison := (List.range ((a % 8 + n + 7) / 8)).map (fun i => poisonHbm (hbmAddr die a + 8 * i)) ++ s.poison }

/-- Poison scratch words. -/
def State.poisonScrRange (s : State) (die core a n : Nat) : State :=
  { s with poison := (List.range ((a % 8 + n + 7) / 8)).map (fun i => poisonScr (scrAddr die core a + 8 * i)) ++ s.poison }

/-- The core a scratch operand names on the copy's die (R174, R389). -/
def copyCore (s : State) (o : Op) (a : Nat) : Nat := scrCore s o.gid a

/-- Read a word of a scratch source (R229): its value, and whether it is uncorrectable. -/
def readScr (s : State) (o : Op) (a n : Nat) : Nat × Bool :=
  let t := copyCore s o a
  (s.scrRead o.u.die t (a % 2 ^ 19) n, s.scrPoisoned o.u.die t (a % 2 ^ 19) n)

/-- May a word of a scratch source be read in this cycle of its core (R185, R229)? -/
def srcClear (s : State) (o : Op) (a : Nat) : Bool :=
  let t := copyCore s o a
  lineClear s o.u.die t (a % 2 ^ 19) (s.cyc o.u.die t)

/-- Is the bank of a word of scratch free for a copy in this cycle of its core (R183)? -/
def portFree (s : State) (o : Op) (a : Nat) : Bool :=
  let t := copyCore s o a
  s.atStart o.u.die t && bankFree s o.u.die t (a % 2 ^ 19 / 8) (s.cyc o.u.die t)

/-- A copy takes the bank of a word in this cycle (R183). -/
def State.usePort (s : State) (o : Op) (a : Nat) : State :=
  let t := copyCore s o a
  let key := bankKey o.u.die t (a % 2 ^ 19 / 8)
  let c := s.cyc o.u.die t
  { s with bankUse := (key, c) :: s.bankUse.filter fun b => !(b.1 / 32 = key / 32 && b.2 + 64 < c) }

/-- The first instant at or after `t` at which a cycle of a core begins. -/
def startFrom (s : State) (die core t : Nat) : Nat :=
  let c := cycleAt s die core t
  if instantOf s die core c = t then t else instantOf s die core (c + 1)

/-- Claims end up to the place that `f` gives (R231); one with nothing left makes room. -/
def State.passClaims (s : State) (f : Claim → Nat) : State :=
  { s with claims := (s.claims.map fun c => { c with passed := max c.passed (f c) }).filter fun c => c.passed < c.hi }

/-- The claims of a copy once its units below `n` are written: every line before the next unit's, or descriptor's, has been
written or passed (R231). -/
def State.claimsAfter (s : State) (o : Op) (r : CopyRec) (n : Nat) : State :=
  let next (rng : Nat) : Nat :=
    if r.shape.count ≤ n then 2 ^ 64
    else match (r.pieces n).reverse with
      | [] => 2 ^ 64
      | m :: d => if rng = 0 then m.2.1 else (match d with | x :: _ => x.2.1 | [] => 2 ^ 64)
  s.passClaims fun c =>
    if c.op ≠ o.id then 0
    else if c.va + (c.hi - c.lo) ≤ next c.rng then c.hi
    else c.lo + (next c.rng - c.va)

/-- The number under which a peer's copy enters this module's claim tables: its RID with the peer's die, core and unit (R368). -/
def peerClaim (m : Msg) : Nat := 2 ^ 64 + (((m.peer * 16 + m.sdie) * 256 + m.score) * 8 + m.sunit) * 4096 + m.rid

/-- Translate a lane of a request from a peer: the leaf must be homed on this module's HBM4 and permit the access (R378). -/
def peerLane (s : State) (die : Nat) (m : Msg) (a : Nat) : Nat × Option Xlat :=
  let need := match m.kind with | 1 => 0 | 3 => 2 | _ => 1
  if !(s.ctx m.ctx).state.holdsDie && (s.ctx m.ctx).state != .suspended then (3, none)
  else
    let w := walk s die m.ctx a
    match w.xl with
    | none => (w.cause, none)
    | some x =>
      if x.tgt ≠ 0 ∨ x.permits need = false then (6, none)
      else if (s.die (x.tid % 16)).st = 2 then (4, none)
      else (0, some { x with dirty := need != 0 })

/-- Does a request of a peer that arrived before a claim was entered, at cycle `t` of the home, wait here for the lines of
[a, a + n) (R232)? -/
def peerArrivedFirst (s : State) (id h a n t : Nat) : Bool :=
  s.agenda.any fun e => match e.due with
    | .ev .dynamicMessage g => (g.n.getD 1 0 == 2 || g.n.getD 1 0 == 3) && (match g.msg with
        | some m => 1 ≤ m.kind && m.kind ≤ 3 && peerClaim m ≠ id && cycleAt s h 0 (g.n.getD 2 0) + 1 < t &&
            m.addrs.any fun v => match (peerLane s (g.n.getD 0 0) m v).2 with
              | some x => x.home = h && a / 64 * 64 < x.place v + m.sz && x.place v < (a + n + 63) / 64 * 64
              | none => false
        | none => false)
    | _ => false

/-- Does an access that reached a home before the claim of copy `id` wait there on the line of [a, a + n), from this module or a peer?
The copy's write comes after it (R232). -/
def arrivedFirst (s : State) (id h a n : Nat) : Bool :=
  s.claims.any fun c => c.op = id && c.home = h && c.lo ≤ a && a < c.hi &&
    (peerArrivedFirst s id h a n c.stamp ||
      s.ops.any fun p => p.live && p.copy.isNone && p.lanes.any fun l => l.st == .atHome && l.home = h && l.arr < c.stamp &&
        match l.xl with | some x => a / 64 * 64 < x.place l.addr + p.size && x.place l.addr < (a + n + 63) / 64 * 64 | none => false)

/-- Write one piece at its home: bytes, or COPYR's read-modify-write with its flags (R229, R238). -/
def putPiece (s : State) (r : CopyRec) (x : Xlat) (va n v : Nat) (bad : Bool) : State × Nat :=
  let y : Nat × Nat := if r.red then copyrF r.rop r.ty (readPlace s x va n) v else (v, 0)
  let s := s.writePlace x va (leBytes n y.1)
  let s := if bad && x.tgt = 0 then s.poisonHbmRange (x.tid % 16) (x.place va) n else s
  let s := if x.tgt = 0 then s.updFrontier x.home else s
  (s, y.2)

/-- Write one piece of a scratch destination (R183, R229): the line's last-write cycle is not set. -/
def putScr (s : State) (o : Op) (a n v : Nat) (bad : Bool) : State :=
  let t := copyCore s o a
  let s := s.scrWrite o.u.die t (a % 2 ^ 19) v n
  (if bad then s.poisonScrRange o.u.die t (a % 2 ^ 19) n else s).usePort o a

/-! ### Claims and the start of streaming -/

/-- The claims of a copy's destination ranges on this module and in host memory (R231). -/
def claimsOf (s : State) (o : Op) (r : CopyRec) : List Claim :=
  (copyRanges r).flatMap fun g =>
    (pageParts (regionPage s o.u.die o.ctx g.2.1) g.2.1 g.2.2).filterMap fun b =>
      match (walk s o.u.die o.ctx b.1).xl with
      | some x => if x.tgt ≤ 1 then
          some { op := o.id, home := x.home, rng := g.1, va := b.1, lo := x.place b.1, hi := x.place b.1 + (b.2 - b.1), passed := 0
                 stamp := homeCycle s x.home + 1, seq := none } else none
      | none => none

/-- Is there room for a claim in its home's table of 256 entries, one for each range of a copy (R231)? -/
def claimRoom (s : State) (c : Claim) : Bool :=
  let used := (s.claims.filter fun k => k.home = c.home).map fun k => 2 * k.op + k.rng
  used.contains (2 * c.op + c.rng) || (distinct used).length < 256

/-- Enter a claim if there is room, unless it stands there. -/
def State.putClaim (s : State) (c : Claim) : State :=
  if (s.claims.any fun k => k.op = c.op && k.rng = c.rng && k.va = c.va) || !claimRoom s c then s
  else { s with claims := s.claims ++ [c] }

/-- Does the region table refuse a copy (R234)? -/
def regionRefuses (s : State) (o : Op) (r : CopyRec) : Bool :=
  (regionEntries s o r).any fun e =>
    if e.2.2.2.1 then !(r.red && r.seq.isSome)
    else
      let w := e.2.2.2.2
      !(w % 256 = o.u.core && w / 256 % 16 = o.u.die && w / 4096 % 4 = r.ch)

/-- A scheduled copy's fault: a record for its copy channel, and no further beat (R235, R353). -/
def State.schedCopyFault (s : State) (o : Op) (r : CopyRec) (cause : Nat) (word : Nat) : State :=
  let s := match layOf s o.u with
    | some l => s.schedFault l cause { o.u with lead := false, slot := r.ch } 0 [4 + 256 * r.ch, 0, word]
    | none => s
  s.modOp o.id fun o => { o with copy := o.copy.map fun r => { r with faulted := true } }

/-- The slot that a scheduled copy has taken: start and length (R235). -/
def slotOf (s : State) (o : Op) (r : CopyRec) : Option (Nat × Nat) :=
  match r.slotTick, layOf s o.u with
  | some a, some l =>
    let y := s.lay l
    (y.slots.find? fun e => e.die = o.u.die && e.kind = 5 && bits e.arg 8 8 = o.u.core && e.arg % 4 = r.ch &&
      y.period ≠ 0 && (a - y.baseTick) % y.period = e.off).map fun e => (a, e.len)
  | _, _ => none

/-- A dispatched scheduled copy: it must be in time for its slot and of its length; its beats follow (R235). -/
def State.startScheduled (s : State) (o : Op) (r : CopyRec) : State :=
  let s := s.modOp o.id fun o => { o with stage := .claimed }
  let t := localTime s o.u.die o.u.core s.now
  let beats := (r.shape.unit * r.shape.count + 63) / 64
  match slotOf s o r with
  | some (a, len) =>
    let s := if a ≤ t ∨ beats ≠ len then s.schedCopyFault o r 3 0
      else s.schedEv (instantOfLocal s o.u.die o.u.core a) (4 + r.ch) (ev .scheduledCopyBeat [o.id, 0])
    s.schedEv (instantOfLocal s o.u.die o.u.core (a + len)) 20 (ev .scheduledCopyEnd [o.id])
  | none => (s.schedCopyFault o r 3 0).schedEv s.now 20 (ev .scheduledCopyEnd [o.id])

/-- Does an earlier copy of the channel still wait to enter its claims? The channel waits with it (R231). -/
def channelWaits (s : State) (o : Op) (r : CopyRec) : Bool :=
  s.ops.any fun e => e.u.die = o.u.die && e.u.core = o.u.core && e.u.sh = o.u.sh && e.id != o.id && e.stage == .inflight &&
    (match e.copy with | some q => q.ch == r.ch && q.order < r.order | none => false)

/-- COPY_CLAIM: the operands of a dispatched copy are checked, its claims entered and the region table asked; a claim that finds
no room makes it and its channel wait (R231, R234, Table 11.2). -/
def execCopyClaim (s : State) : Host.Outcome State Fault Refusal :=
  match s.op? (s.num 0) with
  | none => .next s
  | some o =>
    match o.copy with
    | none => .next s
    | some r =>
      if o.stage != .inflight then .next s
      else
        let srcs := r.all.map fun p => (p.1, p.2.2)
        let dsts := r.all.map fun p => (p.2.1, p.2.2)
        let badSrc := r.srcScr && (2 ^ 32 ≤ r.src || !scrReach s o.gid srcs)
        let badDst := r.dstScr && (2 ^ 32 ≤ r.dst || !scrReach s o.gid dsts)
        if badSrc ∨ badDst then
          let d := if badSrc then [r.src, 0, 0] else [r.dst, 1, 0]
          .next ((s.asyncRecord o.ctx 13 8 o.u o.gid o.pc d).cancelCopy o 4 false)
        else if channelWaits s o r then .next (s.schedIn 1 20 (ev .copyClaim [o.id]))
        else if r.sched then .next (s.startScheduled o r)
        else if r.dstScr then
          .next ((s.modOp o.id fun o => { o with stage := .claimed }).schedFree 20 (ev .copyStreamStart [o.id]))
        else
          let cs := claimsOf s o r
          let s := cs.foldl State.putClaim s
          if cs.any fun c => !(s.claims.any fun k => k.op = c.op && k.rng = c.rng && k.va = c.va) then
            .next (s.schedIn 1 20 (ev .copyClaim [o.id]))
          else if regionRefuses s o r then .next (s.cancelCopy o 5 false)
          else
            let n := (peerClaims s o r).length
            let s := s.modOp o.id fun o => { o with stage := .claimed, args := [n, 0, 0] }
            .next (((s.sendClaims o r false).kick o.u).schedFree 20 (ev .copyStreamStart [o.id]))

/-- Is the slot of a scheduled copy over (R235)? -/
def slotOver (s : State) (o : Op) (r : CopyRec) : Bool :=
  r.sched && (match slotOf s o r with
    | some e => instantOfLocal s o.u.die o.u.core (e.1 + e.2) ≤ s.now
    | none => false)

/-- Has every earlier copy of the channel ended (Table 11.2)? A scheduled one ends with its slot (R235). -/
def channelClear (s : State) (o : Op) (r : CopyRec) : Bool :=
  !s.ops.any fun e => e.u.die = o.u.die && e.u.core = o.u.core && e.u.sh = o.u.sh && e.id != o.id && e.live &&
    (e.stage == .inflight || e.stage == .claimed || e.stage == .streaming || e.stage == .delivered) &&
    (match e.copy with | some q => q.ch == r.ch && q.order < r.order && !slotOver s e q | none => false)

/-- COPY_STREAM_START: a claimed copy streams once every earlier one of its channel has ended and every peer has taken its claim
(R224, R234, R236; log 118). -/
def execCopyStreamStart (s : State) : Host.Outcome State Fault Refusal :=
  match s.op? (s.num 0) with
  | none => .next s
  | some o =>
    match o.copy with
    | none => .next s
    | some r =>
      if o.stage != .claimed then .next s
      else if !channelClear s o r || o.args.getD 0 0 ≠ 0 then .next (s.schedIn 1 20 (ev .copyStreamStart [o.id]))
      else
        let s := s.modOp o.id fun o => { o with stage := .streaming }
        .next (if r.seq.isSome && (regionEntries s o r).any fun e => e.2.2.2.1
          then s.schedFree 20 (ev .sequencedCopyrApply [o.id]) else s.schedFree (4 + r.ch) (ev .copyUnitDeliver [o.id]))

/-- SEQUENCED_COPYR_APPLY: a sequenced COPYR to a SEQ region is applied once the region's counter equals its number
(R234). -/
def execSequencedCopyrApply (s : State) : Host.Outcome State Fault Refusal :=
  match s.op? (s.num 0) with
  | none => .next s
  | some o =>
    match o.copy with
    | none => .next s
    | some r =>
      if o.stage != .streaming then .next s
      else
        let ok := (regionEntries s o r).all fun e =>
          !e.2.2.2.1 || some (Tab.get (0 : Nat) (s.ctx o.ctx).rgtseq e.1) == r.seq
        .next (if ok then s.schedFree (4 + r.ch) (ev .copyUnitDeliver [o.id])
          else s.schedIn 1 20 (ev .sequencedCopyrApply [o.id]))

/-! ### Delivery -/

/-- The lanes in which a unit moves, one for each of its words: source, destination and progress. -/
def unitLanes (r : CopyRec) : List LaneReq :=
  (r.words r.units).zipIdx.map fun w => laneReq w.2 w.1.1 w.1.2.1 w.1.2.2

/-- What a pass over the words of a unit has come to. -/
inductive Unit8 where
  | ok | wait | stop
  deriving DecidableEq, Repr

/-- Read one word of a unit if it can be read now (R185, R213, R229): a lane holds its source address, its destination address as
`data` and its bytes as `cmp`. -/
def readWord (o : Op) (r : CopyRec) (x : State × Unit8) (l : LaneReq) : State × Unit8 :=
  let s := x.1
  let got (s : State) (v : Nat) (bad : Bool) : State × Unit8 :=
    (s.modLane o.id l.lane fun k => { k with st := .answered, res := v, poison := bad }, x.2)
  if x.2 = .stop ∨ l.st != .idle then x
  else match r.value with
  | some v => got s v false
  | none =>
    if r.srcScr then
      if srcClear s o l.addr && portFree s o l.addr then
        let y := readScr s o l.addr l.cmp
        got (s.usePort o l.addr) y.1 y.2
      else (s, .wait)
    else
      let t := copyXlat s o r l.addr 0
      match t.2.1 with
      | none => (t.2.2.copyFault o t.1 l.addr false, .stop)
      | some y =>
        if y.tgt = 2 then
          let k := { l with peer := y.tid, xl := some y, st := .sent }
          let m : Msg := { (peerMsg o y.tid [k]) with kind := 1, lmask := 1, sz := l.cmp }
          ((t.2.2.modLane o.id l.lane fun _ => k).sendMsg o.u.die m, x.2)
        else if linkHolds t.2.2 o.u.die y.home || chanPaused t.2.2 y.home (y.place l.addr) l.cmp || (y.tgt = 0 && !covered (t.2.2.updFrontier y.home) y.home o.clock)
        then (t.2.2, .wait)
        else got t.2.2 (readPlace t.2.2 y l.addr l.cmp) (placePoisoned t.2.2 y l.addr l.cmp)

/-- The fault of the first word of a unit that cannot be written, before any of it is: a copy stops at a unit boundary. -/
def unitFault (o : Op) (r : CopyRec) (x : State × Unit8) (l : LaneReq) : State × Unit8 :=
  if x.2 = .stop ∨ r.dstScr = true then x
  else
    let t := copyXlat x.1 o r l.data (if r.red then 2 else 1)
    match t.2.1 with
    | none => (t.2.2.copyFault o t.1 l.data true, .stop)
    | some _ => (t.2.2, x.2)

/-- Write one word of a unit if it can be written now; the flags of the copy are kept as its third argument (R183, R213, R227,
R229, R232). One that waits for its home's frontier stands at the home (R212). -/
def writeWord (o : Op) (r : CopyRec) (x : State × Unit8) (l : LaneReq) : State × Unit8 :=
  let s := x.1
  let fin (s : State) : State × Unit8 := (s.modLane o.id l.lane fun k => { k with st := .applied }, x.2)
  if l.st != .answered && l.st != .atHome then x
  else if r.dstScr then
    if l.lane ≠ 0 ∧ r.shape.esz = 4 ∧ x.2 = .wait then x
    else if portFree s o l.data then fin (putScr s o l.data l.cmp l.res l.poison) else (s, .wait)
  else
    let t := copyXlat s o r l.data (if r.red then 2 else 1)
    match t.2.1 with
    | none => (t.2.2, .wait)
    | some y =>
      if y.tgt = 2 then
        let m : Msg := { (peerMsg o y.tid []) with
          kind := if r.red then 3 else 2, lmask := 1, addrs := [peerAddr y l.data], data := [l.res], sz := l.cmp, ty := r.ty,
          rop := r.rop, seq := r.seq }
        let s : State := { t.2.2 with peerFaults := t.2.2.peerFaults ++ [(16 + o.u.die, m)] }
        fin ((s.sendMsg o.u.die m).modOp o.id fun o =>
          { o with args := [o.args.getD 0 0, o.args.getD 1 0 + 1, o.args.getD 2 0] })
      else if linkHolds t.2.2 o.u.die y.home || chanPaused t.2.2 y.home (y.place l.data) l.cmp || arrivedFirst t.2.2 o.id y.home (y.place l.data) l.cmp then (t.2.2, .wait)
      else if y.tgt = 0 && !covered (t.2.2.updFrontier y.home) y.home o.clock then
        (t.2.2.modLane o.id l.lane fun k => { k with st := .atHome, xl := some y }, .wait)
      else
        let z := putPiece t.2.2 r y l.data l.cmp l.res l.poison
        fin (z.1.modOp o.id fun o => { o with args := [o.args.getD 0 0, o.args.getD 1 0, flOr (o.args.getD 2 0) z.2] })

/-- When words of scratch at addresses `as`, or of global memory, are tried again: at the next cycle that begins on a core of one of
them, or at the next tick (R183). -/
def retryAt (s : State) (o : Op) (scr : Bool) (as : List Nat) : Nat :=
  let next := if scr then as.map fun a => s.nextStart o.u.die (copyCore s o a) else []
  next.foldl min (next.headD (s.now + Config.unitsPerTick))

/-- Is a unit under way: a word of it written, and not all? A copy stops at a unit boundary (Table 11.2). -/
def midUnit (o : Op) : Bool := o.lanes.any (fun l => l.st == .applied) && o.lanes.any fun l => l.st != .applied

/-- A unit is delivered: it counts, its claims end, and the next one follows (R229-R231). -/
def State.unitDone (s : State) (o : Op) (r : CopyRec) : State :=
  let s := s.modOp o.id fun o =>
    { o with copy := o.copy.map (fun r => { r with units := r.units + 1, bytes := r.bytes + r.shape.unit }), lanes := [] }
  let s := if r.dstScr then s.addWptr o.u r.ch r.shape.unit else s.claimsAfter o r (r.units + 1)
  s.schedFree (4 + r.ch) (ev .copyUnitDeliver [o.id])

/-- COPY_UNIT_DELIVER: the words of the next unit are read, and then written, as their banks and homes serve them; after the
last unit the copy is delivered (R183, R229, R230, R236). -/
def execCopyUnitDeliver (s : State) : Host.Outcome State Fault Refusal :=
  match s.op? (s.num 0) with
  | none => .next s
  | some o =>
    match o.copy with
    | none => .next s
    | some r =>
      let again := ev .copyUnitDeliver [o.id]
      if o.stage != .streaming || r.paused || (r.stopping && !midUnit o) then .next s
      else if frozenUnit s o.u && !midUnit o then .next (s.schedIn 1 (4 + r.ch) again)
      else if r.shape.count ≤ r.units then
        .next (((s.advanceSeq o r).modOp o.id fun o => { o with stage := .delivered }).schedFree 20 (ev .copyAck [o.id]))
      else
        let ls := if o.lanes.isEmpty then unitLanes r else o.lanes
        let x := ls.foldl (readWord o r) (s.modOp o.id fun o => { o with lanes := ls }, .ok)
        let now (s : State) : List LaneReq := match s.op? o.id with | some o => o.lanes | none => []
        if x.2 = .stop then .next x.1
        else if (now x.1).any fun l => l.st == .idle then
          .next (x.1.schedEv (retryAt x.1 o r.srcScr (((now x.1).filter fun l => l.st == .idle).map (·.addr))) (4 + r.ch) again)
        else if (now x.1).any fun l => l.st == .sent || l.st == .parked then .next x.1
        else
          let y := if ls.any fun l => l.st == .applied || l.st == .atHome then (x.1, Unit8.ok) else (now x.1).foldl (unitFault o r) (x.1, .ok)
          if y.2 = .stop then .next y.1
          else
            let z := (now y.1).foldl (writeWord o r) y
            .next (if z.2 = .ok then z.1.unitDone o r
              else z.1.schedEv (retryAt z.1 o r.dstScr (((now z.1).filter fun l => l.st != .applied).map (·.data))) (4 + r.ch) again)

/-- COPY_ACK: every write is acknowledged: a global destination counts its bytes, the counter falls, the barrier receives
its arrival, flags are raised (R230, R236, R238). Writes to a peer are waited for. -/
def execCopyAck (s : State) : Host.Outcome State Fault Refusal :=
  match s.op? (s.num 0) with
  | none => .next s
  | some o =>
    match o.copy with
    | none => .next s
    | some r =>
      if o.stage != .delivered then .next s
      else if o.args.getD 1 0 ≠ 0 then .next (s.schedIn 1 20 (ev .copyAck [o.id]))
      else
        let s := if r.dstScr then s else s.addWptr o.u r.ch (r.shape.unit * r.shape.count)
        .next (s.finishCopy o (s.ucyc o.u + 1))

/-- COPY_CANCEL: a CPYCAN cancels, in dispatch order, every command of its channel dispatched before it, one that is amid a unit at the
unit's end, and completes with the last; for a command of a killed team it stops that command, with no arrival (R240,
Table 11.2). -/
def execCopyCancel (s : State) : Host.Outcome State Fault Refusal :=
  match s.op? (s.num 0) with
  | none => .next s
  | some o =>
    if !o.live then .next s
    else if o.kind = .cpycan then
      let at' (e : Op) : Nat := match e.copy with | some q => q.order | none => 0
      let es := sortBy (fun a b => at' a ≤ at' b) (s.ops.filter fun e =>
        e.u.die = o.u.die && e.u.core = o.u.core && e.u.sh = o.u.sh && e.live &&
        (e.stage == .inflight || e.stage == .claimed || e.stage == .streaming || e.stage == .delivered) &&
        (match e.copy with | some q => q.ch == o.fn && q.order < o.args.getD 0 0 | none => false))
      let s := es.foldl (fun s e => match s.op? e.id with
        | some e => if midUnit e then s.modOp e.id fun e => { e with copy := e.copy.map fun q => { q with stopping := true } }
            else s.cancelCopy e 0 true
        | none => s) s
      .next (if es.any midUnit then s.schedIn 1 20 (ev .copyCancel [o.id]) else (s.complete o.id).kick o.u)
    else .next (s.cancelCopy o 0 false)

/-! ### Scheduled copies (R235) -/

/-- Is the lay of an operation serving its slots: running, and not suppressed after a fault (R355)? -/
def layServes (s : State) (u : UnitId) : Bool :=
  match layOf s u with | some l => (s.lay l).state == .running || (s.lay l).lingers | none => false

/-- The cause with which a translation fault ends a scheduled copy (R235): 4 with its translation word, or 5 for a consumed error. -/
def beatCause (f : Nat × Nat × Nat) (write : Nat) : Nat := if f.1 = walkPoison then 5 else 4 + 16 * (32 * write + 8 * f.2.1 + f.1)

/-- Read a word of a scheduled beat: a line that R185 would not serve yet, or a rolled one, is cause 3 and a fault cause 4; which
bank is busy does not matter (R235; log 119). A cause carries the translation word above its low 4 bits; 5 is a walk that read an
uncorrectable entry, consumed already (R392). -/
def beatRead (s : State) (o : Op) (r : CopyRec) (a n : Nat) : (Nat × Nat × Bool) × State :=
  match r.value with
  | some v => ((0, v, false), s)
  | none =>
    if r.srcScr then
      if srcClear s o a then ((0, readScr s o a n), s.usePort o a) else ((3, 0, false), s)
    else
      let t := copyXlat s o r a 0
      match t.2.1 with
      | none => ((beatCause t.1 0, 0, false), t.2.2)
      | some x =>
        if x.tgt = 2 then ((4 + 16 * 6, 0, false), t.2.2)
        else ((0, readPlace t.2.2 x a n, placePoisoned t.2.2 x a n), t.2.2)

/-- A word of a beat to scratch is written at once if a cycle of its core begins now, else at the first that does, and no earlier than
the descriptor of its span (R182, R183, R227). The event carries the address and the bytes, and in `key` whether they are bad, in
`opk` whether they count on the channel's write pointer. -/
def State.beatScr (s : State) (o : Op) (r : CopyRec) (n : Nat) (p : Nat × Nat × Nat) (v : Nat) (bad : Bool) : State :=
  let at' := startFrom s o.u.die (copyCore s o p.2.1) s.now
  let at' := match r.pieces n with
    | d :: _ :: _ => max at' (startFrom s o.u.die (copyCore s o p.2.1) (startFrom s o.u.die (copyCore s o d.2.1) s.now))
    | _ => at'
  let data := !(r.pieces n).any fun d => r.shape.esz = 4 && d.2.2 = 4 && d.2.1 = p.2.1
  if at' ≤ s.now then
    let s := putScr s o p.2.1 p.2.2 v bad
    if data then s.addWptr o.u r.ch p.2.2 else s
  else
    s.sched at' (4 + r.ch) (.ev .scheduledCopyBeat { Arg.none with
      n := [o.id, 0, 1]
      frame := some { lay := 0, ddie := 0, dline := p.2.1, key := if bad then 1 else 0, opk := if data then 1 else 0, rty := 0,
                      payload := leBytes p.2.2 v } })

/-- Move one word of unit `q.1` in a scheduled beat; a destination on another die or module joins its gateway (R365). The die at a
peer is not known here: it is a free value of the page, so that contiguity holds within it. -/
def beatPiece (o : Op) (r : CopyRec) (x : State × Nat × Nat) (q : Nat × Nat × Nat × Nat) : State × Nat × Nat :=
  let p := q.2
  if x.2.1 ≠ 0 then x
  else
    let n := p.2.2
    let g := beatRead x.1 o r p.1 n
    let s := g.2
    let v := g.1.2.1
    if g.1.1 ≠ 0 then (s, g.1.1, x.2.2)
    else if r.dstScr then (s.beatScr o r q.1 p v g.1.2.2, 0, x.2.2)
    else
      let t := copyXlat s o r p.2.1 (if r.red then 2 else 1)
      match t.2.1 with
      | none => (t.2.2, beatCause t.1 1, x.2.2)
      | some y =>
        if y.tgt = 0 && y.home = o.u.die then
          let z := putPiece t.2.2 r y p.2.1 n v g.1.2.2
          (z.1, 0, flOr x.2.2 z.2)
        else if y.tgt = 1 then (t.2.2, 4 + 16 * (32 + 6), x.2.2)
        else
          let a := if y.tgt = 0 then y.place p.2.1 else peerAddr y p.2.1 % 2 ^ 36
          let b : Beat :=
            { die := o.u.die, lnk := if y.tgt = 0 then y.home else 16 + y.tid, op := o.id,
              lay := (layOf s o.u).getD 0
              ddie := if y.tgt = 0 then y.home else Config.freeNat (2 ^ 100 + 2 ^ 64 * y.tid + peerAddr y p.2.1 / 4096) % 16
              dline := a, key := if y.tgt = 0 then y.key else 0, opk := if r.red then r.rop + 1 else 0
              rty := if r.red then (match r.ty with | 9 => 1 | 10 => 2 | 2 => 3 | _ => 0) else 0, bytes := leBytes n v }
          let s := t.2.2
          ({ s with gates := s.gates ++ [b] }, 0, x.2.2)

/-- A delayed word of a beat reaches its core (R183, R235). -/
def State.lateBeat (s : State) (o : Op) (r : CopyRec) (f : Frame) : State :=
  let n := f.payload.length
  let s := putScr s o f.dline n (ofLeBytes f.payload) (f.key = 1)
  if f.opk = 1 then s.addWptr o.u r.ch n else s

/-- SCHEDULED_COPY_BEAT: one beat of 64 bytes moves at its tick, at the first cycle of its scratch that begins then or after it; a
fault ends the movement (R235; log 119). A beat of a suppressed transfer moves nothing (R355). The first beat needs its channel
(R224, R236): with an earlier copy in it the slot is missed, cause 3 (log 120). -/
def execScheduledCopyBeat (s : State) : Host.Outcome State Fault Refusal :=
  match s.op? (s.num 0) with
  | none => .next s
  | some o =>
    match o.copy with
    | none => .next s
    | some r =>
      if s.num 2 = 1 then .next (match s.arg.frame with | some f => if o.live then s.lateBeat o r f else s | none => s)
      else
      let i := s.num 1
      let scr := if r.srcScr then some (copyCore s o r.src) else if r.dstScr then some (copyCore s o r.dst) else none
      let late := match scr with | some t => if s.atStart o.u.die t then none else some (s.nextStart o.u.die t) | none => none
      if !(o.stage == .streaming || (o.stage == .claimed && i = 0)) || r.faulted || !layServes s o.u then .next s
      else if o.stage == .claimed && !channelClear s o r then .next (s.schedCopyFault o r 3 0)
      else match late with
      | some t => .next (s.schedEv t (4 + r.ch) (ev .scheduledCopyBeat [o.id, i]))
      | none =>
        let per := 64 / r.shape.unit
        let us := (List.range per).filterMap fun j => if i * per + j < r.shape.count then some (i * per + j) else none
        let s := s.modOp o.id fun o => { o with stage := .streaming }
        let y := (us.flatMap fun n => (r.words n).map fun p => (n, p)).foldl (beatPiece o r) (s, 0, 0)
        if y.2.1 = 5 then .next (y.1.modOp o.id fun o => { o with copy := o.copy.map fun r => { r with faulted := true } })
        else if y.2.1 ≠ 0 then .next (s.schedCopyFault o r (y.2.1 % 16) (y.2.1 / 16))
        else
          let n := us.length * r.shape.unit
          let s := y.1.modOp o.id fun o =>
            { o with
              copy := o.copy.map fun r => { r with units := r.units + us.length, bytes := r.bytes + n }
              args := [0, 0, flOr (o.args.getD 2 0) y.2.2] }
          .next (match r.slotTick with
            | some a => if (i + 1) * per < r.shape.count then
                s.schedEv (instantOfLocal s o.u.die o.u.core (a + i + 1)) (4 + r.ch) (ev .scheduledCopyBeat [o.id, i + 1]) else s
            | none => s)

/-- SCHEDULED_COPY_END: the copy ends at the end of its slot, moved or not, and not before its last word is performed (R235, R355). -/
def execScheduledCopyEnd (s : State) : Host.Outcome State Fault Refusal :=
  match s.op? (s.num 0) with
  | none => .next s
  | some o =>
    match o.copy with
    | none => .next s
    | some r =>
      let late := s.agenda.filterMap fun e => match e.due with
        | .ev .scheduledCopyBeat a => if a.n.getD 0 0 = o.id ∧ a.n.getD 2 0 = 1 then some e.at' else none
        | _ => none
      if !o.live then .next s
      else if !late.isEmpty then .next (s.schedEv (late.foldl max s.now) 20 (ev .scheduledCopyEnd [o.id]))
      else
        let s := if r.dstScr || r.faulted then s else s.addWptr o.u r.ch r.bytes
        .next (s.finishCopy o (s.ucyc o.u))

end Sys2Proof.Machine
end

