-- ==== Sys2Proof/Machine/Team.lean ====
section
/-! DEFINITION. Groups and teams: placement (R147-R149), start (R150, R337, R338), retirement (R152-R154), relaunch (R342),
the dual-run twin (R389), and the claim of a suspended context's storage (R316). -/

namespace Sys2Proof.Machine

/-! ### Shapes of a launch -/

/-- Groups of a grid. -/
def Lpb.groups (l : Lpb) : Nat := l.nx * l.ny * l.nz
/-- Teams of a grid (R146). -/
def Lpb.teams (l : Lpb) : Nat := (l.groups + l.tsize) / (l.tsize + 1)
/-- Lanes of a warp a program sees. -/
def Lpb.perWarp (l : Lpb) : Nat := if l.prot then 16 else 32
/-- Warps of a group (Table 17.1). -/
def Lpb.warps (l : Lpb) : Nat := (l.lanes + l.perWarp) / l.perWarp
/-- Bytes of scratch of a group. -/
def Lpb.scr (l : Lpb) : Nat := l.scrkb * 1024
/-- Linear indices of the groups of a team (R146). -/
def Lpb.members (l : Lpb) (t : Nat) : List Nat :=
  ((List.range (l.tsize + 1)).map fun j => t * (l.tsize + 1) + j).filter fun g => g < l.groups

/-! ### What a core holds -/

/-- Is the image of a context in the shadow store? After an urgent freeze it is; a graceful suspension saves nothing, and
its placed groups stay where they are (R161, R315, R316). -/
def swappedOut (s : State) (ctx : Nat) : Bool := (s.ctx ctx).state == .suspended && (s.ctx ctx).image

/-- Does a group hold storage of its core: anything placed and not gone, but nothing of a context in the shadow store, whose
storage a new placement claims (R154, R161, R316)? -/
def holdsStore (s : State) (g : Group) : Bool :=
  g.state != .pending && g.state != .discarded && !swappedOut s g.ctx

/-- Scratch allocations of a core. -/
def coreUsed (s : State) (die core : Nat) : List (Nat × Nat) :=
  (s.groups.filter fun g => g.die = die && g.core = core && 0 < g.ssize && holdsStore s g).map fun g =>
    (g.sbase, g.sbase + g.ssize)

/-- Groups that hold or will take warp slots of a core. -/
def slotHolders (s : State) (die core : Nat) : List Group :=
  s.groups.filter fun g => g.die = die && g.core = core && g.state != .retired && holdsStore s g

/-- Warp slots of a core that are held. -/
def coreSlots (s : State) (die core : Nat) : List Nat := (slotHolders s die core).flatMap fun g => g.slots

/-- Warps of a group. -/
def warpsOf (s : State) (g : Group) : Nat := match s.kernelOf g with | some k => k.lpb.warps | none => 0

/-- Number of free warp slots of a core, those reserved for placed groups taken off. -/
def coreFree (s : State) (die core : Nat) : Nat :=
  4 - ((slotHolders s die core).map fun g => if g.slots.isEmpty then warpsOf s g else g.slots.length).foldl (· + ·) 0

/-- The free warp slots of a set of cores, lowest first. -/
def freeSlots (s : State) (die : Nat) (cores : List Nat) : List Nat :=
  (List.range 4).filter fun w => cores.all fun c => !(coreSlots s die c).contains w

/-- Does [b, b + n) avoid every allocation? -/
def fitsAt (used : List (Nat × Nat)) (n b : Nat) : Bool :=
  b + n ≤ Config.scratchBytes && used.all fun u => b + n ≤ u.1 || u.2 ≤ b

/-- Allocate `n` ranges of `size` bytes at the lowest bases that fit. -/
def firstFit (used : List (Nat × Nat)) (size : Nat) : Nat → Option (List Nat)
  | 0 => some []
  | n + 1 =>
    match (List.range 513).find? fun i => fitsAt used size (1024 * i) with
    | none => none
    | some i => (firstFit ((1024 * i, 1024 * i + size) :: used) size n).map (1024 * i :: ·)

/-- Bases of `n` allocations of a core (R175): they follow one another from a base that the spec leaves open (log 5), or
go where they fit when no such run is free. -/
def pickBases (free : Nat) (used : List (Nat × Nat)) (size n : Nat) : Option (List Nat) :=
  let cs := (List.range 513).filter fun i => fitsAt used (n * size) (1024 * i)
  match cs[if cs.length ≤ 1 then 0 else Config.freeNat free % cs.length]? with
  | some i => some ((List.range n).map fun j => 1024 * i + j * size)
  | none => firstFit used size n

/-! ### Placement (R148) -/

/-- The cores that host a member placed on core `c`: its own and, for a dual-run kernel, its twin's (R389). -/
def hostsOf (l : Lpb) (c : Nat) : List Nat := if l.dual then [c, c ^^^ 32] else [c]

/-- The core under which the members of a core, or of a pair of cores, are gathered. -/
def hostKey (l : Lpb) (c : Nat) : Nat := if l.dual then min c (c ^^^ 32) else c

/-- A planned member: linear index, core, scratch base, warp slots (none: taken at the start, R150). -/
abbrev Planned := Nat × Nat × Nat × List Nat

/-- Take `w` slots for each member in turn. -/
def dealSlots (w : Nat) : List Nat → Nat → List (List Nat)
  | _, 0 => []
  | fs, n + 1 => fs.take w :: dealSlots w (fs.drop w) n

/-- Plan the members of one core or pair: `kk` members must fit on each core of the range (R148). -/
def planCore (s : State) (die : Nat) (l : Lpb) (kk key : Nat) (ms : List (Nat × Nat)) (cores : Nat) :
    Option (List Planned) :=
  let hosts := hostsOf l key
  let used := hosts.flatMap fun c => coreUsed s die c
  let fs := freeSlots s die hosts
  let need := max (kk * cores) ms.length
  if hosts.any (fun c => coreFree s die c < need * l.warps) || (l.dual && fs.length < need * l.warps) then none
  else if l.scr ≠ 0 && (firstFit used l.scr need).isNone then none
  else
    (pickBases s.freeCtr used l.scr ms.length).map fun bs =>
      let sl := if l.dual then dealSlots l.warps fs ms.length else ms.map fun _ => []
      (ms.zip (bs.zip sl)).map fun x => (x.1.1, x.1.2, x.2.1, x.2.2)

/-- Plan a team on given cores: `core` gives the core of a linear index, `kk` the members per core. -/
def planOn (s : State) (die : Nat) (l : Lpb) (kk : Nat) (gs : List (Nat × Nat)) : Option (List Planned) :=
  let keys := (gs.map fun x => hostKey l x.2).foldl (fun a k => if a.contains k then a else a ++ [k]) []
  keys.foldl (fun acc key =>
    match acc with
    | none => none
    | some ps =>
      let ms := gs.filter fun x => hostKey l x.2 = key
      let cores := (ms.map (·.2)).eraseDups.length
      (planCore s die l kk key ms cores).map (ps ++ ·)) (some [])

/-- Does the team fit now, and where (R148, R149)? Groups placed and not yet started count against the residency limit, so
that they keep within it when they run (log 104). In deterministic mode a core needs the free slots of the members placed on
it. DESIGN CHOICE: R148 speaks of k groups per core, and a deterministic team has one on each core of its set (log 105). -/
def planTeam (s : State) (die : Nat) (l : Lpb) (idx : Nat) : Option (List Planned) :=
  let gs := l.members idx
  let n := gs.length * (if l.dual then 2 else 1)
  let resident := (s.groups.filter fun g => g.die = die &&
    (g.state == .placed || g.state == .running || g.state == .faulted || g.state == .frozen || g.state == .draining)).length
  if (s.die die).limit < resident + n then none
  else if l.det then planOn s die l 1 (gs.map fun g => (g, l.csetbase + g % l.csetn))
  else
    let kk := min (4 / l.warps) (min (l.kmax + 1) (if l.scr = 0 then 4 else Config.scratchBytes / l.scr))
    if kk = 0 then none
    else
      let m := (gs.length + kk - 1) / kk
      (List.range (257 - m)).findSome? fun c0 =>
        planOn s die l kk (gs.mapIdx fun j g => (g, c0 + j / kk))

/-! ### The storage of a suspended context (R316) -/

/-- Where the model keeps the scratch bytes of a claimed core. -/
def shadowScr (a : Nat) : Nat := 2 ^ 48 + a

/-- The bytes of the suspended context's allocations on a core. -/
def suspendedBytes (s : State) (die core : Nat) : List (Nat × Nat) :=
  (s.groups.filter fun g => g.die = die && g.core = core && 0 < g.ssize && g.state != .pending && g.state != .discarded &&
    swappedOut s g.ctx).flatMap fun g => (List.range g.ssize).map fun i => (g.ctx, g.sbase + i)

/-- The line records and marks of the suspended context's allocations on a core move from one offset to another: to the place of the model's
copy and back. -/
def State.moveScrMarks (s : State) (die core off dest : Nat) : State :=
  let gs := s.groups.filter fun g => g.die = die && g.core = core && g.state != .pending && g.state != .discarded &&
    swappedOut s g.ctx
  let lo (g : Group) : Nat := scrAddr die core g.sbase
  { s with
    lines := gs.foldl (fun t g => t.moveRange ((lo g + off) / 64) (g.ssize / 64) ((lo g + dest) / 64)) s.lines
    poison := s.poison.map fun p =>
      if gs.any fun g => scrWithin (lo g + off) g.ssize (markWord p) then p + dest / 4 - off / 4 else p }

/-- Write a byte of the save area of a context: the layout from SAVEBASE is the model's (log 20); its walks set the companion bits as any do
(R291). -/
def State.saveByte (s : State) (die ctx off : Nat) (b : Byte) : State :=
  let va := (s.ctx ctx).savebase + off
  let w := walk s die ctx va
  match w.xl with
  | some x => if x.tgt = 2 then s else (s.setCompanion ctx die true w).writePlace x va [b]
  | none => s

/-- Place of a core's scratch in the save area, and of the barriers and counters of the group of a lowest slot: the scratch of
every core of the module comes first (log 20). -/
def saveScr (die core : Nat) : Nat := (die * 256 + core) * Config.scratchBytes
/-- See `saveScr`. -/
def saveBars (die core slot : Nat) : Nat := 4096 * Config.scratchBytes + ((die * 256 + core) * 4 + slot) * 256

/-- The barriers and counters of a suspended group go to the save area: 16 status words, then 16 counter words (R316). They also
stay in the group, where operations that are still to complete go on changing them. -/
def State.saveGroup (s : State) (g : Group) : State :=
  let c := s.cyc g.die g.core + 1
  let ws := (List.range 16).map (fun b => (bValue g b c).word c) ++ (List.range 16).map fun k => (kValue g k c).word
  (ws.flatMap (leBytes 8)).zipIdx.foldl (fun s x => s.saveByte g.die g.ctx (saveBars g.die g.core (g.slots.headD 0) + x.2) x.1) s

/-- Claim a core: the suspended context's scratch, barriers and counters on it go to the save area (R316). -/
def State.claimCore (s : State) (die core : Nat) : State :=
  match (s.die die).shadow with
  | none => s
  | some _ =>
    if (s.die die).claimed.contains core then s
    else
      let s := (suspendedBytes s die core).foldl (fun s x =>
        let a := scrAddr die core x.2
        let b := s.scratch.read a
        let s : State := { s with scratch := (s.scratch.write (shadowScr a) b).write a 0 }
        s.saveByte die x.1 (saveScr die core + x.2) b) s
      let s := (s.groups.filter fun g => g.die = die && g.core = core && g.state == .frozen).foldl State.saveGroup
        (s.moveScrMarks die core 0 (shadowScr 0))
      s.modDie die fun d => { d with claimed := core :: d.claimed }

/-- Read the claimed cores back at a resume (R317): from the save area, or where it is not mapped from the model's copy. -/
def State.readBack (s : State) (die : Nat) : State :=
  let s := (s.die die).claimed.foldl (fun s core =>
    let bs := suspendedBytes s die core
    bs.foldl (fun s x =>
      let a := scrAddr die core x.2
      let va := (s.ctx x.1).savebase + saveScr die core + x.2
      let w := walk s die x.1 va
      let b : Byte := match w.xl with
        | some y => if y.tgt = 2 then s.scratch.read (shadowScr a) else BitVec.ofNat 8 (readPlace s y va 1)
        | none => s.scratch.read (shadowScr a)
      let s := s.setCompanion x.1 die false w
      { s with scratch := (s.scratch.write (shadowScr a) 0).write a b }) (s.moveScrMarks die core (shadowScr 0) 0)) s
  s.modDie die fun d => { d with claimed := [] }

/-! ### Starting -/

/-- The first phase-0 cycle that begins after now on every core of a list (R150). -/
def phaseAfter (s : State) (die : Nat) (cores : List Nat) : Nat :=
  ((cores.map fun c => s.cyc die c).foldl max 0 / 64 + 1) * 64

/-- The first phase-0 cycle of a die whose local TIME is at or after `t` (R338). -/
def phaseAt (s : State) (die t : Nat) : Nat :=
  ((s.die die).cycleFrom ((t - s.timeAdj) * Config.unitsPerTick) + 63) / 64 * 64

/-- The restart tick of the lay of a scheduled kernel. -/
def restartTick (s : State) (k : Kernel) : Nat := (s.lay (k.lay.getD 0)).rst

/-- The tick a team's start waits for: START, the restart tick for a relaunched scheduled team, or none (R338, R342). -/
def startTick (s : State) (k : Kernel) (relaunched : Bool) : Option Nat :=
  if relaunched then (if k.lpb.sched then some (restartTick s k) else none)
  else if k.lpb.startat then some k.lpb.start else none

/-- Set the common start cycle of a team's members and schedule their starts, lowest index first (R150). -/
def State.startTeam (s : State) (tid : Nat) : State :=
  match s.team? tid with
  | none => s
  | some t =>
    match s.kernel? t.kid with
    | none => s
    | some k =>
      let gs := (t.members ++ t.twins).filterMap s.group?
      let c := max (phaseAfter s t.die (gs.map (·.core)))
        (match startTick s k (0 < t.relaunches) with | some x => phaseAt s t.die x | none => 0)
      gs.foldl (fun s g =>
        (s.modGroup g.gid fun g => { g with start := c }).schedCyc g.die g.core c 0 (ev .groupStart [g.gid])) s

/-- A placed group. -/
def newGroup (k : Kernel) (tid gid die idx : Nat) (core base : Nat) (slots : List Nat) (twin : Option Nat) : Group :=
  { gid := gid, kid := k.kid, ctx := k.ctx, tid := tid, tmbr := idx % (k.lpb.tsize + 1), g := idx, die := die, core := core,
    slots := slots, sbase := base, ssize := k.lpb.scr, lanes := k.lpb.lanes + 1, prot := k.lpb.prot, state := .placed,
    before := .placed, start := 0, lastPass := 0, kLog := [], bLog := [], trig := 0, twinOf := twin }

/-- Place one group on a core: its allocation reads as zeros (R175). -/
def State.putGroup (s : State) (g : Group) : State :=
  let s := s.claimCore g.die g.core
  let lo := scrAddr g.die g.core g.sbase
  let free := fun p : Nat => scrWithin lo g.ssize (markWord p)
  { s with scratch := s.scratch.clear lo (lo + g.ssize), lines := s.lines.delRange (lo / 64) ((lo + g.ssize) / 64),
           poison := s.poison.filter fun p => !free p, groups := s.groups ++ [g] }

/-- A team record. -/
def newTeam (tid : Nat) (k : Kernel) (idx die : Nat) : Team :=
  { tid := tid, kid := k.kid, idx := idx, die := die, state := .forming, members := [], twins := [],
    tb := List.replicate 4 { bits := [], phases := 0, err := 0, reinit := [] }, relaunches := 0, committed := false,
    killAt := 0 }

/-- Carry out a plan for a team: its groups are placed and their common start is set (R148, R150, R389). -/
def State.placePlan (s : State) (die : Nat) (k : Kernel) (tid : Nat) (ps : List Planned) : State :=
  let s : State := { s with freeCtr := s.freeCtr + 1 }
  let s := s.modTeam tid fun t =>
    { t with members := [], twins := [], state := .running, committed := false,
             tb := List.replicate 4 { bits := [], phases := 0, err := 0, reinit := [] } }
  let s := ps.foldl (fun s p =>
    let f := s.fresh
    let s := (f.2.putGroup (newGroup k tid f.1 die p.1 p.2.1 p.2.2.1 p.2.2.2 none)).modTeam tid fun t =>
      { t with members := t.members ++ [f.1] }
    if k.lpb.dual then
      let h := s.fresh
      (h.2.putGroup (newGroup k tid h.1 die p.1 (p.2.1 ^^^ 32) p.2.2.1 p.2.2.2 (some f.1))).modTeam tid fun t =>
        { t with twins := t.twins ++ [h.1] }
    else s) s
  s.startTeam tid

/-- Do the dispatchers place teams of a context now (R161, R309)? -/
def ctxPlaces (s : State) (c : Nat) : Bool :=
  ((s.ctx c).state == .running || (s.ctx c).state == .faulted) && !(s.ctx c).graceful

/-- Does the dispatcher of a die place teams (R397, R400)? -/
def diePlaces (s : State) (d : Nat) : Bool := (s.die d).st == 0 && !(s.die d).changing

/-- The next team of a kernel on a die that has no groups: a forming one, or one never placed. -/
def kernelNext (s : State) (die : Nat) (k : Kernel) : Option (Nat × Option Nat) :=
  let old := (s.teams.filter fun t => t.kid = k.kid && t.die = die && t.state == .forming).map fun t => (t.idx, some t.tid)
  let fresh := match k.dies.idxOf? die with
    | some i =>
      let idx := i + k.dies.length * Tab.get (0 : Nat) k.nextTeam die
      if idx < k.lpb.teams then [(idx, none)] else []
    | none => []
  (old ++ fresh).foldl (fun a x => match a with
    | none => some x
    | some b => if x.1 < b.1 then some x else some b) none

/-- Does one relaunching team of a die go before another: by the cycle in which its kill completed, in cycles of the die's
core 0, then by the start of its kernel, then by index (R148)? -/
def relBefore (s : State) (die : Nat) (a b : Team) : Bool :=
  let o (t : Team) : Nat := match s.kernel? t.kid with | some k => k.order | none => 0
  let c (t : Team) : Nat := cycleAt s die 0 t.killAt
  c a < c b || (c a = c b && (o a < o b || (o a = o b && a.idx ≤ b.idx)))

/-- May a team's start tick be met yet? A relaunched scheduled team waits for the restart tick, which a resynchronisation
or a fallback announces (R342, R356). -/
def relReady (s : State) (k : Kernel) : Bool :=
  let y := s.lay (k.lay.getD 0)
  !k.lpb.sched || ((y.state == .resyncing || y.state == .faulted || y.state == .armed) && y.announced &&
    originTime s ≤ restartTick s k)

/-- The team at the head of a dispatcher's order: kernel, index, its record if it has one (R148). Every team behind it
waits, also while it waits for its restart tick. -/
def headTeam (s : State) (die : Nat) : Option (Kernel × Nat × Option Nat) :=
  let rel := (sortBy (relBefore s die) (s.teams.filter fun t => t.die = die && t.state == .relaunching)).filterMap fun t =>
    match s.kernel? t.kid with
    | some k => if k.state == .running && ctxPlaces s k.ctx then some (k, t.idx, some t.tid) else none
    | none => none
  match rel with
  | r :: _ => some r
  | [] =>
    let ks := sortBy (fun a b => a.order ≤ b.order)
      (s.kernels.filter fun k => k.state == .running && ctxPlaces s k.ctx && k.dies.contains die)
    ks.findSome? fun k => (kernelNext s die k).map fun x => (k, x.1, x.2)

/-- May the team at the head be placed now: a relaunching one waits until its start tick is known (R342)? -/
def headReady (s : State) (k : Kernel) (t : Option Nat) : Bool :=
  match t.bind s.team? with
  | some t => t.state != .relaunching || relReady s k
  | none => true

/-- Place teams in order while the first one fits; `fuel` bounds their number. -/
def State.placeTeams (s : State) (die : Nat) : Nat → State
  | 0 => s
  | n + 1 =>
    match headTeam s die with
    | none => s
    | some (k, idx, t) =>
      match if headReady s k t then planTeam s die k.lpb idx else none with
      | none => s
      | some ps =>
        match t with
        | some tid => (s.placePlan die k tid ps).placeTeams die n
        | none =>
          let f := s.fresh
          let s : State := { f.2 with teams := f.2.teams ++ [newTeam f.1 k idx die] }
          let s := s.modKernel k.kid fun k => { k with nextTeam := k.nextTeam.put die (Tab.get (0 : Nat) k.nextTeam die + 1) }
          (s.placePlan die k f.1 ps).placeTeams die n

/-- Ask a dispatcher to place teams now. -/
def State.kickDie (s : State) (d : Nat) : State := s.schedEv s.now 20 (ev .teamPlace [d])

/-- Ask every dispatcher of a context's partition. -/
def State.kickCtx (s : State) (c : Nat) : State := (partitionDies s c).foldl State.kickDie s

/-- Scheduled kernels with a team not placed although START has passed, whose one fault for it has not been raised
(R338). -/
def lateKernels (s : State) (die : Nat) : List Kernel :=
  s.kernels.filter fun k => k.lpb.sched && k.state == .running && !k.late && k.lpb.start < originTime s &&
    (match kernelNext s die k with | some (_, none) => true | _ => false)

/-- TEAM_PLACE: a dispatcher places its teams in order; what does not fit is tried again each tick (R148). A scheduled
team that is not placed by START raises cause 5, once for its kernel (R338). -/
def execTeamPlace (s : State) : Host.Outcome State Fault Refusal :=
  let d := s.num 0
  let s := if diePlaces s d then s.placeTeams d (s.teams.length + 4097) else s
  let s := (lateKernels s d).foldl (fun s k =>
    (s.modKernel k.kid fun k => { k with late := true }).schedFault (k.lay.getD 0) 5
      { die := d, core := 0, lead := false, slot := 0 } 0 [6]) s
  .next (if (headTeam s d).isSome then s.schedIn 1 20 (ev .teamPlace [d]) else s)

/-! ### Groups -/

/-- A unit at its start (R118, R123, R137, R150). -/
def newUnit (s : State) (g : Group) (id : UnitId) (warp : Nat) (wins : List Nat) (pc : Nat) (ex hl : BitVec 32)
    (qs : BitVec 8) : ExecUnit :=
  { id := id, gid := g.gid, warp := warp, wins := wins, exec := ex, marked := 0, helper := hl,
    gangs := [{ pc := pc, quads := qs, wait := false, wmask := 0, hdr := none }], pi := 8, split := false, clause := none,
    resume := none, stop := none, holdUntil := g.start, laySt := 0, ended := false, lastIssue := 0, issued := [], rgnc := 0,
    ring := [], perCur := none, perPrev := none, perDone := 0, dq := [], ps := 0, pp := 0, pr := 0,
    push := List.replicate g.slots.length 0, nEnter := 0, nBar := 0, nCpy := 0, keepEnter := 0, keepBar := 0, keepCpy := 0,
    nSeq := ((s.ops.filter fun o => o.u = id).map fun o => o.seq).foldl max 0, mark := none }

/-- Operations that earlier owners of the units of a group left running: they touch nothing of the new owner (R152). -/
def State.parkOld (s : State) (us : List UnitId) : State :=
  { s with ops := s.ops.filterMap fun o =>
      if us.contains o.u then
        if o.live then
          some { o with kdone := true, binds := [], bar := none, dest := 0xFF,
                        ordinal := if o.ordinal = 0 ∨ 2 ^ 40 ≤ o.ordinal then o.ordinal else o.ordinal + 2 ^ 40 }
        else none
      else some o }

/-- The registers a start preloads (R337). -/
def State.preload (s : State) (k : Kernel) (g : Group) : State :=
  let core := if g.twinOf.isSome then g.core ^^^ 32 else g.core
  let scr : BitVec 64 := BitVec.ofNat 64 (core * 2 ^ 19 + g.sbase)
  let args : BitVec 64 := BitVec.ofNat 64 k.lpb.args
  let tick := match startTick s k (0 < (match s.team? g.tid with | some t => t.relaunches | none => 0)) with
    | some r => r
    | none => localTime s g.die g.core (instantOf s g.die g.core g.start)
  let l := leadId g
  let s : State := { s with greg := (((s.greg.put (gKey l 0) scr).put (gKey l 1) args).put (gKey l 2)
    (BitVec.ofNat 64 k.lpb.addr)).put (gKey l 3) (BitVec.ofNat 64 tick) }
  (List.range g.slots.length).foldl (fun (s : State) n =>
    let w := warpId g n
    { s with sreg := (s.sreg.put (sKey w 0) scr).put (sKey w 1) args }) s

/-- The other copy of a dual-run member: its twin, or the primary it repeats (R389). -/
def State.partner (s : State) (g : Group) : Option Group :=
  match g.twinOf with
  | some p => s.group? p
  | none => s.groups.find? fun x => x.twinOf == some g.gid

/-- The warp slots a group takes at its start (R150): the lowest that are free. Of a dual-run pair the first to start takes
the lowest that are free on both cores, those reserved at its placement counting as free, and the other the same (R389). -/
def startSlots (s : State) (g : Group) (w : Nat) : List Nat :=
  let free (c n : Nat) : Bool := !(coreSlots s g.die c).contains n
  match s.partner g with
  | none => ((List.range 4).filter (free g.core)).take w
  | some p =>
    if p.state != .placed then g.slots
    else ((List.range 4).filter fun n => g.slots.contains n || (free g.core n && free p.core n)).take w

/-- Start a placed group: slots, its channels' write pointers at 0 (R230), cleared registers, preloads, units, first fetches
and windows (R150, R337). -/
def State.beginGroup (s : State) (g : Group) (k : Kernel) : State :=
  let slots := startSlots s g k.lpb.warps
  let s := match s.partner g with | some p => s.modGroup p.gid fun p => { p with slots := slots } | none => s
  let g : Group := { g with slots := slots, state := .running, before := .running }
  let s := (s.modGroup g.gid fun _ => g).modCore g.die g.core fun c =>
    { c with wptr := onChannels slots c.wptr fun _ _ => 0, fresh := c.fresh.filter fun e => !slots.contains e.1 }
  let n := slots.length
  let ids := leadId g :: (List.range n).map (warpId g)
  let s := s.parkOld ids
  let s := ids.foldl State.clearRegs s
  let lead := newUnit s g (leadId g) 0 slots (8 * k.lpb.leadent) 0 0 1
  let ws := (List.range n).map fun i =>
    let m := warpLanes g.prot g.lanes i
    newUnit s g (warpId g i) i [slots.getD i 0] (8 * k.lpb.warpent) m.1 m.2
      (BitVec.ofFnLE fun q : Fin 8 => (m.1 &&& quadLanes g.prot (1#8 <<< q.val)) != 0)
  let s : State := { s with units := (s.units.filter fun x => !ids.contains x.id) ++ ws ++ [lead] }
  let s := s.preload k g
  (ws ++ [lead]).foldl (fun s x => (s.schedFetches x g.start).schedWindow x g.start) s

/-- Is a group's start put off to the restart of its lay (R355, step 7)? -/
def startShifted (s : State) (g : Group) (k : Kernel) : Bool :=
  let y := s.lay (k.lay.getD 0)
  k.lpb.sched && layStops s g g.start &&
    !(y.announced && y.rst ≤ localTime s g.die g.core (instantOf s g.die g.core g.start))

/-- May a group start: it is placed, its context runs, its die is online, its lay is not stopped? -/
def mayBegin (s : State) (g : Group) (k : Kernel) : Bool :=
  g.state == .placed && ctxPlaces s g.ctx && (s.die g.die).st == 0 && !startShifted s g k

/-- Start a group that is due. -/
def State.beginDue (s : State) (gid : Nat) : State :=
  match s.group? gid with
  | none => s
  | some g => match s.kernelOf g with
    | some k => if mayBegin s g k && g.start ≤ s.cyc g.die g.core then s.beginGroup g k else s
    | none => s

/-- GROUP_START: a placed group reaches its team's start cycle; it waits while its context does not run and while its lay is
stopped (R150, R161, R355). Every group of the core that starts in this cycle starts with it, in ascending g (R150). -/
def execGroupStart (s : State) : Host.Outcome State Fault Refusal :=
  match s.group? (s.num 0) with
  | none => .next s
  | some g =>
    match s.kernelOf g with
    | none => .next s
    | some k =>
      if !mayBegin s g k then .next s
      else if s.cyc g.die g.core < g.start then .next (s.schedCyc g.die g.core g.start 0 (ev .groupStart [g.gid]))
      else
        let gs := s.groups.filter fun x => x.die = g.die && x.core = g.core && x.state == .placed && x.start = g.start
        .next (((sortBy (fun a b => a.g ≤ b.g) gs).map fun x => x.gid).foldl State.beginDue s)

/-- Members of a team that have not retired, twins included. -/
def teamLeft (s : State) (t : Team) : Bool :=
  (t.members ++ t.twins).any fun m => match s.group? m with | some g => g.state != .retired | none => false

/-- A retired team: scratch is freed, and the kernel drains with its last team (R153-R155, Table 17.3). -/
def State.retireTeam (s : State) (t : Team) : State :=
  let s := s.modTeam t.tid fun t => { t with state := .retired }
  let s : State := { s with groups := s.groups.map fun g => if g.tid = t.tid then { g with ssize := 0 } else g }
  match s.kernel? t.kid with
  | none => s
  | some k =>
    let s := s.modKernel k.kid fun k => { k with retired := k.retired + 1 }
    if k.retired + 1 = k.lpb.teams ∧ k.state = .running then
      (s.modKernel k.kid fun k => { k with state := .draining }).schedEv s.now 20 (ev .kernelRetire [k.kid])
    else s

/-- What still holds a draining group (Table 7.2): a held entry, an unacknowledged write or copy, or an engine request; and
a probe still pending, or the trap it gave while that is not yet final (R296, R314). -/
def drainHeld (s : State) (g : Group) : Bool :=
  s.ops.any (fun o => o.gid = g.gid && o.live && (o.held || o.kind.isWrite)) ||
    s.ops.any (fun o => o.gid = g.gid && o.live && o.stage == .probing) ||
    (s.unitsOf g.gid).any (fun x => x.ended && x.stop.any fun t => !t.final) ||
    (s.engine g.die (quartetOf g.core)).rows.any fun r => r.gid = g.gid && ((1 ≤ r.st && r.st ≤ 4) || r.st = 7)

/-- The last cycle from which D is counted: last issue of the units, last completion of the requests (Table 7.2). DESIGN
CHOICE: cycles that pass while the group is frozen count towards D; the spec does not say (log 107). -/
def drainFrom (s : State) (g : Group) : Nat :=
  ((s.unitsOf g.gid).map fun x => x.lastIssue).foldl max g.lastPass

/-- GROUP_RETIRE: a draining group retires once nothing of it is held and D cycles have passed; its slots, counters and
barriers are freed (R152, R154), and it counts as triggered (R160). -/
def execGroupRetire (s : State) : Host.Outcome State Fault Refusal :=
  match s.group? (s.num 0) with
  | none => .next s
  | some g =>
    if g.state != .draining then .next s
    else
      let cyc := s.cyc g.die g.core
      let due := drainFrom s g + Config.hold
      if drainHeld s g || cyc < due then
        .next (s.schedCyc g.die g.core (max (cyc + 1) due) 20 (ev .groupRetire [g.gid]))
      else
        let us := (s.unitsOf g.gid).map fun x => x.id
        let s := s.parkOld us
        let s := us.foldl State.clearRegs s
        let s : State := { s with units := s.units.filter fun x => x.gid ≠ g.gid }
        let s := s.unfaultCtx g.ctx
        let s := s.modGroup g.gid fun g => { g with state := .retired, slots := [], kLog := [], bLog := [] }
        let s := if g.twinOf.isSome then s else s.modKernel g.kid fun k =>
          { k with trig := if k.trig.contains (g.tid * 256 + g.tmbr) then k.trig else (g.tid * 256 + g.tmbr) :: k.trig }
        let s := s.retireMember g.tid
        match s.team? g.tid with
        | some t => .next (if teamLeft s t then s.kickDie g.die else (s.retireTeam t).kickDie g.die)
        | none => .next s

/-! ### Kernels that end without retiring -/

/-- Abort a kernel: its teams are killed without relaunch, its image is released, its record is
no longer incomplete, and the queue it came from, unless that has been disabled since, enters error (Tables 16.4, 17.3). -/
def State.abortKernel (s : State) (kid : Nat) : State :=
  match s.kernel? kid with
  | none => s
  | some k =>
    if k.state = .aborted ∨ k.state = .retired then s
    else
      let s := s.modKernel kid fun k => { k with state := .aborted, shapes := [] }
      let s := (s.teams.filter fun t => t.kid = kid).foldl (fun s t => s.killTeam t.tid true) s
      let s : State := { s with code := s.code.clear (codeAddr kid 0) (codeAddr (kid + 1) 0)
                                teams := s.teams.map fun t => if t.kid = kid ∧ t.state ≠ .retired
                                  then { t with state := .killed } else t }
      let s := if k.recNo = 0 then s else s.modQueue k.q fun x => { x with outst := x.outst - 1 }
      let s := k.dies.foldl State.kickDie s
      if k.recNo = 0 then s else s.queueErr k.q 5

/-- The die a killed team is placed on: the one it is assigned to, p[t mod P], or the next online die of the partition
(R147, R342). -/
def relaunchDie (s : State) (k : Kernel) (idx : Nat) : Nat :=
  let d := k.dies.getD (idx % max 1 k.dies.length) 0
  if (s.die d).st = 0 then d
  else
    let on := k.dies.filter fun e => (s.die e).st = 0
    match on.find? fun e => d < e with
    | some e => e
    | none => on.headD d

/-- TEAM_RELAUNCH: once the discards and cancellations of a killed team have ended, it relaunches from its retained
record, or the kernel is aborted at its relaunch limit (R153, R342). -/
def execTeamRelaunch (s : State) : Host.Outcome State Fault Refusal :=
  match s.team? (s.num 0) with
  | none => .next s
  | some t =>
    match s.kernel? t.kid with
    | none => .next s
    | some k =>
      let ms := t.members ++ t.twins
      let busy := s.ops.any fun o => ms.contains o.gid && o.live && (o.held || o.copy.isSome)
      if t.state != .killed || k.state != .running then .next s
      else if busy then .next (s.schedIn 1 20 (ev .teamRelaunch [t.tid]))
      else if k.lpb.relim ≤ t.relaunches then .next (s.abortKernel k.kid)
      else
        let d := relaunchDie s k t.idx
        .next ((s.modTeam t.tid fun t =>
          { t with state := .relaunching, relaunches := t.relaunches + 1, die := d, killAt := s.now }).kickDie d)

/-- The teams of a kernel assigned to a die that have no record yet get one: they are forming (R147, R153). -/
def State.formTeams (s : State) (kid die : Nat) : State :=
  match s.kernel? kid with
  | none => s
  | some k =>
    match k.dies.idxOf? die with
    | none => s
    | some i =>
      let n := Tab.get (0 : Nat) k.nextTeam die
      let rest := ((List.range k.lpb.teams).filter fun t => t % k.dies.length = i).drop n
      let s := rest.foldl (fun s idx =>
        let f := s.fresh
        { f.2 with teams := f.2.teams ++ [newTeam f.1 k idx die] }) s
      s.modKernel kid fun k => { k with nextTeam := k.nextTeam.put die (n + rest.length) }

/-- A die goes offline: its forming and running teams are killed, those of running kernels never placed among them, and its
relaunching teams move to the next online die (R153, R342, R400). DESIGN CHOICE (log 153): the placement of a relaunching team has not
begun while it waits for room or for its restart tick, so it moves without a kill. -/
def State.killDieTeams (s : State) (die : Nat) : State :=
  let s := (s.kernels.filter fun k => k.state == .running).foldl (fun s k => s.formTeams k.kid die) s
  let s := (s.teams.filter fun t => t.die = die && t.state == .relaunching).foldl (fun s t =>
    match s.kernel? t.kid with
    | some k =>
      let d := relaunchDie s k t.idx
      (s.modTeam t.tid fun t => { t with die := d }).kickDie d
    | none => s) s
  (s.teams.filter fun t => t.die = die && (t.state == .forming || t.state == .running)).foldl
    (fun s t => s.killTeam t.tid false) s

end Sys2Proof.Machine
end

