-- ==== Sys2Proof/Machine/Kernel.lean ====
section
/-! DEFINITION. Kernels: the launch parameter block and its refusals (R334, R335), staging and clause fetch (R336), start
(R338, R339), retirement (R155, R341), completion of launch records (R330), and LAUNCH (R343, R344). -/

namespace Sys2Proof.Machine

/-! ### Reading a context's memory on behalf of the queue block and the dispatchers -/

/-- The die whose walker serves the queue block of a context: the lowest of its partition (log 21). -/
def queueDie (s : State) (ctx : Nat) : Nat := (partitionDies s ctx).headD 0

/-- The walker's view of a context that is not bound yet: its own region attribute file (log 21). -/
def queueView (s : State) (ctx : Nat) : State :=
  if (s.ctx ctx).state = .created then
    s.modDie (queueDie s ctx) fun d => { d with rafCopy := d.rafCopy.put ctx (s.ctx ctx).raf }
  else s

/-- Translate an address for the queue block; the walk sets the companion as any walk does (R291). -/
def State.qwalk (s : State) (ctx va : Nat) (write : Bool) : WalkEnd × State :=
  let die := queueDie s ctx
  let w := walk (queueView s ctx) die ctx va
  (w, s.setCompanion ctx die write w)

/-- Read 8 bytes of a context's memory: none where they are not readable; bytes of a peer module are free (log 5). -/
def State.vread8 (s : State) (ctx va : Nat) : Option Nat × State :=
  let r := s.qwalk ctx va false
  match r.1.xl with
  | none => (none, r.2)
  | some x =>
    if !x.r || placePoisoned r.2 x va 8 || (x.tgt = 0 && (s.die (x.tid % 16)).st = 2) then (none, r.2)
    else if x.tgt = 2 then
      (some (Config.freeWord r.2.freeCtr).toNat, { r.2 with freeCtr := r.2.freeCtr + 1 })
    else (some (readPlace r.2 x va 8), r.2)

/-- Read `n` words; none if any of them is not readable. -/
def State.vreadWords (s : State) (ctx va : Nat) : Nat → Option (List Nat) × State
  | 0 => (some [], s)
  | n + 1 =>
    let a := s.vread8 ctx va
    match a.1 with
    | none => (none, a.2)
    | some x =>
      let b := a.2.vreadWords ctx (va + 8) n
      (b.1.map (x :: ·), b.2)

/-! ### Launch parameter blocks (R334, R335) -/

/-- A block as its words give it (Table 17.1). -/
def lpbOf (addr : Nat) (w : List Nat) : Lpb :=
  let f (i lo n : Nat) : Nat := bits (w.getD i 0) lo n
  let b (lo : Nat) : Bool := (w.getD 7 0).testBit lo
  { addr := addr, layk := f 7 8 8, startat := b 7, pagectl := b 6, early := b 5, restart := b 4, dual := b 3, prot := b 2,
    det := b 1, sched := b 0, relim := f 6 49 4, csetn := f 6 40 9, csetbase := f 6 32 8, cls := f 6 28 2, kmax := f 6 26 2,
    scrkb := f 6 16 10, lanes := f 6 8 7, tsize := f 6 0 8, nx := f 5 0 16, ny := f 5 16 16, nz := f 5 32 16,
    start := w.getD 4 0, args := f 3 0 56, nshape := f 2 56 8, shapes := f 2 0 56, codew := f 1 32 16, leadent := f 1 16 16,
    warpent := f 1 0 16, code := f 0 0 56 }

/-- Every zero field of a block is zero (Table 17.1). -/
def lpbZeros (w : List Nat) : Bool :=
  [(7, 16, 48), (6, 53, 11), (6, 30, 2), (6, 15, 1), (5, 48, 16), (3, 56, 8), (1, 48, 16), (0, 56, 8)].all fun f =>
    bits (w.getD f.1 0) f.2.1 f.2.2 == 0

/-- Is any field out of its range (Table 17.2, cause 3)? -/
def lpbBad (l : Lpb) : Bool :=
  l.code % 8 ≠ 0 || l.shapes % 8 ≠ 0 || l.codew < 2 || 8192 < l.codew || l.codew - 1 ≤ l.leadent ||
    l.codew - 1 ≤ l.warpent || 64 < l.nshape || 512 < l.scrkb || l.nx = 0 || l.ny = 0 || l.nz = 0

/-- The lay of a context that scheduled kernels belong to: an armed or running one (R335, R348). -/
def layOfCtx (s : State) (ctx : Nat) : Option Nat :=
  (List.range 4).find? fun i =>
    (s.lay i).ctl % 64 = ctx && ((s.lay i).state == .armed || (s.lay i).state == .running)

/-- The start tick a kernel-table entry gives (R348, R355). -/
def layStart (y : Lay) (k : Nat) : Option Nat :=
  (y.kernels[k]?).map fun e => y.baseTick + y.period * (e.1 + y.shift) + e.2

/-- Is every byte of a range readable in a context? -/
def State.readable (s : State) (ctx va n : Nat) : Bool × State :=
  let r := s.vreadWords ctx va n
  (r.1.isSome, r.2)

/-- The block of a kernel is read when its record is fetched or its LAUNCH delivered: the kernel is defined (R341). -/
def State.readBlock (s : State) (ctx addr : Nat) : Option (List Nat) × State :=
  if addr % 64 ≠ 0 then (none, s) else s.vreadWords ctx addr 8

/-- The cause for which a block is refused, 0 for none, and the block (R335); `ws` are the words read, none if unreadable. A
misaligned address comes first, then an unreadable block, then its fields, then its image and table (log 22). -/
def State.checkBlock (s : State) (ctx addr : Nat) (ws : Option (List Nat)) (start : Option Nat) : Nat × Lpb × State :=
  if addr % 64 ≠ 0 then (3, lpbOf addr [], s)
  else
    match ws with
    | none => (2, lpbOf addr [], s)
    | some w =>
      let l := match start with
        | some t => { lpbOf addr w with start := t, startat := true }
        | none => lpbOf addr w
      if !lpbZeros w || lpbBad l then (3, l, s)
      else
        let a := s.readable ctx l.code l.codew
        let b := a.2.readable ctx l.shapes (6 * l.nshape)
        let s := b.2
        let cause :=
          if !a.1 || !b.1 then 2
          else if (l.det && (l.csetn = 0 || 256 < l.csetbase + l.csetn || l.csetn % (l.tsize + 1) ≠ 0)) ||
            (!l.det && l.csetn ≠ 0) then 4
          else if l.prot && 64 ≤ l.lanes then 5
          else if (l.sched && (!l.det || !l.startat)) || (!l.sched && l.layk ≠ 0) ||
            (l.sched && ((layOfCtx s ctx).bind fun i => layStart (s.lay i) l.layk).isNone) then 6
          else if l.restart && l.sched then 7 else 0
        (cause, l, s)

/-- Check the block of a defined kernel: the refusal cause, or 0 and the kernel queued (Table 17.3, R341). -/
def State.defineKernel (s : State) (ctx q recNo op addr : Nat) (ws : Option (List Nat)) (start : Option Nat) (irq : Bool) :
    Nat × State :=
  let r := s.checkBlock ctx addr ws start
  if r.1 ≠ 0 then (r.1, r.2.2)
  else
    let s := r.2.2
    let lay := if r.2.1.sched then layOfCtx s ctx else none
    let l := match lay.bind fun i => layStart (s.lay i) r.2.1.layk with
      | some t => { r.2.1 with start := t }
      | none => r.2.1
    let f := s.fresh
    let k : Kernel :=
      { kid := f.1, ctx := ctx, q := q, recNo := recNo, lpb := l, shapes := [], dies := partitionDies s ctx, state := .queued,
        order := 0, late := false, nextTeam := [], retired := 0, trig := [], startTick := 0, lay := lay, op := op, irq := irq }
    (0, State.schedEv { f.2 with kernels := f.2.kernels ++ [k] } f.2.now 20 (ev .kernelArm [f.1]))

/-! ### Staging (R336, R342) -/

/-- A shape record (Table 11.1) with its validity (R226). -/
def shapeRec (w : List Nat) : Shape :=
  let ext := (List.range 4).map fun i => bits (w.getD 0 0) (16 * i) 16
  let ss := (List.range 3).map fun i => sgn 32 (w.getD (i + 1) 0)
  let ds := (List.range 3).map fun i => sgn 32 (w.getD (i + 1) 0 / 2 ^ 32)
  let esz := bits (w.getD 5 0) 0 3
  let sd := sgn 32 (w.getD 4 0)
  let dd := sgn 32 (w.getD 4 0 / 2 ^ 32)
  let e : Int := if esz = 4 then 64 else ((2 ^ esz : Nat) : Int)
  let step (i : Nat) : Int := if i = 0 then e else ds.getD (i - 1) 0
  let asc := (List.range 3).all fun i =>
    ext.getD (i + 1) 1 ≤ 1 ||
      e ≤ ds.getD i 0 - (List.range (i + 1)).foldl (fun a j => a + ((ext.getD j 1 : Nat) - 1 : Int) * step j) 0
  let str := (List.range 3).all fun i =>
    ext.getD (i + 1) 1 ≤ 1 || (ss.getD i 0 % e == 0 && ds.getD i 0 % e == 0)
  { ext := ext, sstr := ss, dstr := ds, esz := esz, sdoff := sd, ddoff := dd,
    good := ext.all (1 ≤ ·) && esz ≤ 4 && str && asc && decide (((ext.foldl (· * ·) 1 : Nat) : Int) * e ≤ 2 ^ 31) &&
      (esz ≠ 4 || (sd % 4 == 0 && dd % 4 == 0)) }

/-- Is the image in a die's code store: armed, running or draining (R336, R342)? -/
def Kernel.staged (k : Kernel) : Bool := k.state == .armed || k.state == .running || k.state == .draining

/-- Has every die of a kernel's partition room for its image and its record (R336, R342)? -/
def armRoom (s : State) (k : Kernel) : Bool :=
  k.dies.all fun d =>
    let ks := s.kernels.filter fun x => x.staged && x.dies.contains d
    ks.length < 64 && (ks.map fun x => 8 * x.lpb.codew).foldl (· + ·) (8 * k.lpb.codew) ≤ 1048576

/-- Is a context running or faulted? -/
def ctxRuns (s : State) (n : Nat) : Bool := (s.ctx n).state == .running || (s.ctx n).state == .faulted

/-- Copy one word into the code store; poison goes with it (R336, R392), and a word no longer readable is free. -/
def State.stageWord (s : State) (k : Kernel) (i : Nat) : State :=
  let va := k.lpb.code + 8 * i
  let a := codeAddr k.kid (8 * i)
  let r := s.qwalk k.ctx va false
  match r.1.xl with
  | some x =>
    if x.tgt = 2 then
      { r.2 with code := r.2.code.writeN a (Config.freeWord r.2.freeCtr).toNat 8, freeCtr := r.2.freeCtr + 1 }
    else
      let s : State := { r.2 with code := r.2.code.writeN a (readPlace r.2 x va 8) 8 }
      if placePoisoned s x va 8 then { s with poison := poisonCode a :: s.poison } else s
  | none => { r.2 with code := r.2.code.writeN a (Config.freeWord r.2.freeCtr).toNat 8, freeCtr := r.2.freeCtr + 1 }

/-- KERNEL_ARM: the image and the shape table are staged on every die of the partition; without room, and while its context is
frozen or suspended, the kernel stays queued (R336, R341, R342). -/
def execKernelArm (s : State) : Host.Outcome State Fault Refusal :=
  match s.kernel? (s.num 0) with
  | none => .next s
  | some k =>
    if k.state != .queued then .next s
    else if !ctxRuns s k.ctx || !armRoom s k then .next (s.schedIn 1 20 (ev .kernelArm [k.kid]))
    else
      let s := (List.range k.lpb.codew).foldl (fun s i => s.stageWord k i) s
      let y := (List.range k.lpb.nshape).foldl (fun (x : List Shape × State) i =>
        let r := x.2.vreadWords k.ctx (k.lpb.shapes + 48 * i) 6
        (x.1 ++ [shapeRec (r.1.getD [])], r.2)) ([], s)
      let s := y.2.modKernel k.kid fun k => { k with state := .armed, shapes := y.1 }
      .next (s.schedEv s.now 20 (ev .kernelStart [k.kid]))

/-! ### Clause fetch (R30, R336) -/

/-- The first poisoned word of a clause. -/
def poisonedWord (s : State) (kid pc : Nat) (h : Word64) : Option Nat :=
  (List.range (hN h + 2)).find? fun i => s.poison.contains (poisonCode (codeAddr kid (pc + 8 * i)))

/-- CLAUSE_FETCH: a clause header is fetched and checked; a failed check raises a misframe trap (R30, R336); a poisoned
word is consumed (R392). -/
def execClauseFetch (s : State) : Host.Outcome State Fault Refusal :=
  let u := s.arg.u
  match s.unit? u with
  | none => .next s
  | some x =>
    match s.group? x.gid with
    | none => .next s
    | some g =>
      match s.kernelOf g, x.gangs.find? (fun y => lowQuad y.quads == s.num 0) with
      | some k, some y =>
        if x.ended || x.stop.isSome || y.wait || y.hdr.isSome then .next s
        else
          match headerCause s k.kid (8 * k.lpb.codew) u.lead y.pc with
          | some cause =>
            .next (s.takeTrap u
              { kind := 2, sub := cause, cycle := s.ucyc u, time := localTime s u.die u.core s.now, pc := y.pc, idx := 0,
                quads := y.quads, clause := none, lanes := gangExec s x y, detail := [], sgpc := [], final := false,
                byWalk := false, waitOnly := false, waits := [] })
          | none =>
            let h := codeWord s k.kid y.pc
            match poisonedWord s k.kid y.pc h with
            | some i => .next (s.consume u g.gid 6 (y.pc + 8 * i) y.pc)
            | none =>
              .next (s.modUnit u fun x =>
                { x with gangs := x.gangs.map fun z => if z.quads = y.quads then { z with hdr := some h } else z })
      | _, _ => .next s

/-! ### Start and end -/

/-- Does every die of the partition run at the class of the block (R338)? -/
def classOk (s : State) (k : Kernel) : Bool :=
  k.dies.all fun d => (s.die d).cls == k.lpb.cls && !(s.die d).changing

/-- KERNEL_START: an armed kernel starts once its context runs and its dies have its class; its predecessors were waited
for when its record was consumed (R338, R339). Its teams assigned to a die that is already offline are killed as if that die
went offline now (log 108). -/
def execKernelStart (s : State) : Host.Outcome State Fault Refusal :=
  match s.kernel? (s.num 0) with
  | none => .next s
  | some k =>
    if k.state != .armed then .next s
    else if !ctxPlaces s k.ctx || !classOk s k then .next (s.schedIn 1 20 (ev .kernelStart [k.kid]))
    else
      let late := k.lpb.sched && k.lpb.start < originTime s
      let s := s.modKernel k.kid fun k =>
        { k with state := .running, order := s.kernelOrder + 1, startTick := originTime s, late := late }
      let s : State := { s with kernelOrder := s.kernelOrder + 1 }
      let s := if late then
          s.schedFault (k.lay.getD 0) 5 { die := k.dies.headD 0, core := 0, lead := false, slot := 0 } 0 [6]
        else s
      let s := (k.dies.filter fun d => (s.die d).st = 1 || (s.die d).st = 2).foldl State.killDieTeams s
      let s := k.dies.foldl State.kickDie s
      .next (if k.lpb.sched then
          k.dies.foldl (fun s d => s.schedEv (instantOfTick s (k.lpb.start + 1)) 20 (ev .teamPlace [d])) s
        else s)

/-- Complete a consumed record: QDONE rises, then the vector is raised (R330). Record number 0 belongs to no queue run. -/
def State.completeRecord (s : State) (q recNo : Nat) (irq : Bool) : State :=
  if recNo = 0 then s
  else
    let s := s.modQueue q fun x => { x with done := x.done + 1, outst := x.outst - 1, doneRecs := recNo :: x.doneRecs }
    if irq then s.send (.msix (s.queue q).port (s.queue q).vec) else s

/-- KERNEL_RETIRE: a draining kernel retires once every write of its grid is visible; its record completes and its image
is released; it stays as it is while its context is frozen (R155, R341). -/
def execKernelRetire (s : State) : Host.Outcome State Fault Refusal :=
  match s.kernel? (s.num 0) with
  | none => .next s
  | some k =>
    if k.state != .draining then .next s
    else
      let mine (g : Nat) : Bool := match s.group? g with | some x => x.kid == k.kid | none => false
      let frozen := (s.ctx k.ctx).state == .freezing || (s.ctx k.ctx).state == .suspended
      if frozen then .next (s.schedIn 1 20 (ev .kernelRetire [k.kid]))
      else if s.ops.any fun o => o.live && o.kind.isWrite && mine o.gid then .next (s.schedIn 1 20 (ev .kernelRetire [k.kid]))
      else
        let s := s.modKernel k.kid fun k => { k with state := .retired, shapes := [] }
        let s : State := { s with code := s.code.clear (codeAddr k.kid 0) (codeAddr (k.kid + 1) 0)
                                  groups := s.groups.filter fun g => g.kid ≠ k.kid }
        .next (s.completeRecord k.q k.recNo k.irq)

/-- Is a kernel triggered: has every group of its grid signalled or retired (R339)? -/
def Kernel.triggered (k : Kernel) : Bool :=
  k.state == .draining || k.state == .retired || (k.state == .running && k.trig.length == k.lpb.groups)

/-! ### LAUNCH -/

/-- LAUNCH: uniform and counted, through the stopper (R343, R344). -/
def execLaunch (w : LaunchF) (s : State) : Host.Outcome State Fault Refusal :=
  issue (.launch w) s fun c =>
    if !ctlOk s c w.g then s
    else
      let t := if w.t = 0xFF then [] else [(readU s c w.t.toNat).toNat]
      s.enterStopper { opBase s c .launch with
        k := some w.kc.toNat, dest := w.d.toNat, size := 8,
        args := [(readU s c w.a.toNat).toNat, w.q.toNat, w.ser.toNat] ++ t }

/-- Land the result of a LAUNCH and end it (R343). -/
def State.launchResult (s : State) (op cause : Nat) : State :=
  (s.modOp op fun o => { o with lanes := [{ laneReq 0 0 0 0 with res := cause, st := .acked }] }).complete op

/-- LAUNCH_DELIVERED: the record reaches the queue block, its parameter block is read, and it waits at the head of its queue, whose new head is eligible from when it
is found so (R331); a queue not enabled for the
context gives cause 1 (R343, R344). -/
def execLaunchDelivered (s : State) : Host.Outcome State Fault Refusal :=
  match s.op? (s.num 0) with
  | none => .next s
  | some o =>
    let q := o.args.getD 1 0
    let x := s.queue q
    if !o.live then .next s
    else if !x.en || x.ctx ≠ o.ctx then .next (s.launchResult o.id 1)
    else
      let r := s.readBlock o.ctx (o.args.getD 0 0)
      let put (x : Queue) : Queue :=
        { x with launches := x.launches ++ [o.id], blocks := x.blocks.put o.id r.1
                 eligibleAt := if x.launches.isEmpty then none else x.eligibleAt }
      let s := r.2.modQueue q put
      .next (s.schedEv s.now 20 (ev .recordConsume [o.ctx]))

end Sys2Proof.Machine
end

