-- ==== Sys2Proof/Machine/Context.lean ====
section
/-! DEFINITION. Contexts: traps and their dispositions, fault records and the fault queue (R310-R314), TRAP and BKPT
(R321), the life cycle (R309), pre-emption (R161, R315-R318), keys (R308), system registers (R319), SYSRD and SYSWR (R322)
and sticky flags (R323). -/

namespace Sys2Proof.Machine

/-! ### Software traps -/

/-- TRAP and BKPT (R321): with PRD = 0 always, otherwise when an active lane passes the guard. -/
def softTrap (s : State) (c : Cur) (w : IF) (kind : Nat) : State :=
  let act := activeLanes s c w.g
  if w.g.prd ≠ 0 && act.isEmpty then s else trapCur s c kind 0 (maskPhys act) [w.imm.toNat]

/-- TRAP (R321). -/
def execTrap (w : IF) (s : State) : Host.Outcome State Fault Refusal :=
  issue (.trap w) s fun c => softTrap s c w 10

/-- BKPT: a trap when the context's DEBUG[0] is 1, else no effect (R321). -/
def execBkpt (w : IF) (s : State) : Host.Outcome State Fault Refusal :=
  issue (.bkpt w) s fun c =>
    if Nat.testBit (s.ctx (curGroup s c).2).debug 0 then softTrap s c w 11 else s

/-! ### System registers (Table 15.5) -/

/-- Stopped units of a context that count in CTXST: final traps with a record (R314). -/
def stoppedUnits (s : State) (ctx : Nat) : Nat :=
  (s.units.filter fun x =>
    (match s.group? x.gid with | some g => g.ctx == ctx | none => false) &&
    (match x.stop with | some t => t.final && !t.waitOnly | none => false)).length

/-- CTXST code of a state. -/
def CState.code : CState → Nat
  | .free => 0 | .created => 1 | .bound => 2 | .running => 3 | .freezing => 4 | .suspended => 5 | .faulted => 6 | .killed => 7

/-- Is anything of a killed context still ending: a held entry or a copy (R318)? -/
def discardsLeft (s : State) (ctx : Nat) : Bool :=
  s.ops.any fun o => o.ctx = ctx && o.live && (o.held || o.copy.isSome)

/-- Read system register `i` of a context (Table 15.5): key registers read 0 (R308). -/
def ctxReg (s : State) (n i : Nat) : Nat :=
  let c := s.ctx n
  if i = 0 then n
  else if i = 1 then
    c.state.code + 256 * min 255 (stoppedUnits s n) + (if c.image then 65536 else 0) +
      (if c.state == .killed && !discardsLeft s n then 131072 else 0)
  else if i = 2 then c.status * 2 ^ 60 + (if s.ibrum.updating then 2 ^ 63 else 0)
  else if i = 3 then c.partition + (if c.det then 65536 else 0)
  else if i = 4 then c.flags
  else if i = 5 then c.oor
  else if i = 6 then c.fqbase
  else if i = 7 then c.fqctl
  else if i = 8 then c.fqhead
  else if i = 9 then c.fqovf * 2 ^ 32 + c.fqtail
  else if i = 0xA then c.gdeadline
  else if i = 0xC then c.debug
  else if i = 0xD then c.savebase
  else if 0x10 ≤ i ∧ i < 0x30 then Tab.get (0 : Nat) c.raf (i - 0x10)
  else if i = 0x30 then c.tinva
  else if i = 0x31 then c.tinvc % 2 ^ 63 + (if c.tinvBusy then 2 ^ 63 else 0)
  else if i = 0x40 then c.ibsel
  else if 0x41 ≤ i ∧ i < 0x51 then
    let k := s.core (c.ibsel % 16) (c.ibsel / 16 % 256)
    let e := Tab.get ((0, 0) : Nat × Nat) (k.settle ((s.cyc k.die k.core + 15) / 16)).ib (i - 0x41)
    e.1 * 2 ^ 32 + e.2
  else if 0x80 ≤ i ∧ i < 0x100 then Tab.get (0 : Nat) c.rgt (i - 0x80)
  else if 0x200 ≤ i ∧ i < 0x240 then Tab.get (0 : Nat) c.rgtseq (i - 0x200)
  else 0

/-- Registers a program may read with SYSRD (Table 15.5). -/
def progReads (i : Nat) : Bool := i == 0 || i == 1 || i == 3 || i == 4

/-- SYSRD: counted; the value is read and landed at completion (R322). -/
def execSysrd (w : IF) (s : State) : Host.Outcome State Fault Refusal :=
  issue (.sysrd w) s fun c =>
    let i := w.imm.toNat
    if !progReads i then trapCur s c 8 6 0 [0, 0, 6]
    else
      let f := s.freeDelay
      let r := f.2.startOp { opBase s c .sysrd with
        k := some (w.a.toNat % 16), dest := w.d.toNat, size := 8, args := [i], stage := .inflight }
      r.2.schedCyc c.u.die c.u.core (c.cycle + 3 + f.1) 0 (ev .sysrdComplete [r.1])

/-- SYSRD_COMPLETE: the register is read; FLAGS includes the flags held for the issuing core (R322, R323). -/
def execSysrdComplete (s : State) : Host.Outcome State Fault Refusal :=
  match s.op? (s.num 0) with
  | none => .next s
  | some o =>
    let i := o.args.getD 0 0
    let held := (s.heldFlags.filter fun h => h.die = o.u.die && h.core = o.u.core && h.ctx = o.ctx).foldl
      (fun a h => flOr a h.flags) 0
    let v := if i = 4 then flOr (ctxReg s o.ctx 4) held else ctxReg s o.ctx i
    let s := s.modOp o.id fun o => { o with lanes := [{ laneReq 0 0 0 0 with res := v, st := .acked }] }
    .next (s.completeAt o.id (s.ucyc o.u))

/-- SYSWR: a doorbell write through the stopper (R322). -/
def execSyswr (w : IF) (s : State) : Host.Outcome State Fault Refusal :=
  issue (.syswr w) s fun c =>
    let i := w.imm.toNat
    if i < 0x400 then trapCur s c 8 6 0 [0, 0, 38]
    else s.enterStopper { opBase s c .doorbell with
      k := some (w.d.toNat % 16), args := [i - 0x400, (readU s c w.a.toNat).toNat] }

/-! ### Sticky flags (R323) -/

/-- A fill reaches a context's out-of-range record: the first one after a clear is kept, and of several of one cycle the one of the
lowest die, then core, then lane (R187, Table 9.1). -/
def Context.fillOor (c : Context) (word cyc : Nat) : Context :=
  let place (w : Nat) : Nat := w / 2 ^ 44 % 2 ^ 12 * 32 + w / 2 ^ 37 % 2 ^ 5
  if word = 0 ∨ (c.oor ≠ 0 ∧ ¬(cyc = c.oorCyc ∧ place word < place c.oor)) then c else { c with oor := word, oorCyc := cyc }

/-- FLAG_REACH_CONTEXT: flags and record fills of a zone that are D cycles old reach their contexts (R187, R323). -/
def execFlagReachContext (s : State) : Host.Outcome State Fault Refusal :=
  let d := s.num 0
  let q := s.num 1
  let due (h : HeldFlag) : Bool := h.die = d && h.q = q && h.cycle + Config.hold ≤ s.cyc d h.core
  let go := s.heldFlags.filter due
  let s : State := { s with heldFlags := s.heldFlags.filter fun h => !due h }
  .next (go.foldl (fun s h => s.modCtx h.ctx fun c => { c with flags := flOr c.flags h.flags }.fillOor h.oor h.cycle) s)

/-- FLAGS_CLEAR: a host clears the flags whose bits it writes as 1. -/
def execFlagsClear (s : State) : Host.Outcome State Fault Refusal :=
  let v := s.num 1
  .next (s.modCtx (s.num 0) fun c => { c with flags := flDiff c.flags v })
where
  /-- Flags of `a` not in `b`. -/
  flDiff (a b : Nat) : Nat :=
    (List.range 4).foldl (fun x i => if a.testBit i && !b.testBit i then x + 2 ^ i else x) 0

/-- OORREC_CLEAR (Table 9.1). -/
def execOorrecClear (s : State) : Host.Outcome State Fault Refusal :=
  .next (s.modCtx (s.num 0) fun c => { c with oor := 0 })

/-- IBDATA_CLEAR: one entry of the idle and busy table that IBSEL shows (R151). -/
def execIbdataClear (s : State) : Host.Outcome State Fault Refusal :=
  let c := s.ctx (s.num 0)
  let die := c.ibsel % 16
  let core := c.ibsel / 16 % 256
  .next (s.modCore die core fun k =>
    let k := k.settle ((s.cyc die core + 15) / 16)
    { k with ib := k.ib.del (s.num 1) })

/-! ### Traps become final, records are written (R311-R314) -/

/-- TRAP_FINAL: D cycles after its cycle a trap is final: its record is queued and the context becomes faulted (R314). A
wait with cause 5 has no record (R297). -/
def execTrapFinal (s : State) : Host.Outcome State Fault Refusal :=
  let u := s.arg.u
  match s.unit? u with
  | none => .next s
  | some x =>
    match x.stop, s.group? x.gid with
    | some t, some g =>
      if t.final || t.cycle ≠ s.num 0 || s.ucyc u < t.due || g.state == .frozen then .next s
      else
        let s := s.modUnit u fun x => { x with stop := some { t with final := true } }
        if t.waitOnly then .next s
        else
          let s := s.modCtx g.ctx fun c => { c with state := if c.state = .running then .faulted else c.state }
          .next (s.queueRecord (stopRecord s x g.ctx t))
    | _, _ => .next s

/-- The 16 words of a fault record (Table 15.4). -/
def recordWords (r : FaultRec) (seqno : Nat) : List Nat :=
  let b (x : Bool) (i : Nat) : Nat := if x then 2 ^ i else 0
  [2 ^ 63 + r.kind * 2 ^ 56 + r.sub * 2 ^ 48 + r.ctx * 2 ^ 42 + r.die * 2 ^ 38 + r.core * 2 ^ 30 + r.slot * 2 ^ 28 +
      b r.lead 27 + b r.async 26 + seqno,
    r.pc, r.time, r.rgnc * 2 ^ 32 + r.lanes, r.detail.getD 0 0, r.detail.getD 1 0, r.detail.getD 2 0, r.entry] ++
    (List.range 8).map fun i => r.sgpc.getD i 0

/-- Is there room in a context's ring (R312)? -/
def ringRoom (c : Context) : Bool := !c.fqfull && (c.fqtail + 65536 - c.fqhead) % 65536 < 2 ^ (c.fqctl % 32)

/-- Does a die hold a record of a context that may be written now (R312)? -/
def recordDue (s : State) (n : Nat) (r : FaultRec) : Bool := r.ctx = n && r.due ≤ s.now

/-- The records that a die holds although they are due, beyond the 64 entries of its holding buffer, are counted once each (R312). -/
def State.countHeld (s : State) (d : Nat) : State :=
  let new (r : FaultRec) : Bool := (((s.die d).hold.filter fun r => r.due ≤ s.now).drop 64).contains r && !r.counted
  let rs := (s.die d).hold.filter new
  let s := s.modDie d fun x => { x with hold := x.hold.map fun r => if rs.contains r then { r with counted := true } else r }
  rs.foldl (fun s r => s.modCtx r.ctx fun c => { c with fqovf := (c.fqovf + 1) % 65536 }) s

/-- FAULT_RECORD_WRITE: the first record of a context that a die holds is written when its queue is enabled and has room;
an empty queue raises its vector; else it stays, and is counted when the holding buffer is full (R312). -/
def execFaultRecordWrite (s : State) : Host.Outcome State Fault Refusal :=
  let d := s.num 0
  let n := s.num 1
  match (s.die d).hold.find? (recordDue s n) with
  | none => .next s
  | some r =>
    let c := s.ctx n
    if !c.fqctl.testBit 17 || !ringRoom c then .next (s.countHeld d)
    else
      let port := bits c.fqctl 5 1
      let at' := c.fqbase + 128 * (c.fqtail % 2 ^ (c.fqctl % 32))
      let s : State := { s with hostMem := (recordWords r c.seqno).zipIdx.foldl (fun m x =>
        m.writeN (hostAddr port (at' + 8 * x.2)) x.1 8) s.hostMem }
      let s := s.modDie d fun x => { x with hold := x.hold.erase r }
      let s := s.modCtx n fun c =>
        { c with fqtail := (c.fqtail + 1) % 65536, seqno := (c.seqno + 1) % 65536,
                 fqfull := (c.fqtail + 1) % 65536 = c.fqhead }
      let s := if c.fqhead = c.fqtail then s.send (.msix port (bits c.fqctl 6 11)) else s
      .next (if (s.die d).hold.any (recordDue s n) then s.schedEv s.now 25 (ev .faultRecordWrite [d, n]) else s)

/-- Ask every die to write what it holds for a context. -/
def State.kickRecords (s : State) (n : Nat) : State :=
  (List.range 16).foldl (fun s d =>
    if (s.die d).hold.any (recordDue s n) then s.schedEv s.now 25 (ev .faultRecordWrite [d, n]) else s) s

/-! ### Dispositions (R313) -/

/-- May a stopped unit be disposed of so (Table 15.3)? `how` is 0 RETRY, 1 SKIP, 2 REGION, 3 KILL. -/
def dispOk (t : Stop) (how : Nat) : Bool :=
  match t.kind with
  | 1 => how != 0
  | 2 => how != 1
  | 3 => how != 0
  | 4 => how != 1
  | 5 => 2 ≤ how
  | 6 => how != 0
  | 7 => if t.byWalk then 2 ≤ how else how != 1
  | 8 => how == 1 || how == 3
  | 10 => true
  | 11 => true
  | _ => false

/-- A unit that stands at a clause header goes on in the window that begins now (R313): its headers are fetched. -/
def State.goOn (s : State) (u : UnitId) : State :=
  match s.unit? u with
  | none => s
  | some x => ((s.modUnit u fun x => { x with holdUntil := s.ucyc u }).unfaultGroup x.gid).resumeUnit u (s.ucyc u)

/-- RETRY of a misframe fetches the header again: its sub-gang is served in this window (R313). -/
def State.refetch (s : State) (u : UnitId) (t : Stop) : State :=
  (s.modUnit u fun x =>
    { x with stop := none, clause := none, resume := none, pi := lowQuad t.quads, split := true,
             gangs := x.gangs.map fun g => if g.quads = t.quads then { g with hdr := none } else g }).goOn u

/-- SKIP: the instructions after the trapping one issue at their own positions of the window that begins now; SKIP of the last one
ends the clause at its position (R313). A unit whose fault a walk found stands at its region entry already (R295): it goes on
from there, and the access, translated now, traps at its issue if it still may not be made. DEDUCED, see
notes/assumptions/36.md. -/
def State.skipUnit (s : State) (u : UnitId) (t : Stop) : State :=
  match t.clause with
  | none => (s.modUnit u fun x => { x with stop := none }).goOn u
  | some r =>
    if t.idx < hN r.hdr then s.leaveTrap u (t.idx + 1)
    else
      let c := s.ucyc u + hPad r.hdr + t.idx
      let s := s.modUnit u fun x => { x with stop := none, clause := some r, pi := lowQuad t.quads, holdUntil := c + 1 }
      match s.unit? u with
      | none => s
      | some x => (clauseEnd s x r c).unfaultGroup x.gid

/-- REGION: the region restart of R157, and service by the record in the window that begins now (R313). A unit whose fault a walk
found has taken its restart already (R295). -/
def State.regionUnit (s : State) (x : ExecUnit) (t : Stop) : State :=
  let u := x.id
  if x.ring.isEmpty then s.refetch u t
  else if t.byWalk && !x.ended then ((s.modUnit u fun x => { x with stop := none }).rewalkStuck u).goOn u
  else (s.restartNewest u (s.ucyc u)).goOn u

/-- The event of a disposition. -/
def dispInstr (how : Nat) : Instr :=
  match how with
  | 0 => .unitcmdRetry
  | 1 => .unitcmdSkip
  | 2 => .unitcmdRegion
  | _ => .unitcmdKill

/-- A disposition takes effect at the unit's first window that begins at or after cycle `c` (R313). -/
def State.schedDisposition (s : State) (x : ExecUnit) (ctx how c : Nat) : State :=
  s.schedCyc x.id.die x.id.core (nextWindowOf x.wins c) 8 (evU (dispInstr how) x.id [ctx, 1])

/-- The unit of a context that a UNITCMD value names, in its slot or in the shadow store, with its group (R313, R315). -/
def unitNamed (s : State) (ctx : Nat) (u : UnitId) : Option (ExecUnit × Group) :=
  [u, { u with sh := true }].findSome? fun v =>
    (s.unit? v).bind fun x => ((s.group? x.gid).filter fun g => g.ctx == ctx).map fun g => (x, g)

/-- UNITCMD is written: a disposition in the trap's row takes effect at the unit's first window that begins at least one cycle
later, that of a unit in the shadow store after the resume; any other is refused with status 1 (R313). DESIGN CHOICE: so is a
second one before the first has taken effect, on which the spec is silent (log 124). -/
def State.disposeCmd (s : State) (ctx : Nat) (u : UnitId) (how : Nat) : State :=
  let refuse : State := s.modCtx ctx fun c => { c with status := 1 }
  match unitNamed s ctx u with
  | none => refuse
  | some (x, g) =>
    match x.stop with
    | none => refuse
    | some t =>
      if !t.final || t.disp.isSome || !dispOk t how then refuse
      else
        let s := (s.modCtx ctx fun c => { c with status := 0 }).modUnit x.id fun x =>
          { x with stop := x.stop.map fun t => { t with disp := some how } }
        if g.state == .frozen then s else s.schedDisposition x ctx how (s.ucyc x.id + 1)

/-- The disposition of a stopped unit takes effect in the window that begins now (R313); at an urgent freeze it waits for the
resume (R315, R317). -/
def State.dispose (s : State) (u : UnitId) (how : Nat) : State :=
  match s.unit? u with
  | none => s
  | some x =>
    match x.stop, s.group? x.gid with
    | some t, some g =>
      if t.disp ≠ some how || g.state == .frozen || (s.ctx g.ctx).state == .freezing then s
      else
        let s := match how with
          | 0 => if t.kind = 2 then s.refetch u t else s.leaveTrap u t.idx
          | 1 => s.skipUnit u t
          | 2 => s.regionUnit x t
          | _ => s.killTeam g.tid false
        s.unfaultCtx g.ctx
    | _, _ => s

/-- The two steps of a UNITCMD: the write of the register (operands: the context and 0), and its effect (1 for the 0). -/
def State.unitcmd (s : State) (how : Nat) : State :=
  if s.num 1 = 0 then s.disposeCmd (s.num 0) s.arg.u how else s.dispose s.arg.u how

/-- UNITCMD RETRY (R313). -/
def execUnitcmdRetry (s : State) : Host.Outcome State Fault Refusal := .next (s.unitcmd 0)
/-- UNITCMD SKIP (R313). -/
def execUnitcmdSkip (s : State) : Host.Outcome State Fault Refusal := .next (s.unitcmd 1)
/-- UNITCMD REGION (R313). -/
def execUnitcmdRegion (s : State) : Host.Outcome State Fault Refusal := .next (s.unitcmd 2)
/-- UNITCMD KILL (R313). -/
def execUnitcmdKill (s : State) : Host.Outcome State Fault Refusal := .next (s.unitcmd 3)

/-! ### Ownership and command status -/

/-- Does a port hold management ownership (R325)? Ports: 0 A, 1 B, 2 the Ibrum controller; 4 and 5 are ports A and B through the
secure session of a TDISP interface (R307). -/
def owns (s : State) (port : Nat) : Bool := s.mgmtOwner == port % 4 + 1

/-- Does a write come through the secure session of the context's TDISP interface (R307)? -/
def viaSession (port : Nat) : Bool := 4 ≤ port

/-- Set the status of a context's last command: 0 done, 1 refused, 2 resource taken, 3 not owner. -/
def State.ctxStatus (s : State) (n st : Nat) : State := s.modCtx n fun c => { c with status := st }

/-- A command of the management owner (R306); during a live update it is refused (R404). -/
def ctxCommand (s : State) (port n : Nat) (f : Context → State) : State :=
  if !owns s port then s.ctxStatus n 3
  else if s.ibrum.updating then s.ctxStatus n 1
  else f (s.ctx n)

/-- Contexts other than `n` that hold a die of a mask. -/
def holders (s : State) (n mask : Nat) : List Nat :=
  (List.range 64).filter fun m => m != n && (s.ctx m).state.holdsDie && (s.ctx m).partition &&& mask != 0

/-! ### Create, bind, run, free -/

/-- CREATE: registers reset, key table empty, FLAGS 0 (R309). -/
def State.create (s : State) (n : Nat) : State :=
  s.modCtx n fun _ => { Context.reset with state := .created }

/-- Forget every translation of a context on the dies of its partition, or of every context there (R299, R307). -/
def State.clearXlats (s : State) (n : Nat) : State :=
  { s with xlb := s.xlb.filter fun e => !inPartition s n e.die }

/-- The marks of tiles and drain memory of a die go with its engines (R392). -/
def State.moveEngineMarks (s : State) (d dest : Nat) : State :=
  ((s.moveMarks 4 (tilePlace d 0 0 0) (tilePlace 1 0 0 0) (tilePlace dest 0 0 0)).moveMarks
    5 (progPlace d 0 0) (progPlace 1 0 0) (progPlace dest 0 0)).moveMarks 6 (tabPlace d 0 0) (tabPlace 1 0 0) (tabPlace dest 0 0)

/-- The marks of tiles and drain memory of a die go. -/
def State.healEngines (s : State) (d : Nat) : State :=
  ((s.healArr 4 (tilePlace d 0 0 0) (tilePlace 1 0 0 0)).healArr 5 (progPlace d 0 0) (progPlace 1 0 0)).healArr
    6 (tabPlace d 0 0) (tabPlace 1 0 0)

/-- BIND: tiles and drain memory of the partition are reset, translations cleared, the walkers copy the region attribute
file (R307, R288). -/
def State.bind (s : State) (n : Nat) : State :=
  let c := s.ctx n
  let s := s.clearXlats n
  let es := s.engines.map fun e =>
    if inPartition s n e.die then { Engine.reset e.die e.q with lastDone := e.lastDone } else e
  let ds := s.dies.mapIdx fun i d => if inPartition s n i then { d with rafCopy := d.rafCopy.put n c.raf } else d
  let s : State := { (partitionDies s n).foldl State.healEngines s with engines := es, dies := ds }
  s.modCtx n fun c => { c with state := .bound }

/-- Reset and start what waits for a running context: teams, starts, queues. -/
def State.wakeCtx (s : State) (n : Nat) : State :=
  let placed := (s.groups.filter fun g => g.ctx = n && g.state == .placed).map fun g => g.tid
  let s := placed.eraseDups.foldl State.startTeam s
  (s.kickCtx n).schedEv s.now 20 (ev .recordConsume [n])

/-- A queue whose EN is cleared, or whose context is freed, is empty (Table 16.4). -/
def Queue.disabled (x : Queue) : Queue :=
  { x with en := false, err := 0, headRec := none, fetching := false, launches := [], outst := 0, pend := [],
           eligibleAt := none, tail := x.head, blocks := [], behind := false }

/-- FREE: the key table is emptied, the partition released (Table 15.2), queues of the context lose EN and are empty (Table 16.4). -/
def State.freeCtx (s : State) (n : Nat) : State :=
  let s : State := { s with
    queues := s.queues.map fun e => if e.2.ctx = n then (e.1, e.2.disabled) else e
    kernels := s.kernels.map fun k => if k.ctx = n then { k with recNo := 0 } else k }
  let s := s.clearXlats n
  s.modCtx n fun _ => { Context.reset with status := 0 }

/-- CTX_CREATE (Table 15.2); refused while a security alarm is latched (R406). -/
def execCtxCreate (s : State) : Host.Outcome State Fault Refusal :=
  let n := s.num 1
  .next (ctxCommand s (s.num 0) n fun c =>
    if c.state != .free || s.alarmSt.testBit 63 then s.ctxStatus n 1 else s.create n)

/-- CTX_BIND (Table 15.2): status 2 when a die is taken. -/
def execCtxBind (s : State) : Host.Outcome State Fault Refusal :=
  let n := s.num 1
  .next (ctxCommand s (s.num 0) n fun c =>
    if c.state != .created then s.ctxStatus n 1
    else if !(holders s n c.partition).isEmpty then s.ctxStatus n 2
    else (s.bind n).ctxStatus n 0)

/-- CTX_RUN (Table 15.2): for a context bound through TDISP only after START_INTERFACE (Table 15.1). -/
def execCtxRun (s : State) : Host.Outcome State Fault Refusal :=
  let n := s.num 1
  .next (ctxCommand s (s.num 0) n fun c =>
    if c.state != .bound || (c.viaTdisp && c.tdisp ≠ 2) then s.ctxStatus n 1
    else ((s.modCtx n fun c => { c with state := .running, status := 0 }).wakeCtx n))

/-- CTX_FREE (Table 15.2): also of a killed context whose discards are complete. -/
def execCtxFree (s : State) : Host.Outcome State Fault Refusal :=
  let n := s.num 1
  .next (ctxCommand s (s.num 0) n fun c =>
    if c.state == .created || c.state == .bound || (c.state == .killed && !discardsLeft s n) then s.freeCtx n
    else s.ctxStatus n 1)

/-- CTX_RESET: a killed context whose discards are complete is bound again; mappings, keys and memory are kept. DEDUCED: status 2
where another context has taken a die meanwhile, since a die belongs to one bound context (R306; log 125). DESIGN CHOICE: it is no binding
to a partition and leaves drain memory as it is (R269; log 152). -/
def execCtxReset (s : State) : Host.Outcome State Fault Refusal :=
  let n := s.num 1
  .next (ctxCommand s (s.num 0) n fun c =>
    if c.state != .killed || discardsLeft s n then s.ctxStatus n 1
    else if !(holders s n c.partition).isEmpty then s.ctxStatus n 2
    else s.modCtx n fun c => { c with state := .bound, status := 0 })

/-! ### Kill (R318) -/

/-- Does an event of the agenda belong to the swap-out of a context (R315)? -/
def swapsOut (n : Nat) (a : Agenda) : Bool :=
  match a.due with
  | .ev .swapOutComplete x => x.n.headD 0 == n
  | _ => false

/-- The lays of a context that is killed are abandoned, whatever their state (Table 18.6). -/
def killedLays (s : State) (n : Nat) : List Lay :=
  s.lays.map fun y => if y.ctl % 64 = n ∧ y.state ≠ .empty then { y with state := .abandoned } else y

/-- Kill a context: teams without relaunch, held entries, copies, kernels, the shadow image, its translations (Table 14.6); its lays
are abandoned (Table 18.6) and its queues enter error with ERR 6. -/
def State.killCtx (s : State) (n : Nat) : State :=
  let c := s.ctx n
  if !(c.state == .running || c.state == .faulted || c.state == .freezing || c.state == .suspended) then s
  else
    let ks := (s.kernels.filter fun k => k.ctx = n).map fun k => k.kid
    let s := ks.foldl State.abortKernel s
    let s : State := { s with
      queues := s.queues.map fun e => if e.2.ctx = n ∧ e.2.en then (e.1, { e.2 with err := 6 }) else e
      dies := s.dies.map fun d => if d.shadow = some n then { d with shadow := none, claimed := [] } else d
      engines := s.engines.filter fun e => !(16 ≤ e.die && (s.die (e.die - 16)).shadow = some n)
      xlb := s.xlb.filter fun e => e.x.ctx ≠ n
      agenda := s.agenda.filter fun a => !swapsOut n a
      lays := killedLays s n }
    s.modCtx n fun c =>
      { c with state := .killed, graceful := false, image := false, swapped := [], urgent := none }

/-- CTX_KILL (Table 15.2). -/
def execCtxKill (s : State) : Host.Outcome State Fault Refusal :=
  let n := s.num 1
  .next (ctxCommand s (s.num 0) n fun c =>
    if c.state == .running || c.state == .faulted || c.state == .freezing || c.state == .suspended then
      (s.killCtx n).ctxStatus n 0
    else s.ctxStatus n 1)

/-! ### Urgent pre-emption (R315-R317) -/

/-- Does an event of the agenda name the unit it concerns? -/
def unitEvent : Instr → Bool
  | .clauseFetch | .clauseIssue | .leadClauseIssue | .protectedMismatch | .registerLand | .requestPost | .trapFinal
  | .writeDispatch => true
  | _ => false

/-- A unit goes to the shadow store (`b`) or comes back: registers, what waits to land in them, its entries, requests and
marks go with it, so that its slot is free for a unit of another context (R315, R317). -/
def State.moveUnit (s : State) (gid : Nat) (u : UnitId) (b : Bool) : State :=
  let v : UnitId := { u with sh := b }
  let ren (w : UnitId) : UnitId := if w = u then v else w
  let s : State :=
    let t := s.moveMarks 3 (pKey u 0 0) 256 (pKey v 0 0)
    if u.lead then t.moveMarks 2 (gKey u 0) 64 (gKey v 0)
    else (t.moveMarks 0 (vKey u 0 0) 4096 (vKey v 0 0)).moveMarks 1 (sKey u 0) 32 (sKey v 0)
  { s with
    vreg := if u.lead then s.vreg else s.vreg.moveRange (vKey u 0 0) 4096 (vKey v 0 0)
    sreg := if u.lead then s.sreg else s.sreg.moveRange (sKey u 0) 32 (sKey v 0)
    greg := if u.lead then s.greg.moveRange (gKey u 0) 64 (gKey v 0) else s.greg
    preg := s.preg.moveRange (pKey u 0 0) 256 (pKey v 0 0)
    pend := s.pend.map fun w => { w with u := ren w.u }
    units := s.units.map fun x => if x.id = u then { x with id := v } else x
    groups := s.groups.map fun g => if g.gid = gid then
      { g with kLog := g.kLog.map fun c => { c with u := ren c.u }
               bLog := g.bLog.map fun c => { c with u := ren c.u } } else g
    ops := s.ops.map fun o => if o.gid = gid then
      { o with u := ren o.u, binds := o.binds.map fun r => { r with u := ren r.u } } else o
    engines := s.engines.map fun e => { e with rows := e.rows.map fun r => if r.gid = gid then { r with u := ren r.u } else r }
    agenda := s.agenda.map fun a => match a.due with
      | .ev i x => if unitEvent i then { a with due := .ev i { x with u := ren x.u } } else a
      | .slot w n => { a with due := .slot (ren w) n } }

/-- Freeze a group and save its units (Table 7.2, R315); its stopper entries keep their remaining hold (R199). -/
def State.freezeGroup (s : State) (g : Group) : State :=
  if g.state == .running || g.state == .faulted || g.state == .draining then
    let s := (s.modGroup g.gid fun g => { g with before := g.state, state := .frozen, start := s.cyc g.die g.core }).modCore
      g.die g.core fun c => { c with wsh := onChannels g.slots c.wsh fun i _ => c.wptr.getD i 0 }
    (s.unitsOf g.gid).foldl (fun s x => s.moveUnit g.gid x.id true) s
  else s

/-- Is a request one of a context's groups, not yet ended? -/
def passOf (s : State) (n : Nat) (r : PassRow) : Bool :=
  ((1 ≤ r.st && r.st ≤ 4) || r.st == 7) &&
    (match s.group? r.gid with | some g => g.ctx == n && g.state != .discarded | none => false)

/-- At an urgent freeze each request of the context learns the first window at which its warp issues no clause (R259). -/
def State.stopPasses (s : State) (n : Nat) : State :=
  let mark (r : PassRow) : PassRow :=
    if passOf s n r then { r with wn := nextWindow r.u.slot (s.ucyc r.u + 1) } else r
  { s with engines := s.engines.map fun e =>
      if e.die < 16 && inPartition s n e.die then { e with rows := e.rows.map mark } else e }

/-- The cycle of a request's next step (R252, R254). -/
def PassRow.stepAt (r : PassRow) : Nat := (r.t0 + (32 * r.step + r.sigma : Nat)).toNat

/-- Does a request of the context on a die still run towards its freeze point: it has steps before its window, has performed its
last one, or zeroes a tile or loads drain memory? -/
def passRuns (s : State) (n d : Nat) : Bool :=
  s.engines.any fun e => e.die = d && e.rows.any fun r => passOf s n r &&
    !r.await && (s.ucyc r.u < r.wn + 4 ||
      (2 ≤ r.st && r.st ≤ 4 && (r.kind == 2 || r.kind == 4 || (r.st == 3 && r.step == r.n) || (r.st ≤ 3 && r.stepAt < r.wn))))

/-- A frozen request records its state and its distance from the window (R259); a draining one its next row. -/
def PassRow.freeze (r : PassRow) : PassRow :=
  { r with was := r.st, st := 7, await := false,
           delta := if r.await then r.delta else if r.st = 2 ∨ r.st = 3 then r.stepAt - r.wn else 0 }

/-- The engines of a die are swapped out with both tiles and the drain state: they are kept under number 16 + die until the
context resumes (R259). -/
def State.freezePasses (s : State) (n d : Nat) : State :=
  let fr (r : PassRow) : PassRow := if passOf s n r && r.st != 7 then r.freeze else r
  let s := (s.healEngines (16 + d)).moveEngineMarks d (16 + d)
  { s with engines := (s.engines.filter fun e => e.die ≠ 16 + d).map fun e =>
      if e.die = d then
        { e with die := 16 + d, rows := e.rows.map fr, drain := e.drain.map fun x => { x with words := [] } }
      else e }

/-- A lay of an urgently pre-empted context is abandoned (cause 11): no restart tick arms its fallback, and its kernels are aborted when
the context resumes (Table 18.6). -/
def State.abandonLays (s : State) (n : Nat) : State :=
  (List.range 4).foldl (fun s l =>
    let y := s.lay l
    if y.ctl % 64 = n ∧ (y.state == .running || y.state == .faulted || y.state == .resyncing) then
      let s := s.asyncRecord n 9 11 { die := (partitionDies s n).headD 0, core := 0, lead := false, slot := 0 } 0 0 [6]
      let doom (k : Kernel) : Kernel :=
        if k.lay = some l ∧ k.state ≠ .retired ∧ k.state ≠ .aborted then { k with doomed := true } else k
      let s : State := { s with kernels := s.kernels.map doom }
      s.modLay l fun y => { y with state := .abandoned, lastCause := 11, cause := 0, noticed := false }
    else s) s

/-- Schedule an event after an unpublished number of ticks, from 1 to `m`. -/
def State.schedWithin (s : State) (m : Nat) (i : Due) : State :=
  State.schedIn { s with freeCtr := s.freeCtr + 1 } (1 + Config.freeNat s.freeCtr % m) 20 i

/-- Start an urgent freeze: no later window issues (R58, R315); leases of its dies are forfeited (R398). Each die stops its clocks
in its own unpublished time. -/
def State.freeze (s : State) (n : Nat) : State :=
  let s := s.abandonLays n
  let s := s.endLeases n
  let s := s.modCtx n fun c => { c with wasFaulted := c.state == .faulted, state := .freezing, swapped := [] }
  let s := s.stopPasses n
  (partitionDies s n).foldl (fun s d => s.schedWithin 64 (ev .swapOutComplete [n, d])) s

/-- May a context be frozen: no die of its partition holds a suspended image (Table 15.2)? -/
def freezeOk (s : State) (n : Nat) : Bool := (partitionDies s n).all fun d => (s.die d).shadow.isNone

/-- CTX_FREEZE (Table 15.2). -/
def execCtxFreeze (s : State) : Host.Outcome State Fault Refusal :=
  let n := s.num 1
  .next (ctxCommand s (s.num 0) n fun c =>
    if !(c.state == .running || c.state == .faulted) then s.ctxStatus n 1
    else if !freezeOk s n then s.ctxStatus n 2
    else (s.freeze n).ctxStatus n 0)

/-- Is a core of the die still settling: a clause issuing, a fixed-latency result not landed (48 cycles), or a rollback in
its zone (R58, Table 20.2)? -/
def coreBusy (s : State) (x : ExecUnit) : Bool :=
  (x.clause.isSome && x.stop.isNone && x.resume.isNone) || s.ucyc x.id < x.lastIssue + 48 ||
    (s.zone (zoneOf x.id.die x.id.core)).rolling

/-- The clocks of a die stop (R315): groups and requests are frozen, and what the swap-out saves holds from here on; translations
are cleared. -/
def State.gateDie (s : State) (n d : Nat) : State :=
  let s := ((s.groups.filter fun g => g.ctx = n && g.die = d).foldl State.freezeGroup s).freezePasses n d
  State.modDie { s with xlb := s.xlb.filter fun e => e.die ≠ d } d fun x => { x with shadow := some n }

/-- SWAP_OUT_COMPLETE: the clocks of a die stop once its last issued instructions have landed, within 256 cycles of the freeze; a
swap-out takes at most 8 µs from there on; when every die of the partition has finished, the context is suspended (R315). -/
def execSwapOutComplete (s : State) : Host.Outcome State Fault Refusal :=
  let n := s.num 0
  let d := s.num 1
  let c := s.ctx n
  if c.state != .freezing || c.swapped.contains d then .next s
  else if s.num 2 = 1 then
    let s := s.modCtx n fun c => { c with swapped := d :: c.swapped }
    if (partitionDies s n).all fun e => (s.ctx n).swapped.contains e then
      .next (s.modCtx n fun c => { c with state := .suspended, image := true })
    else .next s
  else
    let gs := s.groups.filter fun g => g.ctx = n && g.die = d
    let busy := s.units.any fun x => gs.any (fun g => g.gid == x.gid) && coreBusy s x
    if busy || passRuns s n d then .next (s.schedIn 1 20 (ev .swapOutComplete [n, d]))
    else .next ((s.gateDie n d).schedWithin 16800 (ev .swapOutComplete [n, d, 1]))

/-- Resume a frozen group: each held entry keeps its remaining hold, and each unit its offset to its windows (R199, R317). An
uncorrectable image is read here, and consumed (R392). DESIGN CHOICE: the windows of the frozen time are left out of the
core's idle and busy table; the spec does not say whether a clock-gated core counts them as idle (log 106). -/
def State.thawGroup (s : State) (g : Group) : State :=
  if g.state != .frozen then s
  else
    let now := s.cyc g.die g.core
    let late := now - g.start
    let s := (s.unitsOf g.gid).foldl (fun s x => s.moveUnit g.gid x.id false) s
    let s := (s.modGroup g.gid fun g => { g with state := g.before }).modCore g.die g.core fun c =>
      { c with nextWin := max c.nextWin (now / 16), wptr := onChannels g.slots c.wptr fun i _ => c.wsh.getD i 0 }
    let s : State := { s with ops := s.ops.map fun o =>
      if o.gid = g.gid ∧ o.held = true then { o with leave := o.leave + late } else o }
    let s := (s.ops.filter fun o => o.gid = g.gid && o.held).foldl (fun s o =>
      s.schedCyc g.die g.core o.leave (10 + o.u.rank) (ev .stopperLeave [o.id])) s
    let s := (s.unitsOf g.gid).foldl (fun s x =>
      let s := s.modUnit x.id fun x => { x with
        stop := x.stop.map fun t => { t with due := t.due + late }, holdUntil := now }
      let s := match x.stop with
        | some t =>
          let s := match t.disp with
            | some how => s.schedDisposition x g.ctx how now
            | none => s
          if t.final then s else s.schedCyc g.die g.core (t.due + late) 20 (evU .trapFinal x.id [t.cycle])
        | none => s
      (s.kick x.id).schedWindow x now) s
    let s := if g.before == .draining then s.schedCyc g.die g.core (now + 1) 20 (ev .groupRetire [g.gid]) else s
    if s.arrPoisoned 8 g.gid 1 then (s.healArr 8 g.gid 1).consumeAt { leadId g with sh := false } g.gid 11 0 else s

/-- A request goes on (R259, R282): from its warp's first window that issues a clause, or, of a warp that has ended, from its
next window; a posted request keeps its post cycle; scratch words not yet fetched are fetched again from the next cycle. -/
def State.thawPass (s : State) (d q : Nat) (r : PassRow) : State :=
  let go (x : PassRow) : PassRow := if x.same r then { x with st := r.was, wn := 0, await := r.was ≠ 1 } else x
  let s := s.modEngine d q fun e => { e with rows := e.rows.map go }
  let s := if r.fwords.isEmpty then s
    else s.schedCyc d r.u.core (s.ucyc r.u + 1) 2 (ev .bFetch [d, q, r.row % 16, r.grant])
  let ended' : Bool := match s.unit? r.u with | some x => x.ended | none => true
  if r.was = 1 then s.schedEv s.now 30 (ev .passGrant [d, q])
  else if ended' then s.wakePasses r.u (nextWindow r.u.slot (s.ucyc r.u)) else s

/-- The engines of a die come back from the shadow store and their requests go on; those of groups that have been discarded
meanwhile are gone. -/
def State.thawPasses (s : State) (n d : Nat) : State :=
  let back := s.engines.filter fun e => e.die = 16 + d
  let keep (r : PassRow) : Bool := r.st != 7 || passOf s n r
  let s := (s.healEngines d).moveEngineMarks (16 + d) d
  let s : State := { s with engines :=
    (back.map fun e => { e with die := d, rows := e.rows.filter keep, drain := e.drain.filter fun x => e.rows.any fun r => x.drains r && keep r }) ++ s.engines.filter fun e => e.die ≠ d && e.die ≠ 16 + d }
  back.foldl (fun s e => (e.rows.filter fun r => r.st = 7 && keep r).foldl (fun s r => s.thawPass d e.q r) s) s

/-- RESUME: claimed cores are read back, groups and requests go on, held strike reports apply first (R317); then kernels
of lays abandoned at the freeze are aborted (Table 18.6). -/
def State.resumeCtx (s : State) (n : Nat) : State :=
  let held := (partitionDies s n).filter fun d => (s.die d).shadow = some n
  let s := held.foldl State.readBack s
  let s : State := { s with dies := s.dies.map fun d => if d.shadow = some n then { d with shadow := none } else d }
  let s := s.modCtx n fun c => { c with image := false, swapped := [], graceful := false,
                                        state := if stoppedUnits s n = 0 then .running else .faulted }
  let frozen := s.groups.filter fun g => g.ctx = n && g.state == .frozen
  let s := held.foldl (fun s d => s.thawPasses n d) (frozen.foldl State.thawGroup s)
  -- R317: strike reports held against a frozen zone apply before any window of it issues
  let s := s.zones.foldl (fun s z =>
    match z.heldCut with
    | some (c, src) =>
      if frozen.any fun g => zoneOf g.die g.core = z.zone then
        (s.modZone z.zone fun z => { z with heldCut := none }).sched s.now 2 (ev .strikeReport [z.zone, src, c + 32, 1])
      else s
    | none => s) s
  let ks := (s.kernels.filter fun k => k.ctx = n && k.doomed).map (·.kid)
  (ks.foldl State.abortKernel s).wakeCtx n

/-- May a suspended context resume: its partition is free of other running contexts and its dies have the class of its
kernels (Table 15.2, R397)? -/
def resumeOk (s : State) (n : Nat) : Bool :=
  (holders s n (s.ctx n).partition).isEmpty &&
    (s.kernels.filter fun k => k.ctx = n && (k.state == .running || k.state == .draining)).all (classOk s)

/-- CTX_RESUME (Table 15.2). -/
def execCtxResume (s : State) : Host.Outcome State Fault Refusal :=
  let n := s.num 1
  .next (ctxCommand s (s.num 0) n fun c =>
    if c.state != .suspended || !resumeOk s n then s.ctxStatus n 1 else (s.resumeCtx n).ctxStatus n 0)

/-! ### Graceful pre-emption (R161) -/

/-- Discard the running uncommitted teams of restartable kernels; they form afresh later (R161). -/
def State.discardRestartable (s : State) (n : Nat) : State :=
  let ts := s.teams.filter fun t => t.state == .running && !t.committed &&
    (match s.kernel? t.kid with | some k => k.ctx == n && k.lpb.restart && k.state == .running | none => false) &&
    t.members.any fun m => match s.group? m with | some g => g.state != .placed && g.state != .retired | none => false
  ts.foldl (fun s t =>
    (s.discardTeam t).modTeam t.tid fun t => { t with state := .forming }) s

/-- A request for a graceful suspension has ended: its deadline no longer runs (R161). -/
def State.dropDeadline (s : State) (n : Nat) : State :=
  { s with agenda := s.agenda.filter fun a => a.due != ev .gracefulDeadlineExpiry [n] }

/-- CTX_SUSPEND: placement stops, restartable uncommitted teams are discarded, the others run on; a deadline starts
(R161). -/
def execCtxSuspend (s : State) : Host.Outcome State Fault Refusal :=
  let n := s.num 1
  .next (ctxCommand s (s.num 0) n fun c =>
    if !(c.state == .running || c.state == .faulted) then s.ctxStatus n 1
    else
      let s := s.endLeases n
      let s := ((s.dropDeadline n).modCtx n fun c => { c with graceful := true, status := 0 }).discardRestartable n
      let s := s.schedEv s.now 20 (ev .gracefulComplete [n])
      if c.gdeadline = 0 then s else s.schedIn (1024 * c.gdeadline) 20 (ev .gracefulDeadlineExpiry [n]))

/-- GRACEFUL_COMPLETE: once no group of the context is running, faulted or draining, it is suspended (R161). -/
def execGracefulComplete (s : State) : Host.Outcome State Fault Refusal :=
  let n := s.num 0
  let c := s.ctx n
  if !c.graceful || !(c.state == .running || c.state == .faulted) then .next s
  else
    let busy := s.groups.any fun g => g.ctx = n && (g.state == .running || g.state == .faulted || g.state == .draining)
    if busy then .next (s.schedIn 1 20 (ev .gracefulComplete [n]))
    else .next ((s.dropDeadline n).modCtx n fun c => { c with state := .suspended, graceful := false })

/-- GRACEFUL_DEADLINE_EXPIRY: the deadline ends the request with a forced reset: a record of kind 15 and a kill (R161,
R318). -/
def execGracefulDeadlineExpiry (s : State) : Host.Outcome State Fault Refusal :=
  let n := s.num 0
  if !(s.ctx n).graceful then .next s
  else
    let s := s.asyncRecord n 15 0 { die := (partitionDies s n).headD 0, core := 0, lead := false, slot := 0 } 0 0 []
    let s := s.killCtx n
    .next (s.modCtx n fun c => { c with tdisp := if c.viaTdisp then 3 else c.tdisp })

/-! ### Keys (R308) and TDISP (Table 15.1) -/

/-- The key material in KEYDATA0-7, as one number. -/
def keyMaterial (c : Context) : Nat :=
  (List.range 8).foldl (fun a i => a + Tab.get (0 : Nat) c.keydata i * 2 ^ (64 * i)) 0

/-- In a context bound through TDISP the key table changes only through the secure session of the interface (R307). -/
def keysLocked (c : Context) (port : Nat) : Bool := c.viaTdisp && c.state != .created && !viaSession port

/-- KEYCMD LOAD: the key of the id in KEYSEL (R308); refused to other ports and under a latched alarm (R306, R406). -/
def execKeycmdLoad (s : State) : Host.Outcome State Fault Refusal :=
  let n := s.num 1
  .next (ctxCommand s (s.num 0) n fun c =>
    if c.state == .free || c.keysel = 0 || s.alarmSt.testBit 63 || keysLocked c (s.num 0) then s.ctxStatus n 1
    else s.modCtx n fun c => { c with keys := c.keys.put c.keysel (keyMaterial c), status := 0 })

/-- KEYCMD ERASE empties the id (R308). -/
def execKeycmdErase (s : State) : Host.Outcome State Fault Refusal :=
  let n := s.num 1
  .next (ctxCommand s (s.num 0) n fun c =>
    if c.state == .free || keysLocked c (s.num 0) then s.ctxStatus n 1
    else s.modCtx n fun c => { c with keys := c.keys.del c.keysel, status := 0 })

/-- LOCK_INTERFACE_REQUEST: BIND by the management owner (R306); the configuration is locked (Table 15.1). -/
def execTdispLockInterface (s : State) : Host.Outcome State Fault Refusal :=
  let n := s.num 1
  let c := s.ctx n
  .next (if owns s (s.num 0) && c.state == .created && c.tdisp = 0 && (holders s n c.partition).isEmpty then
      (s.bind n).modCtx n fun c => { c with viaTdisp := true, tdisp := 1 }
    else s)

/-- START_INTERFACE_REQUEST: RUN becomes permitted (Table 15.1). -/
def execTdispStartInterface (s : State) : Host.Outcome State Fault Refusal :=
  let n := s.num 1
  .next (if (s.ctx n).tdisp = 1 then s.modCtx n fun c => { c with tdisp := 2 } else s)

/-- STOP_INTERFACE_REQUEST of the management owner (R306): KILL, then FREE once killed (Table 15.1); the event repeats, with a
third operand 1, until the discards are complete. -/
def execTdispStopInterface (s : State) : Host.Outcome State Fault Refusal :=
  let n := s.num 1
  let c := s.ctx n
  let again := s.num 2 = 1
  .next (if !c.viaTdisp || (if again then c.state != .killed else !owns s (s.num 0)) then s
    else
      let s := if again then s else s.killCtx n
      if (s.ctx n).state == .killed && discardsLeft s n then s.schedIn 1 20 (ev .tdispStopInterface [s.num 0, n, 1])
      else s.freeCtx n)

/-! ### Host shoot-downs (R298) -/

/-- TINVC_START: a host starts a shoot-down of TINVA for a page count and kind. -/
def execTinvcStart (s : State) : Host.Outcome State Fault Refusal :=
  let n := s.num 1
  let v := s.num 2
  let c := s.ctx n
  .next (if !c.state.holdsDie && c.state != .suspended then s.ctxStatus n 1
    else if c.tinvBusy || v % 4 = 3 then s
    else
      let s := s.modCtx n fun c => { c with tinvBusy := true, tinvc := v }
      s.startShoot n (queueDie s n) (v % 4) c.tinva (bits v 32 32) 0)

end Sys2Proof.Machine
end

