-- ==== Sys2Proof/Machine/Control.lean ====
section
/-! DEFINITION. Control instructions of group 6 (R141-R145): each chooses where the issuing sub-gang or lead stream goes at
the clause boundary. A lead instruction whose guard is false falls through. -/

namespace Sys2Proof.Machine

/-- Choose the transfer of the clause being issued. -/
def setXfer (s : State) (u : UnitId) (x : Xfer) : State :=
  s.modUnit u fun y => { y with clause := y.clause.map fun r => { r with xfer := x } }

/-- The address of the clause after the one being issued. -/
def nextOf (c : Cur) : Nat := nextHeader (c.pc - 8 * (c.idx + 1)) c.hdr

/-- A branch target (R33), modulo 2^64. -/
def branchTarget (c : Cur) (off : BitVec 32) : Nat := wrap 64 ((nextOf c : Int) + 8 * off.toInt)

/-- Send the whole sub-gang to `pc` when `t` holds. -/
def goIf (s : State) (c : Cur) (t : Bool) (pc : Nat) : State := if t then setXfer s c.u (.goto pc) else s

/-- Does the guard let the transfer act (R141)? In warp clauses PRD is 0. -/
def xferOk (s : State) (c : Cur) (g : Guard) : Bool := !c.u.lead || guardLead s c.u g

/-- The quads of the issuing sub-gang. -/
def curQuads (c : Cur) : List Nat := (List.range 8).filter fun q => c.quads.getLsbD q

/-- The lowest physical lane of a quad: visible lane 4q (R126, R142). -/
def quadLane (s : State) (c : Cur) (q : Nat) : Nat := if protOf s c.u then 8 * q else 4 * q

/-- Every physical lane of a quad. -/
def quadAll (s : State) (c : Cur) (q : Nat) : List Nat :=
  (List.range (if protOf s c.u then 8 else 4)).map fun i => quadLane s c q + i

/-- Does a quad take BRQ (R142)? -/
def brqTaken (s : State) (c : Cur) (w : BF) (q : Nat) : Bool :=
  let ls := (quadAll s c q).filter fun l => (realLanes s c w.g).contains l
  let vs := ls.map fun l => s.p c.u (w.cond.toNat % 8) l != w.cond.getLsbD 3
  !ls.isEmpty && (if w.cond.getLsbD 4 then vs.all id else vs.any id)

/-- RET, and JMPX with a V operand: each quad goes to the address its lane 4q holds; a lead stream to its G register. -/
def indirect (s : State) (c : Cur) (a : Nat) : State :=
  if isS c.u.lead a then setXfer s c.u (.goto (readU s c a).toNat)
  else setXfer s c.u (.quads ((curQuads c).map fun q => (q, (readField s c a (quadLane s c q) true).toNat)))

/-- BRA (R142). -/
def execBra (w : BF) (s : State) : Host.Outcome State Fault Refusal :=
  issue (.bra w) s fun c =>
    goIf s c (xferOk s c w.g) (branchTarget c w.off)

/-- BRQ: per quad by vote; a lead stream tests its predicate once (R142). -/
def execBrq (w : BF) (s : State) : Host.Outcome State Fault Refusal :=
  issue (.brq w) s fun c =>
    let t := branchTarget c w.off
    if c.u.lead then
      goIf s c (xferOk s c w.g && (s.p c.u (w.cond.toNat % 8) 0 != w.cond.getLsbD 3)) t
    else setXfer s c.u (.quads ((curQuads c).map fun q => (q, if brqTaken s c w q then t else nextOf c)))

/-- BRD: pop the decision queue as DQPOP does and branch on the entry (R142). -/
def execBrd (w : BF) (s : State) : Host.Outcome State Fault Refusal :=
  issue (.brd w) s fun c =>
    match (s.unit? c.u).bind fun x => dqHead x c.cycle with
    | none => underrun s c
    | some v => goIf (dqDrop s c.u) c ((v != 0) != w.cond.getLsbD 0) (branchTarget c w.off)

/-- BRS: a signed 64-bit value against zero (R142). -/
def execBrs (w : BF) (s : State) : Host.Outcome State Fault Refusal :=
  issue (.brs w) s fun c =>
    goIf s c (xferOk s c w.g && intCond (w.cond.toNat % 8) (readU s c w.a.toNat).toInt 0) (branchTarget c w.off)

/-- CALL: the next-clause address goes to pair A in every lane of the quads, or to G; then branch (R142). -/
def execCall (w : BF) (s : State) : Host.Outcome State Fault Refusal :=
  issue (.call w) s fun c =>
    if !xferOk s c w.g then s
    else
      let v := BitVec.ofNat 64 (nextOf c)
      let ls := if c.u.lead then [0] else (curQuads c).flatMap (quadAll s c)
      setXfer (ls.foldl (fun t l => landField t c w.a.toNat l true v (c.cycle + 4) 0) s) c.u
        (.goto (branchTarget c w.off))

/-- RET (R142). -/
def execRet (w : RF) (s : State) : Host.Outcome State Fault Refusal :=
  issue (.ret w) s fun c =>
    if xferOk s c w.g then indirect s c w.a.toNat else s

/-- JMPX (R142). -/
def execJmpx (w : RF) (s : State) : Host.Outcome State Fault Refusal :=
  issue (.jmpx w) s fun c =>
    if xferOk s c w.g then indirect s c w.a.toNat else s

/-- REGANG: the sub-gang waits with its mask and merges at the clause boundary (R143); a fall-through for a lead stream. -/
def execRegang (w : IF) (s : State) : Host.Outcome State Fault Refusal :=
  issue (.regang w) s fun c =>
    if c.u.lead then s else setXfer s c.u (.regang (w.imm.setWidth 8))

/-- EXIT: mark the active lanes; once every live lane of the warp is marked they leave EXEC (R144). A lead stream whose
guard holds ends. -/
def execExit (w : RF) (s : State) : Host.Outcome State Fault Refusal :=
  issue (.exit w) s fun c =>
    if c.u.lead then
      if guardLead s c.u w.g then s.modUnit c.u fun x => { x with ended := true } else s
    else
      let m := maskPhys (activeLanes s c w.g)
      s.modUnit c.u fun x =>
        let mk := x.marked ||| m
        if x.exec &&& ~~~mk = 0 then { x with marked := mk, exec := 0 } else { x with marked := mk }

/-- NOP: no effect (R145). -/
def execNop (w : RF) (s : State) : Host.Outcome State Fault Refusal :=
  issue (.nop w) s fun _ => s

end Sys2Proof.Machine
end

