-- ==== Sys2Proof/Machine/Queue.lean ====
section
/-! DEFINITION. Queues: management ownership (R325), queue registers (R326), doorbells (R327, R328), launch records and their
consumption (R329-R331), the life of a queue (R332) and the urgent launch (R333). -/

namespace Sys2Proof.Machine

/-! ### MGMTSEM (R325) -/

/-- ACQUIRE: port A wins when both ports write at the same time. -/
def execMgmtsemAcquire (s : State) : Host.Outcome State Fault Refusal :=
  let p := s.num 0
  let earlier := s.agenda.any fun a => a.at' == s.now && match a.due with
    | .ev .mgmtsemAcquire x => x.n.getD 0 0 < p
    | _ => false
  .next (if earlier then s.sched s.now 20 (ev .mgmtsemAcquire [p])
    else if s.mgmtOwner ≠ 0 then s
    else { s with mgmtOwner := p + 1, mgmtGen := (s.mgmtGen + 1) % 2 ^ 32 })

/-- RELEASE: only from the owner. -/
def execMgmtsemRelease (s : State) : Host.Outcome State Fault Refusal :=
  .next (if s.mgmtOwner = s.num 0 + 1 then { s with mgmtOwner := 0 } else s)

/-- OWNER_PORT_LINK_DOWN: the owner port's link is down and the Ibrum controller clears OWNER. -/
def execOwnerPortLinkDown (s : State) : Host.Outcome State Fault Refusal :=
  .next (if s.mgmtOwner = 1 ∨ s.mgmtOwner = 2 then { s with mgmtOwner := 0 } else s)

/-! ### State of a queue (R332) -/

/-- Ask for consumption at the next tick. -/
def State.kickQueue (s : State) (q : Nat) : State := s.schedEv s.now 20 (ev .recordConsume [(s.queue q).ctx])

/-- Slots of a ring. -/
def Queue.slots (x : Queue) : Nat := 2 ^ x.size

/-- Unconsumed ring records. -/
def Queue.waiting (x : Queue) : Nat := (x.tail + 65536 - x.head) % 65536

/-- The head of a queue: its four words, and the LAUNCH operation it stands for or 0 (R343). -/
def queueHead (s : State) (x : Queue) : Option (List Nat × Nat) :=
  match x.launches with
  | i :: _ =>
    match s.op? i with
    | some o => some ([1 + 16 * o.args.getD 2 0, 0, o.args.getD 0 0, 0], i)
    | none => none
  | [] => x.headRec.map fun w => (w, 0)

/-- Is a record malformed (R330)? -/
def malformed (s : State) (x : Queue) (w : List Nat) : Bool :=
  let w0 := w.getD 0 0
  let ty := w0 % 16
  let dep := w0.testBit 5
  let d := s.queue (bits w0 8 8)
  bits w0 16 48 != 0 || 3 ≤ ty || (!dep && w.getD 1 0 != 0) || bits (w.getD 2 0) 56 8 != 0 ||
    (ty != 2 && w.getD 3 0 != 0) || (ty == 2 && w.getD 2 0 % 8 != 0) || (w0.testBit 6 && (ty != 1 || !x.urgok)) || (dep && (!d.en || d.ctx != x.ctx))

/-- Has every predecessor kernel of a queue been triggered (R339)? -/
def predsTriggered (s : State) (q : Nat) : Bool :=
  (s.kernels.filter fun k => k.q = q && k.recNo ≠ 0 && k.state != .retired && k.state != .aborted).all Kernel.triggered

/-- The block of the head as it was read, `op` being its LAUNCH or 0 (R341). -/
def Queue.block (x : Queue) (op : Nat) : Option (List Nat) := (x.blocks.get? op).getD none

/-- Is the SER dependence of a record met (R330, R339)? -/
def serMet (s : State) (q : Nat) (x : Queue) (h : List Nat × Nat) : Bool :=
  !(h.1.getD 0 0).testBit 4 || x.outst == 0 ||
    (h.1.getD 0 0 % 16 == 1 && predsTriggered s q &&
      (match x.block h.2 with | some w => (w.getD 7 0).testBit 5 | none => false))

/-- Is a record urgent? -/
def isUrgent (w : List Nat) : Bool := (w.getD 0 0).testBit 6

/-- May an urgent head act: its context is created with PARTITION set, or its freeze, bind and run are under way (R333)? -/
def mayUrge (s : State) (q : Nat) (x : Queue) : Bool :=
  let c := s.ctx x.ctx
  (c.state == .created && c.partition != 0) || c.urgent == some q

/-- Is the head, with its LAUNCH or 0, eligible (R330)? An urgent one is without regard to the context state (R333). -/
def headEligible (s : State) (q : Nat) (x : Queue) (h : List Nat × Nat) : Bool :=
  let w := h.1
  let w0 := w.getD 0 0
  (ctxRuns s x.ctx || (isUrgent w && mayUrge s q x)) && serMet s q x h &&
    (!w0.testBit 5 || w.getD 1 0 ≤ (s.queue (bits w0 8 8)).done) &&
    (w0 % 16 != 2 || !s.kernels.any fun k => k.q = q && k.recNo ≠ 0 && k.state != .retired && k.state != .aborted)

/-- QSTAT (Table 16.2): 0 empty, 1 armed, 2 running, 3 stalled, 4 error, with ERR. -/
def queueStat (s : State) (q : Nat) : Nat :=
  let x := s.queue q
  if x.err ≠ 0 then 4 + 256 * x.err
  else
    match queueHead s x with
    | some h => if headEligible s q x h then 1 else 3
    | none => if x.waiting ≠ 0 then 3 else if x.outst ≠ 0 then 2 else 0

/-- QCFG as it reads (Table 16.2). -/
def Queue.cfg (x : Queue) : Nat :=
  x.ctx + x.size * 64 + x.port * 2048 + x.pri * 4096 + (if x.urgok then 16384 else 0) + (if x.en then 32768 else 0) +
    x.vec * 65536

/-- Records of a queue that stops no longer count with it (Table 16.4). -/
def State.detachQueue (s : State) (q : Nat) : State :=
  { s with kernels := s.kernels.map fun k => if k.q = q then { k with recNo := 0 } else k }

/-- A QCFG write (R326). DESIGN CHOICE: a LAUNCH that waits at a queue whose EN is cleared reports cause 1, as one that finds it
not enabled (log 129). -/
def State.qcfgWrite (s : State) (port q v : Nat) : State :=
  let x := s.queue q
  let size := bits v 6 5
  let ctx := v % 64
  let en := v.testBit 15
  if !owns s port || 2 ^ 27 ≤ v || size < 4 || 16 < size then s
  else if x.en && (size ≠ x.size || ctx ≠ x.ctx) then s
  else if !x.en && en && (s.ctx ctx).state == .free then s
  else
    let y : Queue := { x with ctx := ctx, size := size, port := bits v 11 1, pri := bits v 12 2, urgok := v.testBit 14,
                              vec := bits v 16 11, en := en }
    if en && !x.en then
      ((s.detachQueue q).modQueue q fun _ =>
        { Queue.reset with ctx := ctx, size := size, port := y.port, pri := y.pri, urgok := y.urgok, vec := y.vec,
                           en := true, base := x.base, stale := x.stale }).kickQueue q
    else if !en && x.en then x.launches.foldl (fun s i => s.launchResult i 1) ((s.detachQueue q).modQueue q fun _ => y.disabled)
    else (s.modQueue q fun _ => y).kickQueue q

/-- QCFG_WRITE (R326). -/
def execQcfgWrite (s : State) : Host.Outcome State Fault Refusal := .next (s.qcfgWrite (s.num 0) (s.num 1) (s.num 2))

/-- QCMD CLEAR: an error queue drops its unconsumed records (Table 16.4). -/
def execQcmdClear (s : State) : Host.Outcome State Fault Refusal :=
  let q := s.num 1
  .next (if (s.queue q).err = 0 then s
    else (s.modQueue q fun x => { x with head := x.tail, err := 0, headRec := none, eligibleAt := none, behind := false }).kickQueue q)

/-- QCMD SKIP: past the record that failed, for ERR 2, 3 and 8 (Table 16.4). DESIGN CHOICE: a SIGNAL whose write faulted after its
consumption lies behind QHEAD already, which stays (log 130). -/
def execQcmdSkip (s : State) : Host.Outcome State Fault Refusal :=
  let q := s.num 1
  let e := (s.queue q).err
  .next (if e = 2 ∨ e = 3 ∨ e = 8 then
      (s.modQueue q fun x =>
        { x with head := if x.behind then x.head else (x.head + 1) % 65536, err := 0, headRec := none, eligibleAt := none,
                 behind := false }).kickQueue q
    else s)

/-! ### Doorbells (R327, R328) -/

/-- Apply a doorbell with tail `v` from context `n` to queue `q` (R327). -/
def State.doorbell (s : State) (n q v : Nat) : State :=
  let x := s.queue q
  if !x.en || x.ctx ≠ n then s
  else
    let v := v % 65536
    let c := x.waiting
    let d := (v + 65536 - x.head) % 65536
    if c ≤ d ∧ d ≤ x.slots then (s.modQueue q fun x => { x with tail := v }).kickQueue q
    else if d < c ∨ (x.head + 65536 - v) % 65536 ≤ x.slots then
      s.modQueue q fun x => { x with stale := min 65535 (x.stale + 1) }
    else s.queueErr q 1

/-- Place of a doorbell among those of one cycle: host ports in their order, then device doorbells by die, core and unit (R327).
Operands: context, queue, tail, the operation of a device doorbell or 0, the port of a host's. -/
def doorbellRank (s : State) (n : List Nat) : Nat :=
  match s.op? (n.getD 3 0) with
  | some o => 4 + (o.u.die * 256 + o.u.core) * 8 + o.u.rank
  | none => n.getD 4 0 % 4

/-- Is an offset of BAR0 that of a doorbell register DBq of a context (Table 15.5)? -/
def bellWrite (off : Nat) : Bool :=
  decide (0x100000 ≤ off ∧ off < 0x100000 + 64 * 65536) && decide (0x400 ≤ off % 65536 / 8 ∧ off % 65536 / 8 < 0x500)

/-- DOORBELL: applied in order of arrival; a device doorbell's counter falls when it is applied or dropped (R327, R328). -/
def execDoorbell (s : State) : Host.Outcome State Fault Refusal :=
  let op := s.num 3
  let later := s.agenda.any fun a => a.at' == s.now && match a.due with
    | .ev .doorbell x => doorbellRank s x.n < doorbellRank s s.arg.n
    | .ev .registerWrite x => x.n.headD 3 < doorbellRank s s.arg.n && bellWrite (x.n.getD 1 0)
    | _ => false
  if later then .next (s.sched s.now 20 (ev .doorbell s.arg.n))
  else
    let s := s.doorbell (s.num 0) (s.num 1) (s.num 2)
    .next (if op = 0 then s else
      match s.op? op with
      | some o => (s.complete op).kick o.u
      | none => s)

/-! ### Fetching and consuming -/

/-- RECORD_FETCH: the head record is read through the context's translation: ERR 3 when it cannot be, ERR 2 when it is
malformed (R330); the block of a KERNEL record is read with it (R341). -/
def execRecordFetch (s : State) : Host.Outcome State Fault Refusal :=
  let q := s.num 0
  let x := s.queue q
  if !x.fetching then .next s
  else
    let s := s.modQueue q fun x => { x with fetching := false }
    if !x.en || x.err ≠ 0 || x.waiting = 0 then .next s
    else
      let r := s.vreadWords x.ctx (x.base + 32 * (x.head % x.slots)) 4
      match r.1 with
      | none => .next (r.2.queueErr q 3)
      | some w =>
        .next (if malformed r.2 x w then r.2.queueErr q 2
          else
            let b := if w.getD 0 0 % 16 = 1 then r.2.readBlock x.ctx (w.getD 2 0) else (none, r.2)
            (b.2.modQueue q fun x => { x with headRec := some w, blocks := x.blocks.put 0 b.1 }).kickQueue q)

/-- The head has been consumed: a LAUNCH leaves its place, a ring record advances QHEAD (R330, R343). -/
def State.headGone (s : State) (q op : Nat) : State :=
  s.modQueue q fun x =>
    if op ≠ 0 then { x with launches := x.launches.drop 1, eligibleAt := none, blocks := x.blocks.del op }
    else { x with head := (x.head + 1) % 65536, headRec := none, eligibleAt := none, blocks := x.blocks.del 0 }

/-- The queue block as the issuer of a queue's SIGNAL writes: what one queue writes goes in its order (R330). -/
def signalUnit (s : State) (q ctx : Nat) : UnitId := { die := queueDie s ctx, core := queueCore, lead := false, slot := q }

/-- A SIGNAL's write: one 8-byte store of VALUE by the queue block, a release at POD scope, in its outbound queue (R330). -/
def signalOp (s : State) (q seq ctx addr v : Nat) (t : Xlat) : Op :=
  let u := signalUnit s q ctx
  { id := 0, u := u, gid := 0, ctx := ctx, kind := .store, fn := 0, ty := 0, size := 8, ord := 3, sco := 4,
    issue := s.ucyc u, pc := 0, seq := seq, ordinal := 0, k := none, bar := none, dest := 0xFF, helpers := 0,
    lanes := [{ laneReq 0 addr v 0 with xl := some { t with dirty := true }, st := .ready }], stage := .released, leave := 0,
    clock := [], front := [], kdone := false, binds := [], args := [], copy := none, doneAt := 0, fwd := 0, mism := false }

/-- Consume an eligible head (R330): a refused block and an untranslatable SIGNAL put the queue into error. The write of a SIGNAL is
dispatched an unpublished time later. -/
def State.consumeHead (s : State) (q : Nat) (w : List Nat) (op : Nat) : State :=
  let x := s.queue q
  let w0 := w.getD 0 0
  let irq := w0.testBit 7
  let n := x.taken + 1
  let take (s : State) : State := (s.headGone q op).modQueue q fun x => { x with taken := n, outst := x.outst + 1 }
  match w0 % 16 with
  | 0 => (take s).completeRecord q n irq
  | 1 =>
    let start := match s.op? op with | some o => o.args[3]? | none => none
    let r := s.defineKernel x.ctx q n op (w.getD 2 0) (x.block op) start irq
    if r.1 = 0 then (if op = 0 then take r.2 else (take r.2).launchResult op 0)
    else if op = 0 then r.2.queueErr q 8
    else (r.2.headGone q op).launchResult op r.1
  | _ =>
    let a := w.getD 2 0
    let r := s.qwalk x.ctx a true
    match r.1.xl with
    | some t =>
      if !t.w then r.2.queueErr q 3
      else
        let f := (take r.2).fresh
        let s := (f.2.addOp { signalOp f.2 q f.1 x.ctx a (w.getD 3 0) t with id := f.1 }).modQueue q fun x =>
          { x with pend := x.pend ++ [(f.1, irq)] }
        s.schedFree 20 (evU .writeDispatch (signalUnit s q x.ctx) [])
    | none => r.2.queueErr q 3

/-- SIGNAL records whose write is visible complete (R330). -/
def State.settleSignals (s : State) (q : Nat) : State :=
  let done := (s.queue q).pend.filter fun p => match s.op? p.1 with | some o => !o.live | none => true
  done.foldl (fun s p =>
    (s.modQueue q fun x => { x with pend := x.pend.erase p }).completeRecord q p.1 p.2) s

/-- The freezes of an urgent launch, in context order; none when one of them is refused (R333). -/
def State.urgentFreeze (s : State) (ns : List Nat) : Option State :=
  ns.foldl (fun a n => match a with
    | none => none
    | some s => if freezeOk s n then some (s.freeze n) else none) (some s)

/-- An eligible urgent head whose context does not run yet (R333): freeze the contexts on its dies; once they are suspended, bind
and run its own. -/
def State.urge (s : State) (q : Nat) (x : Queue) : State :=
  let u := x.ctx
  let c := s.ctx u
  if c.urgent = some q then
    if c.state == .created && (holders s u c.partition).isEmpty then
      ((s.bind u).modCtx u fun c => { c with state := .running }).wakeCtx u
    else s
  else
    let ns := (holders s u c.partition).filter fun n => ctxRuns s n
    match s.urgentFreeze ns with
    | none => s.queueErr q 7
    | some s => s.modCtx u fun c => { c with urgent := some q }

/-- An urgent head on a queue whose URGOK has been cleared, or of a context in a state in which it cannot act, is malformed (R326,
R330, R333). -/
def State.judgeUrgent (s : State) (q : Nat) : State :=
  let x := s.queue q
  match queueHead s x with
  | some h => if isUrgent h.1 && x.err == 0 && (!x.urgok || !mayUrge s q x) then s.queueErr q 2 else s
  | none => s

/-- An urgent launch under way ends with its queue's error, or with the queue (R332, R333). -/
def State.dropUrgent (s : State) (n : Nat) : State :=
  match (s.ctx n).urgent with
  | some q =>
    let x := s.queue q
    let goes := x.en && x.ctx == n && x.err == 0 && (match queueHead s x with | some h => isUrgent h.1 | none => true)
    if goes then s else s.modCtx n fun c => { c with urgent := none }
  | none => s

/-- The queues of a context with a head, and when each became eligible, kept up to date (R331). -/
def State.updEligible (s : State) (q : Nat) : State :=
  let x := s.queue q
  match queueHead s x with
  | none => s
  | some h =>
    if headEligible s q x h && x.err = 0 then
      (if x.eligibleAt.isSome then s else s.modQueue q fun x => { x with eligibleAt := some s.now })
    else s.modQueue q fun x => { x with eligibleAt := none }

/-- A queue whose head names a dependence queue that is not enabled for its context, or is in error, enters error (R330, Table
16.4). -/
def State.depError (s : State) (q : Nat) : State :=
  let x := s.queue q
  match queueHead s x with
  | some h =>
    let d := s.queue (bits (h.1.getD 0 0) 8 8)
    if !(h.1.getD 0 0).testBit 5 then s else if !d.en || d.ctx ≠ x.ctx then s.queueErr q 2
    else if d.err ≠ 0 then s.queueErr q 4 else s
  | none => s

/-- Does queue `a` go before queue `b`: PRI, then eligible earlier, then lower number (R331)? -/
def queueBefore (s : State) (a b : Nat) : Bool :=
  let x := s.queue a
  let y := s.queue b
  let t (z : Queue) : Nat := z.eligibleAt.getD 0
  y.pri < x.pri || (x.pri = y.pri && (t x < t y || (t x = t y && a < b)))

/-- The head consumed at a tick: of the eligible heads the one that R331 puts first. While an urgent launch is under way, no other
urgent head acts. -/
def headToTake (s : State) (n : Nat) (qs : List Nat) : Option Nat :=
  let turn (q : Nat) : Bool := match queueHead s (s.queue q), (s.ctx n).urgent with
    | some h, some r => !isUrgent h.1 || q == r
    | _, _ => true
  (qs.filter fun q => (s.queue q).err == 0 && (s.queue q).eligibleAt.isSome && turn q).foldl (fun a q => match a with
    | none => some q
    | some b => if queueBefore s q b then some q else some b) none

/-- Take the head of a queue: an urgent one whose context does not run yet acts (R333), any other is consumed, and the next tick is
the first at which a queue of the context consumes again (R331). -/
def State.takeHead (s : State) (n q : Nat) : State :=
  match queueHead s (s.queue q) with
  | none => s
  | some h =>
    if !ctxRuns s n then s.urge q (s.queue q)
    else (s.consumeHead q h.1 h.2).modCtx n fun c =>
      { c with urgent := if c.urgent = some q ∧ isUrgent h.1 = true then none else c.urgent
               nextTick := (s.now / Config.unitsPerTick + 1) * Config.unitsPerTick }

/-- RECORD_CONSUME: at a tick, at most one record of a context is consumed (R331). Heads not yet read are fetched. No record is
consumed during a live update (R404). -/
def execRecordConsume (s : State) : Host.Outcome State Fault Refusal :=
  let n := s.num 0
  let tick := max (s.ctx n).nextTick ((s.now + Config.unitsPerTick - 1) / Config.unitsPerTick * Config.unitsPerTick)
  if s.now < tick then .next (s.schedEv tick 20 (ev .recordConsume [n]))
  else
    let qs := (List.range 256).filter fun q => (s.queue q).en && (s.queue q).ctx == n
    let s := qs.foldl State.settleSignals s
    let s := qs.foldl (fun s q =>
      let x := s.queue q
      if x.err = 0 && x.waiting ≠ 0 && x.headRec.isNone && !x.fetching then
        (s.modQueue q fun x => { x with fetching := true }).schedFree 20 (ev .recordFetch [q])
      else s) s
    let s := (qs.foldl (fun s q => (s.depError q).judgeUrgent q) s).dropUrgent n
    let s := qs.foldl State.updEligible s
    let s := match if s.ibrum.paused then none else headToTake s n qs with
      | some q => s.takeHead n q
      | none => s
    let more := qs.any fun q =>
      let x := s.queue q
      !x.pend.isEmpty || (x.err = 0 && (x.waiting ≠ 0 || !x.launches.isEmpty))
    .next (if more then s.schedIn 1 20 (ev .recordConsume [n]) else s)

end Sys2Proof.Machine
end

