-- ==== Sys2Proof/Machine/Clock.lean ====
section
/-! DEFINITION. Clocks of a die (R13, R397, R398), corrections of TIME (R346) and the origin die of the module (R18). -/

namespace Sys2Proof.Machine

/-! ### Clocks of a die (R13, R397, R398) -/

/-- The core whose cycles an entry of the agenda was placed by, if it was. -/
def dueCore (s : State) (d : Due) : Option (Nat × Nat) :=
  let unit (u : UnitId) : Option (Nat × Nat) := some (u.die, u.core)
  let op (i : Nat) : Option (Nat × Nat) := (s.op? i).map fun o => (o.u.die, o.u.core)
  let grp (i : Nat) : Option (Nat × Nat) := (s.group? i).map fun g => (g.die, g.core)
  match d with
  | .slot u _ => unit u
  | .ev i a =>
    let n := a.n.getD 0 0
    let at' (r : Nat) : Option (Nat × Nat) := some (n, (quartetCores (a.n.getD 1 0)).getD (r % 16 / 4) 0)
    let row := at' (a.n.getD 2 0)
    let drain := (s.engine n (a.n.getD 1 0)).drain.bind fun d => at' d.row
    match i with
    | .clauseFetch => unit a.u
    | .registerLand => unit a.u
    | .clauseIssue => unit a.u
    | .leadClauseIssue => unit a.u
    | .trapFinal => unit a.u
    | .protectedMismatch => unit a.u
    | .writeDispatch => unit a.u
    | .requestPost => unit a.u
    | .trigSignal => op n
    | .sysrdComplete => op n
    | .stopperLeave => op n
    | .dualRunMismatch => op n
    | .teamLoadComplete => op n
    | .copyUnitDeliver => op n
    | .writeAck => if 256 ≤ a.n.getD 1 0 then op n else none
    | .teamLoadServe => (s.op? n).map fun o => (o.u.die, match o.lanes.find? (fun l => l.lane == a.n.getD 1 0) with
        | some l => teamCore s o.u l.addr
        | none => o.u.core)
    | .teamStoreApply => (s.op? n).map fun o => (o.u.die, a.n.getD 1 0)
    | .groupStart => grp n
    | .groupRetire => grp n
    | .teamBarrierNotify => (s.team? n).bind fun t => (t.members.findSome? s.group?).map fun g => (g.die, g.core)
    | .teamBarrierApply => op n
    | .rollbackEnd => some (n / 64, quartetCore (n % 64))
    | .passGrant => some (n, quartetCore (a.n.getD 1 0))
    | .passStep => row
    | .bFetch => row
    | .mzeroComplete => row
    | .drainStart => row
    | .passComplete => row
    | .dploadWrite => row
    | .drainRow => drain
    | .drainWrite => drain
    | _ => none

/-- Die `d` runs from local time `a`, where cycle `c` begins, at `upc` units a cycle; entries that its later cycles placed, by
the clock and the path distances of `old`, move with them. -/
def State.reclockFrom (s old : State) (d a c upc : Nat) : State :=
  let s := s.modDie d fun x => { x with anchor := a, anchorCyc := c, upc := upc,
                                        past := (x.anchor, x.anchorCyc, x.upc) :: x.past.take 3 }
  let new := s.die d
  let move (e : Agenda) : Agenda :=
    match dueCore s e.due with
    | some (die, core) =>
      let y := (old.die d).cycleLocal (e.at' - Config.unitsPerTick * coreDist old die core)
      if die = d ∧ c ≤ y then
        { e with at' := max s.now (new.cycleStart y + Config.unitsPerTick * coreDist s die core) }
      else e
    | none => e
  let s : State := { s with agenda := s.agenda.foldl (fun l e => insertAgenda (move e) l) [] }
  (s.heldFlags.filter fun h => h.die = d).foldl (fun s h =>
    s.schedCyc d h.core (h.cycle + Config.hold) 20 (ev .flagReachContext [d, h.q])) s

/-- `reclockFrom` with no change of path distances (R397, R398). -/
def State.reclock (s : State) (d a c upc : Nat) : State := s.reclockFrom s d a c upc

/-- Local time of a die now, in model units (core 0). -/
def dieNow (s : State) (d : Nat) : Nat := s.now - Config.unitsPerTick * coreDist s d 0

/-- The first local time at or after `t`, in model units, at which local TIME is a multiple of 64 (R13). -/
def pulseAt (s : State) (t : Nat) : Nat :=
  let m := (t + Config.unitsPerTick - 1) / Config.unitsPerTick
  ((m + s.timeAdj + 63) / 64 * 64 - s.timeAdj) * Config.unitsPerTick

/-- The next rotation phase 0 of a die. -/
def nextPhase (s : State) (d : Nat) : Nat := ((s.die d).cycleLocal (dieNow s d) / 64 + 1) * 64

/-- A new start pulse in the die's class (R397). -/
def State.startPulse (s : State) (d : Nat) : State :=
  s.reclock d (pulseAt s (dieNow s d)) (nextPhase s d) (Config.unitsPerCycle (s.die d).cls)

/-- The end of a lease: the die finishes its rotation at 2.3 GHz and holds its clock until local TIME is a multiple of 64
(R398). -/
def State.unboost (s : State) (d : Nat) : State :=
  let x := s.die d
  let c := max (nextPhase s d) x.anchorCyc
  let s := s.modDie d fun x => { x with boost := none }
  s.reclock d (pulseAt s (x.cycleStart c)) c (Config.unitsPerCycle x.cls)

/-! ### TIME and its origin (R18, R346) -/

/-- After TIME has been set anew, what waits for a local tick looks at it again. -/
def State.retime (s : State) : State :=
  let s := (s.ops.filter fun o => o.kind == .waitt && o.live).foldl (fun s o => s.schedEv s.now 20 (ev .waittExpiry [o.id])) s
  ((s.groups.filter fun g => g.state == .placed).map (·.tid)).eraseDups.foldl State.startTeam s

/-- A class-3 die without a lease ends its rotation and holds its clock until local TIME is a multiple of 64, so that its
rotation phase goes on to equal local TIME modulo 64; in any class a start pulse that is still to come falls at a multiple of 64 of
the new local TIME (R13; log 102). -/
def State.realign (s : State) (d : Nat) : State :=
  let x := s.die d
  if (x.cls ≠ 3 ∧ x.anchor ≤ dieNow s d) ∨ x.boost.isSome = true then s
  else
    let c := max (nextPhase s d) x.anchorCyc
    s.reclock d (pulseAt s (x.cycleStart c)) c (Config.unitsPerCycle x.cls)

/-- An earlier clock whose local times move by `up - dn` units; one that would begin before time 0 begins at a later cycle. -/
def moveClock (up dn : Nat) (k : Nat × Nat × Nat) : Nat × Nat × Nat :=
  let j := (dn - (k.1 + up) + k.2.2 - 1) / k.2.2
  (k.1 + up + j * k.2.2 - dn, k.2.1 + j, k.2.2)

/-- A die that becomes the origin or ceases to be it keeps the cycles it has begun; at its next rotation it takes a new start
pulse, by the new local TIME (R13, R18; log 31). -/
def State.moveDie (s old : State) (d : Nat) : State :=
  let up := Config.unitsPerTick * coreDist old d 0
  let dn := Config.unitsPerTick * coreDist s d 0
  let c := max (nextPhase old d) (old.die d).anchorCyc
  let s := s.modDie d fun x =>
    let k := moveClock up dn (x.anchor, x.anchorCyc, x.upc)
    { x with anchor := k.1, anchorCyc := k.2.1, past := x.past.map (moveClock up dn) }
  let x := s.die d
  let a := x.cycleStart c
  s.reclockFrom old d (if x.boost.isSome then a else pulseAt s a) c x.upc

/-- The time origin of the module is die `d` from now on: every other unit's copy of TIME lags it by its path distance
(R18, R347). DESIGN CHOICE (log 31): it stays so when the lay that named it is disarmed, unloaded or ends, until another ARM or
power-on. -/
def State.setOrigin (s : State) (d : Nat) : State :=
  if d = s.originDie then s
  else
    let t : State := { s with originDie := d }
    ((t.moveDie s s.originDie).moveDie s d).retime

/-- Is a lay armed or in one of the states that a running lay takes (Table 18.4)? Where the spec says armed or running, a lay that
resynchronises counts too (log 135). -/
def Lay.holds (y : Lay) : Bool := y.state == .armed || y.state == .running || y.state == .faulted || y.state == .resyncing

/-- A correction of the servo, which follows a message of the time origin (R357; log 149): the offset TSYNC shows, whether a slew is in progress, and a forward step of TIME, which is
made only while no lay is armed or running (R346); a class-3 die keeps its rotation aligned to TIME (R13). -/
def execTimeCorrection (s : State) : Host.Outcome State Fault Refusal :=
  let o := sgn 64 (s.num 0)
  let off : Int := if s.podOrigin = s.modl then 0 else max (-32767) (min 32767 o)
  let s : State := { s with syncOff := off, slewing := s.num 1 ≠ 0, announced := originTime s }
  let s := if s.num 2 ≠ 0 ∧ s.lays.any Lay.holds = false then
      let s : State := { s with timeAdj := s.timeAdj + s.num 2 }
      ((List.range 16).foldl State.realign s).retime
    else s
  if off < -3 ∨ 3 < off then
    let s : State := { s with agenda := s.agenda.filter fun a => a.due != ev .synclostClear [] }
    .next (if s.syncLost then s else s.schedEv s.now 20 (ev .synclostSet []))
  else
    .next (if s.syncLost && !s.agenda.any (fun a => a.due == ev .synclostClear []) then
        s.schedIn 65536 20 (ev .synclostClear [])
      else s)

end Sys2Proof.Machine
end

