-- ==== Sys2Proof/Machine/Lay.lean ====
section
/-! DEFINITION. Lays: images and their checks (R348, R349, R351), arming and the life of a lay (R350, R358), slack windows
(R352), resynchronisation (R353-R356), the loss of the time origin (R357) and the episodes of SYNCLOST (R346). -/

namespace Sys2Proof.Machine

/-! ### Images (R348, R349) -/

/-- Read the words of a lay image: the words, and whether they are readable and lie in pinned pages. -/
def State.imageWords (s : State) (ctx va n : Nat) : List Nat × Bool × State :=
  let r := s.vreadWords ctx va n
  let pinned := (List.range n).all fun i =>
    match (walk (queueView s ctx) (queueDie s ctx) ctx (va + 8 * i)).xl with
    | some x => x.pin
    | none => false
  (r.1.getD [], r.1.isSome && pinned, r.2)

/-- A slot entry from its two words (Table 18.3). -/
def slotEnt (die w0 w1 : Nat) : SlotEnt :=
  { die := die, off := bits w0 44 20, len := bits w0 24 20, kind := bits w0 20 4, unit := bits w0 12 8, arg := bits w1 0 16 }

/-- Is a slot entry well formed (Table 18.3, R351 cause 1)? A maintenance window lasts at least 50 µs (R352). -/
def slotOk (w0 w1 : Nat) : Bool :=
  let e := slotEnt 0 w0 w1
  bits w0 0 12 == 0 && bits w1 16 48 == 0 && 1 ≤ e.len &&
    (match e.kind with
     | 1 => e.unit < 32 && e.arg == 0
     | 2 => e.unit < 16 && e.arg == 0
     | 3 => e.unit == 0 && e.arg < 128
     | 4 => e.unit < 64 && bits e.arg 2 6 == 0
     | 5 => e.unit == 0 && bits e.arg 2 6 == 0
     | 6 => (e.unit < 32 || (0x40 ≤ e.unit && e.unit < 0x50) || e.unit == 0x80) && e.arg == 0
     | 7 => (e.unit < 32 || (0x40 ≤ e.unit && e.unit < 0x50) || e.unit == 0x80) && e.arg == 0 && 105000 ≤ e.len
     | _ => false)

/-- The unit an entry belongs to: channels, die links and the port as slack windows name them, engines, copy channels. -/
def SlotEnt.key (e : SlotEnt) : Nat :=
  e.die * 4096 + (match e.kind with
    | 2 => 0x40 + e.unit
    | 3 => 0x80
    | 4 => 0x100 + e.unit
    | 5 => 0x400 + 4 * (e.arg / 256) + e.arg % 4
    | _ => e.unit)

/-- Do two entries of one unit overlap? -/
def SlotEnt.meets (a b : SlotEnt) : Bool := a.key == b.key && a.off < b.off + b.len && b.off < a.off + a.len

/-- Do any two entries of one unit overlap? -/
def slotsClash : List SlotEnt → Bool
  | [] => false
  | e :: es => es.any e.meets || slotsClash es

/-- A lay image as LOAD reads it. -/
structure LayImage where
  h : List Nat                     -- header words
  dieTab : List Nat
  raw : List (Nat × Nat × Nat)     -- die and the two words of each slot entry
  kern : List Nat
  readable : Bool
  deriving DecidableEq, Repr

/-- Read the image of lay slot `l`. -/
def State.readImage (s : State) (y : Lay) : LayImage × State :=
  let ctx := y.ctl % 64
  let a := s.imageWords ctx y.base 8
  if a.1.isEmpty then ({ h := [], dieTab := [], raw := [], kern := [], readable := false }, a.2.2)
  else
    let dieOff := bits (a.1.getD 5 0) 0 32
    let b := a.2.2.imageWords ctx (y.base + dieOff) 16
    let c := b.2.2.imageWords ctx (y.base + bits (a.1.getD 4 0) 0 32) (bits (a.1.getD 4 0) 32 8)
    let d := (List.range 16).foldl (fun (x : List (Nat × Nat × Nat) × Bool × State) j =>
      let e := b.1.getD j 0
      let n := bits e 32 12
      let w := x.2.2.imageWords ctx (y.base + bits e 0 32) (2 * n)
      (x.1 ++ (List.range n).map (fun i => (j, w.1.getD (2 * i) 0, w.1.getD (2 * i + 1) 0)), x.2.1 && w.2.1, w.2.2))
      ([], true, c.2.2)
    ({ h := a.1, dieTab := b.1, raw := d.1, kern := c.1, readable := a.2.1 && b.2.1 && c.2.1 && d.2.1 }, d.2.2)

/-- The slot entries of an image. -/
def LayImage.slots (m : LayImage) : List SlotEnt := m.raw.map fun r => slotEnt r.1 r.2.1 r.2.2

/-- A header field (Table 18.2). -/
def LayImage.f (m : LayImage) (i lo n : Nat) : Nat := bits (m.h.getD i 0) lo n

/-- Modules that take part, as one mask. -/
def LayImage.mods (m : LayImage) : Nat := m.h.getD 2 0 + 2 ^ 64 * m.h.getD 3 0

/-- Does check cause `c` apply (R351)? DEDUCED (log 132): a table with no entries reaches nowhere, and the offset of an empty slot
table is aligned like any other. -/
def LayImage.fails (m : LayImage) (s : State) (y : Lay) (c : Nat) : Bool :=
  let period := m.f 0 0 32
  let mask := m.f 1 0 16
  let tabEnd (off n : Nat) : Bool := decide (n ≠ 0 ∧ 1048576 < off + n)
  match c with
  | 1 => m.f 7 8 56 != 0 || (m.f 7 7 1 == 0 && m.f 7 0 7 != 0) || m.f 6 32 32 != 0 || m.f 5 32 32 != 0 ||
      m.f 4 40 24 != 0 || m.f 1 36 28 != 0 || m.f 1 22 7 != 0 || m.dieTab.any (fun e => bits e 44 20 != 0) ||
      m.raw.any (fun r => !slotOk r.2.1 r.2.2)
  | 2 => slotsClash m.slots || m.slots.any (fun e => period < e.off + e.len)
  | 3 => mask != (s.ctx (y.ctl % 64)).partition
  | 4 => !m.mods.testBit s.modl || (m.f 1 29 7 != s.podOrigin && m.f 1 29 7 != s.podStandby) ||
      (m.f 7 7 1 == 1 && (!m.mods.testBit (m.f 7 0 7) || m.f 7 0 7 == m.f 1 29 7))
  | 5 => !m.readable
  | 6 => m.slots.any fun e => 256 < (m.slots.filter fun x => x.key == e.key).length
  | 7 => m.f 0 48 16 != 1 || m.f 6 0 16 == 0 || m.f 6 16 16 == m.f 6 0 16 || period % 4096 != 0 || period < 4096 ||
      1048576 < period || m.kern.any (fun e => period ≤ bits e 0 20)
  | 8 => y.base % 64 != 0 || m.f 5 0 32 % 8 != 0 || m.f 4 0 32 % 8 != 0 ||
      m.dieTab.any (fun e => bits e 0 32 % 8 != 0) ||
      tabEnd (m.f 5 0 32) 128 || tabEnd (m.f 4 0 32) (8 * m.f 4 32 8) ||
      m.dieTab.any (fun e => tabEnd (bits e 0 32) (16 * bits e 32 12)) ||
      m.dieTab.zipIdx.any (fun e => bits e.1 32 12 != 0 && !mask.testBit e.2)
  | _ => false

/-- The check cause of an image: the lowest that applies, 0 for none (R351). Of a header that is not readable no
other cause can be judged; one that is readable and not pinned has the lower causes judged too. -/
def LayImage.cause (m : LayImage) (s : State) (y : Lay) : Nat :=
  if m.h.isEmpty then 5
  else (([1, 2, 3, 4, 5, 6, 7, 8] : List Nat).find? fun c => m.fails s y c).getD 0

/-- Fill a lay slot from a checked image. -/
def Lay.fill (y : Lay) (m : LayImage) : Lay :=
  { y with
    state := .loaded, layid := m.f 6 0 16, fbid := m.f 6 16 16, sben := m.f 7 7 1 == 1, sbmod := m.f 7 0 7,
    modmask := m.mods, gmod := m.f 1 29 7, origin := m.f 1 18 4, cls := m.f 1 16 2, diemask := m.f 1 0 16,
    nperiod := m.f 0 32 16, period := m.f 0 0 32, kernels := m.kern.map fun e => (bits e 20 32, bits e 0 20),
    slots := m.slots, shift := 0, noticed := false, announced := false, ready := [], taken := [], demand := [], lingers := false }

/-! ### Commands (R350, R351, R358) -/

/-- Set the status of a lay slot's last command. -/
def State.layStatus (s : State) (l st : Nat) : State := s.modLay l fun y => { y with status := st }

/-- A lay command of the management owner: status 3 from another agent, refused during a live update (R350, R404). -/
def layCommand (s : State) (port l : Nat) (f : Lay → State) : State :=
  if !owns s port then s.layStatus l 3
  else if s.ibrum.updating then s.layStatus l 1
  else f (s.lay l)

/-- LAYCMD LOAD (R351). -/
def execLaycmdLoad (s : State) : Host.Outcome State Fault Refusal :=
  let l := s.num 1
  .next (layCommand s (s.num 0) l fun y =>
    if y.state != .empty then s.layStatus l 1
    else
      let r := s.readImage y
      let c := r.1.cause s y
      if c ≠ 0 then r.2.modLay l fun y => { y with status := 2, checkCause := c }
      else r.2.modLay l fun y => { y.fill r.1 with status := 0, checkCause := 0 })

/-- Does the lay serve its slots: it runs, or its last period ends at a path distance from the origin (R347, R349)? -/
def Lay.serving (y : Lay) : Bool := y.state == .running || y.lingers

/-- Has the lay units to serve: running, faulted or resyncing? -/
def Lay.serves (y : Lay) : Bool := y.state == .running || y.state == .faulted || y.state == .resyncing

/-- The dies of a mask. -/
def maskDies (m : Nat) : List Nat := (List.range 16).filter fun d => m.testBit d

/-- Set a lay slot's base: armed from there, nothing of an earlier run left. -/
def Lay.arm (y : Lay) (base : Nat) : Lay :=
  { y with state := .armed, baseTick := base, per := 0, shift := 0, resyncs := 0, lastCause := 0, cause := 0,
           noticed := false, announced := false, accept := 0, ready := [], taken := [], demand := [] }

/-- Does every armed or running lay name the origin die that `y` names (R18, R351)? -/
def originShared (s : State) (y : Lay) : Bool := s.lays.all fun z => !z.holds || z.origin == y.origin

/-- Give the kernels of a lay the start ticks of its kernel table, those of periods before `k` excepted; teams placed and not
started wait for the new tick, and a team that misses it takes a fault of its own (R338, R348, R355). -/
def State.shiftStarts (s : State) (l k : Nat) : State :=
  let y := s.lay l
  let moved (x : Kernel) : Kernel :=
    if x.lay = some l ∧ k ≤ ((y.kernels[x.lpb.layk]?).map (·.1)).getD 0 then
      match layStart y x.lpb.layk with
      | some t => { x with lpb := { x.lpb with start := t }, late := false }
      | none => x
    else x
  let s : State := { s with kernels := s.kernels.map moved }
  let ts := (s.groups.filter fun g => g.state == .placed &&
    (match s.kernelOf g with | some x => x.lay == some l | none => false)).map fun g => g.tid
  ts.eraseDups.foldl State.startTeam s

/-- LAYCMD ARM: every die of DIEMASK runs at CLASS and holds no lease and LAYSTART is 65,536 ticks away (R351, R398); the kernels of the
lay take their start ticks (Table 18.6), and the origin die that the image names becomes the module's (R18), so another lay that is armed or running must name the same one
(log 31). -/
def execLaycmdArm (s : State) : Host.Outcome State Fault Refusal :=
  let l := s.num 1
  .next (layCommand s (s.num 0) l fun y =>
    let pool := (List.range 16).filter fun d => (s.die d).cls == y.cls
    let ok := y.state == .loaded &&
      (maskDies y.diemask).all (fun d => (s.die d).cls == y.cls && (s.die d).st == 0) &&
      pool.all (fun d => (s.die d).boost.isNone) && originShared s y && originTime s + 65536 ≤ y.startReg
    if !ok then s.layStatus l 1
    else
      let s := ((s.modLay l fun y => { y.arm y.startReg with status := 0 }).setOrigin y.origin).shiftStarts l 0
      s.schedEv (instantOfTick s y.startReg) 2 (ev .layBaseTick [l]))

/-- The kernels that belong to a lay and have not ended. -/
def layKernels (s : State) (l : Nat) : List Kernel :=
  s.kernels.filter fun k => k.lay == some l && k.state != .retired && k.state != .aborted

/-- Abort every kernel of a lay (R341, R356). -/
def State.abortLay (s : State) (l : Nat) : State := ((layKernels s l).map (·.kid)).foldl State.abortKernel s

/-- LAYCMD DISARM: an armed lay is loaded again; a running one, or one that resynchronises, is abandoned with its kernels (Table 18.6,
R419; log 148). -/
def execLaycmdDisarm (s : State) : Host.Outcome State Fault Refusal :=
  let l := s.num 1
  .next (layCommand s (s.num 0) l fun y =>
    if y.state == .armed then s.modLay l fun y => { y with state := .loaded, status := 0 }
    else if y.serves then (s.modLay l fun y => { y with state := .abandoned, noticed := false, status := 0 }).abortLay l
    else s.layStatus l 1)

/-- LAYCMD UNLOAD empties a loaded or abandoned slot (Table 18.6); its registers keep what was written. -/
def execLaycmdUnload (s : State) : Host.Outcome State Fault Refusal :=
  let l := s.num 1
  .next (layCommand s (s.num 0) l fun y =>
    if y.state == .loaded || y.state == .abandoned then
      s.modLay l fun y => { Lay.reset with base := y.base, ctl := y.ctl, startReg := y.startReg, rst := y.rst,
                                           lastCause := y.lastCause }
    else s.layStatus l 1)

/-! ### Slots in time (R347, R349) -/

/-- Path distance of an entry's unit (Table 18.1). -/
def SlotEnt.dist (s : State) (e : SlotEnt) : Nat :=
  let u : UnitId := { die := e.die, core := e.arg / 256, lead := false, slot := 0 }
  match e.kind with
  | 2 => unitDist s u (2 + 256 * e.unit)
  | 3 => unitDist s u 3
  | 4 => unitDist s u (5 + 256 * e.unit)
  | 5 => unitDist s u 4
  | _ => if e.unit < 32 then unitDist s u (1 + 256 * e.unit)
         else if e.unit < 0x80 then unitDist s u (2 + 256 * (e.unit - 0x40)) else unitDist s u 3

/-- Start of period `n` of a lay in ticks (R349, R355). -/
def Lay.start (y : Lay) (n : Nat) : Nat := y.baseTick + y.period * (n + y.shift)

/-- Schedule the VC0 slots and the reservations of period `n` at their units' local ticks (R347, R349). -/
def State.schedPeriod (s : State) (l n : Nat) : State :=
  let y := s.lay l
  y.slots.foldl (fun s e =>
    let t := y.start n + e.off
    let at' := instantOfTick s (t + e.dist s)
    match e.kind with
    | 2 => s.schedEv at' 20 (ev .vc0FrameSend [e.die, e.unit, l, t, e.len, 0])
    | 3 => s.schedEv at' 20 (ev .vc0FrameSend [e.die, 16 + e.arg % 128, l, t, e.len, 0])
    | 4 => s.schedEv at' 2 (ev .reservationStart [e.die, e.unit, l, e.arg / 256, e.arg % 4, t, e.len])
    | _ => s) s

/-- Schedule the boundary at which period `n` begins. -/
def State.schedBoundary (s : State) (l n : Nat) : State :=
  s.schedEv (instantOfTick s ((s.lay l).start n)) 2 (ev .periodBoundary [l])

/-- A unit that names no unit of its own in a record: the dispatcher of the origin die (log 30). -/
def layUnit (s : State) : UnitId := { die := s.originDie, core := 0, lead := false, slot := 0 }

/-- Teams of a lay's running kernels that were killed and are not placed at R: each raises cause 5 again (R342). -/
def unplacedAtR (s : State) (l : Nat) : List Team :=
  s.teams.filter fun t => (t.state == .relaunching || t.state == .killed) &&
    (match s.kernel? t.kid with | some k => k.lay == some l && k.state == .running | none => false)

/-- A lay starts or restarts: with SYNCLOST set it takes cause 10, and every team not placed raises cause 5 (R342, R346). -/
def State.startFaults (s : State) (l : Nat) : State :=
  let s := if s.syncLost then s.schedFault l 10 (layUnit s) 0 [6] else s
  (unplacedAtR s l).foldl (fun s t => s.schedFault l 5 { die := t.die, core := 0, lead := false, slot := 0 } 0 [6]) s

/-- Look for the loss of the time origin once its messages have been silent for 8,192 ticks (R357). -/
def State.watchOrigin (s : State) (l : Nat) : State :=
  if (s.lay l).sben then s.schedEv (instantOfTick s (s.announced + 8192)) 20 (ev .originLoss [l, 0]) else s

/-- LAY_BASE_TICK: period 0 begins, with the faults of a start (R342, R346, R358); the messages of the time origin are watched
(R357). -/
def execLayBaseTick (s : State) : Host.Outcome State Fault Refusal :=
  let l := s.num 0
  let y := s.lay l
  if y.state != .armed || originTime s < y.baseTick then .next s
  else
    let s := s.modLay l fun y => { y with state := .running, per := 0, lingers := false }
    .next ((((s.schedPeriod l 0).schedBoundary l 1).watchOrigin l).startFaults l)

/-! ### Stopping for a resynchronisation (R355) -/

/-- The units of a lay's kernels. -/
def layUnits (s : State) (l : Nat) : List ExecUnit :=
  s.units.filter fun x => match (s.group? x.gid).bind s.kernelOf with | some k => k.lay == some l | none => false

/-- The period record a unit restarts from: that of period `k`, or the first later one (log 32). -/
def ExecUnit.periodRec (x : ExecUnit) (k : Nat) : Option (Nat × RegionRec) :=
  match x.perCur, x.perPrev with
  | some c, some p => if c.1 = k then some c else if p.1 = k then some p else if k < p.1 then some p
      else if k < c.1 then some c else none
  | some c, none => if k ≤ c.1 then some c else none
  | none, _ => none

/-- Step 4: a stopped unit takes the restart of R157 with the period record of the failed period and stays stopped. -/
def State.layRestart (s : State) (x : ExecUnit) (k : Nat) : State :=
  let s := match x.periodRec k with
    | some r =>
      let s := s.restart x.id r.2 (s.ucyc x.id) (fun o => r.2.cycle ≤ o.issue) (max x.keepBar x.nBar)
      s.modUnit x.id fun x => { x with perCur := some r, perPrev := none, perDone := k, rerun := some r.2.number }
    | none => s
  s.modUnit x.id fun x => { x with laySt := 2 }

/-- Has a unit reached the stop boundary with no clause in progress? -/
def atStop (s : State) (y : Lay) (x : ExecUnit) : Bool :=
  y.stopAt (coreDist s x.id.die x.id.core) ≤ localTime s x.id.die x.id.core s.now && (x.clause.isNone || x.resume.isSome)

/-- Does a unit meet its boundary before origin TIME reaches the lay's stop boundary: the notice found its local TIME in an earlier
period? -/
def stopsEarly (s : State) (y : Lay) (x : ExecUnit) : Bool := y.stopAt (coreDist s x.id.die x.id.core) < y.stopTick

/-- The stop of a noticed lay: units at the boundary restart; the last one lets the module report ready, also when the lay has been
abandoned and waits for R (R355, step 5). -/
def State.stopUnits (s : State) (l : Nat) : State :=
  let y := s.lay l
  let s := (layUnits s l).foldl (fun s x => if x.laySt ≠ 2 && atStop s y x then s.layRestart x y.faultPer else s) s
  if (layUnits s l).all (fun x => x.laySt == 2) && (timeAt s 100 ≥ y.stopTick) then
    if y.state = .faulted ∨ (y.state = .abandoned ∧ y.ready.contains s.modl = false) then
      let s := s.modLay l fun y => { y with state := if y.state = .faulted then .resyncing else y.state, ready := s.modl :: y.ready }
      (s.sendVc3 16 (.ready l)).schedEv s.now 20 (ev .readyReport [l, s.modl])
    else s
  else if y.stopTick ≤ originTime s || (layUnits s l).any (fun x => x.laySt != 2 && stopsEarly s y x) then
    s.schedIn 1 2 (ev .periodBoundary [l])
  else s

/-- PERIOD_BOUNDARY: the next period of a running lay begins, or its last one has ended (Table 18.6); a noticed lay stops
its units here (R355). -/
def execPeriodBoundary (s : State) : Host.Outcome State Fault Refusal :=
  let l := s.num 0
  let y := s.lay l
  let t := originTime s
  if y.noticed && (y.state == .faulted || y.state == .abandoned) then
    .next (s.stopUnits l)
  else if y.state == .running && y.period != 0 && y.start 0 ≤ t && (t - y.baseTick) % y.period = 0 then
    let n := y.perAt t
    if y.nperiod ≠ 0 ∧ y.nperiod ≤ n then .next (s.modLay l fun y => { y with state := .loaded, lingers := true })
    else .next ((((s.modLay l fun y => { y with per := n }).schedPeriod l n).schedBoundary l (n + 1)))
  else .next s

/-! ### Notices and the roll call (R355, R356) -/

/-- The loaded lay that a lay falls back to (R356). -/
def fallbackOf (s : State) (y : Lay) : Option Nat :=
  let f := bits y.ctl 8 2
  if y.ctl.testBit 10 && (s.lay f).state == .loaded && y.fbid != 0 && (s.lay f).layid == y.fbid then some f else none

/-- Abandon a lay: with a fallback its kernels wait for R, otherwise they are aborted (R356). -/
def State.abandonLay (s : State) (l : Nat) : State :=
  let y := s.lay l
  let s := s.modLay l fun y => { y with state := .abandoned }
  if (fallbackOf s y).isSome then s else s.abortLay l

/-- Is this module the one that carries out the origin's duties (R355, R357)? -/
def isOrigin (s : State) : Bool := s.podOrigin == s.modl

/-- Announce R once every module of MODMASK has reported (R355, steps 5 and 6). -/
def State.tryAnnounce (s : State) (l : Nat) : State :=
  let y := s.lay l
  if isOrigin s && y.noticed && !y.announced && y.accept != 0 &&
      (List.range 128).all (fun m => !y.modmask.testBit m || y.ready.contains m) then
    s.schedEv s.now 20 (ev .restartAnnounce [l, restartOf y])
  else s
where
  /-- The first period boundary at or after A + 65,536 (R355). -/
  restartOf (y : Lay) : Nat :=
    let b := y.accept + 65536 - y.baseTick
    y.baseTick + (b + y.period - 1) / max y.period 1 * y.period

/-- The origin module receives a fault at A: it broadcasts the notice and calls the roll (R355, steps 2 and 5). -/
def State.originAccept (s : State) (l : Nat) : State :=
  let y := s.lay l
  if y.accept ≠ 0 then s
  else
    let a := originTime s
    let s := (s.modLay l fun y => { y with accept := a }).sendVc3 16 (.notice l y.lastCause y.faultTick)
    (s.schedIn 32768 20 (ev .rollCallTimeout [l])).tryAnnounce l

/-- A module's first notice of a fault at tick `f`: scheduled transfers are suppressed, the stop boundary is fixed (R355, steps 1 to
3); `own` tells a fault of this module from a notice that reached it. Later ones change LAYST's cause, and one of a fallback cause
travels as the first did (R356, R419). -/
def State.notice (s : State) (l c f : Nat) (own : Bool) : State :=
  let y := s.lay l
  let t := originTime s
  if y.noticed then
    let s := s.modLay l fun y => { y with lastCause := c, accept := if own || isOrigin s then y.accept else max 1 t }
    if (c = 7 ∨ c = 8) ∧ (own || isOrigin s) = true then s.sendVc3 16 (.notice l c f) else s
  else
    let k := y.perAt f
    let stop := Lay.stopAt { y with noteTick := t } 0
    let s := s.modLay l fun y =>
      { y with noticed := true, announced := false, faultPer := k, faultTick := f, stopTick := stop, noteTick := t, ready := []
               lastCause := c, accept := if own || isOrigin s then 0 else max 1 t }
    let s : State := { s with gates := s.gates.filter fun b => b.lay ≠ l }
    let s := (s.schedEv s.now 2 (ev .periodBoundary [l])).schedEv (instantOfTick s stop) 2 (ev .periodBoundary [l])
    let s := s.schedEv (instantOfTick s (stop + 131072)) 20 (ev .restartWaitExpiry [l])
    if isOrigin s then
      if own then
        let s : State := { s with freeCtr := s.freeCtr + 1 }
        s.schedIn (Config.freeNat (s.freeCtr - 1) % 1025) 20 (ev .faultNotice [l, 1])
      else s.originAccept l
    else if own then (s.sendVc3 16 (.notice l c f)).schedIn 4096 20 (ev .originLoss [l, 1])
    else s

/-- FAULT_NOTICE: a fault of this module, or the notice of another's with its cause and fault tick, reaches the lay: it
resynchronises, joins the resynchronisation in progress, or is abandoned (R355, R356). Mode 1 is the origin's own receipt of this
module's fault. -/
def execFaultNotice (s : State) : Host.Outcome State Fault Refusal :=
  let l := s.num 0
  let y := s.lay l
  if s.num 1 = 1 then .next (if y.noticed then s.originAccept l else s)
  else if (!y.serves && !(y.state == .abandoned && y.noticed)) || (y.cause = 0 && s.num 2 = 0) then .next s
  else
    let own := y.cause != 0
    let c := if own then y.cause else s.num 2
    let f := if own then y.faultTick else s.num 3
    let s := s.modLay l fun y => { y with cause := 0 }
    if y.state == .abandoned then .next (s.notice l c f own)
    else
      let first := !y.noticed
      let s := s.notice l c f own
      if c = 7 ∨ c = 8 then .next (s.abandonLay l)
      else if !first then .next s
      else if bits y.ctl 11 4 ≤ y.resyncs then .next (s.abandonLay l)
      else .next (s.modLay l fun y => { y with state := .faulted, resyncs := y.resyncs + 1 })

/-- READY_REPORT: a module of the pod reports ready (R355, step 5). -/
def execReadyReport (s : State) : Host.Outcome State Fault Refusal :=
  let l := s.num 0
  .next ((s.modLay l fun y =>
    { y with ready := if y.ready.contains (s.num 1) then y.ready else s.num 1 :: y.ready }).tryAnnounce l)

/-- ROLL_CALL_TIMEOUT: a module that has not reported by A + 32,768 raises cause 8, and the origin announces R without it
(R355, steps 5 and 6). -/
def execRollCallTimeout (s : State) : Host.Outcome State Fault Refusal :=
  let l := s.num 0
  let y := s.lay l
  if !isOrigin s || !y.noticed || y.announced || y.accept = 0 || originTime s < y.accept + 32768 then .next s
  else
    let s := s.schedFault l 8 (layUnit s) 0 [6]
    .next (s.schedEv s.now 20 (ev .restartAnnounce [l, State.tryAnnounce.restartOf y]))

/-! ### Restart (R355 steps 6 and 7, R356) -/

/-- The first cycle of a die whose local TIME is at or after `t` (R18). -/
def cycAtLocal (s : State) (die t : Nat) : Nat :=
  (s.die die).cycleFrom ((t - s.timeAdj) * Config.unitsPerTick)

/-- Let a stopped unit go on at its first window at or after local tick `t`. -/
def State.layResumeUnit (s : State) (x : ExecUnit) (t : Nat) : State :=
  let s := s.modUnit x.id fun x => { x with laySt := 0 }
  if x.ended then s else s.resumeUnit x.id (cycAtLocal s x.id.die t)

/-- The tick from which a unit of a lay goes on: the restart tick, the shifted start of a kernel that starts in the rerun
periods, and the shifted period of the record it restarted from (R355; log 32). -/
def resumeTick (s : State) (l r : Nat) (x : ExecUnit) : Nat :=
  let y := s.lay l
  let st := match (s.group? x.gid).bind s.kernelOf with
    | some k => if k.lpb.startat then k.lpb.start else 0
    | none => 0
  let per := match x.perCur with | some p => y.start p.1 | none => 0
  max r (max st per)

/-- A fallback lay is armed with base R: it takes over the kernels, whose units go on at its start ticks; a kernel it does
not name is aborted (R356). DESIGN CHOICE (log 31): while another lay that is armed or running names another origin die, the
fallback is armed all the same and the origin stays as it is. -/
def State.armFallback (s : State) (l f r : Nat) : State :=
  let s := if originShared s (s.lay f) then s.setOrigin (s.lay f).origin else s
  let s := s.modLay f fun y => { y.arm r with rst := r, announced := true }
  let lost := (layKernels s l).filter fun k => (layStart (s.lay f) k.lpb.layk).isNone
  let s := (lost.map (·.kid)).foldl State.abortKernel s
  let taken (k : Kernel) : Kernel := if k.lay = some l then { k with lay := some f } else k
  let s : State := { s with kernels := s.kernels.map taken }
  let s := s.shiftStarts f 0
  let s := (layUnits s f).foldl (fun s x =>
    let st := match (s.group? x.gid).bind s.kernelOf with | some k => k.lpb.start | none => r
    (s.modUnit x.id fun x => { x with perCur := none, perPrev := none, perDone := 0 }).layResumeUnit x (max r st)) s
  let s := s.schedEv (instantOfTick s r) 2 (ev .layBaseTick [f])
  (maskDies (s.lay f).diemask).foldl State.kickDie s

/-- RESTART_ANNOUNCE: R is known; a resynchronising lay waits for it, an abandoned one hands over to its fallback (R355,
R356). -/
def execRestartAnnounce (s : State) : Host.Outcome State Fault Refusal :=
  let l := s.num 0
  let r := s.num 1
  let y := s.lay l
  if !y.noticed || y.announced then .next s
  else
    let s := s.modLay l fun y => { y with rst := r, announced := true }
    let s := if isOrigin s then s.sendVc3 16 (.restart l r) else s
    if y.state == .abandoned then
      match fallbackOf s y with
      | some f => .next (s.armFallback l f r)
      | none => .next (s.abortLay l)
    else
      let s := s.schedEv (instantOfTick s r) 2 (ev .layResume [l])
      .next ((maskDies y.diemask).foldl State.kickDie s)

/-- LAY_RESUME: at R the lay runs again with every later time shifted by R − start(k); units go on, SYNCLOST and unplaced
teams raise their faults (R342, R346, R355). -/
def execLayResume (s : State) : Host.Outcome State Fault Refusal :=
  let l := s.num 0
  let y := s.lay l
  if y.state != .resyncing || !y.announced || originTime s < y.rst then .next s
  else
    let k := y.faultPer
    let s := s.modLay l fun y =>
      { y with state := .running, per := k, shift := (y.rst - y.baseTick) / max y.period 1 - k, noticed := false,
               announced := false, accept := 0, ready := [], taken := [], demand := [], cause := 0 }
    let s := s.shiftStarts l k
    let s := (layUnits s l).foldl (fun s x => s.layResumeUnit x (resumeTick s l y.rst x)) s
    .next (((s.schedPeriod l k).schedBoundary l (k + 1)).startFaults l)

/-- RESTART_WAIT_EXPIRY: no restart tick within 131,072 ticks of the stop: abandoned with no fallback (R357, step 4). -/
def execRestartWaitExpiry (s : State) : Host.Outcome State Fault Refusal :=
  let l := s.num 0
  let y := s.lay l
  if !y.noticed || y.announced || !(y.state == .faulted || y.state == .resyncing || y.state == .abandoned) ||
      originTime s < y.stopTick + 131072 then .next s
  else .next ((s.modLay l fun y => { y with state := .abandoned, noticed := false }).abortLay l)

/-- ORIGIN_LOSS: the time origin is lost; the standby takes over its duties with cause 8, every other module follows it (R357). Mode
0 looks whether the messages of the time origin have been silent for 8,192 ticks, and else looks again when they will have been
(log 149); mode 1 is the time-out of a fault of this module that no broadcast followed. -/
def execOriginLoss (s : State) : Host.Outcome State Fault Refusal :=
  let l := s.num 0
  let y := s.lay l
  if (s.num 1 = 1 ∧ (!y.noticed ∨ y.accept ≠ 0 ∨ y.announced)) ∨ !y.sben ∨ isOrigin s then .next s
  else if !y.serves && !(y.state == .abandoned && y.noticed) then .next s
  else if s.num 1 = 0 ∧ originTime s < s.announced + 8192 then .next (s.watchOrigin l)
  else
    let s : State := { s with podOrigin := y.sbmod, announced := originTime s }
    if y.sbmod ≠ s.modl then .next (s.watchOrigin l)
    else
      let s := s.modLay l fun y => { y with accept := 0 }
      let s := s.schedFault l 8 (layUnit s) 0 [6]
      let s := (s.notice l 8 (s.lay l).faultTick true).modLay l fun y => { y with cause := 0 }
      .next ((s.originAccept l).abandonLay l)

/-! ### Slack (R352) -/

/-- The unit of a record that a slack code names: channel, die link or port. -/
def slackUnit (code : Nat) : Nat :=
  if code < 32 then 1 + 256 * code else if code < 0x80 then 2 + 256 * (code - 0x40) else 3

/-- Occurrences of the entries that satisfy `p`, from the period before local tick `t` to two after local tick `last`. -/
def occurrencesTo (y : Lay) (t last : Nat) (p : SlotEnt → Bool) : List (Nat × Nat) :=
  let per (t : Nat) : Nat := (t - y.start 0) / max y.period 1
  let n0 := per t - 1
  sortBy (fun a b => a.1 ≤ b.1) ((List.range (per (max t last) + 3 - n0)).flatMap fun i =>
    if y.nperiod ≠ 0 ∧ y.nperiod ≤ n0 + i then []
    else (y.slots.filter p).map fun e => (y.start (n0 + i) + e.off, e.len))

/-- Occurrences of the entries that satisfy `p`, from the period before local tick `t` to two after it. -/
def occurrences (y : Lay) (t : Nat) (p : SlotEnt → Bool) : List (Nat × Nat) := occurrencesTo y t t p

/-- The lay that serves a unit: one that is armed, running or resynchronising and has a window or a slot for it (R352). -/
def layOfUnit (s : State) (die code : Nat) : Option Nat :=
  (List.range 4).find? fun l => (s.lay l).holds && (s.lay l).slots.any fun e => e.die = die && e.key % 4096 = code &&
    (e.kind != 7)

/-- Begin an event in the first window that it can begin in (R352): the window's start, its LEN, its demand with the event,
and the tick at which the unit is free again. -/
def slackBegin (y : Lay) (key t len : Nat) : List (Nat × Nat) → Option (Nat × Nat × Nat × Nat)
  | [] => none
  | w :: ws =>
    let same := Tab.get (0 : Nat) y.demand (4 * key) = w.1
    let dem := if same then Tab.get (0 : Nat) y.demand (4 * key + 1) else 0
    let b := max w.1 (max t (Tab.get (0 : Nat) y.demand (4 * key + 2)))
    if b < w.1 + w.2 then some (w.1, w.2, dem + len, b + len) else slackBegin y key t len ws

/-- An event of a unit of a lay (R352). -/
def State.slackEvent (s : State) (die code len : Nat) : State :=
  match layOfUnit s die code with
  | none => s
  | some l =>
    let y := s.lay l
    let u : UnitId := { die := die, core := 0, lead := false, slot := 0 }
    let d := unitDist s u (slackUnit code)
    let t := timeAt s d
    let late (s : State) (at' : Nat) : State := s.schedEv (instantOfTick s (at' + d)) 20 (ev .slackOverrun [l, die, code])
    let mine (e : SlotEnt) : Bool := e.die = die && e.key % 4096 = code
    if y.slots.any fun e => e.kind = 6 && mine e then
      let key := die * 256 + code
      match slackBegin y key t len (occurrencesTo y t (Tab.get (0 : Nat) y.demand (4 * key + 2)) fun e => e.kind = 6 && mine e) with
      | none => s
      | some (w, wl, dem, free) =>
        let s := s.modLay l fun y =>
          { y with demand := ((y.demand.put (4 * key) w).put (4 * key + 1) dem).put (4 * key + 2) free }
        if wl < dem then late s (w + wl) else s
    else
      match (occurrences y t fun e => e.kind ≠ 6 && e.kind ≠ 7 && mine e).find? fun o => o.1 < t + len && t < o.1 + o.2 with
      | some o => late s o.1
      | none => s

/-- The instant at which the last event of a unit, `len` ticks long, begins in its slack window; now where the unit has none. -/
def slackStart (s : State) (die code len : Nat) : Nat :=
  match layOfUnit s die code with
  | none => s.now
  | some l =>
    let free := Tab.get (0 : Nat) (s.lay l).demand (4 * (die * 256 + code) + 2)
    max s.now (instantOfTick s (free - len + unitDist s { die := die, core := 0, lead := false, slot := 0 } (slackUnit code)))

/-- Count a corrected error: in the module, and when `pin` is not 0 at pin `pin` − 1 of a channel; both counters saturate (R392, R394,
R395). -/
def State.countCorrected (s : State) (die c pin : Nat) : State :=
  let s : State := { s with uecnt := if 2 ^ 32 - 1 ≤ s.uecnt / 2 ^ 32 then s.uecnt else s.uecnt + 2 ^ 32 }
  if pin = 0 then s
  else s.modChan die c fun x => { x with pins := x.pins.put (pin - 1) (min (2 ^ 32 - 1) (Tab.get 0 x.pins (pin - 1) + 1)) }

/-- SLACK_EVENT: a refresh (448 ticks), a link retry or an access retry (112 ticks) falls due (R352). Operand 3 tells of a corrected error
(R392; log 156): 1 to 256 at that pin, counted from 1, of the HBM4 channel, 257 in an array that has no pins. -/
def execSlackEvent (s : State) : Host.Outcome State Fault Refusal :=
  let e := s.num 3
  let s := if e = 0 then s else s.countCorrected (s.num 0) (s.num 1) (if e ≤ 256 ∧ s.num 1 < 32 then e else 0)
  .next (if s.num 2 = 0 then s else s.slackEvent (s.num 0) (s.num 1) (s.num 2))

/-- SLACK_OVERRUN: the unit raises cause 1 (R352). -/
def execSlackOverrun (s : State) : Host.Outcome State Fault Refusal :=
  .next (s.schedFault (s.num 0) 1 { die := s.num 1, core := 0, lead := false, slot := 0 } 0 [slackUnit (s.num 2)])

/-- The next maintenance window of a unit, or the open one: the instants at which it lets work begin and at which it ends; no end when
no lay holds the unit's die (R352, R375, R394). None when the lay that holds the unit has no such window. -/
def maintWindow (s : State) (die code : Nat) : Option (Nat × Option Nat) :=
  let ls := (List.range 4).filter fun l => (s.lay l).holds && (s.lay l).diemask.testBit die &&
    (code < 32 || (s.lay l).slots.any fun e => e.die = die && e.key % 4096 = code)
  match ls with
  | [] => some (s.now, none)
  | l :: _ =>
    let y := s.lay l
    let d := unitDist s { die := die, core := 0, lead := false, slot := 0 } (slackUnit code)
    let t := timeAt s d
    ((occurrences y t fun e => e.kind = 7 && e.die = die && e.key % 4096 = code).find? fun o => t < o.1 + o.2).map fun o =>
      (instantOfTick s (max t o.1 + d), some (instantOfTick s (o.1 + o.2 + d)))

/-- The instant at which the next maintenance window of a unit opens, or now inside one (R352). -/
def maintenance (s : State) (die code : Nat) : Option Nat := (maintWindow s die code).map (·.1)

/-- The pause of a unit for a repair that begins now: a free time of at most 105,000 ticks, within the window (R375, R394). -/
def State.pauseEnd (s : State) (die code : Nat) : Nat × State :=
  let p := s.now + (1 + Config.freeNat s.freeCtr % 105000) * Config.unitsPerTick
  let p := match maintWindow s die code with | some (_, some e) => min p e | _ => p
  (p, { s with freeCtr := s.freeCtr + 1 })

/-! ### SYNCLOST (R346) -/

/-- SYNCLOST_SET: a new episode; every running lay takes cause 10 (R346). -/
def execSynclostSet (s : State) : Host.Outcome State Fault Refusal :=
  if s.syncLost then .next s
  else
    let s : State := { s with syncLost := true, syncEpisodes := min (s.syncEpisodes + 1) (2 ^ 32 - 1) }
    .next ((List.range 4).foldl (fun s l =>
      if (s.lay l).state = .running then s.schedFault l 10 (layUnit s) 0 [6] else s) s)

/-- SYNCLOST_CLEAR (R346). -/
def execSynclostClear (s : State) : Host.Outcome State Fault Refusal := .next { s with syncLost := false }

end Sys2Proof.Machine
end

