-- ==== Sys2Proof/Machine/Link.lean ====
section
/-! DEFINITION. Links: states and training (R374, R375), key slots (R372, R373), VC0 frames (R365-R367), received frames and
retries (R371), and dynamic messages to and from peer modules (R368, R369, R377, R378). -/

namespace Sys2Proof.Machine

/-! ### States (R374) -/

/-- The slack code of a link (Table 18.3): die link or port. -/
def linkCode (lnk : Nat) : Nat := if lnk < 16 then 0x40 + lnk else 0x80

/-- Does an armed or running lay use the link? -/
def linkInLay (s : State) (die lnk : Nat) : Bool :=
  s.lays.any fun y => y.holds && y.slots.any fun e => e.die = die && ((e.kind = 2 && e.unit = lnk) || (e.kind = 3 && 16 ≤ lnk))

/-- State of a link (Table 19.7): a keyed link that an armed lay uses is scheduled. -/
def linkState (s : State) (die lnk : Nat) : Nat :=
  let st := (s.link die (min lnk 16)).st
  if st = 2 ∧ linkInLay s die lnk = true then 3 else st

/-- May dynamic traffic leave a die's port now (Tables 19.7, 19.10)? -/
def portUp (s : State) (die : Nat) : Bool := (s.link die 16).st == 2 && (s.link die 16).pause ≤ s.now

/-- Change both ends of a die link, or a port. -/
def State.modEnds (s : State) (die lnk : Nat) (f : LinkRec → LinkRec) : State :=
  let s := s.modLink die lnk f
  if lnk < 16 ∧ lnk ≠ die then s.modLink lnk die f else s

/-- Spare lanes of a link (Table 19.1). -/
def spares (lnk : Nat) : Nat := if lnk < 16 then 2 else 1

/-- State of a key slot: 0 retired, 1 staged, 2 active (Table 19.5). -/
def LinkRec.slotState (l : LinkRec) (i : Nat) : Nat := (Tab.get (0, 0, 0, 0, 0) l.slots i).1

/-- The number of a key slot: VC, direction (0 transmit, 1 receive), slot (Table 19.5). -/
def keySlot (vc dir slot : Nat) : Nat := 4 * vc + 2 * dir + slot

/-- The active transmit slot of a VC. -/
def LinkRec.txSlot (l : LinkRec) (vc : Nat) : Option Nat :=
  (List.range 2).find? fun i => l.slotState (keySlot vc 0 i) == 2

/-- Start training: at most 40,000 ticks, then the lanes known to have failed decide (Table 19.7; log 5). -/
def State.train (s : State) (die lnk : Nat) : State :=
  let s := s.modEnds die lnk fun l => { l with st := 1, run := 0, trained := false, await := [] }
  let s : State := { s with freeCtr := s.freeCtr + 1 }
  s.schedIn (1 + Config.freeNat (s.freeCtr - 1) % 40000) 20 (ev .trainingComplete [die, lnk, (s.link die lnk).bad])

/-- LINK_ENABLE: EN is set, or the die of a die link is powered: lane training starts (Table 19.7). -/
def execLinkEnable (s : State) : Host.Outcome State Fault Refusal :=
  let d := s.num 0
  let l := s.num 1
  .next (if (s.link d l).st = 0 then s.train d l else s)

/-- A trained port is keyed once every VC has an active transmit slot; a die link needs no keys (Table 19.7). -/
def State.tryKeyed (s : State) (die lnk : Nat) : State :=
  let x := s.link die lnk
  if x.st = 1 ∧ x.trained = true ∧ (lnk < 16 ∨ (List.range 4).all (fun v => (x.txSlot v).isSome)) then
    s.modEnds die lnk fun l => { l with st := 2, trained := false }
  else s

/-- TRAINING_COMPLETE: failed lanes are replaced by spares; one more than they cover leaves half the lanes, more bring the
link down (Table 19.7). -/
def execTrainingComplete (s : State) : Host.Outcome State Fault Refusal :=
  let d := s.num 0
  let l := s.num 1
  let x := s.link d l
  let bad := max (s.num 2) x.bad
  if x.st ≠ 1 ∨ x.trained = true then .next s
  else if bad + x.spareUsed ≤ spares l then
    .next ((s.modEnds d l fun x => { x with bad := 0, spareUsed := x.spareUsed + bad, trained := true }).tryKeyed d l)
  else if bad + x.spareUsed = spares l + 1 then
    .next (s.modEnds d l fun x => { x with bad := 1, spareUsed := spares l, st := 4 })
  else .next (s.modEnds d l fun x => { x with bad := bad, st := 0, fails := min (x.fails + 1) (2 ^ 32 - 1) })

/-- Schedule a lane spare at the link's next maintenance window; with none in sight it is asked for again (R375). -/
def State.schedSpare (s : State) (die lnk : Nat) : State :=
  match maintenance s die (linkCode lnk) with
  | some t => s.schedEv t 20 (ev .laneSpare [die, lnk])
  | none => s.schedIn 4096 20 (ev .laneSpare [die, lnk])

/-- LANE_FAIL: with a spare free the lane is spared at the next maintenance window; otherwise the link degrades (Table
19.7). -/
def execLaneFail (s : State) : Host.Outcome State Fault Refusal :=
  let d := s.num 0
  let l := s.num 1
  let x := s.link d l
  let s := s.modEnds d l fun x => { x with bad := x.bad + 1 }
  if x.st ≠ 2 then .next s
  else if x.spareUsed + x.bad < spares l then .next ((s.modEnds d l fun x => { x with wantSpare := true }).schedSpare d l)
  else .next (s.modEnds d l fun x => { x with st := 4 })

/-- LANE_SPARE: inside a maintenance window, or with no lay on the link, a lane is spared while the link pauses; a degraded
link trains again once its lane is repaired (R375, Table 19.7). -/
def execLaneSpare (s : State) : Host.Outcome State Fault Refusal :=
  let d := s.num 0
  let l := s.num 1
  let x := s.link d l
  if maintenance s d (linkCode l) ≠ some s.now then .next (if x.wantSpare || x.st = 4 then s.schedSpare d l else s)
  else if x.st = 4 then .next ((s.modEnds d l fun x => { x with bad := x.bad - 1, wantSpare := false }).train d l)
  else if !x.wantSpare || spares l ≤ x.spareUsed then .next s
  else
    let p := s.pauseEnd d (linkCode l)
    .next (p.2.modEnds d l fun x =>
      { x with bad := x.bad - 1, spareUsed := x.spareUsed + 1, wantSpare := false, pause := p.1 })

/-- A write to a Wyusk register: accepted from the management owner and the Ibrum controller (R372), status 3 for others. -/
def wyuskWrite (s : State) (port die : Nat) (f : State) : State :=
  if owns s port || port = 2 then f else s.modLink die 16 fun l => { l with status := 3 }

/-- LANE_SPARE_REQUEST: WLSPARE asks for a lane spare at the next maintenance window (Table 19.5). -/
def execLaneSpareRequest (s : State) : Host.Outcome State Fault Refusal :=
  let d := s.num 1
  .next (wyuskWrite s (s.num 0) d ((s.modLink d 16 fun l => { l with wantSpare := true }).schedSpare d 16))

/-! ### Missing frames (R367) -/

/-- Raise missing-frame status: the lay barrier of every team of the lay on the receiving die enters its error phase with
code 7, and the gateway raises cause 2 (R367). -/
def State.missingFrame (s : State) (l die : Nat) : State :=
  let ts := s.teams.filter fun t => t.die = die && (t.state == .running) &&
    (match s.kernel? t.kid with | some k => k.lay == some l && k.lpb.sched | none => false)
  let s := ts.foldl (fun s t => s.failTeamBar t.tid 3 7) s
  s.schedFault l 2 { die := die, core := 0, lead := false, slot := 0 } 0 [7]

/-- MISSING_FRAME: no frame has begun to arrive by its expected start + 8 ticks; with mode 1, the replay that was asked for
has not arrived by the end of its slack window + 8 ticks (R367). -/
def execMissingFrame (s : State) : Host.Outcome State Fault Refusal :=
  let d := s.num 1
  if s.num 3 = 1 ∧ !(s.link d 16).await.contains 0 then .next s
  else
    let s := s.modLink d 16 fun l => { l with await := l.await.filter (· ≠ 0) }
    .next (s.missingFrame (s.num 0) d)

/-! ### VC0 (R362, R365, R366) -/

/-- Offset of frame `j` in its slot (Table 19.1); a degraded link has half the cadence (Table 19.7). -/
def frameOffset (lnk j : Nat) (half : Bool) : Nat :=
  let j := if half then 2 * j else j
  if lnk < 16 then 5 * j / 14 else 8 * j / 3

/-- Beats that continue the first one: same copy and place, contiguous (R365). -/
def takeBeats (b : Beat) (next room : Nat) : List Beat → List Beat
  | [] => []
  | x :: xs =>
    if x.op = b.op ∧ x.lay = b.lay ∧ x.ddie = b.ddie ∧ x.key = b.key ∧ x.opk = b.opk ∧ x.rty = b.rty ∧ x.dline = next ∧
        x.bytes.length ≤ room then
      x :: takeBeats b (next + x.bytes.length) (room - x.bytes.length) xs
    else []

/-- Has a scheduled copy moved its last beat: it has ended, faulted or moved all its units? -/
def copyMoved (s : State) (id : Nat) : Bool :=
  match s.op? id with
  | none => true
  | some o => !o.live || (match o.copy with | some r => r.faulted || r.shape.count ≤ r.units | none => true)

/-- The next frame of a gateway, with the beats in it: at most 16 flits of contiguous beats of one copy. It is closed early only at a break
of contiguity and at the end of its copy (R365). -/
def nextFrame (s : State) (die lnk : Nat) : Option (Frame × List Beat) :=
  match s.gates.filter fun b => b.die = die && b.lnk = lnk with
  | [] => none
  | b :: bs =>
    let xs := b :: takeBeats b (b.dline + b.bytes.length) (512 - b.bytes.length) bs
    let bytes := xs.flatMap (·.bytes)
    if bytes.length < 512 ∧ xs.length = bs.length + 1 ∧ copyMoved s b.op = false then none
    else some ({ lay := b.lay, ddie := b.ddie, dline := b.dline, key := b.key, opk := b.opk, rty := b.rty, payload := bytes
                 nflit := (bytes.length + 31) / 32 - 1 }, xs)

/-- Use the active transmit slot of a VC for `n` frames: the slot and its SEQ before them (R370); none when the VC has no key
or its SEQ would reach the end. -/
def State.useKey (s : State) (die vc n : Nat) : Option (Nat × Nat) × State :=
  let x := s.link die 16
  match x.txSlot vc with
  | none => (none, s)
  | some i =>
    let k := keySlot vc 0 i
    let e := Tab.get (0, 0, 0, 0, 0) x.slots k
    if 2 ^ 32 - 1 < e.2.2.2.2 + n then (none, s)
    else
      (some (i, e.2.2.2.2), s.modLink die 16 fun l =>
        { l with slots := l.slots.put k (e.1, e.2.1, e.2.2.1, e.2.2.2.1, e.2.2.2.2 + n) })

/-- The tag flit of a frame (Table 19.3): its SEQ, key slot and mode, and of a VC0 frame where its payload goes. -/
def vc0Tag (f : Frame) (seq ks mode : Nat) : Tag :=
  { seq := seq, key := f.key, vc := 0, ks := ks, nflit := f.nflit, opk := f.opk, rty := f.rty, ddie := f.ddie % 16
    dline := f.dline / 64 % 2 ^ 30, mode := mode }

/-- The tag flits of the last `n` of `total` frames of a message of `flits` flits (R363, Table 19.3). -/
def dynTags (vc ks mode seq total n flits : Nat) : List Tag :=
  (List.range n).map fun i =>
    { seq := seq + i, key := 0, vc := vc, ks := ks, nflit := if total - n + i + 1 = total then (flits + 15) % 16 else 15
      opk := 0, rty := 0, ddie := 0, dline := 0, mode := mode }

/-- The mode of a VC of a port in WCTL: 1 GMAC, 2 GCM (R370). An invalid mode is shown as it stands (log 97). -/
def LinkRec.mode (l : LinkRec) (vc : Nat) : Nat := bits l.wctl (8 + 2 * vc) 2

/-- Send a VC0 frame through a port under its active key; with none it goes missing at the other end (R367, R370). -/
def State.sendVc0 (s : State) (die : Nat) (f : Frame) : State :=
  let k := s.useKey die 0 1
  match k.1 with
  | some (ks, sq) => k.2.send (.vc0 die (vc0Tag f sq ks ((s.link die 16).mode 0)) { f with seq := sq })
  | none => s

/-- Send a VC0 frame over a die link: it is written `fly` ticks after the instant `at'` of its start; with the link down it goes missing
8 ticks after it (R366, R367). `op` is the copy that its flags go to. -/
def State.flyVc0 (s : State) (die lnk op : Nat) (up : Bool) (at' fly : Nat) (f : Frame) : State :=
  if up then
    let n := Tab.get (0 : Nat) (s.link die lnk).sent 0
    let s := s.modLink die lnk fun l => { l with sent := l.sent.put 0 ((n + 1) % 2 ^ 32) }
    s.sched (at' + fly * Config.unitsPerTick) 20
      (.ev .vc0FrameWrite { Arg.none with n := [die, lnk, op], frame := some { f with seq := n } })
  else s.schedEv (at' + 8 * Config.unitsPerTick) 20 (ev .missingFrame [f.lay, lnk, die])

/-- VC0_FRAME_SEND: frame `j` of a slot of a running lay leaves in its place, when its beats are there; over a die link it is written
within 48 ticks of its start. What no frame of its slot took waits for the next slot; on a degraded link it goes missing (R362,
R365-R367, Table 19.7). -/
def execVc0FrameSend (s : State) : Host.Outcome State Fault Refusal :=
  let die := s.num 0
  let lnk := s.num 1
  let l := s.num 2
  let t := s.num 3
  let len := s.num 4
  let j := s.num 5
  let half := linkState s die lnk == 4
  let at' := frameOffset lnk j half
  let u : UnitId := { die := die, core := 0, lead := false, slot := 0 }
  let mine (b : Beat) : Bool := b.die = die && b.lnk = lnk
  if !(s.lay l).serving then .next s
  else if len ≤ at' then
    if half && s.gates.any mine then
      let s : State := { s with gates := s.gates.filter fun b => !mine b }
      .next (if lnk < 16 then s.missingFrame l lnk else s)
    else .next s
  else
    let up := linkState s die lnk == 3 || half
    let fly := if j = 0 then Config.freeNat s.freeCtr % 49 else s.num 6
    let s : State := { s with freeCtr := s.freeCtr + 1 }
    let s := match nextFrame s die lnk with
      | none => s
      | some (f, bs) =>
        let s : State := { s with gates := s.gates.filter fun b => !bs.contains b }
        if lnk < 16 then
          State.flyVc0 s die lnk ((bs.map Beat.op).headD 0) up
            (instantOfTick s (t + at' + unitDist s { u with die := lnk } (2 + 256 * die))) fly f
        else if up then s.sendVc0 die f else s
    let nxt := t + min len (frameOffset lnk (j + 1) half)
    .next (s.schedEv (max s.now (instantOfTick s (nxt + unitDist s u (if lnk < 16 then 2 + 256 * lnk else 3)))) 20
      (ev .vc0FrameSend [die, lnk, l, t, len, j + 1, fly]))

/-- Combine the elements of a frame with memory: the state, and the flags of the elements (R238, R365). -/
def State.combineFrame (s : State) (f : Frame) (x : Xlat) : State × Nat :=
  let ty := match f.rty with | 1 => 9 | 2 => 10 | 3 => 2 | _ => 8
  let n := if f.rty = 1 ∨ f.rty = 2 then 2 else 4
  (List.range (f.payload.length / n)).foldl (fun y i =>
    let a := f.dline + n * i
    let v := ofLeBytes ((f.payload.drop (n * i)).take n)
    let r := copyrF (f.opk - 1) ty (readPlace y.1 x a n) v
    (y.1.writePlace x a (leBytes n r.1), flOr y.2 r.2)) (s, 0)

/-- VC0_FRAME_WRITE: a frame is written at its destination home under its key; with OPK its elements are combined, and the flags
of a copy of this module go with it, or to its context when it has ended (R238; log 39). A frame of a lay that no longer
runs, or for an offlined die, is discarded (R355, R365-R367). -/
def execVc0FrameWrite (s : State) : Host.Outcome State Fault Refusal :=
  match s.arg.frame with
  | none => .next s
  | some f =>
    -- a good frame ends a run of failures on its link (R371)
    let s := if s.num 0 < 16 ∧ (s.link (s.num 0) (s.num 1)).run ≠ 0 then s.modEnds (s.num 0) (s.num 1) fun l => { l with run := 0 } else s
    if !(s.lay f.lay).serving || (s.die (f.ddie % 16)).st = 2 then .next s
    else
      let x : Xlat :=
        { ctx := (s.lay f.lay).ctl % 64, page := 0, psize := 52, r := true, w := true, at' := true, pin := true, tgt := 0,
          tid := f.ddie % 16, preg := 0, frame := 0, key := f.key, dirty := true }
      if f.opk = 0 then .next (s.writePlace x f.dline f.payload)
      else
        let y := s.combineFrame f x
        if s.num 0 = 16 ∨ y.2 = 0 then .next y.1
        else match y.1.op? (s.num 2) with
          | some o => .next (if o.live then y.1.modOp o.id fun o => { o with args := [0, 0, flOr (o.args.getD 2 0) y.2] }
              else y.1.modCtx x.ctx fun c => { c with flags := flOr c.flags y.2 })
          | none => .next (y.1.modCtx x.ctx fun c => { c with flags := flOr c.flags y.2 })

/-! ### Dynamic messages (R368, R369, R378) -/

/-- Flits that a message takes on a Wyusk port: header flit, lane addresses, lane data (R363, R368). -/
def msgFlits (m : Msg) : Nat := 1 + (8 * m.addrs.length + m.sz * m.data.length + m.sz * m.cmps.length + 31) / 32

/-- Frames that a message takes: 16 flits a frame (R363). -/
def msgFrames (m : Msg) : Nat := (msgFlits m + 15) / 16

/-- The virtual channel of a message (Table 19.2). -/
def msgVc (m : Msg) : Nat := if m.kind ≤ 5 then 1 else 2

/-- Mode of a message event: 0 leaves, 1 arrives, 2 waits at this module for an earlier one or a claim, 3 is an element of a
sequenced COPYR whose turn has not come and holds up nothing (R234). The messages of a peer that wait keep their order (R369). -/
def msgBehind (s : State) (die : Nat) (m : Msg) (mode : Nat) : Bool :=
  mode ≠ 3 && s.agenda.any fun e => match e.due with
    | .ev .dynamicMessage a => a.n.take 2 == [die, 2] && (match a.msg with | some x => x.peer == m.peer | none => false) &&
        (mode == 1 || s.now < e.at')
    | _ => false

/-- Let a message that arrived at instant `arr` wait one tick at this module. -/
def State.requeueMsg (s : State) (die : Nat) (m : Msg) (mode arr : Nat) : State :=
  s.sched (s.now + Config.unitsPerTick) 20 (.ev .dynamicMessage { Arg.none with n := [die, mode, arr], msg := some m })

/-- The virtual channel of a queued message that has not left yet. -/
def outVc (a : Arg) : Option Nat :=
  match a.n.getD 1 1, a.msg, a.vc3 with
  | 0, some m, _ => some (msgVc m)
  | 4, _, some _ => some 3
  | _, _, _ => none

/-- Does an earlier message of this module still wait to leave on the same virtual channel (R209, R369)? -/
def sendBehind (s : State) (die no vc : Nat) : Bool :=
  s.agenda.any fun e => match e.due with
    | .ev .dynamicMessage a => a.n.headD 16 == die && a.n.getD 2 0 < no && outVc a == some vc
    | _ => false

/-- Is a message of a higher virtual channel queued for the port at this instant: VC3 goes before VC2, which goes before VC1 (R363)? -/
def sendYields (s : State) (die vc : Nat) : Bool :=
  s.agenda.any fun e => e.at' ≤ s.now && (match e.due with
    | .ev .dynamicMessage a => (a.n.headD 16 == die || a.n.headD 16 == 16) && (match outVc a with | some v => decide (vc < v) | none => false)
    | _ => false)

/-- The local tick at which the VC0 slot ends that takes frame time of a die's port within three ticks of local tick `t` (R363). -/
def portSlotEnd (s : State) (die t : Nat) : Option Nat :=
  (List.range 4).findSome? fun l =>
    if (s.lay l).serving then
      ((occurrences (s.lay l) t fun e => e.kind = 3 && e.die = die).find? fun o => o.1 < t + 3 && t < o.1 + o.2).map fun o => o.1 + o.2
    else none

/-- The third of a local tick at which a port has sent `n` frames, 8 thirds each, from third `p` on and around its VC0 slots (R362, R363);
`fuel` bounds the frames and the slots. -/
def sentBy (s : State) (die : Nat) : Nat → Nat → Nat → Nat
  | 0, _, p => p
  | _, 0, p => p
  | fuel + 1, n + 1, p =>
    match portSlotEnd s die (p / 3) with
    | some e => sentBy s die fuel (n + 1) (3 * e)
    | none => sentBy s die fuel n (p + 8)

/-- Local TIME of a die's port (Table 18.1). -/
def portTime (s : State) (die : Nat) : Nat := timeAt s (unitDist s { die := die, core := 0, lead := false, slot := 0 } 3)

/-- May a dynamic frame leave a die's port now: the link is up, its last message has left, and no VC0 slot takes the frame time (R363)? -/
def portReady (s : State) (die : Nat) : Bool :=
  portUp s die && (s.link die 16).busy ≤ s.now && (portSlotEnd s die (portTime s die)).isNone

/-- Send `n` frames of a VC through a port, which they take until they have left (R362, R370): their tags, or none when the VC has no
key. -/
def State.sendFrames (s : State) (die vc total n flits : Nat) : Option (List Tag) × State :=
  let k := s.useKey die vc n
  match k.1 with
  | none => (none, s)
  | some (ks, sq) =>
    let d := unitDist s { die := die, core := 0, lead := false, slot := 0 } 3
    let last := sentBy s die (n + 64) n (3 * portTime s die)
    (some (dynTags vc ks ((s.link die 16).mode vc) sq total n flits),
      k.2.modLink die 16 fun l => { l with busy := instantOfTick s ((last + 2) / 3 + d) })

/-- The answer to a message: it keeps the request id and names the requesting die, core and unit (Table 19.4; log 145); fields of
atomics and copies are zero. -/
def msgReply (m : Msg) (kind cause : Nat) (addrs data : List Nat) : Msg :=
  { m with kind := kind, cause := cause, addrs := addrs, data := data, cmps := [], op := 0, rop := 0, seq := none }

/-- Apply one lane of a peer's request (R369, R377): the state and the value to answer. -/
def peerApply (s : State) (m : Msg) (x : Xlat) (a i : Nat) : State × Nat :=
  let v := m.data.getD i 0
  match m.kind with
  | 1 => (s, readPlace s x a m.sz)
  | 2 => (s.writePlace x a (leBytes m.sz v), 0)
  | _ =>
    let old := readPlace s x a m.sz
    let r := if m.rop ≠ 0 ∨ m.ty = 9 ∨ m.ty = 10 then copyrF m.rop m.ty old v else atomF m.op m.ty old v (m.cmps.getD i 0)
    (s.writePlace x a (leBytes m.sz r.1), old)

/-- The sequenced COPYR of a peer that an element belongs to is not at its turn yet at a SEQ entry (R234, R368). -/
def seqHeld (s : State) (m : Msg) : Bool :=
  s.claims.any fun c => c.op = peerClaim m && match c.seq with
    | some (ctx, n, js) => js.any fun j => Tab.get (0 : Nat) (s.ctx ctx).rgtseq j != n
    | none => false

/-- The counters of SEQ entries that the ended claims of a peer's copy waited at go on, unless others of its claims stand
(R234). `old` is the table before they ended. -/
def State.endSeq (s : State) (old : List Claim) (p : Nat) : State :=
  let mine (cs : List Claim) : List (Nat × Nat × Nat) := cs.flatMap fun c => match c.seq with
    | some (ctx, n, js) => if c.op = p then js.map fun j => (ctx, n, j) else []
    | none => []
  let left := mine s.claims
  let gone := (mine old).foldl (fun a x => if left.contains x || a.contains x then a else x :: a) []
  gone.foldl (fun s x => s.modCtx x.1 fun c => c.passSeq x.2.2 x.2.1) s

/-- A request from a peer that arrived at instant `arr` (R369, R378): lanes are translated here (R291), wait for claims entered before
them, and are applied in arrival order; faults are reported, and those of causes 2 and 5 are remembered until they are
resolved. -/
def State.peerRequest (s : State) (die : Nat) (m : Msg) (arr : Nat) : State :=
  let ls := m.addrs.zipIdx.map fun a => (a.1, a.2, peerLane s die m a.1)
  let mine := s.claims.any fun c => c.op = peerClaim m
  let busy := ls.any fun l => match l.2.2.2 with
    | some x =>
      chanPaused s x.home (x.place l.1) m.sz || if mine then m.kind ≠ 1 && arrivedFirst s (peerClaim m) x.home (x.place l.1) m.sz
      else claimed s x.home (x.place l.1) m.sz (cycleAt s x.home 0 arr + 1)
    | none => false
  if seqHeld s m then s.requeueMsg die m 3 arr
  else if busy then s.requeueMsg die m 2 arr
  else
    let r := ls.foldl (fun (y : State × List Nat) l => match l.2.2.2 with
      | some x =>
        let z := peerApply (y.1.setCompanion m.ctx die (m.kind ≠ 1) (walk y.1 die m.ctx l.1)) m x l.1 l.2.1
        let hi := x.place l.1 + m.sz
        (if m.kind = 1 then z.1 else (z.1.passClaims fun c =>
          if c.op = peerClaim m ∧ c.home = x.home ∧ c.lo < hi ∧ hi ≤ c.hi then hi else 0).endSeq z.1.claims (peerClaim m),
         y.2 ++ [z.2])
      | none => (y.1, y.2)) (s, [])
    let ok := ls.filter fun l => l.2.2.1 = 0
    let s := if ok.isEmpty then r.1
      else r.1.sendMsg die (msgReply m (match m.kind with | 1 => 6 | 3 => 8 | _ => 7) 0 (ok.map (·.1)) r.2)
    ((ls.filter fun l => l.2.2.1 ≠ 0).map fun l => (l.1, l.2.2.1, m.data.getD l.2.1 0)).foldl (fun s f =>
      let s := s.sendMsg die (msgReply m 9 f.2.1 [f.1] [f.2.2])
      if f.2.1 = 2 ∨ f.2.1 = 5 then
        { s with peerFaults := s.peerFaults ++ [(die, msgReply m 9 f.2.1 [f.1] [f.2.2])] } else s) s

/-- The region entries that cover bytes [lo, hi) of a peer's copy: number and SEQ (R234). Its message names neither the core's
marker nor a writer of this module: the marker is a free value, and a SINGLE entry always names another writer (log 118). -/
def peerEntries (s : State) (m : Msg) (lo hi marker : Nat) : List (Nat × Bool) :=
  if !(s.ctx m.ctx).det then []
  else (List.range 64).filterMap fun j =>
    let w0 := Tab.get (0 : Nat) (s.ctx m.ctx).rgt (2 * j)
    let w1 := Tab.get (0 : Nat) (s.ctx m.ctx).rgt (2 * j + 1)
    if w0.testBit 63 && bits w0 44 4 == marker && bits w0 0 44 ≤ (hi - 1) / 4096 && lo / 4096 ≤ bits w1 0 44
    then some (j, w0.testBit 48) else none

/-- A claim of a peer's copy (R231, R234, R368): it is entered and acknowledged once there is room, or refused by the region table with a
fault report of cause 0 (log 118), which moves the counters of its SEQ entries on; one of length 0 withdraws the copy's claims
(log 33). -/
def State.peerClaims (s : State) (die : Nat) (m : Msg) (arr : Nat) : State :=
  let lo := m.addrs.headD 0
  let n := m.data.headD 0
  let p := peerClaim m
  if n = 0 then (s.dropClaims p).endSeq s.claims p
  else
    let es := peerEntries s m lo (lo + n) (Config.freeNat s.freeCtr % 16)
    let s : State := { s with freeCtr := s.freeCtr + 1 }
    if es.any fun e => !e.2 || m.seq.isNone then
      let s := (s.dropClaims p).endSeq s.claims p
      let s := match m.seq with
        | some q => es.foldl (fun (s : State) (e : Nat × Bool) => if e.2 then s.modCtx m.ctx fun c => c.passSeq e.1 q else s) s
        | none => s
      s.sendMsg die (msgReply m 9 0 [lo] [])
    else match (peerLane s die { m with kind := 2 } lo).2 with
      | some x =>
        let c : Claim := { op := p, home := x.home, rng := 0, va := lo, lo := x.place lo, hi := x.place lo + n, passed := 0
                           stamp := homeCycle s x.home + 1, seq := m.seq.map fun q => (m.ctx, q, es.map (·.1)) }
        if claimRoom s c then State.sendMsg { s with claims := s.claims ++ [c] } die (msgReply m 7 0 [lo] [])
        else s.requeueMsg die m 2 arr
      | none => s.sendMsg die (msgReply m 7 0 [lo] [])

/-- The address under which a lane goes to its peer (R378). -/
def LaneReq.carried (l : LaneReq) : Nat := match l.xl with | some x => peerAddr x l.addr | none => l.addr

/-- The live operation that a response answers: of the unit that the response names, its id modulo 4096 is RID, and it has lanes at that
peer with the addresses of the response, or is a copy. -/
def answeredOp (s : State) (m : Msg) : Option Op :=
  s.ops.find? fun o => o.live && o.id % 4096 = m.rid && o.u.die = m.sdie && o.u.core = m.score &&
    (if o.u.lead then 4 + o.u.slot else o.u.slot) = m.sunit &&
    (o.copy.isSome ||
      o.lanes.any fun l => l.home = 32 + m.peer && (m.addrs.isEmpty || m.addrs.contains l.carried))

/-- The lanes of a response: by the addresses it carries, else every lane at the peer. -/
def respLanes (o : Op) (m : Msg) : List LaneReq :=
  o.lanes.filter fun l => l.home = 32 + m.peer && (m.addrs.isEmpty || m.addrs.contains l.carried) &&
    (l.st == .sent || l.st == .parked)

/-- Forget one write of a copy that a peer has answered. -/
def State.answerWrite (s : State) (m : Msg) : State :=
  let mine (f : Nat × Msg) : Bool := 16 ≤ f.1 && f.2.rid == m.rid && f.2.peer == m.peer &&
    (m.addrs.isEmpty || f.2.addrs == m.addrs)
  match s.peerFaults.find? mine with
  | some f => { s with peerFaults := s.peerFaults.erase f }
  | none => s

/-- The flags of an element that a peer has combined, from its old value (R238). -/
def State.elementFlags (s : State) (m : Msg) : Nat :=
  match s.peerFaults.find? fun f => 16 ≤ f.1 && f.2.rid == m.rid && f.2.peer == m.peer && f.2.addrs == m.addrs with
  | some f => (copyrF f.2.rop f.2.ty (m.data.headD 0) (f.2.data.headD 0)).2
  | none => 0

/-- A response for a copy (R236, R378, Table 11.2): data for its next unit, an accepted claim, an acknowledged write with the flags
of its elements, or a fault. -/
def State.copyResponse (s : State) (o : Op) (m : Msg) : State :=
  let again (s : State) : State :=
    s.schedEv s.now (match o.copy with | some r => 4 + r.ch | none => 4) (ev .copyUnitDeliver [o.id])
  let named (l : LaneReq) : Bool := (respLanes o m).any fun k => k.lane == l.lane
  match m.kind with
  | 6 => again (s.modLanes o.id fun l => if named l then { l with st := .answered, res := m.data.headD 0 } else l)
  | 7 | 8 =>
    if o.stage == .claimed then s.modOp o.id fun o => { o with args := (o.args.getD 0 0 - 1) :: o.args.drop 1 }
    else
      let fl := if m.kind = 8 then s.elementFlags m else 0
      (s.answerWrite m).modOp o.id fun o => { o with args := [o.args.getD 0 0, o.args.getD 1 0 - 1, flOr (o.args.getD 2 0) fl] }
  | 9 =>
    let reads := o.lanes.any fun l => l.st == .sent && l.home = 32 + m.peer
    if m.cause = 0 then s.cancelCopy o 5 false
    else if m.cause = 2 ∨ m.cause = 5 then
      let s := s.modLanes o.id fun l => if named l then { l with st := .parked } else l
      let held (f : Nat × Msg) : Nat × Msg :=
        if 16 ≤ f.1 ∧ f.2.rid = m.rid ∧ f.2.peer = m.peer ∧ f.2.addrs = m.addrs then (f.1, { f.2 with cause := m.cause }) else f
      { s with peerFaults := s.peerFaults.map held }
    else (s.copyFaultRecord o (m.cause, 0, 0) (m.addrs.headD 0) (!reads)).cancelCopy o 4 false
  | 10 =>
    let go := s.peerFaults.filter fun f => 16 ≤ f.1 && f.2.rid == m.rid && f.2.peer == m.peer && f.2.cause != 0
    let sent (f : Nat × Msg) : Nat × Msg := if go.contains f then (f.1, { f.2 with cause := 0 }) else f
    let s : State := { s with peerFaults := s.peerFaults.map sent }
    let s := go.foldl (fun s f => s.sendMsg (f.1 - 16) { f.2 with cause := 0 }) s
    if o.lanes.any fun l => l.st == .parked then
      again (s.modLanes o.id fun l => if l.st == .parked then { l with st := .idle, xl := none } else l)
    else s
  | _ => s

/-- A response for an access (R216, R377, R378). -/
def State.peerResponse (s : State) (m : Msg) : State :=
  match answeredOp s m with
  | none => s.answerWrite m
  | some o =>
    if o.copy.isSome then s.copyResponse o m
    else
      let ls := (respLanes o m).map (·.lane)
      -- a load takes the bytes of its unit's own writes that are not applied yet (R210); an RLD does not (R377)
      let own (l : LaneReq) (v : Nat) : Nat :=
        if o.kind = .load then ofLeBytes ((List.range o.size).map fun i => (ownByte s o l i).getD ((leBytes o.size v).getD i 0)) else v
      let fill (st : LaneSt) (s : State) : State := s.modLanes o.id fun l =>
        if ls.contains l.lane then { l with st := st, res := own l (m.data.getD (ls.idxOf l.lane) 0) } else l
      match m.kind with
      | 6 =>
        let s := fill .answered s
        match s.op? o.id with
        | some o => if o.lanes.all fun l => l.st == .answered then s.schedEv s.now 20 (ev .loadComplete [o.id]) else s
        | none => s
      | 7 => (s.modLanes o.id fun l => if ls.contains l.lane then { l with st := .acked } else l).finishWrite o.id
      | 8 => (fill .acked s).finishWrite o.id
      | 9 => ls.foldl (fun s l => s.schedEv s.now 20 (ev .faultReport [o.id, l, m.cause])) s
      | 10 => ls.foldl (fun s l => s.schedEv s.now 20 (ev .faultResolved [o.id, l])) s
      | _ => s

/-- A message of this module that is due: it leaves through the die's port behind the earlier ones of its VC and behind higher VCs, in frame
times that no VC0 slot takes, once the link is up and its VC has a key; else it is tried again a tick later (R209, R362, R363,
R369, R370). Operand 3 is how many of its frames went before, when it is sent again (R371). -/
def State.sendQueued (s : State) (a : Arg) : State :=
  let die := a.n.headD 16
  let again := s.sched (s.now + Config.unitsPerTick) 20 (.ev .dynamicMessage a)
  match outVc a with
  | none => s
  | some vc =>
    if sendYields s die vc then s.sched s.now 20 (.ev .dynamicMessage a)
    else if sendBehind s die (a.n.getD 2 0) vc then again
    else match a.msg, a.vc3 with
      | some m, _ =>
        let n := msgFrames m - a.n.getD 3 0
        let k := if portReady s die then s.sendFrames die vc (msgFrames m) n (msgFlits m) else (none, s)
        (match k.1 with | some ts => k.2.send (.dyn die vc m ts) | none => again)
      | none, some m =>
        -- any port will do for a message that names none
        let ds := if die < 16 then [die] else List.range 16
        (match (ds.filter (portReady s)).findSome? fun d => match s.sendFrames d 3 1 1 1 with
            | (some (t :: _), s') => some (s'.send (.vc3 d m t))
            | _ => none with
        | some s' => s'
        | none => again)
      | none, none => s

/-- DYNAMIC_MESSAGE. Modes 0 and 4: a message of this module is due to leave, on VC1 or VC2 or on VC3. Other modes: one from a peer has
arrived: requests are served, responses answer operations (R368, R369). -/
def execDynamicMessage (s : State) : Host.Outcome State Fault Refusal :=
  let die := s.num 0
  if s.num 1 = 0 ∨ s.num 1 = 4 then .next (s.sendQueued s.arg)
  else
    match s.arg.msg with
    | none => .next s
    | some m =>
      let arr := if s.num 1 = 1 then s.now else s.num 2
      if 6 ≤ m.kind then .next (s.peerResponse m)
      else if m.kind = 5 ∨ m.kind = 0 then .next s
      else if msgBehind s die m (s.num 1) then .next (s.requeueMsg die m 2 arr)
      else if m.kind = 4 then .next (s.peerClaims die m arr)
      else .next (s.peerRequest die m arr)

/-! ### Faults at a destination (R216, R378) -/

/-- FAULT_REPORT: a destination reports a fault of a lane: causes 2 and 5 park it, the others are permanent: a load lands 0,
an atomic lands 0 and changes nothing, and the issuing team is killed; a copy is cancelled (R216, R378, Table 11.2). DESIGN
CHOICE (log 121): writes in flight that fault while the replay queue is full are parked too. -/
def execFaultReport (s : State) : Host.Outcome State Fault Refusal :=
  match s.op? (s.num 0) with
  | none => .next s
  | some o =>
    let a := match o.lanes.find? fun l => l.lane == s.num 1 with | some l => l.addr | none => 0
    if !o.live then .next s
    else if s.num 2 = 2 ∨ s.num 2 = 5 then
      .next (s.modLanes o.id fun l =>
        if l.lane = s.num 1 ∧ l.st == .sent then { l with st := .parked, cause := s.num 2 } else l)
    else if o.copy.isSome then .next ((s.copyFaultRecord o (s.num 2, 0, 0) a false).cancelCopy o 4 false)
    else
      let s := s.modLanes o.id fun l => { l with res := 0 }
      .next ((s.complete o.id).writeFault o a)

/-- FAULT_RESOLVED: the destination reports the fault resolved and the parked lanes of that page are sent again (R216). -/
def execFaultResolved (s : State) : Host.Outcome State Fault Refusal :=
  match s.op? (s.num 0) with
  | none => .next s
  | some o =>
    match o.lanes.find? fun l => l.lane == s.num 1 with
    | none => .next s
    | some l =>
      let p := regionPage s o.u.die o.ctx l.addr
      let ids := (s.ops.filter fun e => e.u = o.u && e.live && o.seq ≤ e.seq && e.lanes.any fun k => k.st == .parked).map (·.id)
      .next (ids.foldl (fun s i => s.resend i fun k => k.addr / 2 ^ p = l.addr / 2 ^ p) s)

/-! ### Frames received and retries (R371) -/

/-- Is a dynamic message well formed: a valid MSG, and zero in every field that Table 19.4 makes zero: AOP but of atomics, ROP and the sequence
number but of atomics and claims (a COPYR's), LMASK within 32 lanes? -/
def msgOk (m : Msg) : Bool :=
  1 ≤ m.kind && m.kind ≤ 11 && m.rop ≠ 3 && m.zeros = 0 && m.lmask < 2 ^ 32 && (m.kind = 3 || m.op = 0) &&
    (m.kind = 3 || m.kind = 4 || (m.rop = 0 && m.seq.isNone))

/-- Does a received frame pass: CRC, tag, a usable key slot, a valid message (R371, R373)? -/
def framePasses (s : State) (die : Nat) (f : RxFrame) : Bool :=
  f.crcGood && f.tagGood && f.nflit < 16 && (s.link die 16).slotState (keySlot f.vc 1 f.ks) == 2 &&
    (match f.msg with | some m => msgOk m | none => true)

/-- The instant at which the slack window of a link ends that is open at instant `at'` or opens next, if a lay gives the link any (R352,
R367). -/
def slackEnd (s : State) (die code at' : Nat) : Option Nat :=
  (layOfUnit s die code).bind fun l =>
    let d := unitDist s { die := die, core := 0, lead := false, slot := 0 } (slackUnit code)
    let t := at' / Config.unitsPerTick + s.timeAdj - d
    ((occurrences (s.lay l) t fun e => e.kind = 6 && e.die = die && e.key % 4096 = code).find? fun o => t < o.1 + o.2).map
      fun o => instantOfTick s (o.1 + o.2 + d)

/-- A received frame that fails: the count rises, the sender is asked on VC3 to send again, and after sixteen failures in a row the
link trains again (R371, Table 19.7). A VC0 replay is waited for until its slack window has ended; a link with no window sets no
end (R367). -/
def State.frameFails (s : State) (die vc : Nat) : State :=
  let s := s.modLink die 16 fun l =>
    { l with fails := min (l.fails + 1) (2 ^ 32 - 1), run := l.run + 1,
             await := if l.await.contains vc then l.await else vc :: l.await }
  if 16 ≤ (s.link die 16).run then s.train die 16
  else
    let s := s.sendVc3 die (.retry 16 vc)
    match if vc = 0 then layOfUnit s die 0x80 else none, slackEnd s die 0x80 s.now with
    | some l, some e => s.schedEv (e + 8 * Config.unitsPerTick) 20 (ev .missingFrame [l, die, 16, 1])
    | _, _ => s

/-- FRAME_RECEIVE: a frame arrives at a die's port. One that fails its checks is not used; until the resend arrives the
frames behind it are discarded (R371). -/
def execFrameReceive (s : State) : Host.Outcome State Fault Refusal :=
  let die := s.num 0
  match s.arg.rx with
  | none => .next s
  | some f =>
    let x := s.link die 16
    if !(x.st == 2 || x.st == 4) || (x.await.contains f.vc && !f.resend && f.vc ≠ 0) then .next s
    else if !framePasses s die f then .next (s.frameFails die f.vc)
    else
      let s := s.modLink die 16 fun l => { l with run := 0, await := if f.resend then l.await.filter (· ≠ f.vc) else l.await }
      match f.msg, f.vc0 with
      | some m, _ => .next (s.sched s.now 20 (.ev .dynamicMessage { Arg.none with n := [die, 1], msg := some m }))
      | none, some v => .next (s.sched s.now 20 (.ev .vc0FrameWrite { Arg.none with n := [16, die], frame := some v }))
      | none, none => .next s

/-- Frames of a message that has left on a VC of a die's port; 0 for any other. -/
def OutMsg.frames (die vc : Nat) : OutMsg → Nat
  | .dyn d v _ ts => if d = die ∧ v = vc then ts.length else 0
  | .vc0 d _ _ => if d = die ∧ vc = 0 then 1 else 0
  | .vc3 d _ _ => if d = die ∧ vc = 3 then 1 else 0
  | _ => 0

/-- Drop the first `k` frames of the messages of a VC: the messages left, and how many frames of the first of them are dropped. -/
def dropFrames (die vc : Nat) : Nat → List OutMsg → List OutMsg × Nat
  | _, [] => ([], 0)
  | k, m :: ms => if k < m.frames die vc then (m :: ms, k) else dropFrames die vc (k - m.frames die vc) ms

/-- The messages of a VC that a die has sent, in order, from the frame that `back` later ones follow, and how many frames of the first
message come before that frame (R371). -/
def sentFrom (s : State) (die vc back : Nat) : List OutMsg × Nat :=
  let ms := s.out.filter fun m => m.frames die vc ≠ 0
  dropFrames die vc ((ms.map (OutMsg.frames die vc)).sum - 1 - back) ms

/-- A VC0 frame under way on a die link has failed: it is replayed at the place of the retry in the link's next slack window, and goes missing
when that would end later than 8 ticks after the window (R352, R366, R367, R371; log 34). -/
def State.replayDie (s : State) (die lnk : Nat) (e : Agenda) : State :=
  let s : State := { s with agenda := s.agenda.erase e }
  let b := slackStart s die (linkCode lnk) 112
  let w := b + Config.freeNat s.freeCtr % 49 * Config.unitsPerTick
  let s : State := { s with freeCtr := s.freeCtr + 1 }
  let lay := match e.due with | .ev _ a => (match a.frame with | some f => f.lay | none => 0) | _ => 0
  match slackEnd s die (linkCode lnk) b with
  | some x =>
    let last := x + 8 * Config.unitsPerTick
    if last < w then s.schedEv last 20 (ev .missingFrame [lay, lnk, die]) else s.sched w 20 e.due
  | none => s.sched w 20 e.due

/-- Send a message again: from its frame `k` on, before what is queued and has not left (R371). -/
def State.sendAgain (s : State) (m : OutMsg) (k : Nat) : State :=
  match m with
  | .dyn d _ m ts => s.sched s.now 20
      (.ev .dynamicMessage { Arg.none with n := [d, 0, 0, msgFrames m - ts.length + k], msg := some m })
  | .vc3 d m _ => s.sched s.now 20 (.ev .dynamicMessage { Arg.none with n := [d, 4, 0], vc3 := some m })
  | _ => s

/-- RETRY_REQUEST: the receiver of a link asks for a resend; operand 4 is how many frames of the VC were sent after the one that
failed. A port sends that dynamic frame and every later one of the VC again, in order, under the key now active; a VC0 frame
alone goes in the link's next slack window, 112 ticks, at the start of its place there (operand 3 is 1 then), and is dropped while no
lay serves the port (R405). On a die link a VC0 frame under way is delayed likewise; the sixteenth failure in a row loses it and
trains the link (R352, R371; log 34). -/
def execRetryRequest (s : State) : Host.Outcome State Fault Refusal :=
  let die := s.num 0
  let lnk := s.num 1
  let vc := s.num 2
  let begun := s.num 3 = 1
  if lnk < 16 then
    let s := s.modEnds die lnk fun l => { l with fails := min (l.fails + 1) (2 ^ 32 - 1), run := l.run + 1 }
    let failed := if vc ≠ 0 then none else s.agenda.find? fun e => match e.due with
      | .ev .vc0FrameWrite a => a.n.take 2 == [die, lnk]
      | _ => false
    let train := 16 ≤ (s.link die lnk).run
    match failed with
    | none => .next (if train then s.train die lnk else s)
    | some e =>
      if train then
        let lay := match e.due with | .ev _ a => (match a.frame with | some f => f.lay | none => 0) | _ => 0
        .next (State.train { s with agenda := s.agenda.erase e } die lnk |>.schedIn 8 20 (ev .missingFrame [lay, lnk, die]))
      else .next ((s.slackEvent die (linkCode lnk) 112).replayDie die lnk e)
  else
    let s := if vc = 0 && !begun then s.slackEvent die (linkCode lnk) 112 else s
    match sentFrom s die vc (s.num 4) with
    | (.vc0 _ _ f :: _, _) =>
      if !(s.lay f.lay).serving then .next s
      else if !begun && s.now < slackStart s die (linkCode lnk) 112 then
        .next (s.schedEv (slackStart s die (linkCode lnk) 112) 20 (ev .retryRequest [die, lnk, vc, 1, s.num 4]))
      else .next (s.sendVc0 die f)
    | (m :: ms, k) => .next (ms.foldl (fun s m => s.sendAgain m 0) (s.sendAgain m k))
    | ([], _) => .next s

/-! ### Link down (R374) -/

/-- Take a link down: frames in flight are lost, so VC0 frames go missing and accesses sent to peers fail (Table 19.7). -/
def State.linkDown (s : State) (die lnk : Nat) : State :=
  if (s.link die lnk).st = 0 then s
  else
    let s := s.modEnds die lnk fun l => { l with st := 0, run := 0, trained := false, await := [], wantSpare := false }
    if lnk < 16 then
      let mine (e : Agenda) : Bool := match e.due with
        | .ev .vc0FrameWrite a => a.n.take 2 == [die, lnk] || a.n.take 2 == [lnk, die]
        | _ => false
      let lost := s.agenda.filter mine
      let s : State := { s with agenda := s.agenda.filter fun e => !mine e }
      let s := lost.foldl (fun s e => match e.due with
        | .ev _ a => (match a.frame with
          | some f => s.schedIn 8 20 (ev .missingFrame [f.lay, a.n.getD 1 0, a.n.getD 0 0])
          | none => s)
        | _ => s) s
      -- requests and responses under way between the two dies
      let across (o : Op) (l : LaneReq) : Bool := ((o.u.die == die && l.home == lnk) || (o.u.die == lnk && l.home == die)) &&
        (l.st == .sent || l.st == .atHome || l.st == .applied || (l.st == .answered && o.kind = .load))
      let s := (s.ops.filter fun o => o.live && !o.copy.isSome).foldl (fun s o =>
        (o.lanes.filter (across o)).foldl (fun s l => s.schedEv s.now 20 (ev .faultReport [o.id, l.lane, 4])) s) s
      -- copies whose words stand at the other die, or whose writes there are not acknowledged
      let copies (o : Op) (r : CopyRec) : Bool := (o.u.die == die || o.u.die == lnk) &&
        (o.lanes.any (fun l => l.st == .atHome && across o l) || (o.stage == .delivered && !r.dstScr &&
          (match (walk s o.u.die o.ctx r.dst).xl with
            | some x => o.u.die ≠ x.home && (x.home == die || x.home == lnk)
            | none => false)))
      (s.ops.filter fun o => o.live && (match o.copy with | some r => !r.sched && copies o r | none => false)).foldl (fun s o =>
        s.schedEv s.now 20 (ev .faultReport [o.id, 0, 4])) s
    else
      let queued (p : Msg → Bool) : Bool := s.agenda.any fun e => match e.due with
        | .ev .dynamicMessage a => a.n.take 2 == [die, 0] && (match a.msg with | some m => p m | none => false)
        | _ => false
      let waits (o : Op) (l : LaneReq) : Bool := queued fun m => m.rid == o.id % 4096 && 32 + m.peer == l.home
      let s := (s.ops.filter fun o => o.live && o.u.die = die).foldl (fun s o =>
        (o.lanes.filter fun l => l.st == .sent && 32 ≤ l.home && !waits o l).foldl (fun s l =>
          s.schedEv s.now 20 (ev .faultReport [o.id, l.lane, 4])) s) s
      -- the writes and claims of copies that have left and are not answered
      let lost (f : Nat × Msg) : Bool := f.1 = 16 + die && f.2.cause = 0 && !queued fun m => m == f.2
      let mine (o : Op) : Bool := s.peerFaults.any (fun f => lost f && f.2.rid = o.id % 4096) ||
        (o.stage == .claimed && o.args.getD 0 0 ≠ 0 && !queued fun m => m.kind = 4 && m.rid = o.id % 4096)
      (s.ops.filter fun o => o.live && o.copy.isSome && o.u.die = die && mine o).foldl (fun s o =>
        s.schedEv s.now 20 (ev .faultReport [o.id, 0, 4])) { s with peerFaults := s.peerFaults.filter fun f => !lost f }

/-- LINK_DOWN (Table 19.7). -/
def execLinkDown (s : State) : Host.Outcome State Fault Refusal := .next (s.linkDown (s.num 0) (s.num 1))

/-! ### Key slots (R372, R373) -/

/-- The key of WKDATA0-3 as one number. -/
def wyuskKey (l : LinkRec) : Nat := (List.range 4).foldl (fun a i => a + Tab.get (0 : Nat) l.wkdata i * 2 ^ (64 * i)) 0

/-- The slot that WKSEL selects (Table 19.5). -/
def selSlot (l : LinkRec) : Nat := keySlot (bits l.wksel 0 2) (bits l.wksel 3 1) (bits l.wksel 2 1)

/-- Set the status of a port's last key command. -/
def State.wkStatus (s : State) (die st : Nat) : State := s.modLink die 16 fun l => { l with status := st }

/-- WKCMD STAGE: key, salt and switch tick enter a retired slot; a tick nearer than 65,536 is refused with status 2 (R373). -/
def execWkcmdStage (s : State) : Host.Outcome State Fault Refusal :=
  let d := s.num 1
  let l := s.link d 16
  let i := selSlot l
  let dist := unitDist s { die := d, core := 0, lead := false, slot := 0 } 3
  .next (wyuskWrite s (s.num 0) d
    (if s.ibrum.updating || l.slotState i ≠ 0 || s.alarmSt.testBit 63 then s.wkStatus d 1
     else if l.wktick < timeAt s dist + 65536 then s.wkStatus d 2
     else
       let s := s.modLink d 16 fun l =>
         { l with status := 0, slots := l.slots.put i (1, wyuskKey l, l.wksalt, l.wktick, 0) }
       s.schedEv (instantOfTick s (l.wktick + dist)) 2 (ev .keySlotActivate [d, bits l.wksel 0 2, bits l.wksel 3 1, bits l.wksel 2 1])))

/-- Erase a key slot (R373). -/
def State.retireKey (s : State) (die i : Nat) : State := s.modLink die 16 fun l => { l with slots := l.slots.del i }

/-- WKCMD ERASE: the selected slot is retired at once (R373). -/
def execWkcmdErase (s : State) : Host.Outcome State Fault Refusal :=
  let d := s.num 1
  .next (wyuskWrite s (s.num 0) d
    (if s.ibrum.updating then s.wkStatus d 1 else (s.retireKey d (selSlot (s.link d 16))).wkStatus d 0))

/-- KEY_SLOT_ACTIVATE: at its switch tick a staged slot becomes active with SEQ 0; the other slot of a transmit direction
retires at once, of a receive direction 1,024 ticks later (R373). -/
def execKeySlotActivate (s : State) : Host.Outcome State Fault Refusal :=
  let d := s.num 0
  let vc := s.num 1
  let dir := s.num 2
  let i := keySlot vc dir (s.num 3)
  let e := Tab.get (0, 0, 0, 0, 0) (s.link d 16).slots i
  let dist := unitDist s { die := d, core := 0, lead := false, slot := 0 } 3
  if e.1 ≠ 1 ∨ timeAt s dist < e.2.2.2.1 then .next s
  else
    let o := keySlot vc dir (1 - s.num 3)
    let s := s.modLink d 16 fun l => { l with slots := l.slots.put i (2, e.2.1, e.2.2.1, e.2.2.2.1, 0) }
    let s := if dir = 0 then s.retireKey d o
      else if (s.link d 16).slotState o = 2 then s.schedIn 1024 20 (ev .keySlotRetire [d, vc, dir, 1 - s.num 3]) else s
    .next (s.tryKeyed d 16)

/-- KEY_SLOT_RETIRE: the old receive slot is erased (R373). -/
def execKeySlotRetire (s : State) : Host.Outcome State Fault Refusal :=
  let d := s.num 0
  let i := keySlot (s.num 1) (s.num 2) (s.num 3)
  .next (if (s.link d 16).slotState i = 2 then s.retireKey d i else s)

end Sys2Proof.Machine
end

