-- ==== Sys2Proof/Machine/Strike.lean ====
section
/-! DEFINITION. Strikes and errors: reports and rollbacks of a zone (R380-R386), mismatches of protected mode and dual-run
(R387-R391), uncore replays (R393), HBM4 lane repair (R394) and the counters of Table 20.4. -/

namespace Sys2Proof.Machine

/-! ### Zones -/

/-- The units of a zone; those in the shadow store are not among them (R386). -/
def zoneUnits (s : State) (z : Nat) : List ExecUnit := s.units.filter fun x => zoneOf x.id.die x.id.core = z && !x.id.sh

/-- Lowest core of a zone. -/
def zoneCore (z : Nat) : Nat := quartetCore (z % 64)

/-- Is a zone frozen: a group of it belongs to a frozen context (R386)? -/
def zoneFrozen (s : State) (z : Nat) : Bool :=
  s.groups.any fun g => g.state == .frozen && zoneOf g.die g.core = z

/-- The dual-run partner of a zone that holds a unit of a DUAL kernel: rows 2 apart (R389, R391). -/
def partnerZone (s : State) (z : Nat) : Option Nat :=
  if (zoneUnits s z).any fun x => dualOf s x.id then some (64 * (z / 64) + (z % 64 ^^^ 8)) else none

/-- Add 1 to a saturating 16-bit field of ZCNT at bit `lo` (Table 20.4). -/
def bump16 (v lo : Nat) : Nat := if bits v lo 16 = 65535 then v else v + 2 ^ lo

/-- The report word (Table 20.1). -/
def reportWord (z src ts : Nat) : Nat := 2 ^ 63 + src * 2 ^ 60 + z * 2 ^ 48 + ts % 2 ^ 40

/-- Count a report (Table 20.4). -/
def State.countReport (s : State) (z src ts : Nat) : State :=
  s.modZone z fun x => { x with zlast := reportWord z src ts, zcnt := bump16 x.zcnt (if src = 0 then 48 else if src = 1 then 32 else 16) }

/-! ### Rollback (R383, R384) -/

/-- Withdraw held flags and record fills raised at or after the cut (R187, R323). -/
def State.dropFlags (s : State) (z cut : Nat) : State :=
  { s with heldFlags := s.heldFlags.filter fun h => !(64 * h.die + h.q = z && cut ≤ h.cycle) }

/-- The requests of a unit that a rollback aborts. -/
def openRows (s : State) (u : UnitId) : List PassRow :=
  (s.engine u.die (quartetOf u.core)).rows.filter fun r => r.u = u && ((1 ≤ r.st && r.st ≤ 4) || r.st = 7)

/-- A trap before the cut stands, and so does one that is final: its unit takes no part in the rollback (R314). A wait for a page is
no trap. -/
def trapStands (x : ExecUnit) (cut : Nat) : Bool :=
  match x.stop with
  | some t => !t.waitOnly && (t.final || t.cycle < cut)
  | none => false

/-- f of R383: the earliest issue at or after the cut, issue of a fixed-latency instruction that lands at or after it, or
issue of an aborted request; a tentative trap counts as an issue (R314). -/
def restartFrom (s : State) (x : ExecUnit) (cut : Nat) : Option Nat :=
  let is := (x.issued.filter fun i => cut ≤ i.cycle || cut ≤ i.land).map (·.cycle)
  let ps := if x.id.lead then [] else (openRows s x.id).map (·.issue)
  let ts := match x.stop with | some t => if !t.final && cut ≤ t.cycle then [t.cycle] else [] | none => []
  if trapStands x cut then none
  else (is ++ ps ++ ts).foldl (fun a c => match a with | none => some c | some b => some (min b c)) none

/-- The target: the newest record recorded at or before f (R383). -/
def targetRecord (x : ExecUnit) (f : Nat) : Option RegionRec :=
  match x.ring.find? fun r => r.cycle ≤ f with
  | some r => some r
  | none => x.ring.getLast?

/-- How many of a unit's barrier and counter instructions stay: all but those issued at or after the cut (R172). -/
def keptBars (s : State) (x : ExecUnit) (cut : Nat) : Nat :=
  let all := max x.keepBar x.nBar
  match s.group? x.gid with
  | none => all
  | some g =>
    all - ((g.kLog.filter fun c => c.u = x.id && c.instr && cut ≤ c.issue).length +
      (g.bLog.filter fun c => c.u = x.id && c.instr && cut ≤ c.issue).length)

/-- Withdraw the barrier and counter instructions of a zone issued at or after the cut (R172); a withdrawn BARINIT.TEAM no
longer counts at its team barrier. -/
def State.dropBars (s : State) (z cut : Nat) : State :=
  { s with
    teams := s.teams.map fun t => { t with tb := t.tb.map fun b =>
      { b with reinit := b.reinit.filter fun r => !(zoneOf r.2.1.die r.2.1.core = z && !r.2.1.sh && cut ≤ r.2.2) } }
    groups := s.groups.map fun g =>
      if zoneOf g.die g.core = z && g.state != .frozen then
        { g with kLog := g.kLog.filter fun c => !(c.instr && cut ≤ c.issue)
                 bLog := g.bLog.filter fun c => !(c.instr && cut ≤ c.issue) }
      else g }

/-- Mark the lines of a zone's scratch written at or after the cut (R186). -/
def State.rollLines (s : State) (z cut : Nat) : State :=
  { s with lines := s.lines.map fun e =>
      let k := e.1 / (Config.scratchBytes / 64)
      if zoneOf (k / 256) (k % 256) = z ∧ e.2.hasLast = true ∧ cut ≤ e.2.last then (e.1, { e.2 with rolled := true }) else e }

/-- A clause in progress of a unit that is not restarted issues nothing further now: it goes on at its next position once the
zone is quiet (R383, R384). -/
def State.holdClause (s : State) (x : ExecUnit) : State :=
  if x.clause.isNone || x.resume.isSome then s
  else
    match s.agenda.findSome? fun e => match e.due with | .slot u i => if u = x.id then some i else none | _ => none with
    | some i =>
      let s : State := { s with agenda := s.agenda.filter fun e => e.due != .slot x.id i }
      s.modUnit x.id fun x => { x with resume := some i }
    | none => s

/-- Roll a unit of the zone back, or let it wait (R383, R384). -/
def State.rollUnit (s : State) (x : ExecUnit) (f : Option Nat) (bar cut : Nat) : State :=
  match f.bind (targetRecord x) with
  | some r => s.restart x.id r (s.ucyc x.id) (fun o => cut ≤ o.issue) bar
  | none => s.holdClause x

/-- The entries of a twin that follow a primary's entry which the shared cut discards go with it (R385, R390, R391). -/
def State.dropTwins (s : State) (cyc : Nat) (p : Op → Bool) : State :=
  let follows (o : Op) : Bool := o.fwd ≠ 0 && o.ordinal < 2 ^ 40 && p o &&
    (match s.op? o.fwd with | some e => e.held || e.stage == .cancelled | none => true)
  (s.ops.filter follows).foldl (fun s o =>
    (s.cancelOp o cyc).modOp o.id fun o => { o with ordinal := o.ordinal + 2 ^ 40 }) s

/-- The rollback of one zone with a cut (R384). -/
def State.rollZone (s : State) (z cut : Nat) : State :=
  let d := z / 64
  let cyc := s.cyc d (zoneCore z)
  let us := (zoneUnits s z).map fun x => (x, restartFrom s x cut, keptBars s x cut)
  let mine (o : Op) : Bool := zoneOf o.u.die o.u.core = z && !o.u.sh && cut ≤ o.issue
  let s := ((s.discardHeld cyc mine).dropTwins cyc mine).abortPasses d (z % 64) cyc fun _ => true
  let s := s.rollLines z cut
  let s := us.foldl (fun s y => match s.unit? y.1.id with
    | some x => s.rollUnit x y.2.1 y.2.2 cut
    | none => s) s
  s.dropBars z cut

/-- The lays whose units a zone holds, each with the first such unit (R384). -/
def zoneLays (s : State) (z : Nat) : List (Nat × UnitId) :=
  (List.range 4).filterMap fun l =>
    ((zoneUnits s z).find? fun x => match (s.group? x.gid).bind s.kernelOf with
      | some k => k.lpb.sched && k.lay == some l
      | none => false).map fun x => (l, x.id)

/-- A report takes effect on the units of a zone at its cycle: cut and end are fixed or renewed, the rollback is made, and a zone with a
unit of a scheduled kernel raises cause 9 (R384, R386). -/
def State.reportZone (s : State) (z cut fin : Nat) : State :=
  if (zoneUnits s z).isEmpty then s
  else
    let x := s.zone z
    let c := if x.rolling then min x.cut cut else cut
    let s := (s.modZone z fun x => { x with rolling := true, cut := c, fin := max fin (if x.rolling then x.fin else 0) }).rollZone z c
    let s := (zoneLays s z).foldl (fun s l => s.schedFault l.1 9 l.2 0 [0]) s
    s.schedCyc (z / 64) (zoneCore z) (s.zone z).fin 2 (ev .rollbackEnd [z])

/-- STRIKE_REPORT: a sensor, timing or mismatch report reaches a zone: the cut is t_s − 32; issue stops now and goes on 54
cycles later; held flags raised at or after the cut are withdrawn at once, whether or not the zone holds a unit (R323); a frozen
zone holds the report for its saved units, and units of another context there take it now (R384, R386); a dual-run partner rolls
back with the same cut, and a mismatch of the pair counts in both (R391). -/
def execStrikeReport (s : State) : Host.Outcome State Fault Refusal :=
  let z := s.num 0
  let src := s.num 1
  let ts := s.num 2
  let cut := ts - 32
  let held := s.num 3 = 1
  let drop (s : State) (z c : Nat) : State := if held then s else s.dropFlags z c
  let s := if held then s else (s.countReport z src ts).dropFlags z cut
  let s := if zoneFrozen s z then
      s.modZone z fun x => { x with heldCut := match x.heldCut with
        | some h => some (min h.1 cut, h.2)
        | none => some (cut, src) }
    else s
  let p := partnerZone s z
  -- a dual-run mismatch is reported to both zones (R391)
  let s := match p with | some q => if src = 3 ∧ !held then s.countReport q src ts else s | none => s
  if zoneFrozen s z && (zoneUnits s z).isEmpty then .next s
  else
    let fin := max (s.cyc (z / 64) (zoneCore z)) (match p with | some q => s.cyc (q / 64) (zoneCore q) | none => 0) + 54
    let c := match p with
      | some q => min cut (if (s.zone q).rolling then (s.zone q).cut else cut)
      | none => cut
    let c := if (s.zone z).rolling then min c (s.zone z).cut else c
    let s := (drop s z c).reportZone z c fin
    .next (match p with
      | some q => if zoneFrozen s q && (zoneUnits s q).isEmpty then drop s q c else (drop s q c).reportZone q c fin
      | none => s)

/-- ROLLBACK_END: at r + 54 every unit of the zone resumes at its first window (R384). -/
def execRollbackEnd (s : State) : Host.Outcome State Fault Refusal :=
  let z := s.num 0
  let x := s.zone z
  let cyc := s.cyc (z / 64) (zoneCore z)
  if !x.rolling || cyc < x.fin then .next s
  else
    let s := s.modZone z fun x => { x with rolling := false }
    .next ((zoneUnits s z).foldl (fun s u =>
      if u.ended || u.stop.isSome || u.laySt ≠ 0 then s else s.resumeUnit u.id x.fin) s)

/-- REGION_RECORD_FREE: records whose next newer one is more than D + 48 cycles old are freed (R382). -/
def execRegionRecordFree (s : State) : Host.Outcome State Fault Refusal :=
  let u := s.arg.u
  .next (s.modUnit u fun x => x.prune (s.ucyc u))

/-! ### Mismatches (R387-R391) -/

/-- Mark a unit: the mark lasts until it records a region entry newer than all it holds (R388). -/
def State.markUnit (s : State) (u : UnitId) : State :=
  s.modUnit u fun x => { x with mark := some (match x.ring with | r :: _ => r.number | [] => x.rgnc) }

/-- Is a unit marked? -/
def isMarked (s : State) (u : UnitId) : Bool := match s.unit? u with | some x => x.mark.isSome | none => false

/-- Is an instruction of zone `z` issued at `c` withdrawn by a report in effect, or by one that reaches the zone now? -/
def rolledBack (s : State) (z c : Nat) : Bool :=
  ((s.zone z).rolling && (s.zone z).cut ≤ c) || s.agenda.any fun e => match e.due with
    | .ev .strikeReport a => e.at' ≤ s.now && a.n.getD 0 0 == z && a.n.getD 2 0 - 32 ≤ c
    | _ => false

/-- PROTECTED_MISMATCH: a primary lane and its shadow differ: a report with SRC 2 whose cut is the instruction's issue cycle;
a marked unit's mismatch is an uncorrectable error with source 8, unless the instruction is one that the rollback of the
first mismatch withdraws (R388). -/
def execProtectedMismatch (s : State) : Host.Outcome State Fault Refusal :=
  let u := s.arg.u
  match s.unit? u with
  | none => .next s
  | some x =>
    if rolledBack s (zoneOf u.die u.core) (s.num 0) then .next s
    else if x.mark.isSome then .next (s.consume u x.gid 8 0 0)
    else .next ((s.markUnit u).sched s.now 20 (ev .strikeReport [zoneOf u.die u.core, 2, s.num 0 + 32]))

/-- What two entries must agree in (R390). -/
def sameEntry (a b : Op) : Bool :=
  a.kind == b.kind && a.fn == b.fn && a.ty == b.ty && a.size == b.size && a.ord == b.ord && a.sco == b.sco && a.k == b.k &&
    a.bar == b.bar && a.dest == b.dest && a.args == b.args &&
    a.lanes.map (fun l => (l.lane, l.addr, l.data, l.cmp, l.peer)) == b.lanes.map (fun l => (l.lane, l.addr, l.data, l.cmp, l.peer)) &&
    (match a.copy, b.copy with
     | some x, some y => x.ch == y.ch && x.src == y.src && x.dst == y.dst && x.shape == y.shape && x.srcScr == y.srcScr &&
         x.dstScr == y.dstScr && x.red == y.red && x.rop == y.rop && x.ty == y.ty && x.seq == y.seq && x.value == y.value
     | none, none => true
     | _, _ => false)

/-- The pair of a dual-run unit: the same slot of the core 32 away (R389). -/
def twinUnit (u : UnitId) : UnitId := { u with core := u.core ^^^ 32 }

/-- DUAL_RUN_MISMATCH: at issue + 2 a twin's entry is compared with its partner's of the same cycle, and a primary's
entry is judged only for having a partner. An equal twin entry becomes a
replay bound to the primary's; otherwise both zones get a report with SRC 3, by one event, and a marked unit's second mismatch is an
uncorrectable error with source 9 (R390, R391). -/
def execDualRunMismatch (s : State) : Host.Outcome State Fault Refusal :=
  match s.op? (s.num 0) with
  | none => .next s
  | some o =>
    if !o.held then .next s
    else
      let p := s.ops.find? fun e => e.u = twinUnit o.u && e.issue = o.issue && e.ordinal ≠ 0 && e.ordinal < 2 ^ 40 &&
        (e.held || e.fwd = o.id)
      let twin := match s.group? o.gid with | some g => g.twinOf.isSome | none => false
      let bad : State :=
        if isMarked s o.u || isMarked s (twinUnit o.u) then s.consume o.u o.gid 9 0 o.pc
        else ((s.markUnit o.u).markUnit (twinUnit o.u)).sched s.now 20 (ev .strikeReport [zoneOf o.u.die o.u.core, 3, o.issue + 32])
      match p with
      | none => .next bad
      | some e =>
        if !twin || e.fwd = o.id then .next s
        else if !sameEntry o e then .next bad
        else
          let s := s.modOp e.id fun e => { e with binds := e.binds ++ [{ u := o.u, issue := o.issue, k := o.k }] }
          .next (s.modOp o.id fun o => { o with fwd := e.id, kdone := true, stage := .done })

/-! ### Uncore blocks (R393) -/

/-- MESH_RETRANSMIT: a sender sends again within 16 ticks; a scheduled beat is charged to the slack window of its channel
(R393). -/
def execMeshRetransmit (s : State) : Host.Outcome State Fault Refusal :=
  if s.num 2 = 0 then .next s
  else
    let s : State := { s with freeCtr := s.freeCtr + 1 }
    .next (s.slackEvent (s.num 0) (s.num 1) (1 + Config.freeNat (s.freeCtr - 1) % 16))

/-- The stack words of the lines of `n` bytes at `a` on a home (R393). -/
def lineWords (h a n : Nat) : List Nat :=
  (List.range ((a % 64 + n + 63) / 64)).flatMap fun i =>
    (List.range 8).map fun j => poisonHbm (hbmAddr h (a / 64 * 64 + 64 * i + 8 * j))

/-- Poison stack words as a failed home does: under source 10 (R393). -/
def State.poisonHome (s : State) (ws : List Nat) : State :=
  let ws := distinct ws
  { s with poison := (ws ++ ws.map homeMark) ++ s.poison.filter fun p => !ws.contains p }

/-- The lines that a home is applying for an operation: those of its lanes there, of the words of a copy's unit under way, of a request
from a peer that came in through die `d` (R393). -/
def applyingAt (s : State) (h d : Nat) (o : Option Op) (m : Option Msg) : List Nat :=
  match m, o with
  | some m, _ => m.addrs.flatMap fun a => match (peerLane s d m a).2 with
    | some x => if x.home = h then lineWords h (x.place a) m.sz else []
    | none => []
  | none, some o => o.lanes.flatMap fun l =>
    if o.copy.isSome then
      match (walk s o.u.die o.ctx l.data).xl with
      | some x => if x.home = h && l.st != .idle then lineWords h (x.place l.data) l.cmp else []
      | none => []
    else match l.xl with
      | some x => if l.home = h then lineWords h (x.place l.addr) o.size else []
      | none => []
  | none, none => []

/-- HOME_REPLAY: home logic replays an operation, or a peer's request that came in through die operand 3; one that fails poisons every
line that it was applying (R393). -/
def execHomeReplay (s : State) : Host.Outcome State Fault Refusal :=
  let h := s.num 1
  if s.num 2 ≠ 0 ∨ 16 ≤ h then .next s
  else .next (s.poisonHome (applyingAt s h (s.num 3) (s.op? (s.num 0)) s.arg.msg))

/-! ### Repair and counters (R394, R395) -/

/-- A write to an error register: accepted from the management owner and the Ibrum controller; status 3 for others. -/
def errWrite (s : State) (port : Nat) (f : State) : State :=
  if owns s port || port = 2 then f else { s with hrepStatus := 3 }

/-- HREPCMD GO: a repair of a pin of the channel in HSEL: refused with no spare left, made now or at the channel's next
maintenance window (R394). -/
def execHrepcmdGo (s : State) : Host.Outcome State Fault Refusal :=
  let d := s.hsel % 16
  let c := bits s.hsel 4 5
  let pin := s.num 1
  .next (errWrite s (s.num 0)
    (if s.ibrum.updating || (s.chan d c).spare = 0 then { s with hrepStatus := 1 }
     else
      let s := s.modChan d c fun x => { x with want := some pin }
      match maintenance s d c with
      | some t => State.schedEv { s with hrepStatus := if t = s.now then 0 else 2 } t 20 (ev .hbmLaneRepair [d, c, pin])
      | none => State.schedIn { s with hrepStatus := 2 } 4096 20 (ev .hbmLaneRepair [d, c, pin])))

/-- HBM_LANE_REPAIR: in its window the channel pauses and a spare takes the pin's place; the lane's data is on the spare before the
switch, so nothing is lost (R394; log 136). -/
def execHbmLaneRepair (s : State) : Host.Outcome State Fault Refusal :=
  let d := s.num 0
  let c := s.num 1
  if (s.chan d c).want.isNone then .next s
  else
    match maintenance s d c with
    | some t =>
      if t ≠ s.now then .next (s.schedEv t 20 (ev .hbmLaneRepair [d, c, s.num 2]))
      else
        let p := s.pauseEnd d c
        let s := p.2.modChan d c fun x =>
          { x with want := none, spare := x.spare - 1, pins := x.pins.del (s.num 2), pause := p.1 }
        .next { s with hrepStatus := if s.hrepStatus = 2 then 0 else s.hrepStatus }
    | none => .next (s.schedIn 4096 20 (ev .hbmLaneRepair [d, c, s.num 2]))

/-- ZCNT_CLEAR: the counters of the zone in ERRSEL (Table 20.4). -/
def execZcntClear (s : State) : Host.Outcome State Fault Refusal :=
  .next (errWrite s (s.num 0) (s.modZone (s.errsel % 1024) fun x => { x with zcnt := 0 }))

/-- UECNT_CLEAR (Table 20.4). -/
def execUecntClear (s : State) : Host.Outcome State Fault Refusal := .next (errWrite s (s.num 0) { s with uecnt := 0 })

end Sys2Proof.Machine
end

