-- ==== Sys2Proof/Machine/Module.lean ====
section
/-! DEFINITION. The module: operating classes and boost leases (R396-R398), power and temperature (R399-R401), the Ibrum
controllers, firmware and measurements (R402-R405), the security alarm (R406), power-on (R407) and the register map. -/

namespace Sys2Proof.Machine

/-! ### Ownership -/

/-- May a port write the owner's fields of the module registers: the management owner, or the Ibrum controller? -/
def modOwns (s : State) (port : Nat) : Bool := owns s port || port = 2

/-- A write of the owner: dropped from another agent, with PWRCMD status 3. -/
def ownerWrite (s : State) (port : Nat) (f : State) : State := if modOwns s port then f else { s with pwrStatus := 3 }

/-- A command in PWRCMD: refused during a live update (R404). -/
def pwrCommand (s : State) (port : Nat) (f : State) : State :=
  ownerWrite s port (if s.ibrum.updating then { s with pwrStatus := 1 } else f)

/-! ### Classes (R396, R397) -/

/-- Does an armed or running lay belong to the pool of a class (log 135)? -/
def poolInLay (s : State) (cls : Nat) : Bool := s.lays.any fun y => y.holds && y.cls == cls

/-- Requests of POOLCFG: a die whose requested class differs stops placing teams until it has changed (R397). DEDUCED (log 161): a
request made while a lay of the pool is armed or running is held, which is how Table 18.7 and R397 agree. -/
def State.poolWrite (s : State) (v : Nat) : State :=
  let s : State := { s with poolcfg := v % 2 ^ 32 }
  (List.range 16).foldl (fun s d =>
    let c := bits v (2 * d) 2
    let x := s.die d
    if c = x.cls then
      (if x.st = 3 then s.modDie d fun x => { x with reqCls := c }
       else (s.modDie d fun x => { x with reqCls := c, changing := false }).kickDie d)
    else (s.modDie d fun x => { x with reqCls := c, changing := true }).schedEv s.now 20 (ev .operatingPointChange [d])) s

/-- POOLCFG_WRITE (Table 21.1). -/
def execPoolcfgWrite (s : State) : Host.Outcome State Fault Refusal :=
  .next (ownerWrite s (s.num 0) (s.poolWrite (s.num 1)))

/-- Must a change of operating point wait: a lay of the pool, or a group on the die (R397)? -/
def changeWaits (s : State) (d : Nat) : Bool :=
  poolInLay s (s.die d).cls ||
    s.groups.any fun g => g.die = d && (g.state == .running || g.state == .faulted || g.state == .draining)

/-- Do links of a die train (Table 19.7)? A port whose training has ended and that has no keys yet does not. -/
def linksTrain (s : State) (d : Nat) : Bool :=
  (List.range 17).any fun l => l != d && (s.link d l).st == 1 && !(s.link d l).trained

/-- OPERATING_POINT_CHANGE: a quiet die changes within 20 µs, takes a new start pulse and places teams again (R397); a lease that it
holds ends with the change (log 157). The return of a die to service ends in the same way, once its links have trained (R401). -/
def execOperatingPointChange (s : State) : Host.Outcome State Fault Refusal :=
  let d := s.num 0
  let x := s.die d
  if !x.changing then .next s
  else if changeWaits s d || (x.st = 3 && linksTrain s d) then .next (s.schedIn 1 20 (ev .operatingPointChange [d]))
  else if s.num 1 = 0 then
    let s : State := { s with freeCtr := s.freeCtr + 1 }
    .next (s.schedIn (1 + Config.freeNat (s.freeCtr - 1) % 42000) 20 (ev .operatingPointChange [d, 1]))
  else
    let back := 2048 - (s.reductions.filter fun e => e = d).length
    let s := s.modDie d fun x => { x with
      cls := x.reqCls, changing := false, boost := none, st := (if x.st = 3 then 0 else x.st), limit := (if x.st = 3 then back else x.limit) }
    let s := (s.startPulse d).kickDie d
    .next ((List.range 64).foldl (fun s n =>
      if (s.ctx n).state == .running then s.schedEv s.now 20 (ev .recordConsume [n]) else s) s)

/-! ### Boost leases (R398) -/

/-- PWRCMD BOOST: a class-3 die with no lay of its pool gets a lease of 21,000,000 ticks from its next rotation phase 0. -/
def execPwrcmdBoost (s : State) : Host.Outcome State Fault Refusal :=
  let d := s.num 1 % 16
  let x := s.die d
  .next (pwrCommand s (s.num 0)
    (if x.cls ≠ 3 ∨ x.st ≠ 0 ∨ x.changing = true ∨ x.boost.isSome = true ∨ poolInLay s 3 = true then { s with pwrStatus := 1 }
     else
      let c := nextPhase s d
      let a := x.cycleStart c
      let e : Nat := a + Config.unitsPerTick * coreDist s d 0 + 21000000 * Config.unitsPerTick
      let s := (s.reclock d a c Config.boostUnits).modDie d fun x => { x with boost := some e }
      State.schedEv { s with pwrStatus := 0 } e 20 (ev .boostExpiry [d])))

/-- PWRCMD ENDBOOST ends the die's lease; with no lease it is refused. -/
def execPwrcmdEndboost (s : State) : Host.Outcome State Fault Refusal :=
  let d := s.num 1 % 16
  .next (pwrCommand s (s.num 0)
    (if (s.die d).boost.isNone then { s with pwrStatus := 1 } else State.endLease { s with pwrStatus := 0 } d))

/-- BOOST_EXPIRY: a lease has ended, at its expiry or by another event of R398. -/
def execBoostExpiry (s : State) : Host.Outcome State Fault Refusal :=
  let d := s.num 0
  match (s.die d).boost with
  | some e => .next (if e ≤ s.now then s.unboost d else s)
  | none => .next s

/-! ### Power and temperature (R399-R401) -/

/-- Lower the residency limit of the die that drew the most power by one group (R399). -/
def State.lowerLimit (s : State) (d : Nat) : State :=
  if (s.die d).limit = 0 then s
  else
    let s := s.modDie d fun x => { x with limit := x.limit - 1 }
    { s with reductions := d :: s.reductions, nReduce := min (2 ^ 32 - 1) (s.nReduce + 1) }

/-- Raise the limit lowered last (R399). -/
def State.raiseLimit (s : State) : State :=
  match s.reductions with
  | [] => s
  | d :: ds =>
    let s := s.modDie d fun x => { x with limit := if x.st = 0 then x.limit + 1 else x.limit }
    State.kickDie { s with reductions := ds } d

/-- The die that drew the most power over the last millisecond, the lowest number on a tie (R399). -/
def drawDie (s : State) : Nat :=
  (List.range 16).foldl (fun b d => if (s.die b).draw < (s.die d).draw then d else b) 0

/-- The die to quiesce: the hottest of those above their thresholds (R400). -/
def hotDie (s : State) : Option Nat :=
  ((List.range 16).filter fun d => (s.die d).st = 0 && (s.die d).thr < (s.die d).temp).foldl (fun a d => match a with
    | none => some d
    | some b => if (s.die b).temp < (s.die d).temp then some d else some b) none

/-- Does a die pass 115 °C (R401)? -/
def overheated (s : State) : Bool := (List.range 16).any fun d => decide (115 < (s.die d).temp)

/-- Cut the power: nothing goes on (R401). -/
def State.cutOff (s : State) : State := State.send { s with powered := false, agenda := [] } .powerOff

/-- The comparison of PMEAS with PLIMIT each millisecond (R399). -/
def State.comparePower (s : State) : State :=
  if s.plimit < s.pmeas then
    let first := !s.overPower
    let s := (List.range 16).foldl State.endLease s
    let s : State := { s with overPower := true }
    if first then s else s.lowerLimit (drawDie s)
  else
    let s : State := { s with overPower := false }
    if 100 * s.pmeas < 95 * s.plimit then s.raiseLimit else s

/-- The readings of the module's sensors (log 61): power over the last millisecond, the hottest temperature of each die, the power that
each die drew. -/
def State.readSensors (s : State) (ns : List Nat) : State :=
  { s with
    pmeas := ns.headD 0 % 2 ^ 16
    dies := s.dies.mapIdx fun i x => { x with temp := ns.getD (1 + i) x.temp % 256, draw := ns.getD (17 + i) x.draw } }

/-- POWER_CHECK: with operands, readings of the sensors; without, the comparison that the module makes each millisecond: power first,
then temperatures, and the next one is due a millisecond later (R399, R400). A die past 115 °C cuts the power at once (R401). -/
def execPowerCheck (s : State) : Host.Outcome State Fault Refusal :=
  if s.arg.n.isEmpty then
    let s := s.comparePower
    let s : State := match hotDie s with
      | some d => s.schedEv s.now 20 (ev .dieQuiesce [d])
      | none => s
    .next (s.schedIn 2100000 20 (ev .powerCheck []))
  else
    let s := s.readSensors s.arg.n
    .next (if overheated s then s.cutOff else s)

/-- POWER_CUTOFF: the module removes power when a die passes 115 °C (operand 0 is 0), when coolant flow is lost (1), or when the
input power, operand 1 in watts, has exceeded 6,000 W for 5 ms (2; 3 is the end of the 5 ms) (R401). -/
def execPowerCutoff (s : State) : Host.Outcome State Fault Refusal :=
  let ms5 := 10500000 * Config.unitsPerTick
  .next (match s.num 0 with
    | 0 => if overheated s then s.cutOff else s
    | 1 => s.cutOff
    | 2 =>
      if s.num 1 ≤ 6000 then { s with overSince := none }
      else if s.overSince.isSome then s
      else State.schedEv { s with overSince := some s.now } (s.now + ms5) 20 (ev .powerCutoff [3])
    | _ => match s.overSince with
      | some t => if t + ms5 ≤ s.now then s.cutOff else s
      | none => s)

/-- DIE_QUIESCE: the die's teams are killed and relaunch elsewhere, its lays take cause 7, its lease ends and its residency
limit drops to 0; memory, links and port stay in service (R400). -/
def execDieQuiesce (s : State) : Host.Outcome State Fault Refusal :=
  let d := s.num 0
  if (s.die d).st ≠ 0 then .next s
  else
    let s := (s.endLease d).modDie d fun x => { x with st := 1, limit := 0 }
    let s := s.killDieTeams d
    .next ((List.range 4).foldl (fun s l =>
      if (s.lay l).diemask.testBit d then
        s.schedFault l 7 { die := d, core := 0, lead := false, slot := 0 } 0 [6]
      else s) s)

/-- Take an offlined die's links and its port down (R401). -/
def State.offline (s : State) (d : Nat) : State :=
  let s := s.modDie d fun x => { x with st := 2 }
  (List.range 17).foldl (fun s l => if l = d then s else s.linkDown d l) s

/-- PWRCMD OFFLINE: an online die quiesces, a quiesced die goes offline (R400, R401). -/
def execPwrcmdOffline (s : State) : Host.Outcome State Fault Refusal :=
  let d := s.num 1 % 16
  .next (pwrCommand s (s.num 0)
    (match (s.die d).st with
     | 0 => State.schedEv { s with pwrStatus := 0 } s.now 20 (ev .dieQuiesce [d])
     | 1 => State.offline { s with pwrStatus := 0 } d
     | _ => { s with pwrStatus := 1 }))

/-- PWRCMD ONLINE: refused while the hottest sensor reads above the threshold minus 10 °C; otherwise training and a new
start pulse (R401). -/
def execPwrcmdOnline (s : State) : Host.Outcome State Fault Refusal :=
  let d := s.num 1 % 16
  let x := s.die d
  .next (pwrCommand s (s.num 0)
    (if (x.st ≠ 1 ∧ x.st ≠ 2) ∨ x.thr < x.temp + 10 then { s with pwrStatus := 1 }
     else
      let s : State := { s with pwrStatus := 0 }
      let s := if x.st = 2 then
          (List.range 17).foldl (fun s l =>
            let up := if l < 16 then l ≠ d && (s.die l).st ≠ 2 else (s.link d 16).wctl % 2 = 1
            if up then s.sched s.now 20 (ev .linkEnable [d, l]) else s) s
        else s
      (s.modDie d fun x => { x with st := 3, changing := true }).schedEv s.now 20 (ev .operatingPointChange [d])))

/-! ### Controllers and firmware (R402-R405) -/

/-- Let every queue consume again. -/
def State.resumeQueues (s : State) : State :=
  (List.range 64).foldl (fun s n =>
    if (s.ctx n).state == .running || (s.ctx n).state == .faulted then s.schedEv s.now 20 (ev .recordConsume [n]) else s) s

/-- Image and version of a flash slot. -/
def Flash.slot (f : Flash) (i : Nat) : List (BitVec 8) × Nat := if i = 0 then (f.image0, f.ver0) else (f.image1, f.ver1)

/-- Ticks between two heartbeats: 100 µs (R402). -/
def beatTicks : Nat := 210000

/-- The standby listens for the next heartbeat from now on (R402). -/
def State.awaitBeat (s : State) : State :=
  let s : State := { s with
    ibrum := { s.ibrum with lastBeat := s.now }
    agenda := s.agenda.filter fun a => a.due != ev .controllerTakeover [] }
  s.schedIn beatTicks 20 (ev .controllerTakeover [])

/-- HEARTBEAT: the active core lives; operand 0 is 1 when a standby core is there and hears it (log 158). During a hand-over it commits the
update: the new slot is active, the measurements change, the time for it is over, and the queues resume (R402, R404). -/
def execHeartbeat (s : State) : Host.Outcome State Fault Refusal :=
  let b := { s.ibrum with standby := s.num 0 = 1, missed := 0 }
  let s := if s.num 0 = 1 then s.awaitBeat else s
  if !b.handover then .next { s with ibrum := { b with lastBeat := s.now } }
  else
    let a := 1 - b.active
    let f : Flash := { s.flash with active := a }
    .next (State.resumeQueues { s with
      flash := f
      agenda := s.agenda.filter fun a => a.due != ev .handoverTimeout []
      ibrum := { b with lastBeat := s.now, handover := false, updating := false, paused := false, staged := false, active := a,
                        version := (f.slot a).2, status := 0, measActive := (f.slot a).1,
                        measStandby := (f.slot (1 - a)).1 } })

/-- CONTROLLER_TAKEOVER: a heartbeat has been missed; after three in a row the standby takes over with the last state handed to it;
OWNER is 3 only if it was 3 before (R402). -/
def execControllerTakeover (s : State) : Host.Outcome State Fault Refusal :=
  let b := s.ibrum
  if !b.standby || s.now < b.lastBeat + beatTicks * Config.unitsPerTick then .next s
  else if b.missed + 1 < 3 then .next (State.awaitBeat { s with ibrum := { b with missed := b.missed + 1 } })
  else .next { s with ibrum := { b with standby := false, missed := 0 } }

/-- A command in FWCMD: of the owner, status 3 from another agent, refused while an update is under way (R404). -/
def fwCommand (s : State) (port : Nat) (f : Ibrum → State) : State :=
  if !modOwns s port then { s with pwrStatus := 3, ibrum := { s.ibrum with status := 3 } }
  else if s.ibrum.updating then { s with ibrum := { s.ibrum with status := 1 } }
  else f s.ibrum

/-- Write an image into a flash slot. -/
def Flash.putSlot (f : Flash) (i : Nat) (ver : Nat) (image : List (BitVec 8)) : Flash :=
  if i = 0 then { f with image0 := image, ver0 := ver } else { f with image1 := image, ver1 := ver }

/-- Is the image in a flash slot accepted: the record signed under the root key, the image under the key that the record names, and the
version at least the anti-roll-back minimum (R403)? -/
def Flash.accepts (f : Flash) (i : Nat) : Bool :=
  Config.signatureGood Config.rootKey f.record && Config.signatureGood (Config.imageKey f.record) (f.slot i).1 &&
    f.minVer ≤ (f.slot i).2

/-- FWCMD_STAGE: operands after the port are the version and bytes that the owner wrote through the standby slot's window, over what
was staged before; signatures and version are checked (R403, R404). -/
def execFwcmdStage (s : State) : Host.Outcome State Fault Refusal :=
  let ops := s.arg.n.drop 1
  .next (fwCommand s (s.num 0) fun b =>
    let i := 1 - b.active
    let f := match ops with
      | [] => s.flash
      | v :: bs => s.flash.putSlot i v (bs.map fun x => BitVec.ofNat 8 x)
    let ok := f.accepts i
    { s with flash := f, ibrum := if ok then { b with staged := true, status := 0 }
                                  else { b with staged := b.staged && ops.isEmpty, status := 2 } })

/-- FWCMD_ACTIVATE: the queues stop at the next record boundary and the new image has 100 ms for its first heartbeat
(R404). -/
def execFwcmdActivate (s : State) : Host.Outcome State Fault Refusal :=
  .next (fwCommand s (s.num 0) fun b =>
    if !b.staged then { s with ibrum := { b with status := 1 } }
    else
      let s : State := { s with ibrum := { b with updating := true, paused := true, handover := true, status := 0 } }
      s.schedIn 210000000 20 (ev .handoverTimeout []))

/-- FWCMD_ABORT drops a staged image; with none it is refused. -/
def execFwcmdAbort (s : State) : Host.Outcome State Fault Refusal :=
  .next (fwCommand s (s.num 0) fun b =>
    if b.staged then { s with ibrum := { b with staged := false, status := 0 } }
    else { s with ibrum := { b with status := 1 } })

/-- HANDOVER_TIMEOUT: the old image restarts, FWCMD reads status 4 and the queues resume (R404). -/
def execHandoverTimeout (s : State) : Host.Outcome State Fault Refusal :=
  let b := s.ibrum
  if !b.handover then .next s
  else .next (State.resumeQueues { s with
    ibrum := { b with handover := false, updating := false, paused := false, staged := false, status := 4 } })

/-- The measurement of a block (R403). -/
def measurement (s : State) (b : Nat) : Option (BitVec 512) :=
  match b with
  | 1 => some (Config.sha512 Config.bootRom)
  | 2 => some (Config.sha512 s.flash.record)
  | 3 => some (Config.sha512 s.ibrum.measActive)
  | 4 => some (Config.sha512 s.ibrum.measStandby)
  | _ => none

/-- SPDM_GET_MEASUREMENTS: the digest of block 1 to 4; an error for any other block (R403). -/
def execSpdmGetMeasurements (s : State) : Host.Outcome State Fault Refusal :=
  let p := s.num 0
  let b := s.num 1
  .next (match measurement s b with
    | some m => s.send (.spdm p b m)
    | none => s.send (.spdmError p b))

/-- The interface report of a context's TDISP interface: its partition mask and the firmware measurements (R307). -/
def interfaceReport (s : State) (n : Nat) : Nat × List (BitVec 512) :=
  ((s.ctx n).partition, [1, 2, 3, 4].filterMap (measurement s))

/-! ### Security alarm (R406) -/

/-- Set bits of a number. -/
def orBits (a : Nat) (bs : List Nat) : Nat := bs.foldl (fun a b => if a.testBit b then a else a + 2 ^ b) a

/-- Kill a context that is not free, its lays with it (Table 18.6), and put its TDISP interface into ERROR (R406). -/
def State.alarmKill (s : State) (n : Nat) : State :=
  if (s.ctx n).state == .free then s
  else
    let s := s.killCtx n
    let s : State := { s with
      queues := s.queues.map fun e => if e.2.ctx = n ∧ e.2.en then (e.1, { e.2 with err := 6 }) else e
      lays := killedLays s n }
    s.modCtx n fun c => { c with state := .killed, tdisp := if c.viaTdisp then 3 else c.tdisp }

/-- SECURITY_ALARM: cause 0 tamper, 1 voltage, 2 clock is latched; ALARMPOL tells whether keys are erased and contexts
killed, in one action (R406). -/
def execSecurityAlarm (s : State) : Host.Outcome State Fault Refusal :=
  let s : State := { s with alarmSt := orBits s.alarmSt [s.num 0 % 3, 63] }
  let s : State := if s.alarmPol.testBit 0 then
      { s with
        alarmSt := orBits s.alarmSt [8]
        ctxs := s.ctxs.map fun e => (e.1, { e.2 with keys := [] })
        links := s.links.map fun l => { l with slots := [] } }
    else s
  .next (if s.alarmPol.testBit 1 then
      (List.range 64).foldl State.alarmKill { s with alarmSt := orBits s.alarmSt [9] }
    else s)

/-! ### Power-on (R407) -/

/-- The module with nothing but its flash, its identities and what is outside it: every other state is lost (R407; log 4). The hosts' memory
is theirs. -/
def State.lost (s : State) : State :=
  { State.boot s.flash with
    modl := s.modl, podOrigin := s.podOrigin, podStandby := s.podStandby, hostMem := s.hostMem, freeCtr := s.freeCtr }

/-- Die links and ports of a bring-up, in state `st`; a port stays down until a host enables it. -/
def bringUpLinks (st : Nat) : List LinkRec :=
  (List.range 16).flatMap fun d => (List.range 16).map fun l => { LinkRec.reset d l with st := st }

/-- The module as a bring-up finds it: no die is up, no link is (R407). -/
def State.dark (s : State) : State :=
  { s.lost with
    now := s.now, powered := false, agenda := [], dies := s.lost.dies.map fun d => { d with st := 3 }, links := bringUpLinks 0 }

/-- The next stage of a bring-up follows an unpublished time later. -/
def State.stage (s : State) (k : Nat) : State := s.schedFree 20 (ev .powerOn [k])

/-- The end of a bring-up: TIME is 0, and the Ibrum controller writes the start classes that the configuration record names (R407). -/
def State.bringUp (s : State) : State :=
  let v := (List.range 16).foldl (fun a d => a + (Tab.get (0 : Nat) s.flash.startCls d % 4) * 4 ^ d) 0
  if v = 0 then s.lost else s.lost.poolWrite v

/-- POWER_ON. Operand 0 is 0 for power-on, with operand 1 for the 50 V input and operand 2 for coolant flow, and 1 for a module reset
or the next step of a power-on: the controllers boot from an accepted image (R403; log 160). Then the dies power up in ascending
order, HBM4 channels train, die links train, and TIME is set to 0 (R407). -/
def execPowerOn (s : State) : Host.Outcome State Fault Refusal :=
  let k := s.num 0
  .next (
    if k = 0 then (if s.num 1 = 0 ∨ s.num 2 = 0 then s else s.dark.stage 1)
    else if k = 1 then
      let t := if s.powered then s.dark else s
      (if t.flash.accepts t.flash.active then t.stage 2 else t)
    else if s.powered then s
    else if k < 18 then (s.modDie (k - 2) fun d => { d with st := 0 }).stage (k + 1)
    else if k = 18 then State.stage { s with links := bringUpLinks 1 } 19
    else if k = 19 then State.stage { s with links := [] } 20
    else s.bringUp)

/-! ### The register map -/

/-- The value of `n` bits `lo` and up of `a` replaced by those of `v`. -/
def keepBits (v lo n : Nat) : Nat := bits v lo n * 2 ^ lo

/-- Have an event happen at once. -/
def State.at' (s : State) (i : Instr) (n : List Nat) : State := s.sched s.now 20 (ev i n)

/-- A write to register `i` of lay slot `l` (Table 18.4, R350). -/
def State.layReg (s : State) (port l i v : Nat) : State :=
  let y := s.lay l
  match i with
  | 2 =>
    (match v % 8 with
     | 1 => s.at' .laycmdLoad [port, l]
     | 2 => s.at' .laycmdArm [port, l]
     | 3 => s.at' .laycmdDisarm [port, l]
     | 4 => s.at' .laycmdUnload [port, l]
     | _ => if owns s port then s else s.layStatus l 3)
  | 0 =>
    if !owns s port then s.layStatus l 3
    else if y.state == .empty then s.modLay l fun y => { y with base := v % 2 ^ 56 } else s
  | 1 =>
    if !owns s port then s.layStatus l 3
    else if y.state == .empty || y.state == .loaded then
      s.modLay l fun y => { y with ctl := keepBits v 0 6 + keepBits v 8 7 }
    else s
  | 4 => if !owns s port then s.layStatus l 3 else s.modLay l fun y => { y with startReg := v }
  | _ => s

/-- A write to register `i` of queue `q` (Table 16.2). -/
def State.queueReg (s : State) (port q i v : Nat) : State :=
  match i with
  | 0 => s.at' .qcfgWrite [port, q, v]
  | 1 => if owns s port && !(s.queue q).en then s.modQueue q fun x => { x with base := keepBits v 5 51 } else s
  | 6 =>
    (match v % 4 with
     | 1 => s.at' .qcmdClear [port, q]
     | 2 => s.at' .qcmdSkip [port, q]
     | _ => s)
  | _ => s

/-- A write to register `i` of the Wyusk port of die `d` (Table 19.5). -/
def State.wyuskReg (s : State) (port d i v : Nat) : State :=
  let set (f : LinkRec → LinkRec) : State := wyuskWrite s port d (s.modLink d 16 f)
  match i with
  | 0 =>
    let en := (s.link d 16).wctl % 2
    let s1 := s.modLink d 16 fun l => { l with wctl := v % 2 + keepBits v 8 8 }
    wyuskWrite s port d
      (if en = 0 ∧ v % 2 = 1 then s1.at' .linkEnable [d, 16]
       else if en = 1 ∧ v % 2 = 0 then s1.at' .linkDown [d, 16] else s1)
  | 2 => set fun l => { l with wksel := v % 16 }
  | 7 => set fun l => { l with wksalt := v % 2 ^ 32 }
  | 8 => set fun l => { l with wktick := v }
  | 9 =>
    (match v % 4 with
     | 1 => s.at' .wkcmdStage [port, d]
     | 2 => s.at' .wkcmdErase [port, d]
     | _ => set id)
  | 11 => if v % 2 = 1 then s.at' .laneSpareRequest [port, d] else set id
  | _ => set fun l => if 3 ≤ i ∧ i ≤ 6 then { l with wkdata := l.wkdata.put (i - 3) v } else l

/-- A write to error register `i` (Table 20.4). -/
def State.errReg (s : State) (port i v : Nat) : State :=
  match i with
  | 0 => errWrite s port { s with errsel := v % 1024 }
  | 1 => s.at' .zcntClear [port]
  | 3 => s.at' .uecntClear [port]
  | 4 => errWrite s port { s with hsel := v % 512 }
  | 6 => if v.testBit 8 then s.at' .hrepcmdGo [port, v % 256] else errWrite s port s
  | _ => errWrite s port s

/-- A write to module register `i` (Table 21.1). -/
def State.moduleReg (s : State) (port i v : Nat) : State :=
  match i with
  | 2 => s.at' .poolcfgWrite [port, v]
  | 3 =>
    (match v % 8 with
     | 1 => s.at' .pwrcmdBoost [port, bits v 8 4]
     | 2 => s.at' .pwrcmdEndboost [port, bits v 8 4]
     | 3 => s.at' .pwrcmdOffline [port, bits v 8 4]
     | 4 => s.at' .pwrcmdOnline [port, bits v 8 4]
     | _ => ownerWrite s port s)
  | 4 => ownerWrite s port { s with plimit := min (v % 2 ^ 16) 5500 }
  | 7 =>
    (match v % 4 with
     | 1 => s.at' .fwcmdStage [port]
     | 2 => s.at' .fwcmdActivate [port]
     | 3 => s.at' .fwcmdAbort [port]
     | _ => ownerWrite s port s)
  | _ => s

/-- A command in CTXCMD (Table 15.5); a code with no row is refused (R306, R309). -/
def State.ctxCmd (s : State) (port n v : Nat) : State :=
  match v % 16 with
  | 1 => s.at' .ctxCreate [port, n]
  | 2 => s.at' .ctxBind [port, n]
  | 3 => s.at' .ctxRun [port, n]
  | 4 => s.at' .ctxFreeze [port, n]
  | 5 => s.at' .ctxSuspend [port, n]
  | 6 => s.at' .ctxResume [port, n]
  | 7 => s.at' .ctxKill [port, n]
  | 8 => s.at' .ctxReset [port, n]
  | 9 => s.at' .ctxFree [port, n]
  | _ => s.ctxStatus n (if owns s port then 1 else 3)

/-- The unit that a UNITCMD value names, and its disposition (Table 15.5). -/
def State.unitCmd (s : State) (n v : Nat) : State :=
  let u : UnitId := { die := v % 16, core := bits v 4 8, lead := v.testBit 14, slot := bits v 12 2 }
  s.sched s.now 20 (evU (dispInstr (bits v 16 2)) u [n])

/-- Bits of a region table word (Table 15.5): word 0 or word 1 of an entry. -/
def rgtWord (i v : Nat) : Nat :=
  if i % 2 = 0 then keepBits v 63 1 + keepBits v 48 1 + keepBits v 0 48 else keepBits v 0 58

/-- Bits of a region attribute word (Table 14.1). -/
def rafBits (i v : Nat) : Nat :=
  if i % 2 = 0 then keepBits v 33 31 else keepBits v 52 4 + keepBits v 4 32

/-- A write to a key register: only the management owner's (R306). -/
def State.keyReg (s : State) (port n : Nat) (f : Context → Context) : State :=
  if owns s port then s.modCtx n f else s.ctxStatus n 3

/-- A host's write to system register `i` of context `n` (Table 15.5, R319). DESIGN CHOICE: through the secure session of a context
bound by TDISP, PARTITION changes while the context is bound and not yet running, with the effects of a bind; R307 names the way
and not the moment (log 126). -/
def State.ctxWrite (s : State) (port n i v : Nat) : State :=
  let c := s.ctx n
  let refuse : State := s.ctxStatus n 1
  let free := c.state == .free
  let set (f : Context → Context) : State := if free then refuse else s.modCtx n f
  let rafOk := c.state == .created || ((!c.viaTdisp || viaSession port) &&
    (c.state == .bound || c.state == .running || c.state == .faulted || c.state == .suspended))
  let rgtOk := c.state == .created || c.state == .suspended
  if i = 2 then s.ctxCmd port n v
  else if i = 3 then
    let put (c : Context) : Context := { c with partition := v % 2 ^ 16, det := v.testBit 16 }
    if c.state == .created then s.modCtx n put
    else if c.state == .bound && c.viaTdisp && viaSession port && owns s port then
      if (holders s n (v % 2 ^ 16)).isEmpty then (s.modCtx n put).bind n else s.ctxStatus n 2
    else refuse
  else if i = 4 then s.at' .flagsClear [n, v]
  else if i = 5 then s.at' .oorrecClear [n]
  else if i = 6 then set fun c => { c with fqbase := keepBits v 7 57 }
  else if i = 7 then
    if v % 32 < 4 ∨ 16 < v % 32 then refuse
    else if free then refuse
    else (s.modCtx n fun c => { c with fqctl := v % 2 ^ 18 }).kickRecords n
  else if i = 8 then if free then refuse else (s.modCtx n fun c =>
      { c with fqhead := v % 2 ^ 16, fqfull := c.fqfull && v % 2 ^ 16 = c.fqhead }).kickRecords n
  else if i = 0xA then set fun c => { c with gdeadline := v }
  else if i = 0xB then s.unitCmd n v
  else if i = 0xC then set fun c => { c with debug := v % 2 }
  else if i = 0xD then set fun c => { c with savebase := v % 2 ^ 56 }
  else if 0x10 ≤ i ∧ i < 0x30 then
    if rafOk then s.modCtx n fun c => { c with raf := c.raf.put (i - 0x10) (rafBits i v) } else refuse
  else if i = 0x30 then set fun c => { c with tinva := v }
  else if i = 0x31 then s.at' .tinvcStart [port, n, v]
  else if i = 0x40 then set fun c => { c with ibsel := v % 2 ^ 12 }
  else if 0x41 ≤ i ∧ i < 0x51 then s.at' .ibdataClear [n, i - 0x41]
  else if 0x80 ≤ i ∧ i < 0x100 then
    if rgtOk then s.modCtx n fun c =>
      { c with rgt := c.rgt.put (i - 0x80) (rgtWord i v), rgtseq := c.rgtseq.del ((i - 0x80) / 2)
               rgtskip := c.rgtskip.del ((i - 0x80) / 2) }
    else refuse
  else if i = 0x100 then s.keyReg port n fun c => { c with keysel := v % 256 }
  else if 0x101 ≤ i ∧ i < 0x109 then s.keyReg port n fun c => { c with keydata := c.keydata.put (i - 0x101) v }
  else if i = 0x109 then
    if v.testBit 0 then s.at' .keycmdLoad [port, n]
    else if v.testBit 1 then s.at' .keycmdErase [port, n] else s.keyReg port n id
  else if 0x200 ≤ i ∧ i < 0x240 then
    if rgtOk then s.modCtx n fun c => { c with rgtseq := c.rgtseq.put (i - 0x200) (v % 2 ^ 16), rgtskip := c.rgtskip.del (i - 0x200) } else refuse
  else if 0x400 ≤ i ∧ i < 0x500 then s.at' .doorbell [n, i - 0x400, v % 2 ^ 16, 0, port]
  else s

/-- Does an offset lie in a block of `n` registers, and which one is it? -/
def regIn (off base n : Nat) : Option Nat := if base ≤ off ∧ off < base + 8 * n then some ((off - base) / 8) else none

/-- A write of 8 bytes by the Ibrum controller to memory, at address `a` of a die's stack: dropped when the stack belongs to a context bound
through TDISP, whatever the page (R405; log 159). -/
def State.ctlWrite (s : State) (die a v : Nat) : State :=
  let tee := (List.range 64).any fun n =>
    (s.ctx n).viaTdisp && (s.ctx n).state != .free && (s.ctx n).partition.testBit (die % 16)
  if tee then s else s.hbmWrite 0 (die % 16) 0 a (leBytes 8 v)

/-- REGISTER_WRITE: a write of 8 aligned bytes at an offset of BAR0 by port 0 A, 1 B or 2 the Ibrum controller. A field takes
its value here; a command happens as the event of its own. Offsets with no register, and read-only ones, ignore it. With operand 3
equal to 1 it is a write of the controller to memory of die operand 4, and operand 1 its address there (R405). -/
def execRegisterWrite (s : State) : Host.Outcome State Fault Refusal :=
  let p := s.num 0
  let off := s.num 1
  let v := s.num 2 % 2 ^ 64
  .next (
    if s.num 3 = 1 then (if p = 2 then s.ctlWrite (s.num 4) off v else s)
    else if off % 8 ≠ 0 then s
    else if off = 0x100 then
      (match bits v 2 2 with
       | 1 => s.at' .mgmtsemAcquire [p]
       | 2 => s.at' .mgmtsemRelease [p]
       | _ => s)
    else if let some i := regIn off 0x4000 32 then s.layReg p (i / 8) (i % 8) v
    else if let some i := regIn off 0x8000 2048 then s.queueReg p (i / 8) (i % 8) v
    else if let some i := regIn off 0xC000 512 then s.wyuskReg p (i / 32) (i % 32) v
    else if off = 0xD000 then
      if owns s p then { s with podmask := s.podmask / 2 ^ 64 * 2 ^ 64 + v } else s
    else if off = 0xD008 then
      if owns s p then { s with podmask := v * 2 ^ 64 + s.podmask % 2 ^ 64 } else s
    else if let some i := regIn off 0xE000 7 then s.errReg p i v
    else if let some i := regIn off 0xF000 32 then s.moduleReg p i v
    else if let some i := regIn off 0x100000 (64 * 8192) then s.ctxWrite p (i / 8192) (i % 8192) v
    else s)

/-! ### What a host reads -/

/-- Register `i` of lay slot `l` as it reads (Table 18.4). -/
def layRead (s : State) (l i : Nat) : Nat :=
  let y := s.lay l
  match i with
  | 0 => y.base
  | 1 => y.ctl
  | 2 => (if s.ibrum.updating then 2 ^ 63 else 0) + y.status * 2 ^ 60 + y.checkCause * 2 ^ 56
  | 3 => (match y.state with
      | .empty => 0 | .loaded => 1 | .armed => 2 | .running => 3 | .faulted => 4 | .resyncing => 5 | .abandoned => 6) +
      y.lastCause * 256 + min 15 y.resyncs * 4096
  | 4 => y.startReg
  | 5 => y.per
  | 6 => y.rst
  | _ => 0

/-- Register `i` of queue `q` as it reads (Table 16.2). -/
def queueRead (s : State) (q i : Nat) : Nat :=
  let x := s.queue q
  match i with
  | 0 => x.cfg
  | 1 => x.base
  | 2 => x.head
  | 3 => x.stale * 2 ^ 32 + x.tail
  | 4 => x.done
  | 5 => queueStat s q
  | _ => 0

/-- Register `i` of the Wyusk port of die `d` as it reads; keys read 0 (Table 19.5, R405). -/
def wyuskRead (s : State) (d i : Nat) : Nat :=
  let l := s.link d 16
  match i with
  | 0 => l.wctl
  | 1 => linkState s d 16 + (if l.st < 2 then 0 else if l.st = 4 then 4 else 8) * 16 + l.spareUsed * 256 + l.fails * 65536
  | 9 => (if s.ibrum.updating then 2 ^ 63 else 0) + l.status * 2 ^ 60
  | 10 => (List.range 4).foldl (fun a v => (List.range 2).foldl (fun a d => (List.range 2).foldl (fun a k =>
      a + l.slotState (keySlot v d k) * 2 ^ (8 * v + 4 * d + 2 * k)) a) a) 0
  | _ => 0

/-- Error register `i` as it reads (Table 20.4). -/
def errRead (s : State) (i : Nat) : Nat :=
  let z := s.zone (s.errsel % 1024)
  let c := s.chan (s.hsel % 16) (bits s.hsel 4 5)
  match i with
  | 0 => s.errsel
  | 1 => z.zcnt
  | 2 => z.zlast
  | 3 => s.uecnt
  | 4 => s.hsel
  | 5 => c.worstPin.2 * 2 ^ 32 + c.worstPin.1 * 2 ^ 24 + c.spare
  | 6 => (if s.ibrum.updating || (s.chans.any fun c => c.want.isSome) then 2 ^ 63 else 0) + s.hrepStatus * 2 ^ 60
  | _ => 0

/-- TSYNC as it reads (Table 21.1). -/
def tsyncRead (s : State) : Nat :=
  (if s.syncLost then 1 else 0) + (if s.slewing then 2 else 0) +
    wrap 16 (max (-32767) (min 32767 s.syncOff)) * 65536 + min (2 ^ 32 - 1) s.syncEpisodes * 2 ^ 32

/-- Module register `i` as it reads (Table 21.1). -/
def moduleRead (s : State) (i : Nat) : Nat :=
  let b := s.ibrum
  let sum (f : Nat → Nat) : Nat := (List.range 16).foldl (fun a d => a + f d) 0
  match i with
  | 0 => sum fun d => (s.die d).st * 16 ^ d
  | 1 => sum fun d => (s.die d).cls * 4 ^ d + (if (s.die d).boost.isSome then 2 ^ (32 + d) else 0)
  | 2 => s.poolcfg
  | 3 => (if b.updating || (s.dies.any fun d => d.st == 3) then 2 ^ 63 else 0) + s.pwrStatus * 2 ^ 60
  | 4 => s.plimit
  | 5 => s.pmeas + s.nReduce * 65536
  | 6 => b.active + (if b.updating then 4 else 0) + b.version * 65536 + s.flash.minVer * 2 ^ 32 +
      (if b.standby then 2 ^ 48 else 0)
  | 7 => (if b.updating then 2 ^ 63 else 0) + b.status * 2 ^ 60
  | 8 => s.alarmSt
  | 9 => s.alarmPol
  | 10 => tsyncRead s
  | _ => if 16 ≤ i ∧ i < 32 then (s.die (i - 16)).temp + (s.die (i - 16)).thr * 256 else 0

/-- What a host reads at an offset of BAR0. -/
def regRead (s : State) (off : Nat) : Nat :=
  if off % 8 ≠ 0 then 0
  else if off = 0x100 then s.mgmtOwner + s.mgmtGen * 2 ^ 32
  else if let some i := regIn off 0x4000 32 then layRead s (i / 8) (i % 8)
  else if let some i := regIn off 0x8000 2048 then queueRead s (i / 8) (i % 8)
  else if let some i := regIn off 0xC000 512 then wyuskRead s (i / 32) (i % 32)
  else if off = 0xD000 then s.podmask % 2 ^ 64
  else if off = 0xD008 then s.podmask / 2 ^ 64
  else if let some i := regIn off 0xE000 7 then errRead s i
  else if let some i := regIn off 0xF000 32 then moduleRead s i
  else if let some i := regIn off 0x100000 (64 * 8192) then ctxReg s (i / 8192) (i % 8192)
  else 0

end Sys2Proof.Machine
end

