-- ==== Sys2Proof/Machine/Matrix.lean ====
section
/-! DEFINITION. The matrix engine (R243-R266): requests, arbitration and reservations, steps on register rings and scratch
blocks, checksum mode, status and check words, and the loading of drain memory (R284, R285). A request's events fall at the
cycles of its issuing core; the engine judges requests at those of the quartet's lowest core. -/

namespace Sys2Proof.Machine

/-! ### Operands of a step (R245-R248) -/

/-- k of a step (Table 12.1). -/
def stepK (ty : Nat) : Nat := if ty = 9 ∨ ty = 10 then 8 else if ty = 15 then 32 else 16

/-- Byte `q` of the 16-byte K slice of row or column `i`, in a fragment that starts at `base` (R247). -/
def fragByte (f : Tab (BitVec 32)) (base i q : Nat) : Nat :=
  (Tab.get (0 : BitVec 32) f (base + 32 * (i / 8) + 4 * (i % 8) + q / 4)).toNat / 2 ^ (8 * (q % 4)) % 256

/-- Element κ of a K slice (R247, R248): `desc` and `e0` are the Q4 descriptor and the first element of its span. -/
def sliceElem (ty : Nat) (byte : Nat → Nat) (desc e0 k : Nat) : FV :=
  match ty with
  | 9 => F16.value (byte (2 * k) + 256 * byte (2 * k + 1))
  | 10 => BF16.value (byte (2 * k) + 256 * byte (2 * k + 1))
  | 13 => E4M3.value (byte k)
  | 14 => E5M2.value (byte k)
  | 0 => .fin (sgn 8 (byte k) < 0) (sgn 8 (byte k)).natAbs 0
  | _ => q4Value desc (e0 + k) (byte (k / 2) / 16 ^ (k % 2) % 16)

/-- A product; an integer zero has no sign (R93). -/
def stepMul (ty : Nat) (a b : FV) : FV × Bool :=
  let r := FV.mul a b
  if ty = 0 ∧ r.1.isZero = true then (.fin false 0 0, r.2) else r

/-- The step result of one element with its flags (R93): an exact sum rounded once to F32. -/
def stepSum (ty : Nat) (as bs : List FV) : Nat × Nat :=
  let ps := List.zipWith (stepMul ty) as bs
  sumRound F32 0 false (ps.map (·.1)) (ps.any (·.2))

/-- One update of an accumulator element (R246): the step result, then one RN addition. -/
def stepUpdate (ty : Nat) (as bs : List FV) (c : BitVec 32) : BitVec 32 × Nat :=
  let p := stepSum ty as bs
  let o := fAdd F32 0 false p.1 c.toNat
  (BitVec.ofNat 32 o.1, flOr p.2 o.2)

/-- An element of a tile; a tile element nothing has written is +0 (R243). -/
def Engine.tileAt (e : Engine) (t i c : Nat) : BitVec 32 := Tab.get (0 : BitVec 32) (if t = 0 then e.acc0 else e.acc1) (128 * i + c)

/-- Replace a tile. -/
def Engine.putTile (e : Engine) (t : Nat) (x : Tab (BitVec 32)) : Engine :=
  if t = 0 then { e with acc0 := x } else { e with acc1 := x }

/-- Element index in its span of the first code of the step (R248). -/
def PassRow.spanBase (r : PassRow) : Nat := 32 * (if r.kind = 0 then r.bsel else r.step % 4)

/-- Row `i` of A for the step. -/
def PassRow.rowA (r : PassRow) (i : Nat) : List FV :=
  (List.range (stepK r.ty)).map
    (sliceElem r.ty (fragByte r.frag 0 i) (Tab.get (0 : BitVec 32) r.desc i).toNat r.spanBase)

/-- Column `c` of B for the step: from registers or from the fetched block (R247, R254). -/
def PassRow.colB (r : PassRow) (c : Nat) : List FV :=
  let byte (q : Nat) : Nat :=
    if r.bscr then (Tab.get (0 : BitVec 8) r.fbytes (4096 * (r.step % 2) + 16 * c + q)).toNat else fragByte r.frag 512 c q
  (List.range (stepK r.ty)).map (sliceElem r.ty byte (Tab.get (0 : BitVec 32) r.desc (128 + c)).toNat r.spanBase)

/-- Is it a number? -/
def FV.isFin : FV → Bool
  | .fin _ _ _ => true
  | _ => false

/-- Magnitude of a dyadic. -/
def Dy.abs (a : Dy) : Dy := ((a.1.natAbs : Int), a.2)

/-- Exact product of dyadics. -/
def Dy.mul (a b : Dy) : Dy := (a.1 * b.1, a.2 + b.2)

/-- Exact sum of a list of dyadics. -/
def Dy.sum (xs : List Dy) : Dy := xs.foldl Dy.add (0, 0)

/-- The check sums of a step (R257): for every row, Σ A·w with w the column sums of B, and Σ |A|·Σ|B|. -/
def PassRow.addSums (r : PassRow) (as bs : List (List FV)) : PassRow :=
  if !r.chk then r
  else
    let ks := List.range (stepK r.ty)
    let at' (x : List FV) (k : Nat) : FV := x.getD k (.fin false 0 0)
    let w := ks.map fun k => Dy.sum (bs.map fun b => (at' b k).dy)
    let v := ks.map fun k => Dy.sum (bs.map fun b => Dy.abs (at' b k).dy)
    let badB := bs.any fun b => b.any fun x => !x.isFin
    let bad := (as.zipIdx.filter fun x => badB || x.1.any fun y => !y.isFin).map (·.2)
    { r with
      badRows := r.badRows ++ bad.filter fun i => !r.badRows.contains i
      sums := r.sums.zipIdx.map fun y =>
        let a := (as.getD y.2 []).map FV.dy
        (Dy.add y.1.1 (Dy.sum (List.zipWith Dy.mul a w)), Dy.add y.1.2 (Dy.sum (List.zipWith Dy.mul (a.map Dy.abs) v))) }

/-- Perform a step on its tile (R246); the pass keeps its flags and sums. -/
def Engine.doStep (e : Engine) (r : PassRow) : Engine × PassRow :=
  let as := (List.range 128).map r.rowA
  let bs := (List.range 128).map r.colB
  let out := as.zipIdx.flatMap fun x => bs.zipIdx.map fun y =>
    (128 * x.2 + y.2, stepUpdate r.ty x.1 y.1 (e.tileAt r.tile x.2 y.2))
  let fl := out.foldl (fun a o => flOr a o.2.2) 0
  (e.putTile r.tile (out.map fun o => (o.1, o.2.1)), { (r.addSums as bs) with flags := flOr r.flags fl, step := r.step + 1 })

/-! ### Rows of the reservation table (R249, R250) -/

/-- Change a request of an engine. -/
def Engine.modPass (e : Engine) (r : PassRow) (f : PassRow → PassRow) : Engine :=
  { e with rows := e.rows.map fun x => if x.same r then f x else x }

/-- Change a request. -/
def State.modRow (s : State) (die q : Nat) (r : PassRow) (f : PassRow → PassRow) : State :=
  s.modEngine die q fun e => e.modPass r f

/-- The request of row `row` that was granted at a cycle; an event of a request that is gone finds none. -/
def rowAt (s : State) (die q row grant : Nat) : Option PassRow :=
  (s.engine die q).rows.find? fun r => r.row % 16 == row && r.grant == grant

/-- An event of a granted request. -/
def passEv (i : Instr) (d q : Nat) (r : PassRow) : Due := ev i [d, q, r.row % 16, r.grant]

/-- Have an engine judge its requests at its first cycle, those of the quartet's lowest core, from instant `i` on (R250). -/
def State.judge (s : State) (die q i : Nat) : State :=
  let core := quartetCore q
  let g := (s.die die).cycleFrom (i - Config.unitsPerTick * coreDist s die core)
  s.schedEv (max s.now (instantOf s die core g)) 30 (ev .passGrant [die, q])

/-- A request of the instruction being issued, with nothing in it yet. -/
def reqRow (s : State) (c : Cur) (kind : Nat) (kc : BitVec 4) (ben : BitVec 1) (bar : BitVec 4) : PassRow :=
  let x := s.unit? c.u
  { row := 16 + passRowNo c.u, u := c.u, gid := (match x with | some x => x.gid | none => 0), kind := kind, st := 1, was := 0,
    issue := c.cycle, post := c.cycle + 4, grant := 0, t0 := 0, tile := 0, ty := 0, n := 0, step := 0, sigma := 0, rl := 1,
    abase := 0, bbase := 0, bsel := 0, bscr := false, za := false, chk := false, tol := 0, pri := 0, badr := 0, inc := 0,
    den := false, slot := 0, stride := 0, dest := 0, k := kc.toNat, bar := if ben = 1 then some bar.toNat else none,
    frag := [], desc := [], fbytes := [], fwords := [], sums := [], badRows := [], allInc := false, wn := 0, await := false,
    rgnc := (match x with | some x => x.rgnc | none => 0), resvd := false, flags := 0, err := 0, check := 0, drow := 0,
    delta := 0, tabFirst := 0, tabCnt := 0, isTab := false }

/-- Issue a request (Table 12.2): the counter rises, the posting reaches the bound barrier and the row at issue + 4. One that
is issued in a clause that an urgent freeze lets end stops at the warp's next window, like those before it (R259). -/
def State.postReq (s : State) (c : Cur) (r : PassRow) : State :=
  let q := quartetOf c.u.core
  let freezing : Bool := match s.groupOf c.u with | some g => (s.ctx g.ctx).state == .freezing | none => false
  let r := if freezing then { r with wn := nextWindow c.u.slot (c.cycle + 1) } else r
  let s := s.modUnit c.u fun x => { x with clause := x.clause.map fun y => { y with reqs := y.reqs + 1 } }
  let s := (s.kAdd c.u r.k 1 c.cycle).bEvent c.u r.bar .post (c.cycle + 4)
  let s := s.modEngine c.u.die q fun e => { e with rows := r :: e.rows }
  (s.schedCyc c.u.die c.u.core (c.cycle + 4) 20 (evU .requestPost c.u [])).judge c.u.die q
    (instantOf s c.u.die c.u.core (c.cycle + 4))

/-- The drain control of an S register (Table 12.5). -/
def PassRow.withDrain (r : PassRow) (sd : Nat) : PassRow :=
  { r with slot := bits sd 48 6, stride := bits sd 32 16, dest := bits sd 0 32 }

/-- MMA: a pass of one step without a drain (R262). -/
def execMma (w : ReqF) (s : State) : Host.Outcome State Fault Refusal :=
  issue (.mma w) s fun c =>
    s.postReq c { reqRow s c 0 w.kc w.ben w.bar with
      n := 1, tile := w.tile.toNat, ty := w.ty.toNat, abase := w.abase.toNat, bbase := w.bbase.toNat, bsel := w.bsel.toNat,
      za := w.za == 1, pri := w.pri.toNat }

/-- MLOOP: n steps over a register ring, B from registers or scratch, checksum mode, an optional drain; Sk and Sd are read
whole at issue (R263). CHK with DEN = 0 drains with every row inconclusive. -/
def execMloop (w : ReqF) (s : State) : Host.Outcome State Fault Refusal :=
  issue (.mloop w) s fun c =>
    let sk := (readU s c w.sk.toNat).toNat
    let sd := (readU s c w.sd.toNat).toNat
    let chk := w.chk == 1
    let b := w.bscr == 1
    let n := sk % 2 ^ 16
    let den := sd.testBit 54 || chk
    let r : PassRow := { reqRow s c 1 w.kc w.ben w.bar with
      n := n, tile := w.tile.toNat, ty := w.ty.toNat, rl := w.rl.toNat + 1, abase := w.abase.toNat,
      bbase := w.bbase.toNat, bscr := b, za := w.za == 1, pri := w.pri.toNat, chk := chk, tol := w.tol.toNat, den := den,
      badr := (if b then bits sk 32 32 else 0), inc := (if b then bits sk 16 16 else 0),
      allInc := chk && (!sd.testBit 54 || n == 0) }
    s.postReq c (if den then r.withDrain sd else r)

/-- MZERO: the tile becomes +0 (R264). -/
def execMzero (w : ReqF) (s : State) : Host.Outcome State Fault Refusal :=
  issue (.mzero w) s fun c => s.postReq c { reqRow s c 2 w.kc w.ben w.bar with tile := w.tile.toNat }

/-- MDRAIN: the drain program of Sd's SLOT over the tile (R264). -/
def execMdrain (w : ReqF) (s : State) : Host.Outcome State Fault Refusal :=
  issue (.mdrain w) s fun c =>
    s.postReq c ({ reqRow s c 3 w.kc w.ben w.bar with tile := w.tile.toNat, den := true }.withDrain (readU s c w.sd.toNat).toNat)

/-- DPLOAD: load a drain program slot or table entries from scratch (R284, R285). -/
def execDpload (w : DploadF) (s : State) : Host.Outcome State Fault Refusal :=
  issue (.dpload w) s fun c =>
    s.postReq c { reqRow s c 4 w.kc w.ben w.bar with
      badr := (readU s c w.src.toNat).toNat % 2 ^ 32, isTab := w.tab == 1, tabFirst := w.first.toNat,
      tabCnt := w.cnt.toNat + 1 }

/-- MSTAT: counted; reads the warp's row at issue + 4 and lands at issue + 8 (R265). -/
def execMstat (w : MstatF) (s : State) : Host.Outcome State Fault Refusal :=
  issue (.mstat w) s fun c =>
    let r := s.startOp { opBase s c .mstat with
      k := some w.k.toNat, dest := w.d.toNat, size := 8, args := [w.sel.toNat], stage := .inflight }
    (r.2.schedCyc c.u.die c.u.core (c.cycle + 4) 20 (evU .requestPost c.u [])).schedCyc c.u.die c.u.core (c.cycle + 8) 0 (evU .requestPost c.u [1])

/-- MCHK: counted; reads, and with CLR clears, the warp's check word at issue + 4 and lands it at issue + 8 (R265). -/
def execMchk (w : MstatF) (s : State) : Host.Outcome State Fault Refusal :=
  issue (.mchk w) s fun c =>
    let r := s.startOp { opBase s c .mchk with
      k := some w.k.toNat, dest := w.d.toNat, size := 8, args := [w.sel.toNat % 2], stage := .inflight }
    (r.2.schedCyc c.u.die c.u.core (c.cycle + 4) 20 (evU .requestPost c.u [])).schedCyc c.u.die c.u.core (c.cycle + 8) 0 (evU .requestPost c.u [1])

/-! ### Status words (Table 12.6, R265) -/

/-- The next row to drain of a request: the smallest row not done; 127 once its drain has completed (R280). -/
def drainRowNo (e : Engine) (r : PassRow) : Nat :=
  if r.st = 5 then (if r.den then 127 else 0)
  else match e.drain with
    | some d => if d.drains r then min 127 d.dones.length else 0
    | none => 0

/-- CHECK of a request (Table 12.6). -/
def PassRow.checkCode (r : PassRow) : Nat := if !r.chk then 0 else if r.st = 5 then r.check else if r.st = 6 then 0 else 4

/-- The word of MSTAT: status, drain record or B record. -/
def statWord (e : Engine) (r : PassRow) (sel : Nat) : Nat :=
  let row := drainRowNo e r
  match sel with
  | 0 => r.st * 2 ^ 61 + r.tile * 2 ^ 60 + r.slot * 2 ^ 54 + (if r.den then 2 ^ 53 else 0) + r.flags * 2 ^ 49 +
      row * 2 ^ 42 + r.step * 2 ^ 26 + min 1023 r.sigma * 2 ^ 16 + r.err * 2 ^ 8 + r.checkCode * 2 ^ 5 +
      (if r.st = 7 then r.delta % 32 else 0)
  | 1 => if r.den then (r.dest + row * r.stride) % 2 ^ 32 + r.stride * 2 ^ 32 + r.slot * 2 ^ 48 else 0
  | _ => if r.bscr then (r.badr + r.step * r.inc) % 2 ^ 32 + r.inc * 2 ^ 32 else 0

/-- The check word that reads "not checked": no mismatching row (R265). -/
def notChecked : BitVec 32 := 0xFF00

/-- The request in a warp's row, if it is the warp's own. -/
def ownRow (s : State) (u : UnitId) : Option PassRow :=
  match s.unit? u with
  | some x => (passRow? s u).bind fun r => if r.gid = x.gid then some r else none
  | none => none

/-- Read a counted status operation, at issue + 4 (R265). -/
def State.readStat (s : State) (o : Op) : State :=
  let q := quartetOf o.u.core
  let e := s.engine o.u.die q
  let key := 16 * o.gid + passRowNo o.u
  let v := if o.kind = .mchk then (Tab.get notChecked e.checks key).toNat
    else match ownRow s o.u with | some r => statWord e r (o.args.getD 0 0) | none => 0
  let s := s.modOp o.id fun o => { o with lanes := [{ laneReq 0 0 0 0 with res := v, st := .acked }] }
  if o.kind = .mchk ∧ o.args.getD 0 0 = 1 then s.modEngine o.u.die q fun e => { e with checks := e.checks.del key } else s

/-- Row `n` takes a posted request (R249, R265): the status of the most recent one goes; a request not yet ended runs on beside
it. A checked pass's word reads pending, unless the last one was aborted: it then reads "not checked" until the next checked pass
completes (R260). -/
def Engine.post (e : Engine) (n : Nat) (r : PassRow) : Engine :=
  let old := (e.rows.filter fun x => x.row % 16 ≠ n || (1 < x.st && x.st < 5) || x.st == 7).map fun x =>
    if x.row = n then { x with row := 32 + n } else x
  { e with
    rows := { r with row := n } :: old
    checks := if r.chk && !e.aborted.contains r.checkKey then e.checks.put r.checkKey (notChecked ||| 4) else e.checks }

/-- REQUEST_POST: a request is posted in its row at issue + 4; status operations issued 4 cycles ago read, after the drain writes of
that cycle (R280); those issued 8 cycles ago land, in an event of its own with operand 1 (R250, R265). -/
def execRequestPost (s : State) : Host.Outcome State Fault Refusal :=
  let u := s.arg.u
  let c := s.ucyc u
  let q := quartetOf u.core
  let n := passRowNo u
  let due (r : PassRow) : Bool := r.row == 16 + n && r.post ≤ c
  let mine := s.ops.filter fun o => o.u = u && (o.kind == .mstat || o.kind == .mchk) && o.live
  if s.num 0 = 1 then .next ((mine.filter fun o => o.issue + 8 ≤ c).foldl (fun s o => s.completeAt o.id (o.issue + 8)) s)
  else
    let s := match (s.engine u.die q).rows.find? due with
      | some r => s.modEngine u.die q fun e => e.post n r
      | none => s
    .next ((mine.filter fun o => o.lanes.isEmpty && o.issue + 4 ≤ c).foldl State.readStat s)

/-! ### The end of a request (R255-R258) -/

/-- How row `i` of a checked pass is judged (R257): 1 match, 2 mismatch, 3 inconclusive. -/
def judgeRow (r : PassRow) (rho : Tab (BitVec 32)) (i : Nat) : Nat :=
  match Tab.get? rho i with
  | none => 3
  | some p =>
    let y := r.sums.getD i ((0, 0), (0, 0))
    let ck := roundFV F32 0 false (Dy.fv y.1)
    let m := roundFV F32 2 false (Dy.fv y.2)
    let v := F32.value p.toNat
    if r.allInc || r.badRows.contains i || !v.isFin || ck.2.testBit 2 || m.2.testBit 2 then 3
    else
      let d := Dy.abs (Dy.add v.dy (F32.value ck.1).negate.dy)
      let b := (F32.value m.1).dy
      if Dy.lt (b.1, b.2 - (r.tol + 6 : Nat)) d then 2 else 1

/-- The check result of a pass and its check word (R257, R265). -/
def checkResult (r : PassRow) (rho : Tab (BitVec 32)) : Nat × BitVec 32 :=
  let js := (List.range 128).map (judgeRow r rho)
  let mis := (js.filter (· == 2)).length
  let inc := (js.filter (· == 3)).length
  let c := if mis ≠ 0 then 2 else if inc ≠ 0 then 3 else 1
  (c, BitVec.ofNat 32 (c + 256 * (if mis = 0 then 255 else js.idxOf 2) + 65536 * mis + 16777216 * inc))

/-- A request completes (code 0) or ends in error at cycle `c`: the check result, the flags, the counter, then the barrier
(R255, R256). A checksum mismatch counts in the zone (R257, Table 20.4). -/
def State.endPass (s : State) (die q : Nat) (r : PassRow) (code c : Nat) : State :=
  let e := s.engine die q
  let own := e.drain.filter fun d => d.drains r
  let rho := match own with | some d => d.rho | none => []
  let ck := if r.chk && code == 0 then checkResult r rho else (0, notChecked)
  -- the check word of a warp is that of its most recent checked pass
  let last := r.chk && !e.rows.any fun x => x.chk && x.checkKey == r.checkKey && x.row / 16 ≠ 1 && r.post < x.post
  let drains : Bool := 2 ≤ r.st && (own.isSome || r.kind == 4 || code == 3)
  let s := s.modEngine die q fun e =>
    { e with
      rows := (e.rows.filter fun x => !(x.same r && 32 ≤ x.row)).map fun x => if x.same r then
        { r with st := if code = 0 then 5 else 6, err := code, check := ck.1, frag := [], desc := [], fbytes := [],
                 fwords := [], sums := [], badRows := [] } else x
      checks := if last then (if code = 0 then e.checks.put r.checkKey ck.2 else e.checks.del r.checkKey) else e.checks
      aborted := if r.chk && code == 0 then e.aborted.filter fun k => k ≠ r.checkKey else e.aborted
      drain := e.drain.filter fun d => !d.drains r
      lastDone := (if drains then c else e.lastDone) }
  let s := if ck.1 = 2 then s.modZone (64 * die + q) fun z => { z with zcnt := bump16 z.zcnt 0 } else s
  let s := (s.passFlags r c).kAdd r.u r.k (-1) c
  let s := s.bEvent r.u r.bar (if code = 0 then .bound else .fault code) c
  s.modGroup r.gid fun g => { g with lastPass := c }

/-! ### Scratch operands (R254, R255, R285) -/

/-- Ranges of the blocks and descriptor arrays of a pass: address and length (R254). -/
def blockSpans (r : PassRow) : List (Nat × Nat) :=
  (List.range r.n).flatMap fun i =>
    let a := r.badr + i * r.inc
    (a, 2048) :: (if r.ty = 15 ∧ i % 4 = 0 then [(a + 2048, 512)] else [])

/-- The error code of a range read by an engine (R255, R285): 1 for address bits [31:27] and for bytes outside the team's
reach, those of a core outside the team among them; 2 for a core outside `cores`; 1 where both apply. -/
def spanCode (s : State) (gid : Nat) (cores : List Nat) (a n : Nat) : Nat :=
  let gs := reachGroups s gid
  let one (b : Nat) : Nat :=
    let core := scrCore s gid b
    if 2 ^ 27 ≤ b || !byteInReach gs core (b % 2 ^ 19) then 1 else if cores.contains core then 0 else 2
  let cs := (List.range n).map fun i => one (a + i)
  if cs.contains 1 then 1 else if cs.contains 2 then 2 else 0

/-- The operand check of a pass with B from scratch (R255). -/
def blockCode (s : State) (q : Nat) (r : PassRow) : Nat :=
  if r.badr % 16 ≠ 0 ∨ r.inc % 16 ≠ 0 then 1
  else
    let cs := (blockSpans r).map fun x => spanCode s r.gid (quartetCores q) x.1 x.2
    if cs.contains 1 then 1 else if cs.contains 2 then 2 else 0

/-- Bytes of the image of a DPLOAD (R285). -/
def PassRow.imageBytes (r : PassRow) : Nat := if r.isTab then 4 * r.tabCnt else 64

/-- The source check of a DPLOAD (R285). -/
def imageCode (s : State) (r : PassRow) : Nat :=
  if r.badr % (if r.isTab then 4 else 8) ≠ 0 then 1 else spanCode s r.gid [r.u.core] r.badr r.imageBytes

/-- The words of step `i`'s block, and of the descriptors of the span that begins there (R254). -/
def blockWords (r : PassRow) (i : Nat) : List (Nat × Nat) :=
  if !r.bscr || r.n ≤ i then []
  else (List.range (if r.ty = 15 ∧ i % 4 = 0 then 320 else 256)).map fun w => (i, 8 * w)

/-- Address of the 8-byte word at offset `o` of step `i`'s block. -/
def PassRow.wordAddr (r : PassRow) (i o : Nat) : Nat := (r.badr + i * r.inc) / 8 * 8 + o

/-- A fetch in one cycle: state, banks that have been tried, words still left, request. -/
structure FetchSt where
  s : State
  tried : List Nat
  left : List (Nat × Nat)
  row : PassRow

/-- Fetch a word if a cycle of its core begins now, it is its bank's first this cycle and the bank is free (R183, R254). -/
def fetchWord (f : FetchSt) (w : Nat × Nat) : FetchSt :=
  let s := f.s
  let r := f.row
  let a := r.wordAddr w.1 w.2
  let core := scrCore s r.gid a
  let off := a % 2 ^ 19
  let c := s.cyc r.u.die core
  let key := bankKey r.u.die core (off / 8)
  if f.tried.contains key || !s.atStart r.u.die core then { f with left := f.left ++ [w] }
  else if !bankFree s r.u.die core (off / 8) c then { f with tried := key :: f.tried, left := f.left ++ [w] }
  else
    let bs := (List.range 8).map fun i => s.scratch.read (scrAddr r.u.die core (off + i))
    let s : State := { s with bankUse := (key, c) :: s.bankUse.filter fun b => !(b.1 / 32 = key / 32 && b.2 + 64 < c) }
    let s := if s.scrPoisoned r.u.die core off 8 then s.consume r.u r.gid (scrSource s r.u.die core off 8) a 0 else s
    { f with
      s := s, tried := key :: f.tried
      row := { r with fbytes := bs.zipIdx.foldl (fun t x => Tab.put t (4096 * (w.1 % 2) + w.2 + x.2) x.1) r.fbytes } }

/-- B_FETCH: one cycle of an engine's reads of scratch for a pass, or for a DPLOAD; each bank serves its words in order, and what is left
is tried again at the next cycle of a core that holds some of it. A DPLOAD writes four cycles after its last word (R254, R285). -/
def execBFetch (s : State) : Host.Outcome State Fault Refusal :=
  let d := s.num 0
  let q := s.num 1
  match rowAt s d q (s.num 2) (s.num 3) with
  | none => .next s
  | some r =>
    if r.fwords.isEmpty || !(r.st == 2 || r.st == 3 || (r.st == 4 && r.kind == 4)) then .next s
    else
      let f := r.fwords.foldl fetchWord { s := s, tried := [], left := [], row := r }
      let s := f.s.modRow d q r fun x => { x with fbytes := f.row.fbytes, fwords := f.left }
      let c := s.ucyc r.u
      .next (if (rowAt s d q (r.row % 16) r.grant).isNone then s
        else if !f.left.isEmpty then
          let next := f.left.map fun w => s.nextStart d (scrCore s r.gid (r.wordAddr w.1 w.2))
          s.schedEv (next.foldl min (next.headD s.now)) 2 (passEv .bFetch d q r)
        else if r.kind = 4 then s.schedCyc d r.u.core (c + 4) 9 (passEv .dploadWrite d q r)
        else s)

/-! ### Grants (R250-R252) -/

/-- Is a tile used by an operation that is granted, stepping or draining (R244)? -/
def tileUsed (e : Engine) (t : Nat) : Bool := e.rows.any fun r => r.kind ≠ 4 && 2 ≤ r.st && r.st ≤ 4 && r.tile == t

/-- Is the stepping unit held now (R250, R256)? -/
def stepperUsed (s : State) (e : Engine) : Bool :=
  e.rows.any fun r => r.kind ≤ 1 && (r.st == 2 || (r.st == 3 && (r.step < r.n || s.ucyc r.u < r.stepAt)))

/-- Does a drain run, or a DPLOAD, which counts as one (R244, R285)? -/
def drainUsed (e : Engine) : Bool := e.drain.isSome || e.rows.any fun r => r.kind == 4 && r.st == 4

/-- A reserved interval of an engine: the warp it names, its start tick and its cycles (R251). -/
structure Reserved where
  core : Nat
  slot : Nat
  tick : Nat
  start : Nat
  fin : Nat

/-- The reserved interval of an engine that holds now, or the next one (R251). -/
def reservedNow (s : State) (die q : Nat) : Option Reserved :=
  let t := localTime s die (quartetCore q) s.now
  let cyc (x : Nat) : Nat := (s.die die).cycleFrom ((x - s.timeAdj) * Config.unitsPerTick)
  let all := (s.lays.filter fun y => y.serving || y.state == .armed).flatMap fun y =>
    (y.slots.filter fun e => e.kind = 4 && e.die = die && e.unit = q).flatMap fun e =>
      ((occurrences y t fun x => x == e).filter fun o => t < o.1 + o.2).map fun o =>
        ({ core := e.arg / 256, slot := e.arg % 4, tick := o.1, start := cyc o.1, fin := cyc (o.1 + o.2) } : Reserved)
  all.foldl (fun (a : Option Reserved) x => match a with
    | none => some x
    | some b => if x.tick < b.tick then some x else some b) none

/-- May a request be granted at cycle `g` of the engine, `gc` of its own core, as far as reservations go (R251)? The warp
named by the interval that holds or comes next waits for it; during it only its pass is granted, once. -/
def resvOk (e : Engine) (v : Option Reserved) (r : PassRow) (g gc : Nat) : Bool :=
  match v with
  | none => true
  | some v =>
    let named := r.kind ≤ 1 && r.u.core == v.core && r.u.slot == v.slot
    if v.start ≤ g && g < v.fin then named && e.resv != some v.tick
    else if named then false
    else 2 ≤ r.kind || nextWindow r.u.slot (gc + 1) + 32 * r.n + 136 ≤ v.start

/-- Are the slots of the lay suppressed: a fault has been noticed, and the lay has not yet resumed (R355, step 1)? -/
def Lay.suppressed (y : Lay) : Bool := y.noticed && (y.state == .faulted || y.state == .resyncing || y.state == .abandoned)

/-- The reservation that a posted pass waits for and that its lay suppresses: its start tick and the instant at which it would have
ended. It is the first that ends after the posting and has not been taken (R251, R355). -/
def suppressedSlot (s : State) (e : Engine) (r : PassRow) : Option (Nat × Nat) :=
  let lay := (s.group? r.gid).bind fun g => (s.kernelOf g).bind fun k => k.lay
  match lay with
  | none => none
  | some l =>
    let y := s.lay l
    if 2 ≤ r.kind || !y.suppressed then none
    else
      let core := quartetCore e.q
      let t := localTime s e.die core (instantOf s e.die r.u.core r.post)
      let mine (x : SlotEnt) : Bool :=
        x.kind = 4 && x.die = e.die && x.unit = e.q && x.arg / 256 = r.u.core && x.arg % 4 = r.u.slot
      ((occurrences y t mine).find? fun o => t < o.1 + o.2 && e.resv != some o.1).map fun o =>
        (o.1, instantOfLocal s e.die core (o.1 + o.2))

/-- The conditions of a grant (R250, R285). -/
def grantOk (s : State) (e : Engine) (v : Option Reserved) (r : PassRow) (g : Nat) : Bool :=
  (suppressedSlot s e r).isNone && (r.kind == 4 || !tileUsed e r.tile) && (2 ≤ r.kind || !stepperUsed s e) && (r.kind ≠ 4 || !drainUsed e) &&
    resvOk e v r g (s.ucyc r.u)

/-- Does `a` go before `b`: PRI, then posted earlier, then the lower row (R250)? -/
def rowBefore (s : State) (a b : PassRow) : Bool :=
  let at' (r : PassRow) : Nat := instantOf s r.u.die r.u.core r.post
  b.pri < a.pri || (a.pri == b.pri && (at' a < at' b || (at' a == at' b && a.row % 16 < b.row % 16)))

/-- Grant a request at cycle `gq` of the engine (Table 12.2): operands are checked, T0 is fixed, fetches start. -/
def State.grantRow (s : State) (die q : Nat) (r : PassRow) (gq : Nat) (v : Option Reserved) : State :=
  let g := s.ucyc r.u
  let r := { r with row := r.row % 16, grant := g }
  let inResv := r.kind ≤ 1 && (match v with | some v => v.start ≤ gq && gq < v.fin | none => false)
  let put (r : PassRow) : State := s.modEngine die q fun e => { e with
    rows := r :: e.rows.filter fun x => !(x.row % 16 == r.row && x.st == 1)
    resv := if inResv then v.map (·.tick) else e.resv }
  let on (s : State) (c phase : Nat) (i : Instr) : State := s.schedCyc die r.u.core c phase (ev i [die, q, r.row, g])
  match r.kind with
  | 2 => on (put { r with st := 2 }) (g + 16) 20 .mzeroComplete
  | 3 => on (put { r with st := 4 }) (g + 8) 20 .drainStart
  | 4 =>
    let code := imageCode s r
    if code ≠ 0 then (put r).endPass die q r code g
    else
      let n := (r.badr % 8 + r.imageBytes + 7) / 8
      on (put { r with st := 4, fwords := (List.range n).map fun w => (0, 8 * w) }) (g + 1) 2 .bFetch
  | _ =>
    let code := if r.bscr then blockCode s q r else 0
    if code ≠ 0 then (put r).endPass die q r code g
    else
      let t0 := nextWindow r.u.slot (g + 1)
      let ws := blockWords r 0 ++ blockWords r 1
      let r' : PassRow := { r with
        st := 2, t0 := t0, fwords := ws, resvd := inResv, sums := List.replicate 128 ((0, 0), (0, 0)) }
      let s := on (put r') t0 4 .passStep
      if ws.isEmpty then s else on s (g + 1) 2 .bFetch

/-- A suppressed reservation moves no data: at the tick at which its slot would have ended, its pass goes, its counter falls and its
barrier receives the arrival (R355). A pass granted before the fault runs to its end (log 133). -/
def State.endSuppressed (s : State) (d q : Nat) : State :=
  let e := s.engine d q
  (e.rows.filter fun r => r.st = 1).foldl (fun s r =>
    match suppressedSlot s (s.engine d q) r with
    | some (tick, i) =>
      if s.now < i then s
      else
        let c := s.ucyc r.u
        let s := s.modEngine d q fun e => { e with rows := e.rows.filter fun x => !x.same r, resv := some tick }
        ((s.kAdd r.u r.k (-1) c).bEvent r.u r.bar .bound c).modGroup r.gid fun g => { g with lastPass := c }
    | none => s) s

/-- PASS_GRANT: at a cycle the engine grants at most one posted request, the one that R250 puts first among those whose
conditions hold; while requests stay posted it judges again at the next cycle. -/
def execPassGrant (s : State) : Host.Outcome State Fault Refusal :=
  let d := s.num 0
  let q := s.num 1
  let g := s.cyc d (quartetCore q)
  let s := s.endSuppressed d q
  let e := s.engine d q
  let posted := e.rows.filter fun r => r.st = 1
  let v := reservedNow s d q
  let once := e.rows.any fun r => r.grant ≠ 0 && cycleAt s d (quartetCore q) (instantOf s d r.u.core r.grant) = g
  let cs := if once then [] else posted.filter fun r => r.post ≤ s.ucyc r.u && grantOk s e v r g
  let best := cs.foldl (fun (a : Option PassRow) r => match a with
    | none => some r
    | some b => if rowBefore s r b then some r else some b) none
  let s := match best with
    | some r => s.grantRow d q r g v
    | none => s
  .next (if (s.engine d q).rows.any fun r => r.st = 1 then s.judge d q (instantOf s d (quartetCore q) (g + 1)) else s)

/-! ### Stepping (R252-R256) -/

/-- Read the registers of cycle `j` of a step (R252): a lane of an absent quad reads 0 (R247). -/
def State.readFrag (s : State) (r : PassRow) (j : Nat) : PassRow :=
  let u := r.step % r.rl
  let held := (List.range 32).filter (lanePresent s r.u)
  let load (t : Tab (BitVec 32)) (key reg : Nat) : Tab (BitVec 32) :=
    (List.range 32).foldl (fun t l => Tab.put t (key + l) (if held.contains l then s.v r.u reg l else 0)) t
  let four (t : Tab (BitVec 32)) (key reg : Nat) : Tab (BitVec 32) :=
    (List.range 4).foldl (fun t i => load t (key + 32 * (4 * j + i)) (reg + 4 * j + i)) t
  let f := four r.frag 0 (16 * r.abase + 16 * u)
  let f := if r.bscr then f else four f 512 (16 * r.bbase + 16 * u)
  let d := if r.ty = 15 ∧ (r.kind = 0 ∨ r.step % 4 = 0) then
      let d := load r.desc (32 * j) (16 * r.abase + 16 * r.rl + j)
      if r.bscr then
        (List.range 32).foldl (fun d l => Tab.put d (128 + 32 * j + l) (BitVec.ofNat 32 ((List.range 4).foldl (fun a b =>
          a + (Tab.get (0 : BitVec 8) r.fbytes (4096 * (r.step % 2) + 2048 + 4 * (32 * j + l) + b)).toNat * 256 ^ b) 0))) d
      else load d (128 + 32 * j) (16 * r.bbase + 16 * r.rl + j)
    else r.desc
  { r with frag := f, desc := d }

/-- Is a register that cycle `j` of a step reads uncorrectable (R392)? -/
def fragPoisoned (s : State) (r : PassRow) (j : Nat) : Bool :=
  let u := r.step % r.rl
  let q4 := decide (r.ty = 15 ∧ (r.kind = 0 ∨ r.step % 4 = 0))
  let regs := (List.range 4).map (fun i => 16 * r.abase + 16 * u + 4 * j + i) ++
    (if r.bscr then [] else (List.range 4).map fun i => 16 * r.bbase + 16 * u + 4 * j + i) ++
    (if q4 then [16 * r.abase + 16 * r.rl + j] else []) ++ (if q4 && !r.bscr then [16 * r.bbase + 16 * r.rl + j] else [])
  regs.any fun n => s.arrPoisoned 0 (vKey r.u n 0) 32

/-- The source of the error that cycle `j` of a step consumes, if it reads an uncorrectable word (R392). -/
def stepPoison (s : State) (d q : Nat) (r : PassRow) (j : Nat) : Option Nat :=
  if s.poison.isEmpty then none
  else if fragPoisoned s r j then some 1
  else if j = 3 ∧ s.arrPoisoned 4 (tilePlace d q r.tile 0) 16384 = true then some 3
  else none

/-- The end of stepping at cycle `c`: a drain starts 8 cycles later at the earliest, or the pass completes then (R256). -/
def State.endSteps (s : State) (d q : Nat) (r : PassRow) (c : Nat) : State :=
  if r.den then
    (s.modRow d q r fun x => { x with st := 4 }).schedCyc d r.u.core (c + 8) 20 (passEv .drainStart d q r)
  else s.schedCyc d r.u.core (c + 8) 18 (passEv .passComplete d q r)

/-- Cycle `j` of a step: a step whose block has not arrived waits (R254); a block whose last word comes in the step's very cycle has
arrived in time (DESIGN CHOICE, log 150); the step is performed at its last read, and the
fetch of the block after next starts in the cycle after it. An uncorrectable word that it reads is consumed (R392). -/
def State.stepCycle (s : State) (d q : Nat) (r : PassRow) (j c : Nat) : State :=
  let again (s : State) (c : Nat) : State := s.schedCyc d r.u.core c 9 (passEv .passStep d q r)
  if j = 0 ∧ r.fwords.any (fun w => w.1 == r.step) = true then
    again (s.modRow d q r fun x => { x with sigma := x.sigma + 1 }) (c + 1)
  else match stepPoison s d q r j with
  | some src => s.consumeAt r.u r.gid src 0
  | none =>
    let y := s.readFrag r j
    if j < 3 then again (s.modRow d q r fun x => { x with frag := y.frag, desc := y.desc }) (c + 1)
    else
      let o := (s.engine d q).doStep y
      let ws := blockWords r (r.step + 2)
      let z := { o.2 with fwords := o.2.fwords ++ ws }
      let s := s.modEngine d q fun _ => o.1.modPass r fun x => { z with row := x.row }
      let s := again s (c + 29)
      if ws.isEmpty then s else s.schedCyc d r.u.core (c + 1) 2 (passEv .bFetch d q r)

/-- PASS_STEP: T0 of a granted pass, a read cycle of its step, or the end of its last step. A pass that an urgent freeze stops
does no step whose reads start at or after its window (R259). -/
def execPassStep (s : State) : Host.Outcome State Fault Refusal :=
  let d := s.num 0
  let q := s.num 1
  match rowAt s d q (s.num 2) (s.num 3) with
  | none => .next s
  | some r =>
    let c := s.ucyc r.u
    let t := r.stepAt
    if !(r.st == 2 || r.st == 3) || r.await || c < t then .next s
    else if r.wn ≠ 0 ∧ r.wn ≤ t ∧ ¬(r.st = 3 ∧ r.step = r.n) then .next s
    else
      let r' := { r with st := 3 }
      let s := if r.st = 2 then
          (if r.za then s.healArr 4 (tilePlace d q r.tile 0) 16384 else s).modEngine d q fun e =>
            (if r.za then e.putTile r.tile [] else e).modPass r fun _ => r'
        else s
      if r.step = r.n then .next (s.endSteps d q r' t)
      else if c < t + 4 then .next (s.stepCycle d q r' (c - t) c)
      else .next s

/-- MZERO_COMPLETE: at grant + 16 every element of the tile becomes +0 (R264). -/
def execMzeroComplete (s : State) : Host.Outcome State Fault Refusal :=
  let d := s.num 0
  let q := s.num 1
  match rowAt s d q (s.num 2) (s.num 3) with
  | none => .next s
  | some r =>
    if r.kind ≠ 2 ∨ r.st ≠ 2 then .next s
    else .next (((s.healArr 4 (tilePlace d q r.tile 0) 16384).modEngine d q fun e => e.putTile r.tile []).endPass d q r 0 (s.ucyc r.u))

/-- PASS_COMPLETE: 8 cycles after the last step, or when the drain has stored its last row (R256). -/
def execPassComplete (s : State) : Host.Outcome State Fault Refusal :=
  let d := s.num 0
  let q := s.num 1
  match rowAt s d q (s.num 2) (s.num 3) with
  | none => .next s
  | some r => .next (if r.st = 3 ∨ r.st = 4 then s.endPass d q r 0 (s.ucyc r.u) else s)

/-- DPLOAD_WRITE: the slot or the entries are written in one action and the DPLOAD completes (R285). -/
def execDploadWrite (s : State) : Host.Outcome State Fault Refusal :=
  let d := s.num 0
  let q := s.num 1
  match rowAt s d q (s.num 2) (s.num 3) with
  | none => .next s
  | some r =>
    if r.kind ≠ 4 ∨ r.st ≠ 4 then .next s
    else
      let word (k : Nat) : BitVec 32 := BitVec.ofNat 32 ((List.range 4).foldl (fun a b =>
        a + (Tab.get (0 : BitVec 8) r.fbytes (r.badr % 8 + 4 * k + b)).toNat * 256 ^ b) 0)
      let n := r.imageBytes / 4
      let s := if r.isTab then s.healArr 6 (tabPlace d q r.tabFirst) n else s.healArr 5 (progPlace d q (16 * r.tabFirst)) n
      let s := s.modEngine d q fun e =>
        if r.isTab then { e with tab := (List.range n).foldl (fun t k => Tab.put t (r.tabFirst + k) (word k)) e.tab }
        else { e with prog := (List.range n).foldl (fun t k => Tab.put t (16 * r.tabFirst + k) (word k)) e.prog }
      .next (s.endPass d q r 0 (s.ucyc r.u))

/-- RESERVATION_START: a reserved interval begins; a dynamic pass that still steps or drains raises cause 6 (R251). -/
def execReservationStart (s : State) : Host.Outcome State Fault Refusal :=
  let d := s.num 0
  let q := s.num 1
  let l := s.num 2
  if !(s.lay l).serving then .next s
  else
    let late := (s.engine d q).rows.any fun r => (r.kind ≤ 1 || r.kind == 3) && !r.resvd && (r.st == 3 || r.st == 4)
    let s := if late then
        s.schedFault l 6 { die := d, core := quartetCore q, lead := false, slot := 0 } 0 [5 + 256 * q]
      else s
    .next (s.judge d q s.now)

end Sys2Proof.Machine
end

