-- ==== Sys2Proof/Machine/Drain.lean ====
section
/-! DEFINITION. The drain unit (R267-R287): validity of a program, its micro-operations on the 128 elements of a row, row
actions, and the writing of rows to scratch at their cycles. A row's program runs in the cycle in which its results are ready,
24 cycles after the row enters. -/

namespace Sys2Proof.Machine

/-! ### Validity (R278) -/

/-- A word of drain memory (R269): one nothing has written is an invalid micro-operation. -/
def Engine.progWord (e : Engine) (slot w : Nat) : BitVec 32 := Tab.get 0xFFFFFFFF#32 e.prog (16 * slot + w)

/-- An entry of the drain table (R268). -/
def Engine.entry (e : Engine) (n : Nat) : Nat := (Tab.get (0 : BitVec 32) e.tab (n % 256)).toNat

/-- OPC of a word. -/
def uopc (w : BitVec 32) : Nat := w.toNat % 32

/-- IMM bits of a micro-operation, numbered from word bit 18. -/
def immBits (w : UF) (lo n : Nat) : Nat := bits w.imm.toNat lo n

/-- Index of the first END of a slot. -/
def Engine.endOf (e : Engine) (slot : Nat) : Option Nat := (List.range 16).find? fun w => uopc (e.progWord slot w) == 23

/-- Is word `k` before the END at `last` valid (R278)? -/
def uopValid (x : BitVec 32) (k last : Nat) : Bool :=
  let o := uopc x
  let f := ufOf x
  let u := uopUses o
  (decodeUop x).isSome && (!u.2.1 || f.sa.toNat < 11) && (!u.2.2.1 || f.sb.toNat < 11) && (o ≠ 21 || immBits f 0 4 < 11) &&
    (!(o == 16 || o == 18) || (immBits f 0 3 ≠ 7 && !(5 ≤ immBits f 0 3 && immBits f 3 1 == 1))) &&
    (o ≠ 17 || (immBits f 0 3 ≠ 7 && !(1 ≤ immBits f 3 3 && immBits f 3 3 ≤ 3))) &&
    (o ≠ 20 || (immBits f 3 4 ≠ 0 && k + immBits f 3 4 < last))

/-- The END index of a valid program (R278). -/
def Engine.validProg (e : Engine) (slot : Nat) : Option Nat :=
  (e.endOf slot).bind fun last =>
    let ws := (List.range last).map (e.progWord slot)
    let once (o : Nat) : Bool := (ws.filter fun w => uopc w == o).length ≤ 1
    if ws.zipIdx.all (fun w => uopValid w.1 w.2 last) && once 17 && once 19 && e.progWord slot last == 0x17#32 then some last
    else none

/-! ### Running a micro-operation (R271-R273) -/

/-- A pattern with a NaN made canonical (R79). -/
def canon (x : Nat) : Nat := if (F32.value x).isNan then F32.nan else x % 2 ^ 32

/-- A small integer as F32. -/
def f32OfNat (n : Nat) : Nat := (cvtI F32 0 false (n : Int)).1

/-- A source of element `c` (Table 13.2). -/
def RowRun.src (r : RowRun) (c : Nat) (code : Nat) : Nat :=
  if code < 8 then (Tab.get (0 : BitVec 32) r.x (8 * c + code)).toNat
  else if code = 8 then f32OfNat r.row
  else if code = 9 then f32OfNat c
  else 0

/-- Write a drain register of element `c` and collect flags. -/
def RowRun.put (r : RowRun) (c xd : Nat) (v : Nat × Nat) : RowRun :=
  { r with x := Tab.put r.x (8 * c + xd) (BitVec.ofNat 32 v.1), flags := flOr r.flags v.2 }

/-- Run a micro-operation on every element that does not skip it; a skipping element counts down (R272). -/
def RowRun.each (r : RowRun) (f : RowRun → Nat → RowRun) : RowRun :=
  (List.range 128).foldl (fun r c =>
    let k : Nat := Tab.get 0 r.skip c
    if k = 0 then f r c else { r with skip := if k = 1 then r.skip.del c else r.skip.put c (k - 1) }) r

/-- Go on to the next word of the slot. -/
def RowRun.step (r : RowRun) (e : Engine) (slot : Nat) : RowRun :=
  { r with w := r.w + 1, word := e.progWord slot (r.w + 1) }

/-- The pass of a drain in progress. -/
def drainPass (s : State) (die q : Nat) : Option (DrainRun × PassRow) :=
  let e := s.engine die q
  e.drain.bind fun d => (e.rows.find? fun r => d.drains r).map fun r => (d, r)

/-- Run a micro-operation of the row in progress: `f` acts on an element, `g` on the row first. -/
def uopWith (s : State) (g : Engine → RowRun → RowRun) (f : Engine → RowRun → Nat → RowRun) :
    Host.Outcome State Fault Refusal :=
  match s.row with
  | none => .fault .noDrainRow
  | some r =>
    let e := s.engine r.die r.q
    let slot := match drainPass s r.die r.q with | some x => x.2.slot | none => 0
    .next { s with row := some (((g e r).each (f e)).step e slot) }

/-- A micro-operation that writes XD from its sources (a, b, d) of an element. -/
def uopCalc (w : UF) (s : State) (f : Nat → Nat → Nat → Nat × Nat) : Host.Outcome State Fault Refusal :=
  uopWith s (fun _ r => r) fun _ r c =>
    r.put c w.xd.toNat (f (r.src c w.sa.toNat) (r.src c w.sb.toNat) (r.src c w.xd.toNat))

/-- An element has read entry `n` of the drain table: an uncorrectable one counts at the end of the row (R392). -/
def RowRun.readEntry (r : RowRun) (s : State) (n : Nat) : RowRun :=
  { r with bad := r.bad || (!s.poison.isEmpty && s.arrPoisoned 6 (tabPlace r.die r.q (n % 256)) 1) }

/-- A micro-operation that writes XD from a table entry whose number depends on row and column. -/
def uopTab (w : UF) (s : State) (f : Nat → Nat → Nat) : Host.Outcome State Fault Refusal :=
  uopWith s (fun _ r => r) fun e r c =>
    (r.put c w.xd.toNat (canon (e.entry (f r.row c)), 0)).readEntry s (f r.row c)

/-- A format of Table 13.4: none for I8 and N8. -/
def drainFmt (f : Nat) : Option Fmt :=
  match f with
  | 0 => some F32 | 1 => some F16 | 2 => some BF16 | 3 => some E4M3 | 4 => some E5M2 | _ => none

/-- Bytes stored in a format (Table 13.4). -/
def drainBytes (f : Nat) : Nat := match f with | 0 => 4 | 1 => 2 | 2 => 2 | _ => 1

/-- The pattern of a value converted to a drain format, with flags (R274). -/
def drainCvt (f rm : Nat) (st : Bool) (a : Nat) : Nat × Nat :=
  match drainFmt f with
  | some fm => cvtF F32 fm rm st a
  | none =>
    let r := if f = 5 then cvtFI F32 rm (-128) 127 a else cvtFI F32 rm 0 255 a
    (wrap 8 r.1, r.2)

/-- The F32 value of a converted pattern (R273, CVT). -/
def drainBack (f x : Nat) : Nat :=
  match drainFmt f with
  | some fm => (cvtF fm F32 0 false x).1
  | none => (cvtI F32 0 false (if f = 5 then sgn 8 x else (x : Int))).1

/-- DRAIN_ADD: a + b (Table 13.3). -/
def execDrainAdd (w : UF) (s : State) : Host.Outcome State Fault Refusal :=
  uopCalc w s fun a b _ => fAdd F32 w.rm.toNat (immBits w 0 1 == 1) a b

/-- DRAIN_SUB: a − b. -/
def execDrainSub (w : UF) (s : State) : Host.Outcome State Fault Refusal :=
  uopCalc w s fun a b _ => fSub F32 w.rm.toNat (immBits w 0 1 == 1) a b

/-- DRAIN_MUL: a · b. -/
def execDrainMul (w : UF) (s : State) : Host.Outcome State Fault Refusal :=
  uopCalc w s fun a b _ => fMul F32 w.rm.toNat (immBits w 0 1 == 1) a b

/-- DRAIN_FMA: a · b + d, one rounding. -/
def execDrainFma (w : UF) (s : State) : Host.Outcome State Fault Refusal :=
  uopCalc w s fun a b d => fFma F32 w.rm.toNat (immBits w 0 1 == 1) a b d

/-- DRAIN_MIN: as FMIN (R100). -/
def execDrainMin (w : UF) (s : State) : Host.Outcome State Fault Refusal :=
  uopCalc w s fun a b _ => (fMinMax F32 false a b, 0)

/-- DRAIN_MAX: as FMAX (R100). -/
def execDrainMax (w : UF) (s : State) : Host.Outcome State Fault Refusal :=
  uopCalc w s fun a b _ => (fMinMax F32 true a b, 0)

/-- DRAIN_ABS: as FABS. -/
def execDrainAbs (w : UF) (s : State) : Host.Outcome State Fault Refusal := uopCalc w s fun a _ _ => (fAbs F32 a, 0)

/-- DRAIN_NEG: as FNEG. -/
def execDrainNeg (w : UF) (s : State) : Host.Outcome State Fault Refusal := uopCalc w s fun a _ _ => (fNeg F32 a, 0)

/-- DRAIN_MOVI: the BF16 pattern across IMM and RM, shifted left by 16. -/
def execDrainMovi (w : UF) (s : State) : Host.Outcome State Fault Refusal :=
  uopCalc w s fun _ _ _ => (canon ((w.imm.toNat * 4 + w.rm.toNat) * 65536), 0)

/-- DRAIN_LDC: table entry n. -/
def execDrainLdc (w : UF) (s : State) : Host.Outcome State Fault Refusal := uopTab w s fun _ _ => immBits w 0 8

/-- DRAIN_LDR: table entry n + ROW or n + COL, modulo 256. -/
def execDrainLdr (w : UF) (s : State) : Host.Outcome State Fault Refusal :=
  uopTab w s fun i c => immBits w 0 8 + (if immBits w 8 1 = 1 then c else i)

/-- The clamped index of TAB: floor of a value, between 0 and `m`. -/
def tabIndex (a m : Nat) : Nat :=
  match F32.value a with
  | .nan => 0
  | .inf n => if n then 0 else m
  | .fin n x e => if n then 0 else min m (toIntegral 1 false x (min e 128)).1

/-- DRAIN_TAB: the table entry at n plus the clamped floor of a; a NaN gives NaN and raises invalid. -/
def execDrainTab (w : UF) (s : State) : Host.Outcome State Fault Refusal :=
  uopWith s (fun _ r => r) fun e r c =>
    let a := r.src c w.sa.toNat
    let n := immBits w 0 8 + tabIndex a (immBits w 8 6)
    if (F32.value a).isNan then r.put c w.xd.toNat (F32.nan, flInvalid)
    else (r.put c w.xd.toNat (canon (e.entry n), 0)).readEntry s n

/-- DRAIN_EXP2: as FEXP2 (R115, R116). -/
def execDrainExp2 (w : UF) (s : State) : Host.Outcome State Fault Refusal :=
  uopCalc w s fun a _ _ => fExp2 w.rm.toNat (immBits w 0 1 == 1) a

/-- DRAIN_RCP: as FRCP. -/
def execDrainRcp (w : UF) (s : State) : Host.Outcome State Fault Refusal :=
  uopCalc w s fun a _ _ => fRcp w.rm.toNat (immBits w 0 1 == 1) a

/-- DRAIN_CLAMP: FMIN(FMAX(d, a), b). -/
def execDrainClamp (w : UF) (s : State) : Host.Outcome State Fault Refusal :=
  uopCalc w s fun a b d => (fMinMax F32 false (fMinMax F32 true d a) b, 0)

/-- DRAIN_RND: as FRND. -/
def execDrainRnd (w : UF) (s : State) : Host.Outcome State Fault Refusal := uopCalc w s fun a _ _ => fRnd F32 w.rm.toNat a

/-- DRAIN_CVT: the F32 value of a rounded into a format; to F32 only a NaN changes (R274). -/
def execDrainCvt (w : UF) (s : State) : Host.Outcome State Fault Refusal :=
  uopCalc w s fun a _ _ =>
    if immBits w 0 3 = 0 then (canon a, 0) else
    let r := drainCvt (immBits w 0 3) w.rm.toNat (immBits w 3 1 == 1) a
    (drainBack (immBits w 0 3) r.1, r.2)

/-- DRAIN_QSPAN: the element's value joins the row's span; a skipping element contributes +0 (R276). -/
def execDrainQspan (w : UF) (s : State) : Host.Outcome State Fault Refusal :=
  uopWith s (fun _ r => { r with spanCfg := some (immBits w 0 3 + 1, immBits w 3 3, immBits w 6 8), span := [] }) fun _ r c =>
    { r with span := Tab.put r.span c (BitVec.ofNat 32 (r.src c w.sa.toNat)) }

/-- DRAIN_ST: the converted element is stored after every element has run; its flags are raised even when the store is dropped
(R275). -/
def execDrainSt (w : UF) (s : State) : Host.Outcome State Fault Refusal :=
  uopWith s (fun _ r => r) fun _ r c =>
    let f := immBits w 0 3
    let n := drainBytes f
    let v := drainCvt f w.rm.toNat (immBits w 3 1 == 1) (r.src c w.sa.toNat)
    let off := wrap 32 (sgn 10 (immBits w 4 10) * 16 + (n * c : Nat))
    { r with stores := r.stores ++ [(off, n, c, v.1)], flags := flOr r.flags v.2 }

/-- DRAIN_CHK: the element's value joins the row sum; a skipping element contributes +0 (R277). -/
def execDrainChk (w : UF) (s : State) : Host.Outcome State Fault Refusal :=
  uopWith s (fun _ r => { r with chk := some [] }) fun _ r c =>
    { r with chk := r.chk.map fun t => Tab.put t c (BitVec.ofNat 32 (r.src c w.sa.toNat)) }

/-- DRAIN_SKIP: an element for which the comparison holds skips the next n micro-operations; no flag (R273). -/
def execDrainSkip (w : UF) (s : State) : Host.Outcome State Fault Refusal :=
  uopWith s (fun _ r => r) fun _ r c =>
    if fCond (immBits w 0 3) (F32.value (r.src c w.sa.toNat)) (F32.value (r.src c w.sb.toNat)) then
      { r with skip := Tab.put r.skip c (immBits w 3 4) }
    else r

/-- DRAIN_SEL: a or b by the comparison of c with +0; no flag (R273). -/
def execDrainSel (w : UF) (s : State) : Host.Outcome State Fault Refusal :=
  uopWith s (fun _ r => r) fun _ r c =>
    let t := fCond (immBits w 4 3) (F32.value (r.src c (immBits w 0 4))) (.fin false 0 0)
    r.put c w.xd.toNat (r.src c (if t then w.sa.toNat else w.sb.toNat), 0)

/-- DRAIN_NOP: no effect. -/
def execDrainNop (_w : UF) (s : State) : Host.Outcome State Fault Refusal := uopWith s (fun _ r => r) fun _ r _ => r

/-! ### Row actions (R275-R277, R281) -/

/-- The values of a table of contributions, +0 where an element gave none. -/
def contributions (t : Tab (BitVec 32)) : List FV :=
  (List.range 128).map fun c => F32.value (Tab.get (0 : BitVec 32) t c).toNat

/-- The stores of a row in the order in which they are applied: address, size, data; and the flags of its span (R275, R276). -/
def rowStores (e : Engine) (r : RowRun) (arow : Nat) : List (Nat × Nat × Nat) × Nat :=
  let sp := match r.spanCfg with
    | none => ([], 0)
    | some (h, mode, n) =>
      let k := quantise (contributions r.span) h mode
      let group (i : Nat) : Nat := packElems 4 ((k.1.drop (16 * i)).take 16)
      ((List.range 8).map (fun i => ((arow + 8 * i) % 2 ^ 32, 8, group i)) ++ [((e.entry n + 4 * r.row) % 2 ^ 32, 4, k.2.1)], k.2.2)
  (sp.1 ++ r.stores.map (fun x => ((arow + x.1) % 2 ^ 32, x.2.1, x.2.2.2)), sp.2)

/-- Is a drain store dropped (R281): a bit of [31:27], another core, out of reach, or misaligned? -/
def storeDropped (s : State) (p : PassRow) (a n : Nat) : Bool :=
  let core := scrCore s p.gid a
  2 ^ 27 ≤ a || core != p.u.core || a % n != 0 || !rangeInReach (reachGroups s p.gid) core (a % 2 ^ 19) n

/-- The scratch words that a row's stores write, each with the bytes that the last store to them left (R275, R279). -/
def rowWords (row ready : Nat) (xs : List (Nat × Nat × Nat)) : List DrainWord :=
  let bytes := xs.foldl (fun (t : Tab (BitVec 8)) x =>
    (List.range x.2.1).foldl (fun t i => Tab.put t (x.1 % 2 ^ 19 + i) (BitVec.ofNat 8 (x.2.2 / 256 ^ i))) t) []
  (distinct (bytes.map fun b => b.1 / 8)).map fun w =>
    { row := row, ready := ready, addr := 8 * w,
      bytes := (bytes.filter fun b => b.1 / 8 = w).map fun b => (b.1 % 8, b.2) }

/-- Note the rows that are done at cycle `c`, let the next row enter when its cycle is known, and complete after the last
(R279, R256). -/
def State.pumpDrain (s : State) (die q c : Nat) : State :=
  match drainPass s die q with
  | none => s
  | some (d, p) =>
    let d := (List.range 128).foldl (fun (d : DrainRun) i =>
      if i = d.dones.length && i < d.next && !d.words.any (fun w => w.row = i) then { d with dones := Tab.put d.dones i c }
      else d) d
    let s := s.modEngine die q fun e => { e with drain := some d }
    if d.dones.length = 128 then s.schedEv s.now 18 (passEv .passComplete die q p)
    else
      let i := d.next
      let t0 := if i = 0 then d.start + 24 else (Tab.get 0 d.ins (i - 1)) + 25
      let early : Option Nat := if i < 4 then some 0 else (Tab.get? d.dones (i - 4)).map (· + 1)
      match early with
      | some b => if i < 128 ∧ (i = 0 ∨ (Tab.get? d.ins (i - 1)).isSome = true) then
          s.schedCyc die p.u.core (max t0 b) 0 (ev .drainRow [die, q, i, d.start]) else s
      | none => s

/-- The end of a row: span, row sum and stores; what is dropped is recorded once per drain; the words wait for their banks. The rounding of
the row sum raises no flag (DESIGN CHOICE, log 151). A
row that has read an uncorrectable entry stores nothing: it is consumed (R392). -/
def State.endRow (s : State) (r : RowRun) : State :=
  let s : State := { s with row := none }
  match drainPass s r.die r.q with
  | none => s
  | some (d, p) =>
    let badSpan := match r.spanCfg with
      | some x => s.arrPoisoned 6 (tabPlace r.die r.q (x.2.2 % 256)) 1
      | none => false
    if r.bad || badSpan then s.consumeAt p.u p.gid 4 0 else
    let e := s.engine r.die r.q
    let c := s.ucyc p.u
    let xs := rowStores e r ((p.dest + r.row * p.stride) % 2 ^ 32)
    let bad := (xs.1.filter fun x => storeDropped s p x.1 x.2.1).map (·.1)
    let ws := rowWords r.row c (xs.1.filter fun x => !storeDropped s p x.1 x.2.1)
    let rho := match r.chk with
      | some t => Tab.put d.rho r.row (BitVec.ofNat 32 (sumRound F32 0 false (contributions t) false).1)
      | none => d.rho
    let fl := flOr r.flags xs.2
    let d' : DrainRun := { d with next := r.row + 1, ins := Tab.put d.ins r.row (c - 24), words := d.words ++ ws,
                                  dropped := d.dropped || !bad.isEmpty, rho := rho }
    let s := s.modEngine r.die r.q fun e =>
      ({ e with drain := some d' } : Engine).modPass p fun x => { x with flags := flOr x.flags fl }
    let s := match bad, s.group? p.gid with
      | b :: bs, some g => if d.dropped then s else
          s.recordOor p.u g.ctx (oorWord 5 true p.u.die p.u.core p.u.slot 0 (bs.foldl min b)) c
      | _, _ => s
    let s := if ws.isEmpty then s else s.schedEv s.now 3 (ev .drainWrite [r.die, r.q, d.start])
    s.pumpDrain r.die r.q c

/-- DRAIN_END: the row's program has ended (R272). -/
def execDrainEnd (_w : UF) (s : State) : Host.Outcome State Fault Refusal :=
  match s.row with
  | none => .fault .noDrainRow
  | some r => .next (s.endRow r)

/-! ### The drain in time (R256, R279-R282) -/

/-- A drain that begins at cycle `c` with nothing entered. -/
def DrainRun.fresh (row grant c : Nat) : DrainRun :=
  { row := row, grant := grant, start := c, next := 0, ins := [], dones := [], words := [], dropped := false, rho := [] }

/-- Is a request stopped by an urgent freeze at cycle `c` (R259)? -/
def PassRow.stopped (r : PassRow) (c : Nat) : Bool := r.wn ≠ 0 && r.wn ≤ c

/-- Is a word that a drain reads uncorrectable: the words of a slot up to and including its first END, or all of them where it
has none (R267, R278)? -/
def Engine.progPoisoned (e : Engine) (s : State) (slot : Nat) : Bool :=
  s.arrPoisoned 5 (progPlace e.die e.q (16 * slot)) ((e.endOf slot).getD 15 + 1)

/-- DRAIN_START: once no other drain runs the slot is decoded; an invalid program ends the pass with code 3 before row 0 is
read (R256, R278). -/
def execDrainStart (s : State) : Host.Outcome State Fault Refusal :=
  let d := s.num 0
  let q := s.num 1
  match rowAt s d q (s.num 2) (s.num 3) with
  | none => .next s
  | some r =>
    let e := s.engine d q
    let c := s.ucyc r.u
    if r.st ≠ 4 || r.kind == 4 || r.await || r.stopped c || (e.drain.filter fun x => x.drains r).isSome then .next s
    else if drainUsed e || (c ≤ e.lastDone && e.lastDone ≠ 0) then
      .next (s.schedCyc d r.u.core (c + 1) 20 (passEv .drainStart d q r))
    else if e.progPoisoned s r.slot then .next (s.consumeAt r.u r.gid 4 0)
    else match e.validProg r.slot with
      | none => .next (s.endPass d q r 3 c)
      | some _ =>
        let s := s.modEngine d q fun e => { e with
          drain := some (DrainRun.fresh (r.row % 16) r.grant c) }
        .next (s.schedCyc d r.u.core (c + 24) 0 (ev .drainRow [d, q, 0, c]))

/-- DRAIN_ROW: a row's program begins, every element with X0 from the tile and the other registers +0 (R272). -/
def execDrainRow (s : State) : Host.Outcome State Fault Refusal :=
  let q := s.num 1
  let i := s.num 2
  match drainPass s (s.num 0) q with
  | none => .next s
  | some (d, p) =>
    if d.start ≠ s.num 3 || d.next ≠ i || p.st ≠ 4 || p.await || p.stopped (s.ucyc p.u) then .next s
    else if (s.engine (s.num 0) q).progPoisoned s p.slot then .next (s.consumeAt p.u p.gid 4 0)
    else if s.arrPoisoned 4 (tilePlace (s.num 0) q p.tile (128 * i)) 128 then .next (s.consumeAt p.u p.gid 3 0)
    else
      let e := s.engine (s.num 0) q
      let r : RowRun :=
        { die := s.num 0, q := q, row := i, w := 0, last := (e.endOf p.slot).getD 15,
          x := (List.range 128).map fun c => (8 * c, e.tileAt p.tile i c),
          skip := [], span := [], spanCfg := none, chk := none, stores := [], flags := 0, word := e.progWord p.slot 0,
          bad := false }
      .next { s with row := some r }

/-- A word of a drain is written: full words lose their poison, the line takes the pass's warp and region (R184, R280). -/
def State.writeDrainWord (s : State) (p : PassRow) (c : Nat) (w : DrainWord) : State :=
  let s := if w.bytes.length = 8 then
      s.scrWrite p.u.die p.u.core w.addr (w.bytes.foldr (fun b a => b.2.toNat + 256 * a) 0) 8
    else w.bytes.foldl (fun s b => s.scrWrite p.u.die p.u.core (w.addr + b.1) b.2.toNat 1) s
  s.touchLine p.u.die p.u.core w.addr c p.u.slot p.rgnc

/-- One cycle of drain writes: state, banks tried, words left. -/
def drainWord (p : PassRow) (c : Nat) (f : State × List Nat × List DrainWord) (w : DrainWord) : State × List Nat × List DrainWord :=
  let key := bankKey p.u.die p.u.core (w.addr / 8)
  if f.2.1.contains key then (f.1, f.2.1, f.2.2 ++ [w])
  else if !bankFree f.1 p.u.die p.u.core (w.addr / 8) c then (f.1, key :: f.2.1, f.2.2 ++ [w])
  else
    let s := f.1.writeDrainWord p c w
    let s : State := { s with bankUse := (key, c) :: s.bankUse.filter fun b => !(b.1 / 32 = key / 32 && b.2 + 64 < c) }
    (s, key :: f.2.1, f.2.2)

/-- DRAIN_WRITE: each bank performs its first waiting drain write when no warp-port pass and no engine fetch has it (R183,
R254, R279). -/
def execDrainWrite (s : State) : Host.Outcome State Fault Refusal :=
  let die := s.num 0
  let q := s.num 1
  match drainPass s die q with
  | none => .next s
  | some (d, p) =>
    let c := s.ucyc p.u
    if d.start ≠ s.num 2 || p.st ≠ 4 || p.await || p.stopped c || d.words.isEmpty then .next s
    else
      let f := d.words.foldl (drainWord p c) (s, [], [])
      let s := f.1.modEngine die q fun e => { e with drain := some { d with words := f.2.2 } }
      let s := if f.2.2.isEmpty then s else s.schedCyc die p.u.core (c + 1) 3 (ev .drainWrite [die, q, d.start])
      .next (s.pumpDrain die q c)

end Sys2Proof.Machine
end

