-- ==== Sys2Proof/Machine/Dispatch.lean ====
section
/-! DEFINITION. One arm per constructor of `Instr`, in the order of the opcode table: a direct call of its meaning. -/

namespace Sys2Proof.Machine

def exec (i : Instr) (s : State) : Host.Outcome State Fault Refusal :=
  match i with
  | .iadd w => Sys2Proof.Machine.execIadd w s
  | .isub w => Sys2Proof.Machine.execIsub w s
  | .imul w => Sys2Proof.Machine.execImul w s
  | .imulh w => Sys2Proof.Machine.execImulh w s
  | .imad w => Sys2Proof.Machine.execImad w s
  | .imin w => Sys2Proof.Machine.execImin w s
  | .imax w => Sys2Proof.Machine.execImax w s
  | .iaddc w => Sys2Proof.Machine.execIaddc w s
  | .iabs w => Sys2Proof.Machine.execIabs w s
  | .ineg w => Sys2Proof.Machine.execIneg w s
  | .and w => Sys2Proof.Machine.execAnd w s
  | .or w => Sys2Proof.Machine.execOr w s
  | .xor w => Sys2Proof.Machine.execXor w s
  | .andn w => Sys2Proof.Machine.execAndn w s
  | .not w => Sys2Proof.Machine.execNot w s
  | .shl w => Sys2Proof.Machine.execShl w s
  | .shr w => Sys2Proof.Machine.execShr w s
  | .sar w => Sys2Proof.Machine.execSar w s
  | .rotl w => Sys2Proof.Machine.execRotl w s
  | .bfe w => Sys2Proof.Machine.execBfe w s
  | .bfi w => Sys2Proof.Machine.execBfi w s
  | .popc w => Sys2Proof.Machine.execPopc w s
  | .clz w => Sys2Proof.Machine.execClz w s
  | .ffs w => Sys2Proof.Machine.execFfs w s
  | .brev w => Sys2Proof.Machine.execBrev w s
  | .icmp w => Sys2Proof.Machine.execIcmp w s
  | .sel w => Sys2Proof.Machine.execSel w s
  | .mov w => Sys2Proof.Machine.execMov w s
  | .movi w => Sys2Proof.Machine.execMovi w s
  | .movhi w => Sys2Proof.Machine.execMovhi w s
  | .lea w => Sys2Proof.Machine.execLea w s
  | .iaddi w => Sys2Proof.Machine.execIaddi w s
  | .imuli w => Sys2Proof.Machine.execImuli w s
  | .andi w => Sys2Proof.Machine.execAndi w s
  | .ori w => Sys2Proof.Machine.execOri w s
  | .xori w => Sys2Proof.Machine.execXori w s
  | .icmpi w => Sys2Proof.Machine.execIcmpi w s
  | .plop w => Sys2Proof.Machine.execPlop w s
  | .fadd w => Sys2Proof.Machine.execFadd w s
  | .fsub w => Sys2Proof.Machine.execFsub w s
  | .fmul w => Sys2Proof.Machine.execFmul w s
  | .ffma w => Sys2Proof.Machine.execFfma w s
  | .fmin w => Sys2Proof.Machine.execFmin w s
  | .fmax w => Sys2Proof.Machine.execFmax w s
  | .fabs w => Sys2Proof.Machine.execFabs w s
  | .fneg w => Sys2Proof.Machine.execFneg w s
  | .fcmp w => Sys2Proof.Machine.execFcmp w s
  | .frnd w => Sys2Proof.Machine.execFrnd w s
  | .fclass w => Sys2Proof.Machine.execFclass w s
  | .fscale w => Sys2Proof.Machine.execFscale w s
  | .fdot2 w => Sys2Proof.Machine.execFdot2 w s
  | .dot4 w => Sys2Proof.Machine.execDot4 w s
  | .cvtf w => Sys2Proof.Machine.execCvtf w s
  | .cvti w => Sys2Proof.Machine.execCvti w s
  | .cvtfi w => Sys2Proof.Machine.execCvtfi w s
  | .pack2 w => Sys2Proof.Machine.execPack2 w s
  | .pack4 w => Sys2Proof.Machine.execPack4 w s
  | .unpk w => Sys2Proof.Machine.execUnpk w s
  | .qnt w => Sys2Proof.Machine.execQnt w s
  | .dqnt w => Sys2Proof.Machine.execDqnt w s
  | .qdesc w => Sys2Proof.Machine.execQdesc w s
  | .frcp w => Sys2Proof.Machine.execFrcp w s
  | .frsq w => Sys2Proof.Machine.execFrsq w s
  | .fsqrt w => Sys2Proof.Machine.execFsqrt w s
  | .fexp2 w => Sys2Proof.Machine.execFexp2 w s
  | .flog2 w => Sys2Proof.Machine.execFlog2 w s
  | .fsin w => Sys2Proof.Machine.execFsin w s
  | .fcos w => Sys2Proof.Machine.execFcos w s
  | .ftanh w => Sys2Proof.Machine.execFtanh w s
  | .qswph w => Sys2Proof.Machine.execQswph w s
  | .qswpv w => Sys2Proof.Machine.execQswpv w s
  | .qswpd w => Sys2Proof.Machine.execQswpd w s
  | .qbc w => Sys2Proof.Machine.execQbc w s
  | .shfl w => Sys2Proof.Machine.execShfl w s
  | .shflu w => Sys2Proof.Machine.execShflu w s
  | .shfld w => Sys2Proof.Machine.execShfld w s
  | .shflx w => Sys2Proof.Machine.execShflx w s
  | .vote w => Sys2Proof.Machine.execVote w s
  | .ballot w => Sys2Proof.Machine.execBallot w s
  | .matchLanes w => Sys2Proof.Machine.execMatchLanes w s
  | .lpopc w => Sys2Proof.Machine.execLpopc w s
  | .rdlane w => Sys2Proof.Machine.execRdlane w s
  | .wrlane w => Sys2Proof.Machine.execWrlane w s
  | .wreduce w => Sys2Proof.Machine.execWreduce w s
  | .wscan w => Sys2Proof.Machine.execWscan w s
  | .xmov w => Sys2Proof.Machine.execXmov w s
  | .dqpop w => Sys2Proof.Machine.execDqpop w s
  | .lpush w => Sys2Proof.Machine.execLpush w s
  | .lds w => Sys2Proof.Machine.execLds w s
  | .sts w => Sys2Proof.Machine.execSts w s
  | .ldsb w => Sys2Proof.Machine.execLdsb w s
  | .atomsAdd w => Sys2Proof.Machine.execAtomsAdd w s
  | .atomsSub w => Sys2Proof.Machine.execAtomsSub w s
  | .atomsMin w => Sys2Proof.Machine.execAtomsMin w s
  | .atomsMax w => Sys2Proof.Machine.execAtomsMax w s
  | .atomsAnd w => Sys2Proof.Machine.execAtomsAnd w s
  | .atomsOr w => Sys2Proof.Machine.execAtomsOr w s
  | .atomsXor w => Sys2Proof.Machine.execAtomsXor w s
  | .atomsExch w => Sys2Proof.Machine.execAtomsExch w s
  | .atomsCas w => Sys2Proof.Machine.execAtomsCas w s
  | .scrflg w => Sys2Proof.Machine.execScrflg w s
  | .copy w => Sys2Proof.Machine.execCopy w s
  | .copyr w => Sys2Proof.Machine.execCopyr w s
  | .cpyst w => Sys2Proof.Machine.execCpyst w s
  | .cpycan w => Sys2Proof.Machine.execCpycan w s
  | .ldg w => Sys2Proof.Machine.execLdg w s
  | .stg w => Sys2Proof.Machine.execStg w s
  | .atomgAdd w => Sys2Proof.Machine.execAtomgAdd w s
  | .atomgSub w => Sys2Proof.Machine.execAtomgSub w s
  | .atomgMin w => Sys2Proof.Machine.execAtomgMin w s
  | .atomgMax w => Sys2Proof.Machine.execAtomgMax w s
  | .atomgAnd w => Sys2Proof.Machine.execAtomgAnd w s
  | .atomgOr w => Sys2Proof.Machine.execAtomgOr w s
  | .atomgXor w => Sys2Proof.Machine.execAtomgXor w s
  | .atomgExch w => Sys2Proof.Machine.execAtomgExch w s
  | .atomgCas w => Sys2Proof.Machine.execAtomgCas w s
  | .fence w => Sys2Proof.Machine.execFence w s
  | .rld w => Sys2Proof.Machine.execRld w s
  | .rst w => Sys2Proof.Machine.execRst w s
  | .ratomAdd w => Sys2Proof.Machine.execRatomAdd w s
  | .ratomSub w => Sys2Proof.Machine.execRatomSub w s
  | .ratomMin w => Sys2Proof.Machine.execRatomMin w s
  | .ratomMax w => Sys2Proof.Machine.execRatomMax w s
  | .ratomAnd w => Sys2Proof.Machine.execRatomAnd w s
  | .ratomOr w => Sys2Proof.Machine.execRatomOr w s
  | .ratomXor w => Sys2Proof.Machine.execRatomXor w s
  | .ratomExch w => Sys2Proof.Machine.execRatomExch w s
  | .ratomCas w => Sys2Proof.Machine.execRatomCas w s
  | .bra w => Sys2Proof.Machine.execBra w s
  | .brq w => Sys2Proof.Machine.execBrq w s
  | .brd w => Sys2Proof.Machine.execBrd w s
  | .brs w => Sys2Proof.Machine.execBrs w s
  | .call w => Sys2Proof.Machine.execCall w s
  | .ret w => Sys2Proof.Machine.execRet w s
  | .jmpx w => Sys2Proof.Machine.execJmpx w s
  | .regang w => Sys2Proof.Machine.execRegang w s
  | .exit w => Sys2Proof.Machine.execExit w s
  | .nop w => Sys2Proof.Machine.execNop w s
  | .bara w => Sys2Proof.Machine.execBara w s
  | .barinit w => Sys2Proof.Machine.execBarinit w s
  | .barst w => Sys2Proof.Machine.execBarst w s
  | .tbar w => Sys2Proof.Machine.execTbar w s
  | .kinc w => Sys2Proof.Machine.execKinc w s
  | .kset w => Sys2Proof.Machine.execKset w s
  | .krd w => Sys2Proof.Machine.execKrd w s
  | .time w => Sys2Proof.Machine.execTime w s
  | .waitt w => Sys2Proof.Machine.execWaitt w s
  | .phase w => Sys2Proof.Machine.execPhase w s
  | .trig w => Sys2Proof.Machine.execTrig w s
  | .mma w => Sys2Proof.Machine.execMma w s
  | .mloop w => Sys2Proof.Machine.execMloop w s
  | .mzero w => Sys2Proof.Machine.execMzero w s
  | .mdrain w => Sys2Proof.Machine.execMdrain w s
  | .mstat w => Sys2Proof.Machine.execMstat w s
  | .mchk w => Sys2Proof.Machine.execMchk w s
  | .dpload w => Sys2Proof.Machine.execDpload w s
  | .launch w => Sys2Proof.Machine.execLaunch w s
  | .probe w => Sys2Proof.Machine.execProbe w s
  | .tinv w => Sys2Proof.Machine.execTinv w s
  | .trap w => Sys2Proof.Machine.execTrap w s
  | .bkpt w => Sys2Proof.Machine.execBkpt w s
  | .sysrd w => Sys2Proof.Machine.execSysrd w s
  | .syswr w => Sys2Proof.Machine.execSyswr w s
  | .drainAdd w => Sys2Proof.Machine.execDrainAdd w s
  | .drainSub w => Sys2Proof.Machine.execDrainSub w s
  | .drainMul w => Sys2Proof.Machine.execDrainMul w s
  | .drainFma w => Sys2Proof.Machine.execDrainFma w s
  | .drainMin w => Sys2Proof.Machine.execDrainMin w s
  | .drainMax w => Sys2Proof.Machine.execDrainMax w s
  | .drainAbs w => Sys2Proof.Machine.execDrainAbs w s
  | .drainNeg w => Sys2Proof.Machine.execDrainNeg w s
  | .drainMovi w => Sys2Proof.Machine.execDrainMovi w s
  | .drainLdc w => Sys2Proof.Machine.execDrainLdc w s
  | .drainLdr w => Sys2Proof.Machine.execDrainLdr w s
  | .drainTab w => Sys2Proof.Machine.execDrainTab w s
  | .drainExp2 w => Sys2Proof.Machine.execDrainExp2 w s
  | .drainRcp w => Sys2Proof.Machine.execDrainRcp w s
  | .drainClamp w => Sys2Proof.Machine.execDrainClamp w s
  | .drainRnd w => Sys2Proof.Machine.execDrainRnd w s
  | .drainCvt w => Sys2Proof.Machine.execDrainCvt w s
  | .drainQspan w => Sys2Proof.Machine.execDrainQspan w s
  | .drainSt w => Sys2Proof.Machine.execDrainSt w s
  | .drainChk w => Sys2Proof.Machine.execDrainChk w s
  | .drainSkip w => Sys2Proof.Machine.execDrainSkip w s
  | .drainSel w => Sys2Proof.Machine.execDrainSel w s
  | .drainNop w => Sys2Proof.Machine.execDrainNop w s
  | .drainEnd w => Sys2Proof.Machine.execDrainEnd w s
  | .clauseFetch => Sys2Proof.Machine.execClauseFetch s
  | .clauseIssue => Sys2Proof.Machine.execClauseIssue s
  | .leadClauseIssue => Sys2Proof.Machine.execLeadClauseIssue s
  | .registerLand => Sys2Proof.Machine.execRegisterLand s
  | .teamBarrierApply => Sys2Proof.Machine.execTeamBarrierApply s
  | .teamBarrierNotify => Sys2Proof.Machine.execTeamBarrierNotify s
  | .teamPlace => Sys2Proof.Machine.execTeamPlace s
  | .groupStart => Sys2Proof.Machine.execGroupStart s
  | .groupRetire => Sys2Proof.Machine.execGroupRetire s
  | .teamRelaunch => Sys2Proof.Machine.execTeamRelaunch s
  | .trigSignal => Sys2Proof.Machine.execTrigSignal s
  | .stopperLeave => Sys2Proof.Machine.execStopperLeave s
  | .writeDispatch => Sys2Proof.Machine.execWriteDispatch s
  | .markerReceive => Sys2Proof.Machine.execMarkerReceive s
  | .writeApply => Sys2Proof.Machine.execWriteApply s
  | .faultResolved => Sys2Proof.Machine.execFaultResolved s
  | .faultReport => Sys2Proof.Machine.execFaultReport s
  | .writeAck => Sys2Proof.Machine.execWriteAck s
  | .readAnswer => Sys2Proof.Machine.execReadAnswer s
  | .loadComplete => Sys2Proof.Machine.execLoadComplete s
  | .teamLoadServe => Sys2Proof.Machine.execTeamLoadServe s
  | .teamLoadComplete => Sys2Proof.Machine.execTeamLoadComplete s
  | .teamStoreApply => Sys2Proof.Machine.execTeamStoreApply s
  | .copyClaim => Sys2Proof.Machine.execCopyClaim s
  | .copyStreamStart => Sys2Proof.Machine.execCopyStreamStart s
  | .copyUnitDeliver => Sys2Proof.Machine.execCopyUnitDeliver s
  | .copyAck => Sys2Proof.Machine.execCopyAck s
  | .copyCancel => Sys2Proof.Machine.execCopyCancel s
  | .sequencedCopyrApply => Sys2Proof.Machine.execSequencedCopyrApply s
  | .scheduledCopyBeat => Sys2Proof.Machine.execScheduledCopyBeat s
  | .scheduledCopyEnd => Sys2Proof.Machine.execScheduledCopyEnd s
  | .requestPost => Sys2Proof.Machine.execRequestPost s
  | .passGrant => Sys2Proof.Machine.execPassGrant s
  | .passStep => Sys2Proof.Machine.execPassStep s
  | .bFetch => Sys2Proof.Machine.execBFetch s
  | .mzeroComplete => Sys2Proof.Machine.execMzeroComplete s
  | .drainStart => Sys2Proof.Machine.execDrainStart s
  | .drainRow => Sys2Proof.Machine.execDrainRow s
  | .drainWrite => Sys2Proof.Machine.execDrainWrite s
  | .passComplete => Sys2Proof.Machine.execPassComplete s
  | .reservationStart => Sys2Proof.Machine.execReservationStart s
  | .dploadWrite => Sys2Proof.Machine.execDploadWrite s
  | .walkComplete => Sys2Proof.Machine.execWalkComplete s
  | .shootdownSweep => Sys2Proof.Machine.execShootdownSweep s
  | .sweepAck => Sys2Proof.Machine.execSweepAck s
  | .shootdownComplete => Sys2Proof.Machine.execShootdownComplete s
  | .tinvcStart => Sys2Proof.Machine.execTinvcStart s
  | .ctxCreate => Sys2Proof.Machine.execCtxCreate s
  | .ctxBind => Sys2Proof.Machine.execCtxBind s
  | .ctxRun => Sys2Proof.Machine.execCtxRun s
  | .ctxFreeze => Sys2Proof.Machine.execCtxFreeze s
  | .ctxSuspend => Sys2Proof.Machine.execCtxSuspend s
  | .ctxResume => Sys2Proof.Machine.execCtxResume s
  | .ctxKill => Sys2Proof.Machine.execCtxKill s
  | .ctxReset => Sys2Proof.Machine.execCtxReset s
  | .ctxFree => Sys2Proof.Machine.execCtxFree s
  | .swapOutComplete => Sys2Proof.Machine.execSwapOutComplete s
  | .gracefulComplete => Sys2Proof.Machine.execGracefulComplete s
  | .gracefulDeadlineExpiry => Sys2Proof.Machine.execGracefulDeadlineExpiry s
  | .unitcmdRetry => Sys2Proof.Machine.execUnitcmdRetry s
  | .unitcmdSkip => Sys2Proof.Machine.execUnitcmdSkip s
  | .unitcmdRegion => Sys2Proof.Machine.execUnitcmdRegion s
  | .unitcmdKill => Sys2Proof.Machine.execUnitcmdKill s
  | .trapFinal => Sys2Proof.Machine.execTrapFinal s
  | .faultRecordWrite => Sys2Proof.Machine.execFaultRecordWrite s
  | .keycmdLoad => Sys2Proof.Machine.execKeycmdLoad s
  | .keycmdErase => Sys2Proof.Machine.execKeycmdErase s
  | .flagsClear => Sys2Proof.Machine.execFlagsClear s
  | .oorrecClear => Sys2Proof.Machine.execOorrecClear s
  | .ibdataClear => Sys2Proof.Machine.execIbdataClear s
  | .flagReachContext => Sys2Proof.Machine.execFlagReachContext s
  | .tdispLockInterface => Sys2Proof.Machine.execTdispLockInterface s
  | .tdispStartInterface => Sys2Proof.Machine.execTdispStartInterface s
  | .tdispStopInterface => Sys2Proof.Machine.execTdispStopInterface s
  | .mgmtsemAcquire => Sys2Proof.Machine.execMgmtsemAcquire s
  | .mgmtsemRelease => Sys2Proof.Machine.execMgmtsemRelease s
  | .qcfgWrite => Sys2Proof.Machine.execQcfgWrite s
  | .qcmdClear => Sys2Proof.Machine.execQcmdClear s
  | .qcmdSkip => Sys2Proof.Machine.execQcmdSkip s
  | .doorbell => Sys2Proof.Machine.execDoorbell s
  | .recordFetch => Sys2Proof.Machine.execRecordFetch s
  | .recordConsume => Sys2Proof.Machine.execRecordConsume s
  | .kernelArm => Sys2Proof.Machine.execKernelArm s
  | .kernelStart => Sys2Proof.Machine.execKernelStart s
  | .kernelRetire => Sys2Proof.Machine.execKernelRetire s
  | .laycmdLoad => Sys2Proof.Machine.execLaycmdLoad s
  | .laycmdArm => Sys2Proof.Machine.execLaycmdArm s
  | .laycmdDisarm => Sys2Proof.Machine.execLaycmdDisarm s
  | .laycmdUnload => Sys2Proof.Machine.execLaycmdUnload s
  | .layBaseTick => Sys2Proof.Machine.execLayBaseTick s
  | .periodBoundary => Sys2Proof.Machine.execPeriodBoundary s
  | .slackEvent => Sys2Proof.Machine.execSlackEvent s
  | .slackOverrun => Sys2Proof.Machine.execSlackOverrun s
  | .faultNotice => Sys2Proof.Machine.execFaultNotice s
  | .readyReport => Sys2Proof.Machine.execReadyReport s
  | .rollCallTimeout => Sys2Proof.Machine.execRollCallTimeout s
  | .restartAnnounce => Sys2Proof.Machine.execRestartAnnounce s
  | .layResume => Sys2Proof.Machine.execLayResume s
  | .originLoss => Sys2Proof.Machine.execOriginLoss s
  | .restartWaitExpiry => Sys2Proof.Machine.execRestartWaitExpiry s
  | .timeCorrection => Sys2Proof.Machine.execTimeCorrection s
  | .synclostSet => Sys2Proof.Machine.execSynclostSet s
  | .synclostClear => Sys2Proof.Machine.execSynclostClear s
  | .waittExpiry => Sys2Proof.Machine.execWaittExpiry s
  | .vc0FrameSend => Sys2Proof.Machine.execVc0FrameSend s
  | .vc0FrameWrite => Sys2Proof.Machine.execVc0FrameWrite s
  | .missingFrame => Sys2Proof.Machine.execMissingFrame s
  | .frameReceive => Sys2Proof.Machine.execFrameReceive s
  | .retryRequest => Sys2Proof.Machine.execRetryRequest s
  | .dynamicMessage => Sys2Proof.Machine.execDynamicMessage s
  | .wkcmdStage => Sys2Proof.Machine.execWkcmdStage s
  | .wkcmdErase => Sys2Proof.Machine.execWkcmdErase s
  | .keySlotActivate => Sys2Proof.Machine.execKeySlotActivate s
  | .keySlotRetire => Sys2Proof.Machine.execKeySlotRetire s
  | .laneSpareRequest => Sys2Proof.Machine.execLaneSpareRequest s
  | .laneSpare => Sys2Proof.Machine.execLaneSpare s
  | .linkEnable => Sys2Proof.Machine.execLinkEnable s
  | .trainingComplete => Sys2Proof.Machine.execTrainingComplete s
  | .laneFail => Sys2Proof.Machine.execLaneFail s
  | .linkDown => Sys2Proof.Machine.execLinkDown s
  | .strikeReport => Sys2Proof.Machine.execStrikeReport s
  | .rollbackEnd => Sys2Proof.Machine.execRollbackEnd s
  | .regionRecordFree => Sys2Proof.Machine.execRegionRecordFree s
  | .protectedMismatch => Sys2Proof.Machine.execProtectedMismatch s
  | .dualRunMismatch => Sys2Proof.Machine.execDualRunMismatch s
  | .meshRetransmit => Sys2Proof.Machine.execMeshRetransmit s
  | .homeReplay => Sys2Proof.Machine.execHomeReplay s
  | .hrepcmdGo => Sys2Proof.Machine.execHrepcmdGo s
  | .hbmLaneRepair => Sys2Proof.Machine.execHbmLaneRepair s
  | .zcntClear => Sys2Proof.Machine.execZcntClear s
  | .uecntClear => Sys2Proof.Machine.execUecntClear s
  | .poolcfgWrite => Sys2Proof.Machine.execPoolcfgWrite s
  | .operatingPointChange => Sys2Proof.Machine.execOperatingPointChange s
  | .pwrcmdBoost => Sys2Proof.Machine.execPwrcmdBoost s
  | .pwrcmdEndboost => Sys2Proof.Machine.execPwrcmdEndboost s
  | .pwrcmdOffline => Sys2Proof.Machine.execPwrcmdOffline s
  | .pwrcmdOnline => Sys2Proof.Machine.execPwrcmdOnline s
  | .boostExpiry => Sys2Proof.Machine.execBoostExpiry s
  | .powerCheck => Sys2Proof.Machine.execPowerCheck s
  | .dieQuiesce => Sys2Proof.Machine.execDieQuiesce s
  | .powerCutoff => Sys2Proof.Machine.execPowerCutoff s
  | .heartbeat => Sys2Proof.Machine.execHeartbeat s
  | .controllerTakeover => Sys2Proof.Machine.execControllerTakeover s
  | .fwcmdStage => Sys2Proof.Machine.execFwcmdStage s
  | .fwcmdActivate => Sys2Proof.Machine.execFwcmdActivate s
  | .fwcmdAbort => Sys2Proof.Machine.execFwcmdAbort s
  | .handoverTimeout => Sys2Proof.Machine.execHandoverTimeout s
  | .spdmGetMeasurements => Sys2Proof.Machine.execSpdmGetMeasurements s
  | .securityAlarm => Sys2Proof.Machine.execSecurityAlarm s
  | .powerOn => Sys2Proof.Machine.execPowerOn s
  | .registerWrite => Sys2Proof.Machine.execRegisterWrite s
  | .ownerPortLinkDown => Sys2Proof.Machine.execOwnerPortLinkDown s
  | .sysrdComplete => Sys2Proof.Machine.execSysrdComplete s
  | .scrflgComplete => Sys2Proof.Machine.execScrflgComplete s
  | .launchDelivered => Sys2Proof.Machine.execLaunchDelivered s

end Sys2Proof.Machine
end

