-- ==== Sys2Proof/Machine/Place.lean ====
section
/-! DEFINITION. How an instruction outside a run is put where the next step takes it (log 6): an instruction word as the only
position of a clause in progress, a micro-operation as the word of a drain row in progress; and the step of a drain row. -/

namespace Sys2Proof.Machine

/-- A launch parameter block with every field zero but `early`. -/
def Lpb.blank : Lpb :=
  { addr := 0, layk := 0, startat := false, pagectl := false, early := false, restart := false, dual := false, prot := false,
    det := false, sched := false, relim := 0, csetn := 0, csetbase := 0, cls := 0, kmax := 0, scrkb := 1, lanes := 31,
    tsize := 0, nx := 1, ny := 1, nz := 1, start := 0, args := 0, nshape := 0, shapes := 0, codew := 2, leadent := 0,
    warpent := 0, code := 0 }

/-- The kernel of a placed instruction: one group of one warp of 32 lanes on die 0, in context 0. -/
def placedKernel (kid : Nat) : Kernel :=
  { kid := kid, ctx := 0, q := 0, recNo := 0, lpb := Lpb.blank, shapes := [], dies := [0], state := .running, order := 0, late := false,
    nextTeam := [(0, 1)], retired := 0, trig := [], startTick := 0, lay := none, op := 0, irq := false }

/-- A header of one instruction with every class and no wait (Table 2.1). -/
def placedHeader (lead : Bool) : BitVec 64 := if lead then 0xC700800000000FF0#64 else 0xC700000000000FF0#64

/-- Put an instruction word where the next step issues it: the first position of a clause of warp 0, or of the lead stream for
LPUSH, which only lead clauses hold (R138). -/
def State.placeWord (s : State) (w : Word64) : State :=
  let id := s.nextId
  let k := placedKernel id
  let g : Group := { (newGroup k (id + 2) (id + 1) 0 0 0 0 [0] none) with state := .running, before := .running }
  let lead := opOf w == 0xD2#9
  let h := placedHeader lead
  let c := s.cyc 0 0
  let r : ClauseRun := { w0 := c, pc := 0, hdr := h, quads := if lead then 1 else 0xFF, xfer := .fall, reqs := 0 }
  let warp := newUnit s g (warpId g 0) 0 [0] 0 0xFFFFFFFF#32 0xFFFFFFFF#32 0xFF#8
  let ld := newUnit s g (leadId g) 0 [0] 0 0 0 1
  let us : List ExecUnit := if lead then [warp, { ld with clause := some r }] else [{ warp with clause := some r }, ld]
  let s := s.modCtx 0 fun x => { x with state := .running }
  let slot : Due := .slot (if lead then leadId g else warpId g 0) 0
  { s with
    halted := none, row := none, nextId := id + 3, kernels := k :: s.kernels, groups := g :: s.groups
    teams := newTeam (id + 2) k 0 0 :: s.teams
    units := us ++ s.units.filter fun x => !(us.any fun y => y.id = x.id)
    code := (s.code.writeN (codeAddr id 0) h.toNat 8).writeN (codeAddr id 8) w.toNat 8
    agenda := { at' := s.now, phase := 9, due := slot } :: s.agenda }

/-- Put a micro-operation where the next step runs it: the current word of a row of the engine of die 0, quartet 0. -/
def State.placeUop (s : State) (w : Word32) : State :=
  { s with
    halted := none
    row := some { die := 0, q := 0, row := 0, w := 0, last := 15, x := [], skip := [], span := [], spanCfg := none,
                  chk := none, stores := [], flags := 0, word := w, bad := false } }

/-- A row in progress holds a word that is no micro-operation, which a valid program has none of (R278): the row ends. -/
def dropRow (s : State) : State := { s with row := none }

end Sys2Proof.Machine
end

