-- ==== Sys2Proof/Machine/Step.lean ====
section
/-! DEFINITION. One step of the module, and where an instruction is placed so that the very next step runs it. -/

namespace Sys2Proof.Machine

/-- Run `k` on the state an instruction leaves. -/
def andThen (o : Host.Outcome State Fault Refusal) (k : State → State) : Host.Outcome State Fault Refusal :=
  match o with
  | .next s => .next (k s)
  | .fault f => .fault f
  | .refused r => .refused r

/-- The issue of a slot: the word is decoded and runs; a word that does not decode traps (R46). -/
def stepSlot (s : State) (u : UnitId) (idx : Nat) : Host.Outcome State Fault Refusal :=
  match slotWord s u idx with
  | none => .next s
  | some (w, s1) =>
    match decode w with
    | .error sub => .next (slotDone (slotIllegal s1 sub w))
    | .ok i => andThen (exec i s1) slotDone

/-- One micro-operation of the drain row in progress (R272). -/
def stepRow (s : State) (r : RowRun) : Host.Outcome State Fault Refusal :=
  match decodeUop r.word with
  | none => .next (dropRow s)
  | some i => exec i s

/-- Does it happen in a module without power: only a bring-up does (R401, R407)? -/
def Due.bringsUp (d : Due) : Bool := match d with | .ev .powerOn _ => true | _ => false

/-- One entry of the agenda; without power nothing happens but a bring-up. -/
def stepDue (s : State) (d : Due) : Host.Outcome State Fault Refusal :=
  if !s.powered && !d.bringsUp then .next s
  else match d with
  | .ev i a => exec i { s with arg := a }
  | .slot u idx => stepSlot s u idx

/-- The earliest entry of the agenda; with nothing due, time passes by one tick. -/
def stepAgenda (s : State) : Host.Outcome State Fault Refusal :=
  match s.agenda with
  | [] => .next { s with now := s.now + Config.unitsPerTick }
  | a :: rest => stepDue { s with agenda := rest, now := max s.now a.at' } a.due

/-- One step: the next micro-operation of a drain row in progress, else the earliest entry of the agenda. -/
def step (s : State) : Host.Outcome State Fault Refusal :=
  match s.halted with
  | some f => .fault f
  | none =>
    match s.row with
    | some r => stepRow s r
    | none => stepAgenda s

/-- `s` with an instruction of `nbits` bits `w`, laid out as the hardware stores it, where `step` takes its next
instruction (log 6). -/
def State.withFetchWord (s : State) (nbits w : Nat) : State :=
  if nbits ≤ 32 then s.placeUop (BitVec.ofNat 32 (ofLeBytes (leBytes 4 w)))
  else s.placeWord (BitVec.ofNat 64 (ofLeBytes (leBytes 8 w)))

end Sys2Proof.Machine
end

