-- ==== Sys2Proof/Safety.lean ====
section
/-! DEFINITION. What the statements about the machine are said in: a machine that runs, the canonical form of its
memories, its fixed arrays, and what an instruction leaves as it was. -/

namespace Sys2Proof.Machine

/-- A run of `n` steps from `s` that neither faults nor is refused. -/
def Runs (n : Nat) (s : State) : Prop := ∃ t, Sys2Proof.core.run n s = .next t

/-- Every byte memory is in its one canonical form (log 3). -/
def State.memWf (s : State) : Prop :=
  s.hbm.wf = true ∧ s.hostMem.wf = true ∧ s.scratch.wf = true ∧ s.code.wf = true

/-- The module has 16 dies and 4 lay slots (R10, Table 18.4). -/
def State.shaped (s : State) : Prop := s.dies.length = 16 ∧ s.lays.length = 4

/-- Only pending writes have been added, with their landings: every register, memory byte, unit, group, operation and
control register is as it was. -/
def OnlyPending (s t : State) : Prop := t = { s with pend := t.pend, agenda := t.agenda }

/-- Every byte of HBM4, host memory, scratch and code store reads as before. -/
def SameMemory (s t : State) : Prop :=
  ∀ a, t.hbm.read a = s.hbm.read a ∧ t.hostMem.read a = s.hostMem.read a ∧ t.scratch.read a = s.scratch.read a ∧
    t.code.read a = s.code.read a

/-- Every register of every unit reads as before: what has not landed is not read. -/
def SameRegisters (s t : State) : Prop :=
  t.vreg = s.vreg ∧ t.sreg = s.sreg ∧ t.preg = s.preg ∧ t.greg = s.greg

/-- Every system register reads as before: contexts, queues, lays, links, dies' control, zones, power and management. -/
def SameSystem (s t : State) : Prop :=
  t.ctxs = s.ctxs ∧ t.queues = s.queues ∧ t.lays = s.lays ∧ t.links = s.links ∧ t.zones = s.zones ∧ t.mgmtOwner = s.mgmtOwner ∧
    t.podmask = s.podmask ∧ t.modl = s.modl ∧ t.poolcfg = s.poolcfg ∧ t.plimit = s.plimit ∧ t.flash = s.flash

/-- The write that is waiting for this place, value and cycle. -/
def Waits (t : State) (u : UnitId) (f : RFile) (r l : Nat) (v : Word64) (c : Nat) : Prop :=
  ∃ w ∈ t.pend, w.u = u ∧ w.file = f ∧ w.reg = r ∧ w.lane = l ∧ w.val = v ∧ w.land = c

/-- Instruction `i` is in an instruction slot of unit `c.u`, passes every decode check (R46), and reads no uncorrectable
register (R53, R392). -/
def Issuing (s : State) (c : Cur) (i : Instr) : Prop :=
  s.cur = some c ∧ decodeCheck s c i = none ∧ sourcePoisoned s c i = false

/-! ### Results of fixed latency -/

/-- A result of lane `l` waits in field `d` for cycle issue + `lat` (R40, R54, R62): the low half in a V register and the
high half of a 64-bit result in the next one, the whole register of a uniform field, the bit of a predicate; ZERO and 0xFF
take nothing. -/
def Lands (t : State) (c : Cur) (d l : Nat) (wide : Bool) (v : Word64) (lat : Nat) : Prop :=
  if isV c.u.lead d then
    Waits t c.u .v d l (v &&& 0xFFFFFFFF#64) (c.cycle + lat) ∧
      (wide = true → Waits t c.u .v (d + 1) l (v >>> 32) (c.cycle + lat))
  else if isS c.u.lead d then
    Waits t c.u (if c.u.lead then .g else .s) (if c.u.lead then d else d - 0x80) 0
      (if wide then v else v &&& 0xFFFFFFFF#64) (c.cycle + lat)
  else if isP d then Waits t c.u .p (d - 0xA0) (if c.u.lead then 0 else l) v (c.cycle + lat)
  else True

/-- What an instruction of groups 0 to 2 leaves (R59-R61, R65): a uniform form runs once, under the guard of a lead stream;
a lane-wise form lands `f l` in every lane that computes; nothing else changes. -/
def ResultIn (s t : State) (c : Cur) (g : Guard) (fields : List Nat) (d : Nat) (wide : Bool) (lat : Nat)
    (f : Nat → Word64) : Prop :=
  OnlyPending s t ∧
    if uniform c.u.lead (d :: fields) then
      if c.u.lead && !guardLead s c.u g then t = s else Lands t c d 0 wide (f 0) lat
    else ∀ l, l < 32 → laneCompute s c g l = true → Lands t c d l wide (f l) lat

/-- A 64-bit result in a V field fills a register pair (R40, R62). -/
def pairOf (lead : Bool) (d : Nat) (wide : Bool) : List Nat := if wide && isV lead d then [d, d + 1] else [d]

/-- The fields that an instruction of fixed latency lands results in. -/
def resultFields (lead : Bool) : Instr → List Nat
  | .iadd w | .isub w | .imul w | .imulh w | .imad w | .imin w | .imax w | .iabs w | .ineg w | .and w | .or w | .xor w
  | .andn w | .not w | .shl w | .shr w | .sar w | .rotl w | .popc w | .clz w | .ffs w | .brev w | .sel w | .mov w
  | .wrlane w => pairOf lead w.d.toNat (isWide w.ty.toNat)
  | .iaddc w => pairOf lead w.d.toNat (isWide w.ty.toNat) ++ (if w.md.toNat % 8 = 0 then [] else [0xA0 + w.md.toNat % 8])
  | .lea w | .unpk w => pairOf lead w.d.toNat true
  | .movhi w => pairOf lead w.d.toNat true
  | .iaddi w => pairOf lead w.d.toNat (w.md.getLsbD 0)
  | .movi w | .imuli w | .andi w | .ori w | .xori w | .icmpi w => [w.d.toNat]
  | .bfe w | .bfi w | .icmp w | .plop w | .fadd w | .fsub w | .fmul w | .ffma w | .fmin w | .fmax w | .fabs w | .fneg w
  | .fcmp w | .frnd w | .fclass w | .fscale w | .fdot2 w | .dot4 w | .cvtf w | .cvti w | .cvtfi w | .pack2 w | .pack4 w
  | .qdesc w | .frcp w | .frsq w | .fsqrt w | .fexp2 w | .flog2 w | .fsin w | .fcos w | .ftanh w | .qswph w | .qswpv w
  | .qswpd w | .qbc w | .shfl w | .shflu w | .shfld w | .shflx w | .vote w | .ballot w | .matchLanes w | .lpopc w
  | .rdlane w | .wreduce w | .wscan w | .xmov w | .barst w | .krd w => [w.d.toNat]
  | .qnt w => [w.d.toNat, w.c.toNat]
  | .dqnt w => (List.range (if w.ty.toNat = 8 then 4 else 2)).map fun i => w.d.toNat + i
  | _ => []

/-- Cycles from issue to the landing of a result of fixed latency (Table 3.2; R171). -/
def fixedLatency : Instr → Option Nat
  | .iadd _ | .isub _ | .imul _ | .imulh _ | .imad _ | .imin _ | .imax _ | .iaddc _ | .iabs _ | .ineg _ | .and _ | .or _
  | .xor _ | .andn _ | .not _ | .shl _ | .shr _ | .sar _ | .rotl _ | .bfe _ | .bfi _ | .popc _ | .clz _ | .ffs _ | .brev _
  | .icmp _ | .sel _ | .mov _ | .movi _ | .movhi _ | .lea _ | .iaddi _ | .imuli _ | .andi _ | .ori _ | .xori _ | .icmpi _
  | .plop _ | .qswph _ | .qswpv _ | .qswpd _ | .qbc _ | .barst _ | .krd _ => some 4
  | .fadd _ | .fsub _ | .fmul _ | .ffma _ | .fmin _ | .fmax _ | .fabs _ | .fneg _ | .fcmp _ | .frnd _ | .fclass _
  | .fscale _ | .fdot2 _ | .dot4 _ => some 6
  | .cvtf _ | .cvti _ | .cvtfi _ | .pack2 _ | .pack4 _ | .unpk _ | .qdesc _ | .shfl _ | .shflu _ | .shfld _ | .shflx _
  | .vote _ | .ballot _ | .matchLanes _ | .lpopc _ | .rdlane _ | .wrlane _ | .xmov _ => some 8
  | .qnt _ | .dqnt _ => some 12
  | .frcp _ | .frsq _ | .fsqrt _ | .fexp2 _ | .flog2 _ | .fsin _ | .fcos _ | .ftanh _ => some 16
  | .wreduce _ | .wscan _ => some 20
  | _ => none

/-- Is the pending write one to field `r` of unit `u`? -/
def PendW.inField (w : PendW) (lead : Bool) (r : Nat) : Bool :=
  if isV lead r then w.file == .v && w.reg == r
  else if isS lead r then (if lead then w.file == .g && w.reg == r else w.file == .s && w.reg == r - 0x80)
  else if isP r then w.file == .p && w.reg == r - 0xA0
  else false

/-! ### Values of floating-point, conversion and quantise instructions -/

/-- Two magnitudes n·2^e and m·2^k are equal. -/
def SameMag (n : Nat) (e : Int) (m : Nat) (k : Int) : Prop := n * 2 ^ (e - min e k).toNat = m * 2 ^ (k - min e k).toNat

/-- `r`, a pattern and flags, is the exact value (-1)^neg · n · 2^e rounded once (R82-R85). -/
def Rounds (f : Fmt) (rm : Nat) (st neg : Bool) (n : Nat) (e : Int) (r : Nat × Nat) : Prop :=
  ∃ m k, SameMag n e m k ∧ r = roundTo f rm st neg m k false

/-- A pattern with a sign. -/
def Fmt.signed (f : Fmt) (neg : Bool) (p : Nat) : Nat := p + if neg then f.sbit else 0

/-- A finite value as a signed multiple of 2^q. -/
def FV.scaled (q : Int) : FV → Int
  | .fin n m e => (if n then -1 else 1) * ((m * 2 ^ (e - q).toNat : Nat) : Int)
  | _ => 0

/-- `r` is the sum of the exact terms `ts` (Table 5.2, R93, R105): invalid and NaN for a product 0 · ∞ (`bad`) and for opposite
infinities, else NaN for a NaN, else an infinity, else the exact sum rounded once; a zero sum is -0 when every term is -0, +0
when every term is +0, and else -0 in RD alone. -/
def SumGives (f : Fmt) (rm : Nat) (st : Bool) (ts : List FV) (bad : Bool) (r : Nat × Nat) : Prop :=
  let inv : Prop := bad = true ∨ (FV.inf false ∈ ts ∧ FV.inf true ∈ ts)
  let neg : Bool := if ts.all FV.isZero && ts.all FV.neg then true
    else if ts.all FV.isZero && ts.all (fun t => !t.neg) then false else rm == 3
  (inv → r = (f.nan, flInvalid)) ∧
  (¬inv → FV.nan ∈ ts → r = (f.nan, 0)) ∧
  (¬inv → FV.nan ∉ ts → ∀ n, FV.inf n ∈ ts → r = (f.signed n f.infPat, 0)) ∧
  ((∀ t ∈ ts, ∃ n m e, t = .fin n m e) → bad = false → ∀ q : Int, (∀ n m e, FV.fin n m e ∈ ts → q ≤ e) →
    let x : Int := (ts.map (FV.scaled q)).sum
    (x ≠ 0 → Rounds f rm st (decide (x < 0)) x.natAbs q r) ∧ (x = 0 → r = (f.signed neg 0, 0)))

/-- `r` is the product of two values (Table 5.2, FMUL). -/
def MulGives (f : Fmt) (rm : Nat) (st : Bool) (x y : FV) (r : Nat × Nat) : Prop :=
  (x = .nan ∨ y = .nan → r = (f.nan, 0)) ∧
  (∀ a b m e, (x = .inf a ∧ y = .fin b m e) ∨ (y = .inf a ∧ x = .fin b m e) →
    r = if m = 0 then (f.nan, flInvalid) else (f.signed (a != b) f.infPat, 0)) ∧
  (∀ a b, x = .inf a → y = .inf b → r = (f.signed (a != b) f.infPat, 0)) ∧
  ∀ a m e b n k, x = .fin a m e → y = .fin b n k → Rounds f rm st (a != b) (m * n) (e + k) r

/-- `r` is a · b + c, rounded once (Table 5.2, FFMA): any NaN operand hides an invalid product. -/
def FmaGives (f : Fmt) (rm : Nat) (st : Bool) (x y z : FV) (r : Nat × Nat) : Prop :=
  (x = .nan ∨ y = .nan ∨ z = .nan → r = (f.nan, 0)) ∧
  (x ≠ .nan → y ≠ .nan → z ≠ .nan → SumGives f rm st [(x.mul y).1, z] (x.mul y).2 r)

/-- `r` is the smaller, or the larger, of the patterns `a` and `b`, -0 below +0; one NaN gives the other operand (R100). -/
def MinMaxGives (f : Fmt) (larger : Bool) (a b r : Nat) : Prop :=
  let x := f.value a
  let y := f.value b
  (x = .nan → y = .nan → r = f.nan) ∧ (x = .nan → y ≠ .nan → r = b) ∧ (x ≠ .nan → y = .nan → r = a) ∧
  (x ≠ .nan → y ≠ .nan → (r = a ∨ r = b) ∧ ∀ v, v = x ∨ v = y →
    (if larger then FV.less true (f.value r) v else FV.less true v (f.value r)) = false)

/-- `k` is the magnitude of (-1)^neg · m · 2^e rounded to an integer by a mode (R82). -/
def RoundsInt (rm : Nat) (neg : Bool) (m : Nat) (e : Int) (k : Nat) : Prop :=
  let d := 2 ^ (-e).toNat
  if 0 ≤ e then k = m * 2 ^ e.toNat
  else if rm = 0 then 2 * (k * d) ≤ 2 * m + d ∧ 2 * m ≤ 2 * (k * d) + d ∧
    (2 * (k * d) = 2 * m + d ∨ 2 * m = 2 * (k * d) + d → k % 2 = 0)
  else if rm = 1 ∨ (rm = 2 ∧ neg = true) ∨ (rm = 3 ∧ neg = false) then k = m / d
  else k = (m + d - 1) / d

/-- A finite value is an integer. -/
def Integral (m : Nat) (e : Int) : Prop := 0 ≤ e ∨ m % 2 ^ (-e).toNat = 0

/-- `r` is the pattern `a` rounded to an integral value of its format (R102). -/
def RndGives (f : Fmt) (rm : Nat) (a : Nat) (r : Nat × Nat) : Prop :=
  (f.value a = .nan → r = (f.nan, 0)) ∧ (∀ n, f.value a = .inf n → r = (a, 0)) ∧
  ∀ n m e, f.value a = .fin n m e → (Integral m e → r = (a, 0)) ∧
    (¬Integral m e → ∃ k, RoundsInt rm n m e k ∧ r = ((roundTo f rm false n k 0 false).1, flInexact))

/-- `r` is the value of the pattern `a` converted into a format (Table 5.3). -/
def CvtGives (fs fd : Fmt) (rm : Nat) (st : Bool) (a : Nat) (r : Nat × Nat) : Prop :=
  (fs.value a = .nan → r = (fd.nan, 0)) ∧
  (∀ n, fs.value a = .inf n → r = if st then (fd.signed n fd.maxPat, flInexact)
    else if fd.fin then (fd.nan, flInvalid) else (fd.signed n fd.infPat, 0)) ∧
  ∀ n m e, fs.value a = .fin n m e → Rounds fd rm st n m e r

/-- `r` is the value of the pattern `a` converted to an integer of a range, saturating (R108). -/
def ToIntGives (fs : Fmt) (rm : Nat) (lo hi : Int) (a : Nat) (r : Int × Nat) : Prop :=
  (fs.value a = .nan → r = (0, flInvalid)) ∧ (∀ n, fs.value a = .inf n → r = (if n then lo else hi, flInvalid)) ∧
  ∀ n m e, fs.value a = .fin n m e → ∃ k, RoundsInt rm n m e k ∧
    let x : Int := if n then -(k : Int) else k
    (x < lo → r = (lo, flInvalid)) ∧ (hi < x → r = (hi, flInvalid)) ∧
    (lo ≤ x → x ≤ hi → (Integral m e → r = (x, 0)) ∧ (¬Integral m e → r = (x, flInexact)))

/-- `r` is the F32 pattern of exactly the value of the pattern `a` (R110). -/
def WidensTo (f : Fmt) (a r : Nat) : Prop :=
  r < 2 ^ 32 ∧ (f.value a = .nan → r = F32.nan) ∧ (∀ n, f.value a = .inf n → r = F32.signed n F32.infPat) ∧
  ∀ n m e, f.value a = .fin n m e → ∃ k j, F32.value r = .fin n k j ∧ SameMag m e k j

/-- The special inputs of a transcendental (Table 5.4): NaN, ±0, +∞ and -∞. -/
def SpecialInputs (a : Nat) (zero : Bool → Nat) (pinf ninf r : Nat × Nat) : Prop :=
  (F32.value a = .nan → r = (F32.nan, 0)) ∧ (F32.value a = .inf false → r = pinf) ∧ (F32.value a = .inf true → r = ninf) ∧
  ∀ n e, F32.value a = .fin n 0 e → r = (zero n, 0)

/-- `r` is 1/x: the exact quotient, enclosed by M·2^E and (M+1)·2^E, rounded once. -/
def RcpGives (rm : Nat) (st : Bool) (a : Nat) (r : Nat × Nat) : Prop :=
  SpecialInputs a (fun n => F32.signed n F32.infPat) (0, 0) (F32.sbit, 0) r ∧
  ∀ n m e, F32.value a = .fin n m e → m ≠ 0 → ∃ (M k : Nat), 2 ^ 26 ≤ M ∧ M * m ≤ 2 ^ k ∧ 2 ^ k < (M + 1) * m ∧
    r = roundTo F32 rm st n M (-(k : Int) - e) (decide (M * m ≠ 2 ^ k))

/-- `r` is 2^x (Table 5.4): exact for an integer x, inexact and positive otherwise. -/
def Exp2Gives (rm : Nat) (st : Bool) (a : Nat) (r : Nat × Nat) : Prop :=
  SpecialInputs a (fun _ => 0x3F800000) (F32.infPat, 0) (0, 0) r ∧
  ∀ n m e, F32.value a = .fin n m e → m ≠ 0 →
    (Integral m e → ∀ k, RoundsInt 1 n m e k → r = roundTo F32 rm st false 1 (if n then -(k : Int) else k) false) ∧
    (¬Integral m e → r.2.testBit 0 = true ∧ r.1 < 2 ^ 31)

/-- Flags `fl` are raised with the results (R97): one raise of them, and no other, or none. -/
def Raises (s t : State) (c : Cur) (lat fl : Nat) : Prop :=
  (∀ p ∈ t.pend, p.file = .flags → p ∈ s.pend ∨
    (fl ≠ 0 ∧ p.u = c.u ∧ p.val = BitVec.ofNat 64 fl ∧ p.land = c.cycle + lat)) ∧
  (fl ≠ 0 → ∃ p ∈ t.pend, p.file = .flags ∧ p.u = c.u ∧ p.val = BitVec.ofNat 64 fl ∧ p.land = c.cycle + lat)

/-- The OR of the flags of lanes. -/
def orAll (ls : List Nat) (fl : Nat → Nat) : Nat := ls.foldl (fun a l => flOr a (fl l)) 0

/-- An instruction of groups 1 and 2 lands the results `r`, pattern and flags of each lane, and raises the flags: those of its
single result, or the OR of its active lanes', the shadow lanes of protected mode excepted (R65, R97). -/
def FloatIn (s t : State) (c : Cur) (g : Guard) (fields : List Nat) (d : Nat) (wide : Bool) (lat : Nat)
    (r : Nat → Nat × Nat) : Prop :=
  ResultIn s t c g fields d wide lat (fun l => BitVec.ofNat 64 (r l).1) ∧
  Raises s t c lat (if uniform c.u.lead (d :: fields) then (if c.u.lead && !guardLead s c.u g then 0 else (r 0).2)
    else orAll (realLanes s c g) fun l => (r l).2)

/-- The elements of an element-wise instruction: both halves of a packed type, else the one value (R81, R95). `G` says of every
lane and element what the result is; the function it takes gives the element of an operand field. -/
def Elementwise (s t : State) (c : Cur) (w : RF) (srcs : List (BitVec 8)) (lat : Nat)
    (G : Fmt → (BitVec 8 → Nat) → Nat × Nat → Prop) : Prop :=
  let f := fmtOf w.ty.toNat
  let two : Bool := w.ty.toNat == 11 || w.ty.toNat == 12
  ∃ r : Nat → Nat → Nat × Nat,
    (∀ l i, i < (if two then 2 else 1) → G f (fun x => elem f.width (readField s c x.toNat l false) i) (r l i)) ∧
    FloatIn s t c w.g (srcs.map (·.toNat)) w.d.toNat false lat fun l =>
      if two then ((r l 0).1 + 65536 * (r l 1).1, flOr (r l 0).2 (r l 1).2) else r l 0

/-! ### What a statement about one instruction concludes -/

/-- Instruction `i`, issuing, answers a next state of which `P` holds. -/
def Completes (i : Instr) (P : State → Cur → State → Prop) : Prop :=
  ∀ s c, Issuing s c i → ∃ t, exec i s = .next t ∧ P s c t

/-- The low `w` bits that a type keeps of a result. -/
def trunc (ty : Nat) (x : Word64) : Word64 := if isWide ty then x else x &&& 0xFFFFFFFF#64

/-- Operand field `r` of lane `l` at the width of a type. -/
def rd (s : State) (c : Cur) (ty r l : Nat) : Word64 := readField s c r l (isWide ty)

/-- The integer that a pattern stands for: two's complement for I32 and I64, unsigned for the others (R64, R80). -/
def asInt (ty : Nat) (x : Word64) : Int :=
  if ty = 2 then (x.setWidth 32).toInt else if ty = 4 then x.toInt
  else if isWide ty then (x.toNat : Int) else ((x.setWidth 32).toNat : Int)

/-- The result of R66 for the exact value `x`: Sat to the range of the type, or its low bits. -/
def r66 (ty : Nat) (sat : Bool) (x : Int) : Word64 :=
  let w : Nat := if isWide ty then 64 else 32
  let lo : Int := if ty = 2 ∨ ty = 4 then -2 ^ (w - 1) else 0
  let hi : Int := if ty = 2 ∨ ty = 4 then 2 ^ (w - 1) - 1 else 2 ^ w - 1
  trunc ty (BitVec.ofInt 64 (if sat && x < lo then lo else if sat && hi < x then hi else x))

/-! ### Operations that an instruction leaves running -/

/-- The increment of counter `k` that a counted operation makes at its issue (R170). -/
def countUp (c : Cur) (k : Nat) : KChange :=
  { cyc := c.cycle, k := k, set := none, delta := 1, u := c.u, issue := c.cycle, instr := false }

/-- The instruction has started the operation numbered `s.nextId`, of which `P` holds; its counter has risen at issue; no
register, byte of memory or pending write has changed. -/
def Started (s t : State) (c : Cur) (kind : OpKind) (P : Op → Prop) : Prop :=
  SameMemory s t ∧ SameRegisters s t ∧ t.pend = s.pend ∧
    ∃ o ∈ t.ops, o.id = s.nextId ∧ o.u = c.u ∧ o.kind = kind ∧ o.issue = c.cycle ∧ o.pc = c.pc ∧ P o ∧
      ∀ k g, o.k = some k → s.groupOf c.u = some g →
        ∃ g', t.group? g.gid = some g' ∧ g'.kLog = insertK (countUp c k) g.kLog

/-- The instruction has put the operation into the stopper: it is held and leaves D = 384 cycles after issue (R195,
R197). -/
def HeldBy (s t : State) (c : Cur) (kind : OpKind) (P : Op → Prop) : Prop :=
  Started s t c kind (fun o => o.stage = .held ∧ o.leave = c.cycle + 384 ∧ P o) ∧
    ∃ e ∈ t.agenda, e.due = ev .stopperLeave [s.nextId]

/-- The unit's next stopper entry is a new one: no entry that a rollback kept stands for it (R385). -/
def NewEntry (s : State) (c : Cur) : Prop := ∃ x, s.unit? c.u = some x ∧ x.keepEnter ≤ x.nEnter ∧ x.keepCpy ≤ x.nCpy

/-- Every active lane's address is a multiple of the access size. -/
def Aligned (s : State) (c : Cur) (g : Guard) (ad : Nat → Nat) (n : Nat) : Prop :=
  ∀ l, laneActive s c g l = true → l < 32 → ad l % n = 0

/-- The instruction has trapped: its unit is stopped with this trap and its clause taken aside; no memory, register or
pending write has changed (R310). -/
def Trapped (s t : State) (c : Cur) (kind : Nat) (P : Stop → Prop) : Prop :=
  t = { s with units := t.units, groups := t.groups, agenda := t.agenda } ∧
    ∀ x, s.unit? c.u = some x → ∃ y p, t.unit? c.u = some y ∧ y.stop = some p ∧ y.clause = none ∧ p.clause = x.clause ∧
      p.kind = kind ∧ p.cycle = c.cycle ∧ p.pc = c.pc ∧ p.final = false ∧ P p

/-- Group control instructions act always in a warp clause and by their guard in a lead clause (R61, R171). -/
def Acts (s : State) (c : Cur) (g : Guard) : Prop := c.u.lead = true → guardLane s c.u g 0 = true

/-- The bytes of a core's scratch that an access of `n` bytes at address `a` touches. -/
def Touches (c : Cur) (a n x : Nat) : Prop :=
  scrAddr c.u.die c.u.core (a % 2 ^ 19) ≤ x ∧ x < scrAddr c.u.die c.u.core (a % 2 ^ 19) + n

/-- The registers of a lane that take `n` bytes, lowest address first (R189, R218): one for up to 4 bytes, two for 8, four for
16. -/
def LandsBytes (t : State) (c : Cur) (d l n v lat : Nat) : Prop :=
  ∀ j, j < (if n = 16 then 4 else if n = 8 then 2 else 1) → isV c.u.lead d = true → isV c.u.lead (d + j) = true →
    Waits t c.u .v (d + j) l (BitVec.ofNat 64 (v / 2 ^ (32 * j) % 2 ^ 32)) (c.cycle + lat)

/-! ### Events -/

/-- Event `i` of a state answers a next state of which `P` holds. -/
def Does (i : Instr) (s : State) (P : State → Prop) : Prop := ∃ t, exec i s = .next t ∧ P t

/-- The record is there, and `P` holds of it. -/
def Has {α : Type} (o : Option α) (P : α → Prop) : Prop := ∃ x, o = some x ∧ P x

/-- What LAYST's pending cause becomes when a schedule fault of cause `c` is raised: a fallback cause of the instant stays (R356). -/
def faultCause (old c : Nat) : Nat := if old = 7 ∨ old = 8 then old else c

/-- An event is in the agenda. -/
def Due' (t : State) (d : Due) : Prop := ∃ a ∈ t.agenda, a.due = d

/-- Operation `o` has completed at cycle `cyc` of its unit: it is done, its counter falls once and its lanes' results wait
to land (R170, R218); an operation whose issuing side a restart took gives neither (R157). -/
def Finished (s t : State) (o : Op) (cyc : Nat) : Prop :=
  let c : Cur := landCur o.u cyc
  Has (t.op? o.id) (fun z => z.stage = .done) ∧
    (o.kdone = false →
      (∀ k x g, o.k = some k → s.unit? o.u = some x → s.group? x.gid = some g →
        Has (t.group? g.gid) fun h => ∃ e ∈ h.kLog, e.k = k ∧ e.delta = -1 ∧ e.cyc = cyc) ∧
      ∀ l ∈ o.lanes, LandsBytes t c o.dest l.lane o.size l.res 0 ∧
        (isS o.u.lead o.dest = true → Lands t c o.dest 0 true (BitVec.ofNat 64 l.res) 0))

/-- The state in which home `h` judges a request: its frontier is brought up to date (R212, R213). -/
def Judged (s : State) (h : Nat) : State := if h < 16 then s.updFrontier h else s

/-- Operation `o` is the one of its number. -/
def Only (s : State) (o : Op) : Prop := (s.ops.filter fun p => p.id == o.id) = [o]

/-- Unit `x` is the one of its identity. -/
def Alone (s : State) (x : ExecUnit) : Prop := (s.units.filter fun y => y.id == x.id) = [x]

/-- An uncorrectable error with source `src` is consumed by unit `u` of group `g` (R392): it is counted, a record of kind 14
is held, and the team of the group is killed. -/
def Consumed (s t : State) (u : UnitId) (g : Group) (src : Nat) : Prop :=
  t.uecnt = (if s.uecnt % 2 ^ 32 = 2 ^ 32 - 1 then s.uecnt else s.uecnt + 1) ∧
  (u.die < s.dies.length → ∃ r ∈ (t.die u.die).hold, r.kind = 14 ∧ r.sub = src ∧ r.ctx = g.ctx ∧ r.async = true) ∧
  ∀ m, s.team? g.tid = some m → m.state ≠ .killed → m.state ≠ .retired → Has (t.team? g.tid) fun n => n.state = .killed

end Sys2Proof.Machine
end

