-- ==== Sys2Proof/WellFormed.lean ====
section
/-! DEFINITION. Well-formed instructions: those that have words, with the context-free legality that every clause
demands of them (R32, R38, R42, R270). What depends on the clause or the group is in Machine/Checks. -/

namespace Sys2Proof

/-- PRD = 0 has PNG = 0 (R38). -/
def Guard.wf (g : Guard) : Bool := g.prd != 0 || g.png == 0

/-- A type code that is assigned (R42). -/
def tyWf (t : BitVec 5) : Bool := t.toNat ≤ 16

/-- Format R: guard and type code. -/
def RF.wf (f : RF) : Bool := f.g.wf && tyWf f.ty
/-- Format I: guard. -/
def IF.wf (f : IF) : Bool := f.g.wf
/-- Format M: guard and the assigned SZ, ORD and SCO codes (R32); plain ordering carries no scope. -/
def MF.wf (f : MF) : Bool :=
  f.g.wf && f.sz.toNat ≤ 4 && f.ord.toNat ≤ 4 && f.sco.toNat ≤ 4 && (f.ord != 0 || f.sco == 0)
/-- Format B: guard. -/
def BF.wf (f : BF) : Bool := f.g.wf
/-- COPY and COPYR: guard, type code, no barrier without BEN (Table 11.4). -/
def CopyF.wf (f : CopyF) : Bool := f.g.wf && tyWf f.ty && (f.ben == 1 || f.bar == 0)
/-- CPYST: guard, scope, no barrier without BEN (R239). -/
def CpystF.wf (f : CpystF) : Bool := f.g.wf && f.sco.toNat ≤ 4 && (f.ben == 1 || f.bar == 0)
/-- CPYCAN: guard and the unused register fields (R240). -/
def CpycanF.wf (f : CpycanF) : Bool := f.g.wf && f.n1 == 0xFF && f.n2 == 0xFF && f.n3 == 0xFF
/-- Engine requests: guard, type code, bit 39, no barrier without BEN (Table 12.3). -/
def ReqF.wf (f : ReqF) : Bool := f.g.wf && tyWf f.ty && f.z39 == 0 && (f.ben == 1 || f.bar == 0)
/-- MSTAT and MCHK: guard and selector (R265). -/
def MstatF.wf (f : MstatF) : Bool := f.g.wf && f.sel != 3
/-- DPLOAD: guard, unused field, no barrier without BEN (Table 13.5). -/
def DploadF.wf (f : DploadF) : Bool := f.g.wf && f.nul == 0xFF && (f.ben == 1 || f.bar == 0)
/-- LAUNCH: guard. -/
def LaunchF.wf (f : LaunchF) : Bool := f.g.wf
/-- RATOM: guard, type code, ordering code (Table 19.9). -/
def RatomF.wf (f : RatomF) : Bool := f.g.wf && tyWf f.ty && f.ord.toNat ≤ 4

/-- A well-formed instruction: it has words and its context-free fields are legal. Events have no words. -/
def Instr.wf : Instr → Bool
  | .iadd w => w.wf
  | .isub w => w.wf
  | .imul w => w.wf
  | .imulh w => w.wf
  | .imad w => w.wf
  | .imin w => w.wf
  | .imax w => w.wf
  | .iaddc w => w.wf
  | .iabs w => w.wf
  | .ineg w => w.wf
  | .and w => w.wf
  | .or w => w.wf
  | .xor w => w.wf
  | .andn w => w.wf
  | .not w => w.wf
  | .shl w => w.wf
  | .shr w => w.wf
  | .sar w => w.wf
  | .rotl w => w.wf
  | .bfe w => w.wf
  | .bfi w => w.wf
  | .popc w => w.wf
  | .clz w => w.wf
  | .ffs w => w.wf
  | .brev w => w.wf
  | .icmp w => w.wf
  | .sel w => w.wf
  | .mov w => w.wf
  | .movi w => w.wf
  | .movhi w => w.wf
  | .lea w => w.wf
  | .iaddi w => w.wf
  | .imuli w => w.wf
  | .andi w => w.wf
  | .ori w => w.wf
  | .xori w => w.wf
  | .icmpi w => w.wf
  | .plop w => w.wf
  | .fadd w => w.wf
  | .fsub w => w.wf
  | .fmul w => w.wf
  | .ffma w => w.wf
  | .fmin w => w.wf
  | .fmax w => w.wf
  | .fabs w => w.wf
  | .fneg w => w.wf
  | .fcmp w => w.wf
  | .frnd w => w.wf
  | .fclass w => w.wf
  | .fscale w => w.wf
  | .fdot2 w => w.wf
  | .dot4 w => w.wf
  | .cvtf w => w.wf
  | .cvti w => w.wf
  | .cvtfi w => w.wf
  | .pack2 w => w.wf
  | .pack4 w => w.wf
  | .unpk w => w.wf
  | .qnt w => w.wf
  | .dqnt w => w.wf
  | .qdesc w => w.wf
  | .frcp w => w.wf
  | .frsq w => w.wf
  | .fsqrt w => w.wf
  | .fexp2 w => w.wf
  | .flog2 w => w.wf
  | .fsin w => w.wf
  | .fcos w => w.wf
  | .ftanh w => w.wf
  | .qswph w => w.wf
  | .qswpv w => w.wf
  | .qswpd w => w.wf
  | .qbc w => w.wf
  | .shfl w => w.wf
  | .shflu w => w.wf
  | .shfld w => w.wf
  | .shflx w => w.wf
  | .vote w => w.wf
  | .ballot w => w.wf
  | .matchLanes w => w.wf
  | .lpopc w => w.wf
  | .rdlane w => w.wf
  | .wrlane w => w.wf
  | .wreduce w => w.wf
  | .wscan w => w.wf
  | .xmov w => w.wf
  | .dqpop w => w.wf
  | .lpush w => w.wf
  | .lds w => w.wf
  | .sts w => w.wf
  | .ldsb w => w.wf
  | .atomsAdd w => w.wf
  | .atomsSub w => w.wf
  | .atomsMin w => w.wf
  | .atomsMax w => w.wf
  | .atomsAnd w => w.wf
  | .atomsOr w => w.wf
  | .atomsXor w => w.wf
  | .atomsExch w => w.wf
  | .atomsCas w => w.wf
  | .scrflg w => w.wf
  | .copy w => w.wf
  | .copyr w => w.wf
  | .cpyst w => w.wf
  | .cpycan w => w.wf
  | .ldg w => w.wf
  | .stg w => w.wf
  | .atomgAdd w => w.wf
  | .atomgSub w => w.wf
  | .atomgMin w => w.wf
  | .atomgMax w => w.wf
  | .atomgAnd w => w.wf
  | .atomgOr w => w.wf
  | .atomgXor w => w.wf
  | .atomgExch w => w.wf
  | .atomgCas w => w.wf
  | .fence w => w.wf
  | .rld w => w.wf
  | .rst w => w.wf
  | .ratomAdd w => w.wf
  | .ratomSub w => w.wf
  | .ratomMin w => w.wf
  | .ratomMax w => w.wf
  | .ratomAnd w => w.wf
  | .ratomOr w => w.wf
  | .ratomXor w => w.wf
  | .ratomExch w => w.wf
  | .ratomCas w => w.wf
  | .bra w => w.wf
  | .brq w => w.wf
  | .brd w => w.wf
  | .brs w => w.wf
  | .call w => w.wf
  | .ret w => w.wf
  | .jmpx w => w.wf
  | .regang w => w.wf
  | .exit w => w.wf
  | .nop w => w.wf
  | .bara w => w.wf
  | .barinit w => w.wf
  | .barst w => w.wf
  | .tbar w => w.wf
  | .kinc w => w.wf
  | .kset w => w.wf
  | .krd w => w.wf
  | .time w => w.wf
  | .waitt w => w.wf
  | .phase w => w.wf
  | .trig w => w.wf
  | .mma w => w.wf
  | .mloop w => w.wf
  | .mzero w => w.wf
  | .mdrain w => w.wf
  | .mstat w => w.wf
  | .mchk w => w.wf
  | .dpload w => w.wf
  | .launch w => w.wf
  | .probe w => w.wf
  | .tinv w => w.wf
  | .trap w => w.wf
  | .bkpt w => w.wf
  | .sysrd w => w.wf
  | .syswr w => w.wf
  | .drainAdd w => uopZeros 0 w
  | .drainSub w => uopZeros 1 w
  | .drainMul w => uopZeros 2 w
  | .drainFma w => uopZeros 3 w
  | .drainMin w => uopZeros 4 w
  | .drainMax w => uopZeros 5 w
  | .drainAbs w => uopZeros 6 w
  | .drainNeg w => uopZeros 7 w
  | .drainMovi w => uopZeros 8 w
  | .drainLdc w => uopZeros 9 w
  | .drainLdr w => uopZeros 10 w
  | .drainTab w => uopZeros 11 w
  | .drainExp2 w => uopZeros 12 w
  | .drainRcp w => uopZeros 13 w
  | .drainClamp w => uopZeros 14 w
  | .drainRnd w => uopZeros 15 w
  | .drainCvt w => uopZeros 16 w
  | .drainQspan w => uopZeros 17 w
  | .drainSt w => uopZeros 18 w
  | .drainChk w => uopZeros 19 w
  | .drainSkip w => uopZeros 20 w
  | .drainSel w => uopZeros 21 w
  | .drainNop w => uopZeros 22 w
  | .drainEnd w => uopZeros 23 w
  | .clauseFetch => false
  | .clauseIssue => false
  | .leadClauseIssue => false
  | .registerLand => false
  | .teamBarrierApply => false
  | .teamBarrierNotify => false
  | .teamPlace => false
  | .groupStart => false
  | .groupRetire => false
  | .teamRelaunch => false
  | .trigSignal => false
  | .stopperLeave => false
  | .writeDispatch => false
  | .markerReceive => false
  | .writeApply => false
  | .faultResolved => false
  | .faultReport => false
  | .writeAck => false
  | .readAnswer => false
  | .loadComplete => false
  | .teamLoadServe => false
  | .teamLoadComplete => false
  | .teamStoreApply => false
  | .copyClaim => false
  | .copyStreamStart => false
  | .copyUnitDeliver => false
  | .copyAck => false
  | .copyCancel => false
  | .sequencedCopyrApply => false
  | .scheduledCopyBeat => false
  | .scheduledCopyEnd => false
  | .requestPost => false
  | .passGrant => false
  | .passStep => false
  | .bFetch => false
  | .mzeroComplete => false
  | .drainStart => false
  | .drainRow => false
  | .drainWrite => false
  | .passComplete => false
  | .reservationStart => false
  | .dploadWrite => false
  | .walkComplete => false
  | .shootdownSweep => false
  | .sweepAck => false
  | .shootdownComplete => false
  | .tinvcStart => false
  | .ctxCreate => false
  | .ctxBind => false
  | .ctxRun => false
  | .ctxFreeze => false
  | .ctxSuspend => false
  | .ctxResume => false
  | .ctxKill => false
  | .ctxReset => false
  | .ctxFree => false
  | .swapOutComplete => false
  | .gracefulComplete => false
  | .gracefulDeadlineExpiry => false
  | .unitcmdRetry => false
  | .unitcmdSkip => false
  | .unitcmdRegion => false
  | .unitcmdKill => false
  | .trapFinal => false
  | .faultRecordWrite => false
  | .keycmdLoad => false
  | .keycmdErase => false
  | .flagsClear => false
  | .oorrecClear => false
  | .ibdataClear => false
  | .flagReachContext => false
  | .tdispLockInterface => false
  | .tdispStartInterface => false
  | .tdispStopInterface => false
  | .mgmtsemAcquire => false
  | .mgmtsemRelease => false
  | .qcfgWrite => false
  | .qcmdClear => false
  | .qcmdSkip => false
  | .doorbell => false
  | .recordFetch => false
  | .recordConsume => false
  | .kernelArm => false
  | .kernelStart => false
  | .kernelRetire => false
  | .laycmdLoad => false
  | .laycmdArm => false
  | .laycmdDisarm => false
  | .laycmdUnload => false
  | .layBaseTick => false
  | .periodBoundary => false
  | .slackEvent => false
  | .slackOverrun => false
  | .faultNotice => false
  | .readyReport => false
  | .rollCallTimeout => false
  | .restartAnnounce => false
  | .layResume => false
  | .originLoss => false
  | .restartWaitExpiry => false
  | .timeCorrection => false
  | .synclostSet => false
  | .synclostClear => false
  | .waittExpiry => false
  | .vc0FrameSend => false
  | .vc0FrameWrite => false
  | .missingFrame => false
  | .frameReceive => false
  | .retryRequest => false
  | .dynamicMessage => false
  | .wkcmdStage => false
  | .wkcmdErase => false
  | .keySlotActivate => false
  | .keySlotRetire => false
  | .laneSpareRequest => false
  | .laneSpare => false
  | .linkEnable => false
  | .trainingComplete => false
  | .laneFail => false
  | .linkDown => false
  | .strikeReport => false
  | .rollbackEnd => false
  | .regionRecordFree => false
  | .protectedMismatch => false
  | .dualRunMismatch => false
  | .meshRetransmit => false
  | .homeReplay => false
  | .hrepcmdGo => false
  | .hbmLaneRepair => false
  | .zcntClear => false
  | .uecntClear => false
  | .poolcfgWrite => false
  | .operatingPointChange => false
  | .pwrcmdBoost => false
  | .pwrcmdEndboost => false
  | .pwrcmdOffline => false
  | .pwrcmdOnline => false
  | .boostExpiry => false
  | .powerCheck => false
  | .dieQuiesce => false
  | .powerCutoff => false
  | .heartbeat => false
  | .controllerTakeover => false
  | .fwcmdStage => false
  | .fwcmdActivate => false
  | .fwcmdAbort => false
  | .handoverTimeout => false
  | .spdmGetMeasurements => false
  | .securityAlarm => false
  | .powerOn => false
  | .registerWrite => false
  | .ownerPortLinkDown => false
  | .sysrdComplete => false
  | .scrflgComplete => false
  | .launchDelivered => false

end Sys2Proof
end

