-- ==== Sys2Proof/Certificates/Slice0/Obligations.lean ====
section
/-! DEFINITION. The statements for the provers, in the order of OBLIGATIONS.json. Each docstring names the rules it follows. -/

open Sys2Proof Sys2Proof.Machine

/-- O1. Decoding undoes encoding: The word of every well-formed instruction decodes to that instruction with every field
as it was, at every value of every field; the same of the words of the drain micro-operations. No bit of an encoding is
dropped. -/
def Obligations.DecodeOfEncode : Prop :=
  (∀ (i : Instr) (w : Word64), i.wf = true → encode i = some (.inl w) → decode w = .ok i) ∧
  (∀ (i : Instr) (w : Word32), i.wf = true → encode i = some (.inr w) → decodeUop w = some i)

/-- O2. A decoded word is the word of what it decodes to: A 64-bit word that decodes to an instruction is that
instruction's word, and so for micro-operation words: two words never decode to one instruction. -/
def Obligations.EncodeOfDecode : Prop :=
  (∀ (w : Word64) (i : Instr), decode w = .ok i → encode i = some (.inl w)) ∧
  (∀ (w : Word32) (i : Instr), decodeUop w = some i → encode i = some (.inr w))

/-- O3. Words written out from the encoding tables decode to their instructions: An integer add of V1 and V2 into V3, an
immediate move, a scratch load, a copy, a branch two words back, a matrix request, a NOP, a micro-operation ADD and a
micro-operation END, each written out from the format tables, decode to those instructions; the 9-bit opcodes 0x026 and 0x1FF
and code 24 of a micro-operation decode to nothing. -/
def Obligations.WordsDecodeAsPrinted : Prop :=
  decode 0x5FE040206000#64 =
    .ok (.iadd { g := { prd := 0, png := 0 }, d := 3, a := 1, b := 2, c := 0xFF, ty := 2, md := 0 }) ∧
  decode 0x0000002A1FE2001C#64 =
    .ok (.movi { g := { prd := 0, png := 0 }, d := 0x10, a := 0xFF, md := 0, imm := 42 }) ∧
  decode (0x100#64 ||| (5#64 <<< 9) ||| (7#64 <<< 13) ||| (0x81#64 <<< 21) ||| (0xFF#64 <<< 29) ||| (2#64 <<< 37) |||
      (64#64 <<< 46)) =
    .ok (.lds { g := { prd := 5, png := 0 }, data := 7, base := 0x81, index := 0xFF, sz := 2, ord := 0, sco := 0, off := 64 }) ∧
  decode (0x10D#64 ||| (6#64 <<< 13) ||| (4#64 <<< 21) ||| (0xFF#64 <<< 29) ||| (9#64 <<< 37) ||| (1#64 <<< 43) |||
      (2#64 <<< 50) ||| (3#64 <<< 54) ||| (1#64 <<< 58) ||| (1#64 <<< 61)) =
    .ok (.copy { g := { prd := 0, png := 0 }, src := 6, dst := 4, seq := 0xFF, shape := 9, ch := 1, ty := 0, k := 2, bar := 3,
                 ben := 1, sched := 0, skind := 0, kind := 1 }) ∧
  decode (0x180#64 ||| (0xFF#64 <<< 21) ||| (0xFFFFFFFE#64 <<< 32)) =
    .ok (.bra { g := { prd := 0, png := 0 }, cond := 0, a := 0xFF, off := 0xFFFFFFFE }) ∧
  decode (0x1C2#64 ||| (0xFF#64 <<< 21) ||| (0xFF#64 <<< 29) ||| (3#64 <<< 50) ||| (1#64 <<< 59)) =
    .ok (.mzero { g := { prd := 0, png := 0 }, abase := 0, bbase := 0, rl := 0, sk := 0xFF, sd := 0xFF, bsel := 0, z39 := 0,
                  tol := 0, chk := 0, ty := 0, kc := 3, bar := 0, ben := 0, tile := 1, bscr := 0, za := 0, pri := 0 }) ∧
  decode (0x189#64 ||| (0xFF#64 <<< 13) ||| (0xFF#64 <<< 21) ||| (0xFF#64 <<< 29) ||| (0xFF#64 <<< 37)) =
    .ok (.nop { g := { prd := 0, png := 0 }, d := 0xFF, a := 0xFF, b := 0xFF, c := 0xFF, ty := 0, md := 0 }) ∧
  decodeUop (0x00#32 ||| (2#32 <<< 5) ||| (1#32 <<< 8) ||| (8#32 <<< 12) ||| (1#32 <<< 16) ||| (1#32 <<< 18)) =
    some (.drainAdd { xd := 2, sa := 1, sb := 8, rm := 1, imm := 1 }) ∧
  decodeUop 0x17#32 = some (.drainEnd { xd := 0, sa := 0, sb := 0, rm := 0, imm := 0 }) ∧
  decode 0x026#64 = .error 1 ∧ decode 0x1FF#64 = .error 1 ∧ decodeUop 24#32 = none

/-- O4. A step runs what is due: the decoded instruction of a slot, an event, a micro-operation: When the earliest entry
of the agenda is a slot of a unit whose clause has reached it, the step reads the eight bytes at clause address +
8·(position + 1) of the kernel's staged image; if they decode to i, the step is exec of i with that slot as the current
one, followed by the end of the slot; if they do not decode, the unit takes the trap of the failed check. When the entry
is an event, the step is its meaning with its operands. With a drain row in progress the step is exec of its decoded
micro-operation. With nothing due one tick passes. That the module runs by one agenda of due events with operands, one entry a
step, and that time moves by a tick when nothing is due, is the model's own choice (log 1, 6, 7); without power only a bring-up
happens (log 160). -/
def Obligations.StepRunsTheDecodedInstruction : Prop :=
  (∀ (s : State) (a : Agenda) (rest : List Agenda) (x : ExecUnit) (r : ClauseRun) (g : Group) (idx : Nat),
    s.halted = none → s.row = none → s.powered = true → s.agenda = a :: rest → a.due = .slot x.id idx →
    (let s0 : State := { s with agenda := rest, now := max s.now a.at' }
     s0.unit? x.id = some x → x.clause = some r → s0.group? x.gid = some g → x.stop = none → x.ended = false →
     r.w0 + hPad r.hdr + idx = s0.ucyc x.id → idx ≤ hN r.hdr →
     (let pc := r.pc + 8 * (idx + 1)
      let w : Word64 := BitVec.ofNat 64 (s0.code.readN (codeAddr g.kid pc) 8)
      let s1 : State := { s0 with cur := some { u := x.id, cycle := s0.ucyc x.id, pc := pc, idx := idx, hdr := r.hdr, quads := r.quads } }
      (∀ i, decode w = .ok i → step s = andThen (exec i s1) slotDone) ∧
      (∀ sub, decode w = .error sub → step s = .next (slotDone (slotIllegal s1 sub w)))))) ∧
  (∀ (s : State) (a : Agenda) (rest : List Agenda) (i : Instr) (b : Arg),
    s.halted = none → s.row = none → s.powered = true ∨ i = .powerOn → s.agenda = a :: rest → a.due = .ev i b →
    step s = exec i { s with agenda := rest, now := max s.now a.at', arg := b }) ∧
  (∀ (s : State) (r : RowRun) (i : Instr), s.halted = none → s.row = some r → decodeUop r.word = some i → step s = exec i s) ∧
  (∀ s : State, s.halted = none → s.row = none → s.agenda = [] → step s = .next { s with now := s.now + Config.unitsPerTick })

/-- O5. Every step keeps the one form of the byte memories: From every state whose HBM4, host memory, scratch and code
store are in their canonical form, a step that answers a next state answers one in which they are again. The canonical
form is the model's own (log 3). -/
def Obligations.StepKeepsMemoriesCanonical : Prop :=
  ∀ s t : State, s.memWf → step s = .next t → t.memWf

/-- O6. Every step keeps the sixteen dies and the four lay slots: From every state with sixteen dies and four lay slots, a
step that answers a next state answers one with sixteen dies and four lay slots. -/
def Obligations.StepKeepsDiesAndLaySlots : Prop :=
  ∀ s t : State, s.shaped → step s = .next t → t.shaped

/-- O7. The state after reset meets both invariants: At reset every byte memory is in its canonical form, and there are
sixteen dies and four lay slots. -/
def Obligations.ResetMeetsTheInvariants : Prop :=
  State.reset.memWf ∧ State.reset.shaped

/-- O8. What a module reset leaves: After reset: no context exists, no queue is enabled, no port holds management
ownership, every lay slot is empty, every die is online at class 0 with no lease, the power limit reads 5,500 W, the die
links are keyed and the Wyusk ports are down, no alarm is latched, and the clocks of R211 are zero. -/
def Obligations.ResetState : Prop :=
  (∀ n, (State.reset.ctx n).state = .free ∧ (State.reset.ctx n).flags = 0 ∧ (State.reset.ctx n).oor = 0) ∧
  (∀ q, (State.reset.queue q).en = false ∧ (State.reset.queue q).head = 0 ∧ (State.reset.queue q).tail = 0) ∧
  State.reset.mgmtOwner = 0 ∧
  (∀ l, (State.reset.lay l).state = .empty) ∧
  (∀ d, (State.reset.die d).st = 0 ∧ (State.reset.die d).cls = 0 ∧ (State.reset.die d).boost = none ∧
    (∀ e, (State.reset.die d).vc.getD e 0 = 0) ∧ ∀ e, (State.reset.die d).frontier.getD e 0 = 0) ∧
  State.reset.plimit = 5500 ∧
  (∀ d l, (State.reset.link d l).st = if l < 16 then 2 else 0) ∧
  State.reset.alarmSt = 0

/-- O9. An instruction that fails a decode check takes that check's trap and has no effect: For every machine instruction
in a slot: when a decode check fails, the instruction traps with the kind and subcode of the first failed check, at its
cycle and address; the unit stops with its clause taken aside and otherwise as it was, its group, when it runs, becomes
faulted, and the trap becomes final 384 cycles later; no register, memory byte, operation, counter, context or engine changes,
no other unit and no other group, and nothing else is due. -/
def Obligations.FailedCheckTrapsAndNothingElse : Prop :=
  ∀ (i : Instr) (w : Word64) (s : State) (c : Cur) (x : ExecUnit) (k : Nat × Nat), encode i = some (.inl w) →
    s.cur = some c → s.unit? c.u = some x → decodeCheck s c i = some k →
    ∃ t, exec i s = .next t ∧
      t = { s with units := t.units, groups := t.groups, agenda := t.agenda } ∧
      (∃ p, t.unit? c.u = some { x with stop := some p, clause := none } ∧ p.kind = k.1 ∧ p.sub = k.2 ∧ p.cycle = c.cycle ∧
        p.pc = c.pc ∧ p.clause = x.clause ∧ p.due = c.cycle + 384 ∧ p.final = false) ∧
      (∀ v, v ≠ c.u → t.unit? v = s.unit? v) ∧ (∀ n, n ≠ x.gid → t.group? n = s.group? n) ∧
      (∀ g, s.group? x.gid = some g →
        t.group? x.gid = some { g with state := if g.state = .running then .faulted else g.state }) ∧
      (∃ e ∈ t.agenda, e.due = evU .trapFinal c.u [c.cycle] ∧
        e.at' = max s.now (instantOf s c.u.die c.u.core (c.cycle + 384))) ∧
      (∀ e ∈ s.agenda, e ∈ t.agenda) ∧ ∀ e ∈ t.agenda, e ∈ s.agenda ∨ e.due = evU .trapFinal c.u [c.cycle]

/-- O10. The nine integer operations land the exact value of Table 3.5, saturated or wrapped: IADD, ISUB, IMUL, IMULH,
IMAD, IMIN, IMAX, IABS and INEG complete; 4 cycles after issue each lands, in every lane that computes (or once, when
uniform), the exact value x of Table 3.5 from operands read as TY says: Sat(x, lo, hi) when SAT is set and x is out of
range, x[w-1:0] otherwise; nothing else changes, and no flag is raised. IMULH, IMIN and IMAX with a MOD that is not zero
fail a check. -/
def Obligations.IntegerArithmeticResults : Prop :=
  (∀ w : RF, Completes (.iadd w) fun s c t => ResultIn s t c w.g [w.a.toNat, w.b.toNat] w.d.toNat (isWide w.ty.toNat) 4 fun l =>
      r66 w.ty.toNat (w.md.getLsbD 0) (asInt w.ty.toNat (rd s c w.ty.toNat w.a.toNat l) + asInt w.ty.toNat (rd s c w.ty.toNat w.b.toNat l))) ∧
  (∀ w : RF, Completes (.isub w) fun s c t => ResultIn s t c w.g [w.a.toNat, w.b.toNat] w.d.toNat (isWide w.ty.toNat) 4 fun l =>
      r66 w.ty.toNat (w.md.getLsbD 0) (asInt w.ty.toNat (rd s c w.ty.toNat w.a.toNat l) - asInt w.ty.toNat (rd s c w.ty.toNat w.b.toNat l))) ∧
  (∀ w : RF, Completes (.imul w) fun s c t => ResultIn s t c w.g [w.a.toNat, w.b.toNat] w.d.toNat (isWide w.ty.toNat) 4 fun l =>
      r66 w.ty.toNat (w.md.getLsbD 0) (asInt w.ty.toNat (rd s c w.ty.toNat w.a.toNat l) * asInt w.ty.toNat (rd s c w.ty.toNat w.b.toNat l))) ∧
  (∀ w : RF, Completes (.imulh w) fun s c t => ResultIn s t c w.g [w.a.toNat, w.b.toNat] w.d.toNat (isWide w.ty.toNat) 4 fun l =>
      r66 w.ty.toNat (w.md.getLsbD 0) ((asInt w.ty.toNat (rd s c w.ty.toNat w.a.toNat l) * asInt w.ty.toNat (rd s c w.ty.toNat w.b.toNat l)).fdiv (if isWide w.ty.toNat then 2 ^ 64 else 2 ^ 32))) ∧
  (∀ w : RF, Completes (.imin w) fun s c t => ResultIn s t c w.g [w.a.toNat, w.b.toNat] w.d.toNat (isWide w.ty.toNat) 4 fun l =>
      r66 w.ty.toNat (w.md.getLsbD 0) (min (asInt w.ty.toNat (rd s c w.ty.toNat w.a.toNat l)) (asInt w.ty.toNat (rd s c w.ty.toNat w.b.toNat l)))) ∧
  (∀ w : RF, Completes (.imax w) fun s c t => ResultIn s t c w.g [w.a.toNat, w.b.toNat] w.d.toNat (isWide w.ty.toNat) 4 fun l =>
      r66 w.ty.toNat (w.md.getLsbD 0) (max (asInt w.ty.toNat (rd s c w.ty.toNat w.a.toNat l)) (asInt w.ty.toNat (rd s c w.ty.toNat w.b.toNat l)))) ∧
  (∀ w : RF, Completes (.imad w) fun s c t => ResultIn s t c w.g [w.a.toNat, w.b.toNat, w.c.toNat] w.d.toNat (isWide w.ty.toNat) 4 fun l =>
      r66 w.ty.toNat (w.md.getLsbD 0) (asInt w.ty.toNat (rd s c w.ty.toNat w.a.toNat l) * asInt w.ty.toNat (rd s c w.ty.toNat w.b.toNat l) + asInt w.ty.toNat (rd s c w.ty.toNat w.c.toNat l))) ∧
  (∀ w : RF, Completes (.iabs w) fun s c t => ResultIn s t c w.g [w.a.toNat] w.d.toNat (isWide w.ty.toNat) 4 fun l =>
      r66 w.ty.toNat (w.md.getLsbD 0) ((Int.natAbs (asInt w.ty.toNat (rd s c w.ty.toNat w.a.toNat l)) : Int))) ∧
  (∀ w : RF, Completes (.ineg w) fun s c t => ResultIn s t c w.g [w.a.toNat] w.d.toNat (isWide w.ty.toNat) 4 fun l =>
      r66 w.ty.toNat (w.md.getLsbD 0) (-asInt w.ty.toNat (rd s c w.ty.toNat w.a.toNat l))) ∧
  (∀ (w : RF) (i : Instr), i = .iadd w ∨ i = .isub w ∨ i = .imul w ∨ i = .imulh w ∨ i = .imin w ∨ i = .imax w ∨ i = .imad w ∨
      i = .iabs w ∨ i = .ineg w → Completes i fun s _ t => ∀ p ∈ t.pend, p ∈ s.pend ∨ p.file ≠ .flags) ∧
  (∀ (w : RF) (s : State) (c : Cur) (i : Instr), i = .imulh w ∨ i = .imin w ∨ i = .imax w → w.md ≠ 0 → decodeCheck s c i ≠ none)

/-- O11. AND, OR, XOR, ANDN and NOT act bit by bit at the width of the type: AND, OR, XOR, ANDN and NOT complete; 4 cycles
after issue each lands the bitwise result at the width of TY in every lane that computes (once, when uniform); nothing
else changes. -/
def Obligations.LogicResults : Prop :=
  (∀ w : RF, Completes (.and w) fun s c t => ResultIn s t c w.g [w.a.toNat, w.b.toNat] w.d.toNat (isWide w.ty.toNat) 4 fun l =>
      rd s c w.ty.toNat w.a.toNat l &&& rd s c w.ty.toNat w.b.toNat l) ∧
  (∀ w : RF, Completes (.or w) fun s c t => ResultIn s t c w.g [w.a.toNat, w.b.toNat] w.d.toNat (isWide w.ty.toNat) 4 fun l =>
      rd s c w.ty.toNat w.a.toNat l ||| rd s c w.ty.toNat w.b.toNat l) ∧
  (∀ w : RF, Completes (.xor w) fun s c t => ResultIn s t c w.g [w.a.toNat, w.b.toNat] w.d.toNat (isWide w.ty.toNat) 4 fun l =>
      rd s c w.ty.toNat w.a.toNat l ^^^ rd s c w.ty.toNat w.b.toNat l) ∧
  (∀ w : RF, Completes (.andn w) fun s c t => ResultIn s t c w.g [w.a.toNat, w.b.toNat] w.d.toNat (isWide w.ty.toNat) 4 fun l =>
      rd s c w.ty.toNat w.a.toNat l &&& ~~~(rd s c w.ty.toNat w.b.toNat l)) ∧
  (∀ w : RF, Completes (.not w) fun s c t => ResultIn s t c w.g [w.a.toNat] w.d.toNat (isWide w.ty.toNat) 4 fun l =>
      ~~~(rd s c w.ty.toNat w.a.toNat l))

/-- O12. SHL, SHR, SAR and ROTL shift by b[31:0] or by MOD[5:0]: SHL, SHR, SAR and ROTL complete; the amount n is b[31:0]
unsigned, or MOD[5:0] when MOD[7] is set; ROTL rotates by n mod w; the others fill with zeros, or with the sign for SAR,
also for every n of w or more. The result lands 4 cycles after issue; nothing else changes. -/
def Obligations.ShiftResults : Prop :=
  (∀ w : RF, Completes (.shl w) fun s c t =>
    ResultIn s t c w.g (if w.md.toNat < 128 then [w.a.toNat, w.b.toNat] else [w.a.toNat]) w.d.toNat (isWide w.ty.toNat) 4 fun l =>
      let n := if w.md.toNat < 128 then (readField s c w.b.toNat l false).toNat else w.md.toNat % 64
      let a := rd s c w.ty.toNat w.a.toNat l
      trunc w.ty.toNat (a <<< n)) ∧
  (∀ w : RF, Completes (.shr w) fun s c t =>
    ResultIn s t c w.g (if w.md.toNat < 128 then [w.a.toNat, w.b.toNat] else [w.a.toNat]) w.d.toNat (isWide w.ty.toNat) 4 fun l =>
      let n := if w.md.toNat < 128 then (readField s c w.b.toNat l false).toNat else w.md.toNat % 64
      let a := rd s c w.ty.toNat w.a.toNat l
      a >>> n) ∧
  (∀ w : RF, Completes (.sar w) fun s c t =>
    ResultIn s t c w.g (if w.md.toNat < 128 then [w.a.toNat, w.b.toNat] else [w.a.toNat]) w.d.toNat (isWide w.ty.toNat) 4 fun l =>
      let n := if w.md.toNat < 128 then (readField s c w.b.toNat l false).toNat else w.md.toNat % 64
      let a := rd s c w.ty.toNat w.a.toNat l
      if isWide w.ty.toNat then a.sshiftRight n else ((a.setWidth 32).sshiftRight n).setWidth 64) ∧
  (∀ w : RF, Completes (.rotl w) fun s c t =>
    ResultIn s t c w.g (if w.md.toNat < 128 then [w.a.toNat, w.b.toNat] else [w.a.toNat]) w.d.toNat (isWide w.ty.toNat) 4 fun l =>
      let n := if w.md.toNat < 128 then (readField s c w.b.toNat l false).toNat else w.md.toNat % 64
      let a := rd s c w.ty.toNat w.a.toNat l
      if isWide w.ty.toNat then a.rotateLeft (n % 64) else ((a.setWidth 32).rotateLeft (n % 32)).setWidth 64)

/-- O13. IADDC lands the sum and, unless it names P0, the carry: IADDC completes: with s = a + b + bit 0 of c, exact and
unsigned, D receives s[w-1:0] and predicate MOD[2:0] receives 1 when s is 2^w or more, both 4 cycles after issue; with
MOD[2:0] = 0 no predicate is written. A lead stream whose guard is false writes nothing. That a form that names a carry
predicate runs lane by lane even with D and all operands uniform is read by inference (log 14), not stated by the spec. -/
def Obligations.CarryAddResults : Prop :=
  ∀ w : RF, Completes (.iaddc w) fun s c t =>
    let co := w.md.toNat % 8
    let fields := [w.d.toNat] ++ (if co = 0 then [] else [0xA0 + co]) ++ [w.a.toNat, w.b.toNat, w.c.toNat]
    let sum (l : Nat) : Nat := (rd s c w.ty.toNat w.a.toNat l).toNat + (rd s c w.ty.toNat w.b.toNat l).toNat +
      (readField s c w.c.toNat l false).toNat % 2
    let width : Nat := if isWide w.ty.toNat then 64 else 32
    let carry (l : Nat) : Word64 := if 2 ^ width ≤ sum l then 1 else 0
    OnlyPending s t ∧
      if uniform c.u.lead fields then
        if c.u.lead && !guardLead s c.u w.g then t = s
        else Lands t c w.d.toNat 0 (isWide w.ty.toNat) (BitVec.ofNat 64 (sum 0 % 2 ^ width)) 4 ∧
          (co ≠ 0 → Lands t c (0xA0 + co) 0 false (carry 0) 4)
      else ∀ l, l < 32 → laneCompute s c w.g l = true →
        Lands t c w.d.toNat l (isWide w.ty.toNat) (BitVec.ofNat 64 (sum l % 2 ^ width)) 4 ∧
          (co ≠ 0 → Lands t c (0xA0 + co) l false (carry l) 4)

/-- O14. POPC, CLZ, FFS and BREV: POPC, CLZ, FFS and BREV complete and land, 4 cycles after issue: the number of set bits;
the number of zero bits above the highest set bit, w for 0; the index of the lowest set bit, all ones for 0; and the
operand with bit i at bit w - 1 - i. Nothing else changes. -/
def Obligations.CountResults : Prop :=
  (∀ w : RF, Completes (.popc w) fun s c t => ∃ f, ResultIn s t c w.g [w.a.toNat] w.d.toNat (isWide w.ty.toNat) 4 f ∧
    ∀ l, (f l).toNat = ((List.range (if isWide w.ty.toNat then 64 else 32)).filter fun i => (rd s c w.ty.toNat w.a.toNat l).getLsbD i).length) ∧
  (∀ w : RF, Completes (.clz w) fun s c t => ∃ f, ResultIn s t c w.g [w.a.toNat] w.d.toNat (isWide w.ty.toNat) 4 f ∧
    ∀ l, (f l).toNat ≤ (if isWide w.ty.toNat then 64 else 32) ∧ (∀ i, (if isWide w.ty.toNat then 64 else 32) ≤ i + (f l).toNat → (rd s c w.ty.toNat w.a.toNat l).getLsbD i = false) ∧
      ((f l).toNat < (if isWide w.ty.toNat then 64 else 32) → (rd s c w.ty.toNat w.a.toNat l).getLsbD ((if isWide w.ty.toNat then 64 else 32) - 1 - (f l).toNat) = true)) ∧
  (∀ w : RF, Completes (.ffs w) fun s c t => ∃ f, ResultIn s t c w.g [w.a.toNat] w.d.toNat (isWide w.ty.toNat) 4 f ∧
    ∀ l, (rd s c w.ty.toNat w.a.toNat l = 0 → f l = trunc w.ty.toNat (BitVec.allOnes 64)) ∧
      (rd s c w.ty.toNat w.a.toNat l ≠ 0 → (rd s c w.ty.toNat w.a.toNat l).getLsbD (f l).toNat = true ∧ ∀ i, i < (f l).toNat → (rd s c w.ty.toNat w.a.toNat l).getLsbD i = false)) ∧
  (∀ w : RF, Completes (.brev w) fun s c t => ∃ f, ResultIn s t c w.g [w.a.toNat] w.d.toNat (isWide w.ty.toNat) 4 f ∧
    ∀ l i, (f l).getLsbD i = (decide (i < (if isWide w.ty.toNat then 64 else 32)) && (rd s c w.ty.toNat w.a.toNat l).getLsbD ((if isWide w.ty.toNat then 64 else 32) - 1 - i)))

/-- O15. BFE and BFI take and put a field of a register: BFE and BFI complete: with pos = b[7:0] and len = b[15:8], a zero
len or a pos of 32 or more gives 0 or c; otherwise BFE gives the field of at most 32 - pos bits, sign-extended for I32,
and BFI gives c with that field replaced by the low bits of a. The result lands 4 cycles after issue; nothing else
changes. -/
def Obligations.BitFieldResults : Prop :=
  (∀ w : RF, Completes (.bfe w) fun s c t => ∃ f, ResultIn s t c w.g [w.a.toNat, w.b.toNat] w.d.toNat false 4 f ∧
    ∀ l, let a := readField s c w.a.toNat l false
      let b := readField s c w.b.toNat l false
      let pos := b.toNat % 256
      let len := min (b.toNat / 256 % 256) (32 - pos)
      ∀ i, (f l).getLsbD i = (decide (i < 32) && decide (0 < len) &&
        (if i < len then a.getLsbD (pos + i) else w.ty.toNat == 2 && a.getLsbD (pos + len - 1)))) ∧
  (∀ w : RF, Completes (.bfi w) fun s c t => ∃ f, ResultIn s t c w.g [w.a.toNat, w.b.toNat, w.c.toNat] w.d.toNat false 4 f ∧
    ∀ l, let a := readField s c w.a.toNat l false
      let b := readField s c w.b.toNat l false
      let x := readField s c w.c.toNat l false
      let pos := b.toNat % 256
      let len := min (b.toNat / 256 % 256) (32 - pos)
      ∀ i, (f l).getLsbD i = if pos ≤ i ∧ i < pos + len then a.getLsbD (i - pos) else x.getLsbD i)

/-- O16. ICMP, SEL, MOV, PLOP and LEA: ICMP lands the outcome of its condition (signed for I32 and I64, unsigned for N32
and N64) combined with bit 0 of C; SEL lands a when c[31:0] is not zero and b otherwise; MOV lands a; PLOP lands bit 4a +
2b + c of MOD; LEA lands a plus the scaled, zero- or sign-extended index, modulo 2^64. All complete, land 4 cycles after
issue and change nothing else. -/
def Obligations.CompareSelectMoveResults : Prop :=
  (∀ w : RF, Completes (.icmp w) fun s c t =>
    let m := w.md.toNat / 8 % 4
    ResultIn s t c w.g ([w.a.toNat, w.b.toNat] ++ if m = 0 then [] else [w.c.toNat]) w.d.toNat false 4 fun l =>
      let a := asInt w.ty.toNat (rd s c w.ty.toNat w.a.toNat l)
      let b := asInt w.ty.toNat (rd s c w.ty.toNat w.b.toNat l)
      let k := (readField s c w.c.toNat l false).getLsbD 0
      let r : Bool := if w.md.toNat % 8 = 0 then a = b else if w.md.toNat % 8 = 1 then a ≠ b else if w.md.toNat % 8 = 2 then a < b
        else if w.md.toNat % 8 = 3 then a ≤ b else if w.md.toNat % 8 = 4 then a > b else a ≥ b
      if (if m = 0 then r else if m = 1 then r && k else if m = 2 then r || k else r ^^ k) then 1#64 else 0#64) ∧
  (∀ w : RF, Completes (.sel w) fun s c t =>
    ResultIn s t c w.g [w.a.toNat, w.b.toNat, w.c.toNat] w.d.toNat (isWide w.ty.toNat) 4 fun l =>
      if (readField s c w.c.toNat l false) ≠ 0 then rd s c w.ty.toNat w.a.toNat l else rd s c w.ty.toNat w.b.toNat l) ∧
  (∀ w : RF, Completes (.mov w) fun s c t => ResultIn s t c w.g [w.a.toNat] w.d.toNat (isWide w.ty.toNat) 4 fun l => rd s c w.ty.toNat w.a.toNat l) ∧
  (∀ w : RF, Completes (.plop w) fun s c t => ResultIn s t c w.g [w.a.toNat, w.b.toNat, w.c.toNat] w.d.toNat false 4 fun l =>
      let p (r : Nat) : Nat := (readField s c r l false).toNat
      if w.md.getLsbD (4 * p w.a.toNat + 2 * p w.b.toNat + p w.c.toNat) then 1#64 else 0#64) ∧
  (∀ w : RF, Completes (.lea w) fun s c t => ResultIn s t c w.g [w.a.toNat, w.b.toNat] w.d.toNat true 4 fun l =>
      let b := readField s c w.b.toNat l false
      let idx : Word64 := if w.md.getLsbD 3 then (b.setWidth 32).signExtend 64 else b
      readField s c w.a.toNat l true + (idx <<< (w.md.toNat % 8)))

/-- O17. The I-format instructions of group 0: MOVI lands its immediate, zero-extended, or sign-extended into an S or G
register with SX; MOVHI lands (i << 32) OR a[31:0]; IADDI and IMULI land the sum and the product with the signed
immediate, as IADD and IMUL do; ANDI, ORI and XORI act bit by bit on a[31:0]; ICMPI lands the outcome of the signed
comparison. All complete, land 4 cycles after issue and change nothing else. -/
def Obligations.ImmediateResults : Prop :=
  (∀ w : IF, Completes (.movi w) fun s c t => ResultIn s t c w.g [] w.d.toNat (!isV c.u.lead w.d.toNat) 4 fun _ =>
    if w.md.getLsbD 0 then w.imm.signExtend 64 else w.imm.setWidth 64) ∧
  (∀ w : IF, Completes (.movhi w) fun s c t => ResultIn s t c w.g [w.a.toNat] w.d.toNat true 4 fun l =>
    w.imm ++ (readField s c w.a.toNat l false).setWidth 32) ∧
  (∀ w : IF, Completes (.iaddi w) fun s c t =>
    let ty := if w.md.getLsbD 0 then 4 else 2
    ResultIn s t c w.g [w.a.toNat] w.d.toNat (isWide ty) 4 fun l =>
      r66 ty (w.md.getLsbD 1) (asInt ty (rd s c ty w.a.toNat l) + w.imm.toInt)) ∧
  (∀ w : IF, Completes (.imuli w) fun s c t => ResultIn s t c w.g [w.a.toNat] w.d.toNat false 4 fun l =>
    r66 2 (w.md.getLsbD 0) (asInt 2 (readField s c w.a.toNat l false) * w.imm.toInt)) ∧
  (∀ w : IF, Completes (.andi w) fun s c t => ResultIn s t c w.g [w.a.toNat] w.d.toNat false 4 fun l =>
    readField s c w.a.toNat l false &&& w.imm.setWidth 64) ∧
  (∀ w : IF, Completes (.ori w) fun s c t => ResultIn s t c w.g [w.a.toNat] w.d.toNat false 4 fun l =>
    readField s c w.a.toNat l false ||| w.imm.setWidth 64) ∧
  (∀ w : IF, Completes (.xori w) fun s c t => ResultIn s t c w.g [w.a.toNat] w.d.toNat false 4 fun l =>
    readField s c w.a.toNat l false ^^^ w.imm.setWidth 64) ∧
  (∀ w : IF, Completes (.icmpi w) fun s c t => ResultIn s t c w.g [w.a.toNat] w.d.toNat false 4 fun l =>
    let a := asInt 2 (readField s c w.a.toNat l false)
    let i := w.imm.toInt
    if (if w.md = 0 then a = i else if w.md = 1 then a ≠ i else if w.md = 2 then a < i else if w.md = 3 then a ≤ i
      else if w.md = 4 then a > i else a ≥ i) then 1#64 else 0#64)

/-- O18. Every instruction of fixed latency completes and leaves everything as it was but what waits to land: Every
instruction of Table 3.2 and BARST and KRD completes: registers, memories, units, groups, operations and system registers
are as they were, and so is every write already waiting and every event already due; the writes added are of the issuing unit,
to its destination fields (or raises of its sticky flags), and each lands the instruction's fixed latency after issue; the
events added are landings of that unit. -/
def Obligations.FixedLatencyFrame : Prop :=
  ∀ (i : Instr) (lat : Nat), fixedLatency i = some lat → Completes i fun s c t =>
    OnlyPending s t ∧ (∀ w ∈ s.pend, w ∈ t.pend) ∧ (∀ a ∈ s.agenda, a ∈ t.agenda) ∧
    (∀ a ∈ t.agenda, a ∈ s.agenda ∨ a.due = evU .registerLand c.u []) ∧ ∀ w ∈ t.pend, w ∈ s.pend ∨
      (w.u = c.u ∧ w.issue = c.cycle ∧ w.land = c.cycle + lat ∧
        (w.file = .flags ∨ ∃ r ∈ resultFields c.u.lead i, w.inField c.u.lead r = true))

/-- O19. A lane-wise instruction writes no lane that does not compute: In a warp clause every write that an instruction of
fixed latency adds to a V register or a predicate is of a lane for which LaneCompute holds under the instruction's guard;
WRLANE alone names its lane itself. -/
def Obligations.OnlyComputingLanesWrite : Prop :=
  ∀ (i : Instr) (lat : Nat), fixedLatency i = some lat → (∀ w, i ≠ .wrlane w) → Completes i fun s c t =>
    c.u.lead = false → ∀ w ∈ t.pend, w ∈ s.pend ∨ (w.file ≠ .v ∧ w.file ≠ .p) ∨
      laneCompute s c (guardOfInstr i) w.lane = true

/-- O20. Floating-point arithmetic and the transcendentals land the values of their case tables, in every lane that computes, and
raise their flags: FADD, FSUB, FMUL, FFMA, FMIN, FMAX, FABS, FNEG, FCMP, FRND, FCLASS, FSCALE, FDOT2 and DOT4 complete; 6 cycles
after issue each lands, element by element, the exact result rounded once by RM and SAT, or the result of its special operand
case; integer DOT4 wraps or saturates. The transcendentals land after 16 cycles one function of operand, mode and SAT, the same on
every core: the results of Table 5.4 for special inputs; FRCP, FRSQ and FSQRT the exact value rounded once; FEXP2 and FLOG2 exact
values for integers and powers of two; every other result is inexact. The flags raised are those of the single result of a uniform
form, or the OR of the active lanes'. What one rounding gives is O33. -/
def Obligations.FloatArithmeticResults : Prop :=
  (∀ w : RF, Completes (.fadd w) fun s c t => Elementwise s t c w [w.a, w.b] 6 fun f x r =>
    SumGives f (rmOf w) (satOf w) [f.value (x w.a), f.value (x w.b)] false r) ∧
  (∀ w : RF, Completes (.fsub w) fun s c t => Elementwise s t c w [w.a, w.b] 6 fun f x r =>
    SumGives f (rmOf w) (satOf w) [f.value (x w.a), (f.value (x w.b)).negate] false r) ∧
  (∀ w : RF, Completes (.fmul w) fun s c t => Elementwise s t c w [w.a, w.b] 6 fun f x r =>
    MulGives f (rmOf w) (satOf w) (f.value (x w.a)) (f.value (x w.b)) r) ∧
  (∀ w : RF, Completes (.ffma w) fun s c t => Elementwise s t c w [w.a, w.b, w.c] 6 fun f x r =>
    FmaGives f (rmOf w) (satOf w) (f.value (x w.a)) (f.value (x w.b)) (f.value (x w.c)) r) ∧
  (∀ w : RF, Completes (.fmin w) fun s c t => Elementwise s t c w [w.a, w.b] 6 fun f x r =>
    MinMaxGives f false (x w.a) (x w.b) r.1 ∧ r.2 = 0) ∧
  (∀ w : RF, Completes (.fmax w) fun s c t => Elementwise s t c w [w.a, w.b] 6 fun f x r =>
    MinMaxGives f true (x w.a) (x w.b) r.1 ∧ r.2 = 0) ∧
  (∀ w : RF, Completes (.fabs w) fun s c t => Elementwise s t c w [w.a] 6 fun f x r =>
    r = (if f.value (x w.a) = .nan then f.nan else x w.a % f.sbit, 0)) ∧
  (∀ w : RF, Completes (.fneg w) fun s c t => Elementwise s t c w [w.a] 6 fun f x r =>
    r = (if f.value (x w.a) = .nan then f.nan else (x w.a + f.sbit) % (2 * f.sbit), 0)) ∧
  (∀ w : RF, Completes (.frnd w) fun s c t => Elementwise s t c w [w.a] 6 fun f x r =>
    RndGives f (rmOf w) (x w.a) r) ∧
  (∀ w : RF, Completes (.fclass w) fun s c t => Elementwise s t c w [w.a] 6 fun _ x r =>
    let a := x w.a
    let E := a / 2 ^ 23 % 256
    let F := a % 2 ^ 23
    let N : Prop := a / 2 ^ 31 % 2 = 1
    r = (if E = 255 then (if F ≠ 0 then 256 else if N then 1 else 128) else if E ≠ 0 then (if N then 2 else 64)
      else if F ≠ 0 then (if N then 4 else 32) else if N then 8 else 16, 0)) ∧
  (∀ w : RF, Completes (.fscale w) fun s c t => Elementwise s t c w [w.a, w.b] 6 fun _ x r =>
    let a := x w.a
    (F32.value a = .nan → r = (F32.nan, 0)) ∧ (∀ n, F32.value a = .inf n → r = (a, 0)) ∧
    ∀ n m e, F32.value a = .fin n m e → (m = 0 → r = (a, 0)) ∧
      (m ≠ 0 → Rounds F32 (rmOf w) (satOf w) n m (e + (BitVec.ofNat 32 (x w.b)).toInt) r)) ∧
  (∀ w : RF, Completes (.fcmp w) fun s c t =>
    let m := w.md.toNat / 8 % 4
    let f := fmtOf w.ty.toNat
    FloatIn s t c w.g ([w.a.toNat, w.b.toNat] ++ if m = 0 then [] else [w.c.toNat]) w.d.toNat false 6 fun l =>
      let a := f.value (elem f.width (readField s c w.a.toNat l false) 0)
      let b := f.value (elem f.width (readField s c w.b.toNat l false) 0)
      let k := (readField s c w.c.toNat l false).getLsbD 0
      let un := a.isNan || b.isNan
      let lt := !un && FV.less false a b
      let gt := !un && FV.less false b a
      let q := w.md.toNat % 8
      let h : Bool := if q = 0 then !un && !lt && !gt else if q = 1 then un || lt || gt else if q = 2 then lt
        else if q = 3 then !un && !gt else if q = 4 then gt else if q = 5 then !un && !lt else if q = 6 then un else !un
      (if (if m = 0 then h else if m = 1 then h && k else if m = 2 then h || k else h ^^ k) then 1 else 0, 0)) ∧
  (∀ w : RF, Completes (.fdot2 w) fun s c t => ∃ r : Nat → Nat × Nat,
    FloatIn s t c w.g [w.a.toNat, w.b.toNat, w.c.toNat] w.d.toNat false 6 r ∧ ∀ l,
      let f := fmtOf w.ty.toNat
      let p (i : Nat) : FV × Bool := (f.value (elem 16 (readField s c w.a.toNat l false) i)).mul
        (f.value (elem 16 (readField s c w.b.toNat l false) i))
      SumGives F32 (rmOf w) (satOf w) [(p 0).1, (p 1).1, F32.value (readField s c w.c.toNat l false).toNat]
        ((p 0).2 || (p 1).2) (r l)) ∧
  (∀ w : RF, Completes (.dot4 w) fun s c t => ∃ r : Nat → Nat × Nat,
    FloatIn s t c w.g [w.a.toNat, w.b.toNat, w.c.toNat] w.d.toNat false 6 r ∧ ∀ l,
      let e (x : BitVec 8) (i : Nat) : Nat := elem 8 (readField s c x.toNat l false) i
      let k := readField s c w.c.toNat l false
      let f := fmtOf w.ty.toNat
      let p (i : Nat) : FV × Bool := (f.value (e w.a i)).mul (f.value (e w.b i))
      let b (x : Nat) : Int := if w.ty.toNat = 0 then (BitVec.ofNat 8 x).toInt else x
      let it := if w.ty.toNat = 0 then 2 else 3
      (13 ≤ w.ty.toNat → SumGives F32 (rmOf w) (satOf w) [(p 0).1, (p 1).1, (p 2).1, (p 3).1, F32.value k.toNat]
        ((p 0).2 || (p 1).2 || (p 2).2 || (p 3).2) (r l)) ∧
      (w.ty.toNat < 13 → r l = ((r66 it (satOf w) (b (e w.a 0) * b (e w.b 0) + b (e w.a 1) * b (e w.b 1) +
        b (e w.a 2) * b (e w.b 2) + b (e w.a 3) * b (e w.b 3) + asInt it k)).toNat, 0))) ∧
  (∃ F : Nat → Bool → Nat → Nat × Nat, (∀ rm st a, rm < 4 → a < 2 ^ 32 →
    RcpGives rm st a (F rm st a)) ∧
    ∀ w : RF, Completes (.frcp w) fun s c t => Elementwise s t c w [w.a] 16 fun _ x r => r = F (rmOf w) (satOf w) (x w.a)) ∧
  (∃ F : Nat → Bool → Nat → Nat × Nat, (∀ rm st a, rm < 4 → a < 2 ^ 32 →
    SpecialInputs a (fun n => F32.signed n F32.infPat) (0, 0) (F32.nan, flInvalid) (F rm st a) ∧
    ∀ n m e, F32.value a = .fin n m e → m ≠ 0 → (n = true → F rm st a = (F32.nan, flInvalid)) ∧
      (n = false → ∃ (M k m1 : Nat) (h : Int), SameMag m e m1 (2 * h) ∧ 2 ^ 26 ≤ M ∧ M * M * m1 ≤ 2 ^ (2 * k) ∧
        2 ^ (2 * k) < (M + 1) * (M + 1) * m1 ∧
        F rm st a = roundTo F32 rm st false M (-(k : Int) - h) (decide (M * M * m1 ≠ 2 ^ (2 * k))))) ∧
    ∀ w : RF, Completes (.frsq w) fun s c t => Elementwise s t c w [w.a] 16 fun _ x r => r = F (rmOf w) (satOf w) (x w.a)) ∧
  (∃ F : Nat → Bool → Nat → Nat × Nat, (∀ rm st a, rm < 4 → a < 2 ^ 32 →
    SpecialInputs a (fun n => F32.signed n 0) (F32.infPat, 0) (F32.nan, flInvalid) (F rm st a) ∧
    ∀ n m e, F32.value a = .fin n m e → m ≠ 0 → (n = true → F rm st a = (F32.nan, flInvalid)) ∧
      (n = false → ∃ (M m1 : Nat) (h : Int), SameMag m e m1 (2 * h) ∧ 2 ^ 26 ≤ M ∧ M * M ≤ m1 ∧ m1 < (M + 1) * (M + 1) ∧
        F rm st a = roundTo F32 rm st false M h (decide (M * M ≠ m1)))) ∧
    ∀ w : RF, Completes (.fsqrt w) fun s c t => Elementwise s t c w [w.a] 16 fun _ x r => r = F (rmOf w) (satOf w) (x w.a)) ∧
  (∃ F : Nat → Bool → Nat → Nat × Nat, (∀ rm st a, rm < 4 → a < 2 ^ 32 →
    Exp2Gives rm st a (F rm st a)) ∧
    ∀ w : RF, Completes (.fexp2 w) fun s c t => Elementwise s t c w [w.a] 16 fun _ x r => r = F (rmOf w) (satOf w) (x w.a)) ∧
  (∃ F : Nat → Bool → Nat → Nat × Nat, (∀ rm st a, rm < 4 → a < 2 ^ 32 →
    SpecialInputs a (fun _ => F32.signed true F32.infPat) (F32.infPat, 0) (F32.nan, flInvalid) (F rm st a) ∧
    ∀ n m e, F32.value a = .fin n m e → m ≠ 0 → (n = true → F rm st a = (F32.nan, flInvalid)) ∧
      (n = false → ∀ k : Int, SameMag m e 1 k → F rm st a = roundTo F32 rm st (decide (k < 0)) k.natAbs 0 false) ∧
      (n = false → (∀ k : Int, ¬SameMag m e 1 k) → (F rm st a).2.testBit 0 = true)) ∧
    ∀ w : RF, Completes (.flog2 w) fun s c t => Elementwise s t c w [w.a] 16 fun _ x r => r = F (rmOf w) (satOf w) (x w.a)) ∧
  (∃ F : Nat → Bool → Nat → Nat × Nat, (∀ rm st a, rm < 4 → a < 2 ^ 32 →
    SpecialInputs a (fun n => F32.signed n 0) (F32.nan, flInvalid) (F32.nan, flInvalid) (F rm st a) ∧
    ∀ n m e, F32.value a = .fin n m e → m ≠ 0 → (F rm st a).2.testBit 0 = true) ∧
    ∀ w : RF, Completes (.fsin w) fun s c t => Elementwise s t c w [w.a] 16 fun _ x r => r = F (rmOf w) (satOf w) (x w.a)) ∧
  (∃ F : Nat → Bool → Nat → Nat × Nat, (∀ rm st a, rm < 4 → a < 2 ^ 32 →
    SpecialInputs a (fun _ => 0x3F800000) (F32.nan, flInvalid) (F32.nan, flInvalid) (F rm st a) ∧
    ∀ n m e, F32.value a = .fin n m e → m ≠ 0 → (F rm st a).2.testBit 0 = true) ∧
    ∀ w : RF, Completes (.fcos w) fun s c t => Elementwise s t c w [w.a] 16 fun _ x r => r = F (rmOf w) (satOf w) (x w.a)) ∧
  (∃ F : Nat → Bool → Nat → Nat × Nat, (∀ rm st a, rm < 4 → a < 2 ^ 32 →
    SpecialInputs a (fun n => F32.signed n 0) (0x3F800000, 0) (F32.signed true 0x3F800000, 0) (F rm st a) ∧
    ∀ n m e, F32.value a = .fin n m e → m ≠ 0 → (F rm st a).2.testBit 0 = true ∧ ((F rm st a).1 < 2 ^ 31 ↔ n = false)) ∧
    ∀ w : RF, Completes (.ftanh w) fun s c t => Elementwise s t c w [w.a] 16 fun _ x r => r = F (rmOf w) (satOf w) (x w.a))

/-- O21. QSWPH, QSWPV, QSWPD and QBC move values inside each quad: Each completes; lane 4q + i, when it computes, receives
a from lane 4q + j with j = i XOR 1, i XOR 2, i XOR 3 or MOD[1:0], 4 cycles after issue; in protected mode a quad is eight
physical lanes and each side reads its own side. Nothing else changes. -/
def Obligations.QuadExchangeResults : Prop :=
  (∀ w : RF, Completes (.qswph w) fun s c t => OnlyPending s t ∧
    let pos (k : Nat) : Nat := k ^^^ 1
    ∀ l, l < 32 → laneCompute s c w.g l = true →
      let src := if protOf s c.u then 8 * (l / 8) + 2 * pos (l / 2 % 4) + l % 2 else 4 * (l / 4) + pos (l % 4)
      Lands t c w.d.toNat l false (readField s c w.a.toNat src false) 4) ∧
  (∀ w : RF, Completes (.qswpv w) fun s c t => OnlyPending s t ∧
    let pos (k : Nat) : Nat := k ^^^ 2
    ∀ l, l < 32 → laneCompute s c w.g l = true →
      let src := if protOf s c.u then 8 * (l / 8) + 2 * pos (l / 2 % 4) + l % 2 else 4 * (l / 4) + pos (l % 4)
      Lands t c w.d.toNat l false (readField s c w.a.toNat src false) 4) ∧
  (∀ w : RF, Completes (.qswpd w) fun s c t => OnlyPending s t ∧
    let pos (k : Nat) : Nat := k ^^^ 3
    ∀ l, l < 32 → laneCompute s c w.g l = true →
      let src := if protOf s c.u then 8 * (l / 8) + 2 * pos (l / 2 % 4) + l % 2 else 4 * (l / 4) + pos (l % 4)
      Lands t c w.d.toNat l false (readField s c w.a.toNat src false) 4) ∧
  (∀ w : RF, Completes (.qbc w) fun s c t => OnlyPending s t ∧
    let pos (_ : Nat) : Nat := w.md.toNat % 4
    ∀ l, l < 32 → laneCompute s c w.g l = true →
      let src := if protOf s c.u then 8 * (l / 8) + 2 * pos (l / 2 % 4) + l % 2 else 4 * (l / 4) + pos (l % 4)
      Lands t c w.d.toNat l false (readField s c w.a.toNat src false) 4)

/-- O22. The SHFL forms move values across a segment of W lanes: SHFL, SHFLU, SHFLD and SHFLX complete; lane l, when it
computes, receives a from lane base + (n mod W); l - n, or itself outside the segment; l + n, or itself outside the
segment; l XOR (n mod W), 8 cycles after issue, with n = b[4:0] of its own lane. In protected mode lanes are visible
lanes, each side reads its own, and visible lanes 16 to 31 read 0 (the model's choice, log 10). -/
def Obligations.ShuffleResults : Prop :=
  (∀ w : RF, Completes (.shfl w) fun s c t => OnlyPending s t ∧
    ∀ k, k < 32 → laneCompute s c w.g k = true →
      let prot := protOf s c.u
      let l := if prot then k / 2 else k
      let W : Nat := if w.md.toNat % 8 = 1 then 2 else if w.md.toNat % 8 = 2 then 4 else if w.md.toNat % 8 = 3 then 8
        else if w.md.toNat % 8 = 4 then 16 else 32
      let base := l - l % W
      let n := (readField s c w.b.toNat k false).toNat % 32
      let src : Nat := base + n % W
      Lands t c w.d.toNat k false (if prot ∧ 16 ≤ src then 0
        else readField s c w.a.toNat (if prot then 2 * src + k % 2 else src) false) 8) ∧
  (∀ w : RF, Completes (.shflu w) fun s c t => OnlyPending s t ∧
    ∀ k, k < 32 → laneCompute s c w.g k = true →
      let prot := protOf s c.u
      let l := if prot then k / 2 else k
      let W : Nat := if w.md.toNat % 8 = 1 then 2 else if w.md.toNat % 8 = 2 then 4 else if w.md.toNat % 8 = 3 then 8
        else if w.md.toNat % 8 = 4 then 16 else 32
      let base := l - l % W
      let n := (readField s c w.b.toNat k false).toNat % 32
      let src : Nat := if n ≥ W ∨ l - base < n then l else l - n
      Lands t c w.d.toNat k false (if prot ∧ 16 ≤ src then 0
        else readField s c w.a.toNat (if prot then 2 * src + k % 2 else src) false) 8) ∧
  (∀ w : RF, Completes (.shfld w) fun s c t => OnlyPending s t ∧
    ∀ k, k < 32 → laneCompute s c w.g k = true →
      let prot := protOf s c.u
      let l := if prot then k / 2 else k
      let W : Nat := if w.md.toNat % 8 = 1 then 2 else if w.md.toNat % 8 = 2 then 4 else if w.md.toNat % 8 = 3 then 8
        else if w.md.toNat % 8 = 4 then 16 else 32
      let base := l - l % W
      let n := (readField s c w.b.toNat k false).toNat % 32
      let src : Nat := if n ≥ W ∨ l + n ≥ base + W then l else l + n
      Lands t c w.d.toNat k false (if prot ∧ 16 ≤ src then 0
        else readField s c w.a.toNat (if prot then 2 * src + k % 2 else src) false) 8) ∧
  (∀ w : RF, Completes (.shflx w) fun s c t => OnlyPending s t ∧
    ∀ k, k < 32 → laneCompute s c w.g k = true →
      let prot := protOf s c.u
      let l := if prot then k / 2 else k
      let W : Nat := if w.md.toNat % 8 = 1 then 2 else if w.md.toNat % 8 = 2 then 4 else if w.md.toNat % 8 = 3 then 8
        else if w.md.toNat % 8 = 4 then 16 else 32
      let n := (readField s c w.b.toNat k false).toNat % 32
      let src : Nat := l ^^^ (n % W)
      Lands t c w.d.toNat k false (if prot ∧ 16 ≤ src then 0
        else readField s c w.a.toNat (if prot then 2 * src + k % 2 else src) false) 8)

/-- O23. VOTE and BALLOT form one value from the active lanes: VOTE and BALLOT complete: ANY, ALL and UNI of the predicate
over the lanes for which LaneActive holds (0, 1 and 1 for an empty lane set), and the mask of those with a = 1; an S
destination receives the value once, a V or P destination in every computing lane, 8 cycles after issue. In protected mode
each side of a lane pair has its own lanes and masks count visible lanes. Nothing else changes. -/
def Obligations.VoteAndBallotResults : Prop :=
  (∀ w : RF, Completes (.vote w) fun s c t =>
    let mine (k x : Nat) : Bool := laneActive s c w.g x && (!protOf s c.u || x % 2 == k % 2)
    let a (x : Nat) : Bool := s.p c.u (w.a.toNat - 0xA0) x
    let any (k : Nat) : Bool := (List.range 32).any fun x => mine k x && a x
    let all (k : Nat) : Bool := (List.range 32).all fun x => !mine k x || a x
    let value (k : Nat) : Word64 :=
      if (if w.md.toNat % 4 = 0 then any k else if w.md.toNat % 4 = 1 then all k else all k || !any k) then 1 else 0
    OnlyPending s t ∧
    (if w.d.toNat = 0xE0 ∨ isS c.u.lead w.d.toNat = true then Lands t c w.d.toNat 0 false (value 0) 8
      else ∀ l, l < 32 → laneCompute s c w.g l = true → Lands t c w.d.toNat l false (value l) 8)) ∧
  (∀ w : RF, Completes (.ballot w) fun s c t =>
    let prot := protOf s c.u
    ∃ mask : Nat → Word64,
      (∀ k i, (mask k).getLsbD i = (decide (i < if prot then 16 else 32) &&
        (let x := if prot then 2 * i + k % 2 else i
         laneActive s c w.g x && s.p c.u (w.a.toNat - 0xA0) x))) ∧
      OnlyPending s t ∧
    (if w.d.toNat = 0xE0 ∨ isS c.u.lead w.d.toNat = true then Lands t c w.d.toNat 0 false (mask 0) 8
      else ∀ l, l < 32 → laneCompute s c w.g l = true → Lands t c w.d.toNat l false (mask l) 8))

/-- O24. MATCH and LPOPC: MATCH gives each computing lane the mask of the active lanes that hold the same value at the
width of the type; LPOPC gives it the number of set bits of a[31:0] below its own lane. Both complete and land 8 cycles
after issue, and nothing else changes. In protected mode lanes are visible lanes and each side compares within its own
side. -/
def Obligations.MatchAndCountResults : Prop :=
  (∀ w : RF, Completes (.matchLanes w) fun s c t => OnlyPending s t ∧
    let prot := protOf s c.u
    ∃ mask : Nat → Word64,
      (∀ l i, l < 32 → (mask l).getLsbD i = (decide (i < if prot then 16 else 32) &&
        (let x := if prot then 2 * i + l % 2 else i
         laneActive s c w.g x && (rd s c w.ty.toNat w.a.toNat x == rd s c w.ty.toNat w.a.toNat l)))) ∧
      ∀ l, l < 32 → laneCompute s c w.g l = true → Lands t c w.d.toNat l false (mask l) 8) ∧
  (∀ w : RF, Completes (.lpopc w) fun s c t => OnlyPending s t ∧
    ∀ l, l < 32 → laneCompute s c w.g l = true →
      Lands t c w.d.toNat l false (BitVec.ofNat 64 (((List.range (if protOf s c.u then l / 2 else l)).filter fun i =>
        (readField s c w.a.toNat l false).getLsbD i).length)) 8)

/-- O25. WREDUCE.I32 and WSCAN.I32 add the active lanes modulo 2^32: With TY = I32, WREDUCE lands the sum of a over the
lanes for which LaneActive holds, modulo 2^32 (0 for an empty set), and WSCAN lands in every computing lane the sum over
the active lanes up to its own, both 20 cycles after issue, raising no flag; with TY = F32 WREDUCE of an empty lane set
lands -0.0. Each side of a protected warp adds its own lanes. -/
def Obligations.ReduceAndScanIntegers : Prop :=
  (∀ w : RF, Completes (.wreduce w) fun s c t => (w.ty.toNat = 2 → ∀ p ∈ t.pend, p ∈ s.pend ∨ p.file ≠ .flags) ∧
    let lanes (k : Nat) : List Nat := (List.range 32).filter fun x => laneActive s c w.g x && (!protOf s c.u || x % 2 == k % 2)
    let value (k : Nat) : Word64 :=
      if w.ty.toNat = 2 then BitVec.ofNat 64 (((lanes k).map fun x => (readField s c w.a.toNat x false).toNat).sum % 2 ^ 32)
      else 0x80000000#64
    (w.ty.toNat = 2 ∨ activeLanes s c w.g = []) → OnlyPending s t ∧
    (if w.d.toNat = 0xE0 ∨ isS c.u.lead w.d.toNat = true then Lands t c w.d.toNat 0 false (value 0) 20
      else ∀ l, l < 32 → laneCompute s c w.g l = true → Lands t c w.d.toNat l false (value l) 20)) ∧
  (∀ w : RF, Completes (.wscan w) fun s c t => w.ty.toNat = 2 →
    (∀ p ∈ t.pend, p ∈ s.pend ∨ p.file ≠ .flags) ∧
    OnlyPending s t ∧ ∀ l, l < 32 → laneCompute s c w.g l = true →
      let upto := (List.range 32).filter fun x => laneActive s c w.g x && decide (x ≤ l) && (!protOf s c.u || x % 2 == l % 2)
      Lands t c w.d.toNat l false
        (BitVec.ofNat 64 ((upto.map fun x => (readField s c w.a.toNat x false).toNat).sum % 2 ^ 32)) 20)

/-- O26. RDLANE, WRLANE and XMOV: RDLANE lands lane b[4:0] of A in S register D; WRLANE lands a in lane b[4:0] of D only, and
nowhere when no lane of the group is there; XMOV lands register A of warp n of the group, as it reads at issue, in D of the issuing warp, lane by lane or whole. All
complete, land 8 cycles after issue and change nothing else. In protected mode lane numbers are visible ones (lanes 16 to
31 read 0 and take nothing: the model's choice, log 10). -/
def Obligations.LaneAndWarpMoves : Prop :=
  (∀ w : RF, Completes (.rdlane w) fun s c t => OnlyPending s t ∧
    let i := (readField s c w.b.toNat 0 false).toNat % 32
    Lands t c w.d.toNat 0 true (if protOf s c.u then (if 16 ≤ i then 0 else rd s c w.ty.toNat w.a.toNat (2 * i))
      else rd s c w.ty.toNat w.a.toNat i) 8) ∧
  (∀ w : RF, Completes (.wrlane w) fun s c t => OnlyPending s t ∧
    let i := (readField s c w.b.toNat 0 false).toNat % 32
    let lanes := if lanePresent s c.u i = false then [] else if protOf s c.u then [2 * i, 2 * i + 1] else [i]
    (∀ l ∈ lanes, Lands t c w.d.toNat l (isWide w.ty.toNat) (rd s c w.ty.toNat w.a.toNat 0) 8) ∧
      ∀ p ∈ t.pend, p ∈ s.pend ∨ (p.file = .v ∧ p.lane ∈ lanes)) ∧
  (∀ w : RF, Completes (.xmov w) fun s c t => OnlyPending s t ∧
    ∀ g, s.groupOf c.u = some g →
      if isS c.u.lead w.a.toNat then
        Lands t c w.d.toNat 0 true (s.sr (warpId g (w.md.toNat % 4)) (w.a.toNat - 0x80)) 8
      else ∀ l, l < 32 → laneCompute s c w.g l = true →
        Lands t c w.d.toNat l false ((s.v (warpId g (w.md.toNat % 4)) w.a.toNat l).setWidth 64) 8)

/-- O27. LPUSH appends an entry at issue + 4, or drops a replay: A lead LPUSH whose guard holds completes; the lead's count
of pushes rises by one for each warp it names, one or with ALL every warp of the group; the queue of such a warp gets one
entry of a[63:0] that reads from issue + 4 on, and its push count rises by one, unless the lead's renewed count does not
exceed the push count: such a replay is dropped. The lead's other counts and fields, every other warp and every other unit
stay; with a false guard nothing changes. -/
def Obligations.DecisionQueuePush : Prop :=
  ∀ (w : RF) (s : State) (c : Cur) (g : Group) (x y : ExecUnit) (n : Nat), Issuing s c (.lpush w) →
    s.groupOf c.u = some g → s.unit? c.u = some x → c.u.lead = true → n < g.slots.length → n < x.push.length → g.slots.Nodup →
    s.unit? (warpId g n) = some y →
    let named (m : Nat) : Prop := w.md.getLsbD 2 = true ∨ w.md.toNat % 4 = m
    ∃ t, exec (.lpush w) s = .next t ∧ t = { s with units := t.units } ∧
      (guardLane s c.u w.g 0 = false → t = s) ∧
      (guardLane s c.u w.g 0 = true →
        (∃ z, t.unit? c.u = some { x with push := z } ∧ (∀ m, ¬named m → z.getD m 0 = x.push.getD m 0) ∧
          (named n → z.getD n 0 = x.push.getD n 0 + 1)) ∧
        (¬named n → t.unit? (warpId g n) = some y) ∧
        (named n → t.unit? (warpId g n) = some (if x.push.getD n 0 + 1 ≤ y.ps then y
          else { y with ps := y.ps + 1, dq := y.dq ++ [(y.ps, c.cycle + 4, readU s c w.a.toNat)] })) ∧
        ∀ v, v ≠ c.u → (∀ m, m < g.slots.length → named m → v ≠ warpId g m) → t.unit? v = s.unit? v)

/-- O28. DQPOP and BRD take the head entry; an empty queue traps and pops nothing: With an entry appended at or before the
issue cycle, DQPOP lands it in its S register at issue + 4 and BRD branches on it (non-zero, or zero with NEG), and the
pop count rises by one; with none, both take the decision-underrun trap, kind 4, and the pop count and every register
stay. That an entry whose append cycle, push + 4, is the issue cycle itself is found is read by inference (log 103). -/
def Obligations.DecisionQueuePop : Prop :=
  (∀ (w : RF) (s : State) (c : Cur) (x : ExecUnit), Issuing s c (.dqpop w) → s.unit? c.u = some x →
    ∃ t, exec (.dqpop w) s = .next t ∧ SameMemory s t ∧ SameRegisters s t ∧
      ∃ y, t.unit? c.u = some y ∧
        match x.dq.find? fun e => e.1 == x.pp && decide (e.2.1 ≤ c.cycle) with
        | some e => Lands t c w.d.toNat 0 true e.2.2 4 ∧ y = { x with pp := x.pp + 1 }
        | none => y.pp = x.pp ∧ t.pend = s.pend ∧ ∃ p, y.stop = some p ∧ p.kind = 4 ∧ p.cycle = c.cycle ∧ p.pc = c.pc) ∧
  (∀ (w : BF) (s : State) (c : Cur) (x : ExecUnit) (r : ClauseRun), Issuing s c (.brd w) → s.unit? c.u = some x →
    x.clause = some r →
    ∃ t, exec (.brd w) s = .next t ∧ SameMemory s t ∧ SameRegisters s t ∧ t.pend = s.pend ∧
      ∃ y, t.unit? c.u = some y ∧
        match x.dq.find? fun e => e.1 == x.pp && decide (e.2.1 ≤ c.cycle) with
        | some e => y = { x with
            pp := x.pp + 1
            clause := some (if (e.2.2 ≠ 0 ↔ w.cond.getLsbD 0 = false) then { r with xfer := .goto (branchTarget c w.off) } else r) }
        | none => y.pp = x.pp ∧ ∃ p, y.stop = some p ∧ p.kind = 4 ∧ p.cycle = c.cycle)

/-- O29. FABS and FNEG act on the sign; a NaN becomes canonical: FABS.F32 clears and FNEG.F32 flips the sign bit of every
operand that is no NaN, infinities, zeros and subnormals among them, and gives the canonical NaN 0x7FC0_0000 for a NaN; no
flag is raised, and the result lands 6 cycles after issue. -/
def Obligations.FloatSigns : Prop :=
  let nan (x : Word64) : Prop := x &&& 0x7F800000#64 = 0x7F800000#64 ∧ x &&& 0x7FFFFF#64 ≠ 0
  (∀ w : RF, w.ty.toNat = 8 → Completes (.fabs w) fun s c t => (∀ p ∈ t.pend, p ∈ s.pend ∨ p.file ≠ .flags) ∧
    ∃ f, ResultIn s t c w.g [w.a.toNat] w.d.toNat false 6 f ∧ ∀ l, let a := readField s c w.a.toNat l false
      (nan a → f l = 0x7FC00000#64) ∧ (¬nan a → f l = a &&& 0x7FFFFFFF#64)) ∧
  (∀ w : RF, w.ty.toNat = 8 → Completes (.fneg w) fun s c t => (∀ p ∈ t.pend, p ∈ s.pend ∨ p.file ≠ .flags) ∧
    ∃ f, ResultIn s t c w.g [w.a.toNat] w.d.toNat false 6 f ∧ ∀ l, let a := readField s c w.a.toNat l false
      (nan a → f l = 0x7FC00000#64) ∧ (¬nan a → f l = a ^^^ 0x80000000#64))

/-- O30. A NaN operand of F32 arithmetic gives the canonical NaN: FADD, FSUB, FMUL, FFMA, FSCALE (of its first operand),
FRND, FRCP, FRSQ, FSQRT, FEXP2, FLOG2, FSIN, FCOS and FTANH of F32 complete, and wherever an operand is a NaN the result
that lands is 0x7FC0_0000, whatever the operand's payload; FMIN and FMAX give it when both operands are NaNs. -/
def Obligations.NanOperandsGiveTheCanonicalNan : Prop :=
  let nan (x : Word64) : Prop := x &&& 0x7F800000#64 = 0x7F800000#64 ∧ x &&& 0x7FFFFF#64 ≠ 0
  (∀ w : RF, Completes (.fadd w) fun s c t => w.ty.toNat = 8 →
    ∃ f, ResultIn s t c w.g [w.a.toNat, w.b.toNat] w.d.toNat false 6 f ∧
      ∀ l, nan (readField s c w.a.toNat l false) ∨ nan (readField s c w.b.toNat l false) → f l = 0x7FC00000#64) ∧
  (∀ w : RF, Completes (.fsub w) fun s c t => w.ty.toNat = 8 →
    ∃ f, ResultIn s t c w.g [w.a.toNat, w.b.toNat] w.d.toNat false 6 f ∧
      ∀ l, nan (readField s c w.a.toNat l false) ∨ nan (readField s c w.b.toNat l false) → f l = 0x7FC00000#64) ∧
  (∀ w : RF, Completes (.fmul w) fun s c t => w.ty.toNat = 8 →
    ∃ f, ResultIn s t c w.g [w.a.toNat, w.b.toNat] w.d.toNat false 6 f ∧
      ∀ l, nan (readField s c w.a.toNat l false) ∨ nan (readField s c w.b.toNat l false) → f l = 0x7FC00000#64) ∧
  (∀ w : RF, Completes (.ffma w) fun s c t => w.ty.toNat = 8 →
    ∃ f, ResultIn s t c w.g [w.a.toNat, w.b.toNat, w.c.toNat] w.d.toNat false 6 f ∧
      ∀ l, nan (readField s c w.a.toNat l false) ∨ nan (readField s c w.b.toNat l false) ∨ nan (readField s c w.c.toNat l false) →
        f l = 0x7FC00000#64) ∧
  (∀ w : RF, Completes (.fscale w) fun s c t => w.ty.toNat = 8 →
    ∃ f, ResultIn s t c w.g [w.a.toNat, w.b.toNat] w.d.toNat false 6 f ∧
      ∀ l, nan (readField s c w.a.toNat l false) → f l = 0x7FC00000#64) ∧
  (∀ (i : Instr) (w : RF), i = .fmin w ∨ i = .fmax w → Completes i fun s c t => w.ty.toNat = 8 →
    ∃ f, ResultIn s t c w.g [w.a.toNat, w.b.toNat] w.d.toNat false 6 f ∧
      ∀ l, nan (readField s c w.a.toNat l false) ∧ nan (readField s c w.b.toNat l false) → f l = 0x7FC00000#64) ∧
  (∀ w : RF, Completes (.frnd w) fun s c t => w.ty.toNat = 8 →
    ∃ f, ResultIn s t c w.g [w.a.toNat] w.d.toNat false 6 f ∧
      ∀ l, nan (readField s c w.a.toNat l false) → f l = 0x7FC00000#64) ∧
  (∀ w : RF, Completes (.frcp w) fun s c t => w.ty.toNat = 8 →
    ∃ f, ResultIn s t c w.g [w.a.toNat] w.d.toNat false 16 f ∧
      ∀ l, nan (readField s c w.a.toNat l false) → f l = 0x7FC00000#64) ∧
  (∀ w : RF, Completes (.frsq w) fun s c t => w.ty.toNat = 8 →
    ∃ f, ResultIn s t c w.g [w.a.toNat] w.d.toNat false 16 f ∧
      ∀ l, nan (readField s c w.a.toNat l false) → f l = 0x7FC00000#64) ∧
  (∀ w : RF, Completes (.fsqrt w) fun s c t => w.ty.toNat = 8 →
    ∃ f, ResultIn s t c w.g [w.a.toNat] w.d.toNat false 16 f ∧
      ∀ l, nan (readField s c w.a.toNat l false) → f l = 0x7FC00000#64) ∧
  (∀ w : RF, Completes (.fexp2 w) fun s c t => w.ty.toNat = 8 →
    ∃ f, ResultIn s t c w.g [w.a.toNat] w.d.toNat false 16 f ∧
      ∀ l, nan (readField s c w.a.toNat l false) → f l = 0x7FC00000#64) ∧
  (∀ w : RF, Completes (.flog2 w) fun s c t => w.ty.toNat = 8 →
    ∃ f, ResultIn s t c w.g [w.a.toNat] w.d.toNat false 16 f ∧
      ∀ l, nan (readField s c w.a.toNat l false) → f l = 0x7FC00000#64) ∧
  (∀ w : RF, Completes (.fsin w) fun s c t => w.ty.toNat = 8 →
    ∃ f, ResultIn s t c w.g [w.a.toNat] w.d.toNat false 16 f ∧
      ∀ l, nan (readField s c w.a.toNat l false) → f l = 0x7FC00000#64) ∧
  (∀ w : RF, Completes (.fcos w) fun s c t => w.ty.toNat = 8 →
    ∃ f, ResultIn s t c w.g [w.a.toNat] w.d.toNat false 16 f ∧
      ∀ l, nan (readField s c w.a.toNat l false) → f l = 0x7FC00000#64) ∧
  (∀ w : RF, Completes (.ftanh w) fun s c t => w.ty.toNat = 8 →
    ∃ f, ResultIn s t c w.g [w.a.toNat] w.d.toNat false 16 f ∧
      ∀ l, nan (readField s c w.a.toNat l false) → f l = 0x7FC00000#64)

/-- O31. LDS and LDSB land what scratch holds, and out-of-range lanes read 0: A plain LDS whose active lanes are aligned
and read no poisoned byte completes: at one cycle, 12 or more after issue, every computing lane receives the bytes at its
address in the core's own scratch when it is active and in range, and 0 otherwise; LDSB lands its one value at issue + 12.
No memory and no landed register changes. -/
def Obligations.ScratchLoads : Prop :=
  (∀ w : MF, Completes (.lds w) fun s c t =>
    let n := 2 ^ w.sz.toNat
    let ad := lineAddr s c w w.off.toInt
    w.sco ≠ 1 → Aligned s c w.g ad n → (∀ l, s.scrPoisoned c.u.die c.u.core (ad l % 2 ^ 19) n = false) →
    SameMemory s t ∧ SameRegisters s t ∧ SameSystem s t ∧ ∃ lat, 12 ≤ lat ∧ ∀ l, l < 32 → laneCompute s c w.g l = true →
      let o := if protOf s c.u then l / 2 * 2 else l
      LandsBytes t c w.data.toNat l n
        (if laneActive s c w.g l = true ∧ laneActive s c w.g o = true ∧ laneInRange s c true n (ad o) = true
         then s.scratch.readN (scrAddr c.u.die c.u.core (ad o % 2 ^ 19)) n else 0) lat) ∧
  (∀ w : MF, Completes (.ldsb w) fun s c t =>
    let n := 2 ^ w.sz.toNat
    let a := lineAddr s c w w.off.toInt 0
    a % n = 0 → s.scrPoisoned c.u.die c.u.core (a % 2 ^ 19) n = false →
    SameMemory s t ∧ SameRegisters s t ∧ SameSystem s t ∧
      Lands t c w.data.toNat 0 true (if laneInRange s c true n a = true
        then BitVec.ofNat 64 (s.scratch.readN (scrAddr c.u.die c.u.core (a % 2 ^ 19)) n) else 0) 12)

/-- O32. STS and the ATOMS family store what their in-range lanes give and nothing else: A plain STS whose active lanes are
aligned completes: the bytes at each in-range lane's address hold its data, the highest lane's where several name one address;
every other byte of scratch, HBM4, host memory and the code store reads as before, and so does every register and pending
write. Each ATOMS completes when its active lanes are aligned and name no poisoned byte: where one in-range lane alone names a
location, the location then holds F(m, b, c) of Table 9.3 (sum and difference modulo 2^w, smaller and larger as I32 or N32, the F32
and F16x2 sums rounded to nearest, the F32 smaller and larger of FMIN and FMAX, bitwise AND, OR, XOR, b, or b when m = c) and the
lane's old value m lands; lanes that are not in range receive 0; every other byte reads as before. What is stored reads back in
every state whose memories are in their canonical form (the invariant of O5). -/
def Obligations.ScratchStoresAndAtomics : Prop :=
  let frame (s : State) (c : Cur) (t : State) (w : RF) : Prop :=
    let n := if w.ty.toNat = 7 then 8 else 4
    let ad (l : Nat) : Nat := (readField s c w.a.toNat l false).toNat
    Aligned s c w.g ad n → (∀ l, s.scrPoisoned c.u.die c.u.core (ad l % 2 ^ 19) n = false) →
    SameRegisters s t ∧ t.hbm = s.hbm ∧ t.hostMem = s.hostMem ∧ t.code = s.code ∧ SameSystem s t ∧
      ∀ x, (∀ l ∈ realLanes s c w.g, laneInRange s c true n (ad l) = true → ¬Touches c (ad l) n x) →
        t.scratch.read x = s.scratch.read x
  let atomic (s : State) (c : Cur) (t : State) (w : RF) (F : Word64 → Word64 → Word64 → Nat → Prop) : Prop :=
    let n := if w.ty.toNat = 7 then 8 else 4
    let ad (l : Nat) : Nat := (readField s c w.a.toNat l false).toNat
    let old (l : Nat) : Word64 := BitVec.ofNat 64 (s.scratch.readN (scrAddr c.u.die c.u.core (ad l % 2 ^ 19)) n)
    let opd (r : BitVec 8) (l : Nat) : Word64 := if r = 0xFF then 0 else readField s c r.toNat l (n == 8)
    s.memWf → Aligned s c w.g ad n → (∀ l, s.scrPoisoned c.u.die c.u.core (ad l % 2 ^ 19) n = false) →
    ∃ lat, 12 ≤ lat ∧ ∀ l ∈ realLanes s c w.g,
      (laneInRange s c true n (ad l) = false → LandsBytes t c w.d.toNat l n 0 lat) ∧
      (laneInRange s c true n (ad l) = true →
        (∀ k ∈ realLanes s c w.g, k ≠ l → laneInRange s c true n (ad k) = true → ad k % 2 ^ 19 ≠ ad l % 2 ^ 19) →
        LandsBytes t c w.d.toNat l n (old l).toNat lat ∧
          F (old l) (opd w.b l) (opd w.c l) (t.scratch.readN (scrAddr c.u.die c.u.core (ad l % 2 ^ 19)) n))
  let is (w : RF) (x : Word64) (v : Nat) : Prop := v = x.toNat % 2 ^ (if w.ty.toNat = 7 then 64 else 32)
  let sum (f : Fmt) (m b v : Nat) : Prop := ∃ fl, SumGives f 0 false [f.value m, f.value b] false (v, fl)
  (∀ w : MF, Completes (.sts w) fun s c t =>
    let n := 2 ^ w.sz.toNat
    let ad := lineAddr s c w w.off.toInt
    let stores (l : Nat) : Prop := l ∈ realLanes s c w.g ∧ laneInRange s c true n (ad l) = true
    s.memWf → w.sco ≠ 1 → Aligned s c w.g ad n →
    SameRegisters s t ∧ t.pend = s.pend ∧ t.hbm = s.hbm ∧ t.hostMem = s.hostMem ∧ t.code = s.code ∧ SameSystem s t ∧
      (∀ x, (∀ l, stores l → ¬Touches c (ad l) n x) → t.scratch.read x = s.scratch.read x) ∧
      (∀ l, stores l → (∀ k, stores k → l < k → ad k % 2 ^ 19 ≠ ad l % 2 ^ 19) →
        t.scratch.readN (scrAddr c.u.die c.u.core (ad l % 2 ^ 19)) n = dataOf s c w.data.toNat l n)) ∧
  (∀ (w : RF) (i : Instr), i = .atomsAdd w ∨ i = .atomsSub w ∨ i = .atomsMin w ∨ i = .atomsMax w ∨ i = .atomsAnd w ∨ i = .atomsOr w ∨ i = .atomsXor w ∨ i = .atomsExch w ∨ i = .atomsCas w →
    Completes i fun s c t => frame s c t w) ∧
  (∀ w : RF, Completes (.atomsAdd w) fun s c t => atomic s c t w fun m b _ v =>
    if w.ty.toNat = 8 then sum F32 m.toNat b.toNat v
    else if w.ty.toNat = 11 then v < 2 ^ 32 ∧
      ∀ i, i < 2 → sum F16 (m.toNat / 65536 ^ i % 65536) (b.toNat / 65536 ^ i % 65536) (v / 65536 ^ i % 65536)
    else is w (m + b) v) ∧
  (∀ w : RF, Completes (.atomsSub w) fun s c t => atomic s c t w fun m b _ => is w (m - b)) ∧
  (∀ w : RF, Completes (.atomsMin w) fun s c t => atomic s c t w fun m b _ v =>
    if w.ty.toNat = 8 then MinMaxGives F32 false m.toNat b.toNat v
    else is w (if (if w.ty.toNat = 2 then (m.setWidth 32).toInt ≤ (b.setWidth 32).toInt else m.toNat ≤ b.toNat) then m else b) v) ∧
  (∀ w : RF, Completes (.atomsMax w) fun s c t => atomic s c t w fun m b _ v =>
    if w.ty.toNat = 8 then MinMaxGives F32 true m.toNat b.toNat v
    else is w (if (if w.ty.toNat = 2 then (m.setWidth 32).toInt ≤ (b.setWidth 32).toInt else m.toNat ≤ b.toNat) then b else m) v) ∧
  (∀ w : RF, Completes (.atomsAnd w) fun s c t => atomic s c t w fun m b _ => is w (m &&& b)) ∧
  (∀ w : RF, Completes (.atomsOr w) fun s c t => atomic s c t w fun m b _ => is w (m ||| b)) ∧
  (∀ w : RF, Completes (.atomsXor w) fun s c t => atomic s c t w fun m b _ => is w (m ^^^ b)) ∧
  (∀ w : RF, Completes (.atomsExch w) fun s c t => atomic s c t w fun _ b _ => is w b) ∧
  (∀ w : RF, Completes (.atomsCas w) fun s c t => atomic s c t w fun m b k => is w (if m = k then b else m))

/-- O33. One rounding delivers the value that the mode names, its overflow case and its flags: For every format, mode and non-zero
exact value: when the value rounded without an upper bound does not exceed the largest finite value, the result is a finite pattern
of its sign: in RN no finite pattern is nearer and a tie goes to the even pattern, in RZ it is the nearest not greater in magnitude,
in RU the nearest not less and in RD the nearest not greater; otherwise it is infinity (in E4M3 the canonical NaN), the largest
finite value under SAT, or the largest finite value in the modes that round toward zero there. Overflow is raised in that case
alone, inexact when the result differs from the exact value, underflow when moreover the exact value is below the smallest normal
value. Zero gives a zero of its sign and no flag. A value strictly between m·2^e and (m+1)·2^e, said by the sticky bit, rounds as
any such value does. -/
def Obligations.RoundingIsCorrect : Prop :=
  ∀ (f : Fmt) (rm : Nat) (st neg : Bool) (m : Nat) (e : Int), (f = F32 ∨ f = F16 ∨ f = BF16 ∨ f = E4M3 ∨ f = E5M2) → rm < 4 →
    (roundTo f rm st neg 0 e false = (f.signed neg 0, 0)) ∧
    (roundTo f rm st neg m e true = roundTo f rm st neg (4 * m + 1) (e - 2) false) ∧
    (m ≠ 0 →
      let r := roundTo f rm st neg m e false
      let x : Dy := (if neg then -(m : Int) else m, e)
      let mag : Dy := ((m : Int), e)
      let v (p : Nat) : Dy := (f.value p).dy
      let finite (p : Nat) : Prop := p < 2 * f.sbit ∧ ∃ n k j, f.value p = .fin n k j
      let dist (p : Nat) : Dy :=
        let d := Dy.add x (-(v p).1, (v p).2)
        ((d.1.natAbs : Int), d.2)
      let le (a b : Dy) : Prop := Dy.lt b a = false
      let M := 2 ^ f.p + f.maxPat % 2 ^ f.p
      let E : Int := (f.maxPat / 2 ^ f.p : Nat) - f.bias - f.p
      let away : Bool := (rm == 2 && !neg) || (rm == 3 && neg)
      let big : Prop := if rm = 0 then (if M % 2 = 1 then le (2 * (M : Int) + 1, E - 1) mag else ¬le mag (2 * (M : Int) + 1, E - 1))
        else if away then ¬le mag ((M : Int), E) else le ((M : Int) + 1, E) mag
      (big → r = (if rm = 0 ∨ away = true then (if st then f.signed neg f.maxPat else if f.fin then f.nan else f.signed neg f.infPat)
        else f.signed neg f.maxPat, flOverflow + flInexact)) ∧
      (¬big → finite r.1 ∧ (r.1 / f.sbit % 2 = 1 ↔ neg = true) ∧
        (rm = 0 → ∀ p, finite p → le (dist r.1) (dist p) ∧ (le (dist p) (dist r.1) → v p ≠ v r.1 → r.1 % 2 = 0)) ∧
        (rm = 1 ∧ neg = false ∨ rm = 3 → le (v r.1) x ∧ ∀ p, finite p → le (v p) x → le (v p) (v r.1)) ∧
        (rm = 1 ∧ neg = true ∨ rm = 2 → le x (v r.1) ∧ ∀ p, finite p → le x (v p) → le (v r.1) (v p)) ∧
        let exact : Prop := le (v r.1) x ∧ le x (v r.1)
        let tiny : Prop := ¬le (1, 1 - (f.bias : Int)) mag
        r.2 = if exact then 0 else if tiny then flUnderflow + flInexact else flInexact))

/-- O34. A misaligned active lane takes the misaligned-access trap and nothing is accessed: LDS, STS and ATOMS on scratch,
LDG, STG and ATOMG on memory, and RLD, RST and RATOM to a peer: when some active lane's address is no multiple of the
access size, the instruction traps with kind 6 and LANES naming exactly those lanes; LDSB and CPYST, whose one address is
uniform, likewise, and no byte, register or operation changes. -/
def Obligations.MisalignedAccessTraps : Prop :=
  (∀ (w : MF) (i : Instr) (ad : State → Cur → Nat → Nat),
    (i = .lds w ∨ i = .sts w) ∧ ad = (fun s c => if w.sco = 1 then lineAddr s c w (w.off.setWidth 14).toInt
        else lineAddr s c w w.off.toInt) ∨
    (i = .ldg w ∨ i = .stg w) ∧ ad = (fun s c => globAddr s c w) ∨
    (i = .rld w ∨ i = .rst w) ∧ ad = (fun s c l =>
      wrap 64 (((readField s c w.index.toNat l true).toNat : Int) + (w.off.setWidth 14).toInt)) →
    Completes i fun s c t => ¬Aligned s c w.g (ad s c) (2 ^ w.sz.toNat) →
      Trapped s t c 6 fun p => ∀ l, l < 32 →
        p.lanes.getLsbD l = (laneActive s c w.g l && decide (ad s c l % 2 ^ w.sz.toNat ≠ 0))) ∧
  (∀ (w : RF) (i : Instr) (wide : Bool), (i = .atomsAdd w ∨ i = .atomsSub w ∨ i = .atomsMin w ∨ i = .atomsMax w ∨ i = .atomsAnd w ∨ i = .atomsOr w ∨ i = .atomsXor w ∨ i = .atomsExch w ∨ i = .atomsCas w) ∧ wide = false ∨
      (i = .atomgAdd w ∨ i = .atomgSub w ∨ i = .atomgMin w ∨ i = .atomgMax w ∨ i = .atomgAnd w ∨ i = .atomgOr w ∨ i = .atomgXor w ∨ i = .atomgExch w ∨ i = .atomgCas w) ∧ wide = true →
    Completes i fun s c t =>
      let n := if w.ty.toNat = 7 then 8 else 4
      let ad (l : Nat) : Nat := (readField s c w.a.toNat l wide).toNat
      ¬Aligned s c w.g ad n → Trapped s t c 6 fun p => ∀ l, l < 32 →
        p.lanes.getLsbD l = (laneActive s c w.g l && decide (ad l % n ≠ 0))) ∧
  (∀ (w : RatomF) (i : Instr), i = .ratomAdd w ∨ i = .ratomSub w ∨ i = .ratomMin w ∨ i = .ratomMax w ∨ i = .ratomAnd w ∨ i = .ratomOr w ∨ i = .ratomXor w ∨ i = .ratomExch w ∨ i = .ratomCas w →
    Completes i fun s c t =>
      let n := if w.ty.toNat = 7 then 8 else 4
      let ad (l : Nat) : Nat := (readField s c w.a.toNat l true).toNat
      ¬Aligned s c w.g ad n → Trapped s t c 6 fun p => ∀ l, l < 32 →
        p.lanes.getLsbD l = (laneActive s c w.g l && decide (ad l % n ≠ 0))) ∧
  (∀ w : MF, Completes (.ldsb w) fun s c t =>
    lineAddr s c w w.off.toInt 0 % 2 ^ w.sz.toNat ≠ 0 → Trapped s t c 6 fun p => p.lanes = 0) ∧
  (∀ w : CpystF, Completes (.cpyst w) fun s c t =>
    Acts s c w.g → (readU s c w.addr.toNat).toNat % 8 ≠ 0 → Trapped s t c 6 fun p => p.lanes = 0)

/-- O35. A global, remote or team access with no active lane does nothing: When no lane is active, LDG, STG, ATOMG, RLD,
RST, RATOM, the team forms of LDS and STS, and PROBE of V registers complete and change nothing at all: they access
nothing, are not probed and cannot fault. -/
def Obligations.NoActiveLaneNoAccess : Prop :=
  (∀ (w : MF) (i : Instr), i = .ldg w ∨ i = .stg w ∨ i = .rld w ∨ i = .rst w ∨ (i = .lds w ∨ i = .sts w) ∧ w.sco = 1 →
    Completes i fun s c t => (∀ l, l < 32 → laneActive s c w.g l = false) → t = s) ∧
  (∀ (w : RF) (i : Instr), i = .atomgAdd w ∨ i = .atomgSub w ∨ i = .atomgMin w ∨ i = .atomgMax w ∨ i = .atomgAnd w ∨ i = .atomgOr w ∨ i = .atomgXor w ∨ i = .atomgExch w ∨ i = .atomgCas w →
    Completes i fun s c t => (∀ l, l < 32 → laneActive s c w.g l = false) → t = s) ∧
  (∀ (w : RatomF) (i : Instr), i = .ratomAdd w ∨ i = .ratomSub w ∨ i = .ratomMin w ∨ i = .ratomMax w ∨ i = .ratomAnd w ∨ i = .ratomOr w ∨ i = .ratomXor w ∨ i = .ratomExch w ∨ i = .ratomCas w →
    Completes i fun s c t => (∀ l, l < 32 → laneActive s c w.g l = false) → t = s) ∧
  (∀ w : RF, Completes (.probe w) fun s c t =>
    isS false w.a.toNat = false → (∀ l, l < 32 → laneActive s c w.g l = false) → t = s)

/-- O36. LDG starts a counted load; STG and ATOMG are held in the stopper: With an active lane, every lane aligned and no
lane found faulted at its probe, LDG starts a load on its counter, and STG and ATOMG put one entry into the stopper that
leaves 384 cycles after issue, ATOMG on K15; the operation carries size, order, scope, destination and each lane's address
and data, and the counter rises at issue. No register or byte of memory changes. -/
def Obligations.GlobalAccesses : Prop :=
  let fine (s : State) (c : Cur) (g : Guard) (need n : Nat) (ad : Nat → Nat) : Prop :=
    activeLanes s c g ≠ [] ∧ Aligned s c g ad n ∧
      ∀ l ∈ realLanes s c g, (probeLane s c.u.die c.u.core (c.u.slot * 32 + l) (curGroup s c).2 (schedOf s c) need
        (laneReq l (ad l) 0 0)).st ≠ .faulted
  (∀ w : MF, Completes (.ldg w) fun s c t => fine s c w.g 0 (2 ^ w.sz.toNat) (globAddr s c w) →
    Started s t c .load fun o => o.k = some (w.off.toNat / 2 ^ 14) ∧ o.size = 2 ^ w.sz.toNat ∧ o.ord = w.ord.toNat ∧
      o.sco = w.sco.toNat ∧ o.dest = w.data.toNat ∧
      o.lanes.map (fun l => (l.lane, l.addr)) = (realLanes s c w.g).map fun l => (l, globAddr s c w l)) ∧
  (∀ w : MF, Completes (.stg w) fun s c t => fine s c w.g 1 (2 ^ w.sz.toNat) (globAddr s c w) → NewEntry s c →
    HeldBy s t c .store fun o => o.k = some (w.off.toNat / 2 ^ 14) ∧ o.size = 2 ^ w.sz.toNat ∧ o.ord = w.ord.toNat ∧
      o.sco = w.sco.toNat ∧ o.lanes.map (fun l => (l.lane, l.addr, l.data)) =
        (realLanes s c w.g).map fun l => (l, globAddr s c w l, dataOf s c w.data.toNat l (2 ^ w.sz.toNat))) ∧
  (∀ (w : RF) (i : Instr) (fn : Nat), i = .atomgAdd w ∧ fn = 0 ∨ i = .atomgSub w ∧ fn = 1 ∨ i = .atomgMin w ∧ fn = 2 ∨ i = .atomgMax w ∧ fn = 3 ∨ i = .atomgAnd w ∧ fn = 4 ∨ i = .atomgOr w ∧ fn = 5 ∨ i = .atomgXor w ∧ fn = 6 ∨ i = .atomgExch w ∧ fn = 7 ∨ i = .atomgCas w ∧ fn = 8 →
    Completes i fun s c t =>
      let n := if w.ty.toNat = 7 then 8 else 4
      let ad (l : Nat) : Nat := (readField s c w.a.toNat l true).toNat
      fine s c w.g 2 n ad → NewEntry s c →
      HeldBy s t c .atomic fun o => o.k = some 15 ∧ o.fn = fn ∧ o.ty = w.ty.toNat ∧ o.size = n ∧ o.dest = w.d.toNat ∧
        o.lanes.map (fun l => (l.lane, l.addr, l.data, l.cmp)) = (realLanes s c w.g).map fun l =>
          (l, ad l, atomOpnd s c w.b.toNat l n, atomOpnd s c w.c.toNat l n))

/-- O37. RLD, RST and RATOM are held in the stopper; a bad address or peer traps: With an active lane, every lane aligned,
addresses below 2^56 and peers in the pod, RLD, RST and RATOM put one entry into the stopper that leaves 384 cycles after
issue, RATOM on K15, with each lane's peer, address and data. An address with a bit of [63:56] set takes the translation
trap, kind 7 cause 3; otherwise a peer above 127, of this module or outside POD.PODMASK the permission trap, kind 8 cause
6, naming those lanes. -/
def Obligations.RemoteAccesses : Prop :=
  let act (s : State) (c : Cur) (g : Guard) (l : Nat) : Prop := l < 32 ∧ laneActive s c g l = true
  let okPeer (s : State) (p : Nat) : Prop := p < 128 ∧ p ≠ s.modl ∧ s.podmask.testBit p = true
  let outcome (s : State) (c : Cur) (t : State) (g : Guard) (n : Nat) (ad peer : Nat → Nat) (kind : OpKind) (P : Op → Prop) : Prop :=
    Aligned s c g ad n → (∃ l, act s c g l) →
      ((∃ l, act s c g l ∧ 2 ^ 56 ≤ ad l) → (Trapped s t c 7 fun p => p.sub = 3 ∧
        ∀ l, l < 32 → p.lanes.getLsbD l = (laneActive s c g l && decide (2 ^ 56 ≤ ad l)))) ∧
      ((∀ l, act s c g l → ad l < 2 ^ 56) → (∃ l, act s c g l ∧ ¬okPeer s (peer l)) → (Trapped s t c 8 fun p => p.sub = 6 ∧
        ∀ l, l < 32 → (p.lanes.getLsbD l = true ↔ act s c g l ∧ ¬okPeer s (peer l)))) ∧
      ((∀ l, act s c g l → ad l < 2 ^ 56 ∧ okPeer s (peer l)) → NewEntry s c → HeldBy s t c kind fun o => P o ∧ o.size = n ∧
        o.sco = 4 ∧ o.lanes.map (fun l => (l.lane, l.addr, l.peer)) = (realLanes s c g).map fun l => (l, ad l, peer l))
  (∀ w : MF, Completes (.rld w) fun s c t => outcome s c t w.g (2 ^ w.sz.toNat)
    (fun l => wrap 64 (((readField s c w.index.toNat l true).toNat : Int) + (w.off.setWidth 14).toInt))
    (peerOf s c w.base.toNat) .rld fun o => o.k = some (w.off.toNat / 2 ^ 14) ∧ o.dest = w.data.toNat) ∧
  (∀ w : MF, Completes (.rst w) fun s c t => outcome s c t w.g (2 ^ w.sz.toNat)
    (fun l => wrap 64 (((readField s c w.index.toNat l true).toNat : Int) + (w.off.setWidth 14).toInt))
    (peerOf s c w.base.toNat) .rst fun o => o.k = some (w.off.toNat / 2 ^ 14) ∧
      o.lanes.map (·.data) = (realLanes s c w.g).map fun l => dataOf s c w.data.toNat l (2 ^ w.sz.toNat)) ∧
  (∀ (w : RatomF) (i : Instr) (fn : Nat), i = .ratomAdd w ∧ fn = 0 ∨ i = .ratomSub w ∧ fn = 1 ∨ i = .ratomMin w ∧ fn = 2 ∨ i = .ratomMax w ∧ fn = 3 ∨ i = .ratomAnd w ∧ fn = 4 ∨ i = .ratomOr w ∧ fn = 5 ∨ i = .ratomXor w ∧ fn = 6 ∨ i = .ratomExch w ∧ fn = 7 ∨ i = .ratomCas w ∧ fn = 8 →
    Completes i fun s c t => outcome s c t w.g (if w.ty.toNat = 7 then 8 else 4)
      (fun l => (readField s c w.a.toNat l true).toNat) (peerOf s c w.p.toNat) .ratom fun o =>
        o.k = some 15 ∧ o.fn = fn ∧ o.ty = w.ty.toNat ∧ o.dest = w.d.toNat)

/-- O38. The team forms of LDS and STS are counted operations: With SCO = TEAM, an active lane and every lane aligned: LDS
with a lane in range starts a counted load, and STS puts an entry into the stopper that leaves 384 cycles after issue; the
counter rises at issue, lanes out of range take no part, and no register or byte of memory changes at issue. -/
def Obligations.TeamScratchForms : Prop :=
  (∀ w : MF, Completes (.lds w) fun s c t =>
    let ad := lineAddr s c w (w.off.setWidth 14).toInt
    let inside (l : Nat) : Bool := laneInRange s c false (2 ^ w.sz.toNat) (ad l)
    w.sco = 1 → Aligned s c w.g ad (2 ^ w.sz.toNat) → (∃ l ∈ realLanes s c w.g, inside l = true) →
    Started s t c .teamLoad fun o => o.k = some (w.off.toNat / 2 ^ 14) ∧ o.size = 2 ^ w.sz.toNat ∧ o.dest = w.data.toNat ∧
      o.lanes.map (fun l => (l.lane, l.addr, l.st)) = (realLanes s c w.g).map fun l =>
        (l, ad l, if inside l then LaneSt.ready else LaneSt.idle)) ∧
  (∀ w : MF, Completes (.sts w) fun s c t =>
    let ad := lineAddr s c w (w.off.setWidth 14).toInt
    let inside (l : Nat) : Bool := laneInRange s c false (2 ^ w.sz.toNat) (ad l)
    w.sco = 1 → Aligned s c w.g ad (2 ^ w.sz.toNat) → activeLanes s c w.g ≠ [] → NewEntry s c →
    HeldBy s t c .teamStore fun o => o.k = some (w.off.toNat / 2 ^ 14) ∧ o.size = 2 ^ w.sz.toNat ∧
      o.lanes.map (fun l => (l.lane, l.addr, l.data, l.st)) = (realLanes s c w.g).map fun l =>
        (l, ad l, dataOf s c w.data.toNat l (2 ^ w.sz.toNat), if inside l then LaneSt.ready else LaneSt.idle))

/-- O39. COPY, COPYR, CPYST and CPYCAN are held in the stopper; a misaligned base traps: When they act (always in a warp
clause, by the guard in a lead clause) and their addresses are aligned, COPY and COPYR with their shape record, source,
destination and channel, CPYST with its value and address, and CPYCAN with its channel, put one entry into the stopper
that leaves 384 cycles after issue, and their counter rises; a base that is no multiple of the record's unit takes the
misaligned-access trap; with a false lead guard nothing changes. -/
def Obligations.CopyCommands : Prop :=
  (∀ (w : CopyF) (red : Bool), Completes (if red then .copyr w else .copy w) fun s c t =>
    (¬Acts s c w.g → t = s) ∧
    ∀ x, shapeOf s c w.shape.toNat = some x → Acts s c w.g →
      let src := (readU s c w.src.toNat).toNat
      let dst := (readU s c w.dst.toNat).toNat
      (src % x.unit ≠ 0 ∨ dst % x.unit ≠ 0 → Trapped s t c 6 fun p => p.lanes = 0) ∧
      (src % x.unit = 0 → dst % x.unit = 0 → NewEntry s c →
        HeldBy s t c (if red then .copyr else .copy) fun o => o.k = some w.k.toNat ∧
          o.bar = (if w.ben = 1 then some w.bar.toNat else none) ∧
          ∃ r, o.copy = some r ∧ r.ch = w.ch.toNat ∧ r.src = src ∧ r.dst = dst ∧ r.shape = x ∧ r.red = red ∧
            (red = true → r.rop = w.kind.toNat ∧ r.ty = w.ty.toNat) ∧ r.bytes = 0 ∧ r.units = 0)) ∧
  (∀ w : CpystF, Completes (.cpyst w) fun s c t =>
    (¬Acts s c w.g → t = s) ∧
    (Acts s c w.g → (readU s c w.addr.toNat).toNat % 8 = 0 → NewEntry s c →
      HeldBy s t c .cpyst fun o => o.k = some w.k.toNat ∧ o.ord = 3 ∧ o.sco = w.sco.toNat ∧ o.size = 8 ∧
        ∃ r, o.copy = some r ∧ r.ch = w.ch.toNat ∧ r.dst = (readU s c w.addr.toNat).toNat ∧
          r.value = some (readU s c w.val.toNat).toNat)) ∧
  (∀ w : CpycanF, Completes (.cpycan w) fun s c t =>
    (¬Acts s c w.g → t = s) ∧
    (Acts s c w.g → NewEntry s c → HeldBy s t c .cpycan fun o => o.k = some w.k.toNat ∧ o.fn = w.ch.toNat ∧ o.copy = none))

/-- O40. LAUNCH, TRIG, TBAR and SYSWR of a doorbell are held in the stopper: When they act, LAUNCH with its block, queue,
serial and start operands, TRIG, TBAR with its barrier, and SYSWR of an index of 0x400 or more with the queue and value,
put one entry into the stopper that leaves 384 cycles after issue; SYSWR of a lower index takes the permission trap, kind
8 cause 6. With a false lead guard LAUNCH, TRIG and TBAR do nothing. -/
def Obligations.LaunchTriggerAndDoorbellEntries : Prop :=
  (∀ w : LaunchF, Completes (.launch w) fun s c t =>
    (¬Acts s c w.g → t = s) ∧
    (Acts s c w.g → NewEntry s c → HeldBy s t c .launch fun o => o.k = some w.kc.toNat ∧ o.dest = w.d.toNat ∧
      o.args = [(readU s c w.a.toNat).toNat, w.q.toNat, w.ser.toNat] ++
        (if w.t = 0xFF then [] else [(readU s c w.t.toNat).toNat]))) ∧
  (∀ w : RF, Completes (.trig w) fun s c t =>
    (¬Acts s c w.g → t = s) ∧ (Acts s c w.g → NewEntry s c → HeldBy s t c .trig fun o => o.k = none)) ∧
  (∀ w : RF, Completes (.tbar w) fun s c t =>
    (¬Acts s c w.g → t = s) ∧
    (Acts s c w.g → NewEntry s c → HeldBy s t c .tbar fun o => o.k = none ∧ o.bar = some (w.d.toNat % 16))) ∧
  (∀ w : IF, Completes (.syswr w) fun s c t =>
    (w.imm.toNat < 0x400 → Trapped s t c 8 fun p => p.sub = 6) ∧
    (0x400 ≤ w.imm.toNat → NewEntry s c → HeldBy s t c .doorbell fun o =>
      o.k = some (w.d.toNat % 16) ∧ o.args = [w.imm.toNat - 0x400, (readU s c w.a.toNat).toNat]))

/-- O41. FENCE, PROBE, TINV, SCRFLG, SYSRD and WAITT start their operation: FENCE takes its place in program order with
its order and scope and no counter; PROBE (of a uniform address or of active lanes), TINV under a kernel with the
page-control privilege, SCRFLG, SYSRD of a register that programs may read and an acting WAITT start an operation on their
counter, which rises at issue; TINV without the privilege and SYSRD of another register take the permission trap, kind 8
cause 6. No register, memory or system register changes at issue. -/
def Obligations.CountedOperationsStart : Prop :=
  (∀ w : MF, Completes (.fence w) fun s c t => SameSystem s t ∧
    Started s t c .fence fun o => o.k = none ∧ o.ord = w.ord.toNat ∧ o.sco = w.sco.toNat) ∧
  (∀ w : RF, Completes (.probe w) fun s c t => isS false w.a.toNat = true ∨ realLanes s c w.g ≠ [] → SameSystem s t ∧
    Started s t c .probe fun o => o.k = some (w.b.toNat % 16) ∧ o.dest = w.d.toNat ∧
      o.lanes.map (fun l => (l.lane, l.addr)) = (if isS false w.a.toNat then [0] else realLanes s c w.g).map fun l =>
        (l, (readField s c w.a.toNat l true).toNat)) ∧
  (∀ w : RF, Completes (.tinv w) fun s c t => ∀ k, kernelOfCur s c = some k →
    (k.lpb.pagectl = true → SameSystem s t ∧ Started s t c .tinv fun o => o.k = some (w.d.toNat % 16) ∧
      o.fn = w.md.toNat % 4 ∧ o.args = [(readU s c w.a.toNat).toNat % 2 ^ 56,
        if w.b = 0xFF then 0 else (readU s c w.b.toNat).toNat % 2 ^ 32]) ∧
    (k.lpb.pagectl = false → Trapped s t c 8 fun p => p.sub = 6)) ∧
  (∀ w : RF, Completes (.scrflg w) fun s c t => SameSystem s t ∧
    Started s t c .scrflg fun o => o.k = some (w.a.toNat % 16) ∧ o.dest = w.d.toNat ∧ o.fn = w.md.toNat % 2) ∧
  (∀ w : IF, Completes (.sysrd w) fun s c t =>
    (w.imm.toNat = 0 ∨ w.imm.toNat = 1 ∨ w.imm.toNat = 3 ∨ w.imm.toNat = 4 → SameSystem s t ∧
      Started s t c .sysrd fun o => o.k = some (w.a.toNat % 16) ∧ o.dest = w.d.toNat ∧ o.args = [w.imm.toNat]) ∧
    (w.imm.toNat ≠ 0 ∧ w.imm.toNat ≠ 1 ∧ w.imm.toNat ≠ 3 ∧ w.imm.toNat ≠ 4 → Trapped s t c 8 fun p => p.sub = 6)) ∧
  (∀ w : RF, Completes (.waitt w) fun s c t =>
    (¬Acts s c w.g → t = s) ∧
    (Acts s c w.g → SameSystem s t ∧ Started s t c .waitt fun o => o.k = some (w.d.toNat % 16) ∧
      o.args = [if w.md.getLsbD 0 then (localTime s c.u.die c.u.core s.now + (readU s c w.a.toNat).toNat) % 2 ^ 64
        else (readU s c w.a.toNat).toNat]))

/-- O42. Branches, calls, returns and jumps send the sub-gang, the quads or the lead stream to their targets: BRA, BRS and
CALL send the sub-gang to next header + 8·SignExtend(OFF32), BRS when its 64-bit operand satisfies its signed condition
against zero; CALL also lands the next-clause address at issue + 4 in A; BRQ sends each quad there or on by its vote; JMPX
and RET send it to the address they read, per quad from lane 4q for a V pair. The transfer waits for the clause boundary.
In a lead clause a false guard makes each a fall-through; BRA and BRS then and not taken change nothing. -/
def Obligations.TransferTargets : Prop :=
  let hdrAt (c : Cur) : Nat := c.pc - 8 * (c.idx + 1)
  let next (c : Cur) : Nat := hdrAt c + 8 * ((c.hdr &&& 15#64).toNat + 2)
  let target (c : Cur) (off : BitVec 32) : Nat := (((next c : Int) + 8 * off.toInt) % 2 ^ 64).toNat
  let goes (s t : State) (c : Cur) (x : Xfer) : Prop :=
    SameMemory s t ∧ SameRegisters s t ∧ SameSystem s t ∧
      ∀ y, s.unit? c.u = some y → ∃ z, t.unit? c.u = some z ∧ z = { y with clause := y.clause.map fun r => { r with xfer := x } }
  let lane (s : State) (c : Cur) (q : Nat) : Nat := if protOf s c.u then 8 * q else 4 * q
  let quads (c : Cur) : List Nat := (List.range 8).filter fun q => c.quads.getLsbD q
  (∀ w : BF, Completes (.bra w) fun s c t =>
    (Acts s c w.g → goes s t c (.goto (target c w.off)) ∧ t.pend = s.pend) ∧ (¬Acts s c w.g → t = s)) ∧
  (∀ w : BF, Completes (.brs w) fun s c t =>
    let a : Int := (readField s c w.a.toNat 0 true).toInt
    let k := w.cond.toNat % 8
    let r : Prop := (k = 0 ∧ a = 0) ∨ (k = 1 ∧ a ≠ 0) ∨ (k = 2 ∧ a < 0) ∨ (k = 3 ∧ a ≤ 0) ∨ (k = 4 ∧ a > 0) ∨ (k ≥ 5 ∧ a ≥ 0)
    (Acts s c w.g ∧ r → goes s t c (.goto (target c w.off)) ∧ t.pend = s.pend) ∧ (¬(Acts s c w.g ∧ r) → t = s)) ∧
  (∀ w : BF, Completes (.call w) fun s c t => (¬Acts s c w.g → t = s) ∧
    (Acts s c w.g → goes s t c (.goto (target c w.off)) ∧
      ∀ l, (if c.u.lead then l = 0 else l < 32 ∧ c.quads.getLsbD (if protOf s c.u then l / 8 else l / 4) = true) →
        Lands t c w.a.toNat l true (BitVec.ofNat 64 (next c)) 4)) ∧
  (∀ w : BF, Completes (.brq w) fun s c t =>
    let vote (l : Nat) : Bool := s.p c.u (w.cond.toNat % 8) l != w.cond.getLsbD 3
    if c.u.lead then
      (Acts s c w.g ∧ vote 0 = true → goes s t c (.goto (target c w.off))) ∧ (¬(Acts s c w.g ∧ vote 0 = true) → t = s)
    else t.pend = s.pend ∧
      let votes (q : Nat) : List Nat := (List.range 32).filter fun l => laneActive s c w.g l &&
        (if protOf s c.u then l / 8 == q && l % 2 == 0 else l / 4 == q)
      let taken (q : Nat) : Bool := !(votes q).isEmpty &&
        (if w.cond.getLsbD 4 then (votes q).all vote else (votes q).any vote)
      goes s t c (.quads ((quads c).map fun q => (q, if taken q then target c w.off else next c)))) ∧
  (∀ (w : RF) (i : Instr), i = .jmpx w ∨ i = .ret w → Completes i fun s c t => (¬Acts s c w.g → t = s) ∧
    (Acts s c w.g → t.pend = s.pend ∧
      if isS c.u.lead w.a.toNat then goes s t c (.goto (readField s c w.a.toNat 0 true).toNat)
      else goes s t c (.quads ((quads c).map fun q => (q, (readField s c w.a.toNat (lane s c q) true).toNat)))))

/-- O43. EXIT marks lanes, REGANG waits for the clause boundary, NOP has no effect: EXIT marks every lane for which
LaneActive holds; when every live lane of the warp is then marked, EXEC becomes zero, and otherwise marked lanes stay in
EXEC; in a lead clause under a true guard it ends the stream. REGANG leaves the merge with its 8-bit mask to the clause
boundary, and is a fall-through in a lead clause. NOP changes nothing. Nothing but the issuing unit changes: every other unit, and all
that is no unit, stays. -/
def Obligations.ExitRegangAndNop : Prop :=
  (∀ w : RF, Completes (.exit w) fun s c t => t = { s with units := t.units } ∧
    (∀ v, v ≠ c.u → t.unit? v = s.unit? v) ∧
    ∀ x, s.unit? c.u = some x → ∃ y, t.unit? c.u = some y ∧
      if c.u.lead then y = (if guardLane s c.u w.g 0 then { x with ended := true } else x)
      else ∃ m : BitVec 32, (∀ l, l < 32 → m.getLsbD l = (x.marked.getLsbD l || laneActive s c w.g l)) ∧
        y = { x with marked := m, exec := if x.exec &&& ~~~m = 0 then 0 else x.exec }) ∧
  (∀ w : IF, Completes (.regang w) fun s c t => t = { s with units := t.units } ∧ (c.u.lead = true → t = s) ∧
    (∀ v, v ≠ c.u → t.unit? v = s.unit? v) ∧
    (c.u.lead = false → ∀ x, s.unit? c.u = some x →
      t.unit? c.u = some { x with clause := x.clause.map fun r => { r with xfer := .regang (w.imm.setWidth 8) } })) ∧
  (∀ w : RF, Completes (.nop w) fun s _ t => t = s)

/-- O44. BARA, BARINIT, KINC and KSET make their change at issue + 4, once: When they act, each logs one change of its
group's barrier or counter for cycle issue + 4: an arrival of an immediate count of MOD + 1 or of a register's low 16
bits, an initialisation with the expected count or to a team barrier, a signed increment, or a value; a replayed one,
whose ordinal the rollback kept, changes nothing but the ordinal. That a BARINIT of a barrier in its error phase is made
although a lay restart makes it a replay is the model's choice (log 137). Memories, registers and pending writes stay; with a
false lead guard nothing changes. -/
def Obligations.BarrierAndCounterChanges : Prop :=
  let counts (s t : State) (c : Cur) (made : ExecUnit → Group → Bool) (f : Group → Group) : Prop :=
    SameMemory s t ∧ SameRegisters s t ∧ t.pend = s.pend ∧
      ∀ x g, s.unit? c.u = some x → s.group? x.gid = some g →
        ∃ y h, t.unit? c.u = some y ∧ t.group? x.gid = some h ∧ y = { x with nBar := x.nBar + 1 } ∧
          h = if made x g then f g else g
  let logs (s t : State) (c : Cur) : (Group → Group) → Prop := counts s t c fun x _ => x.keepBar < x.nBar + 1
  let inits (s t : State) (c : Cur) (bar : Nat) : (Group → Group) → Prop := counts s t c fun x g =>
    x.keepBar < x.nBar + 1 ∨ (x.rerun.isSome = true ∧ (bBefore g bar (c.cycle + 4) c.u.rank).mode = 3)
  let k4 (c : Cur) (k : Nat) (set : Option Nat) (d : Int) : KChange :=
    { cyc := c.cycle + 4, k := k, set := set, delta := d, u := c.u, issue := c.cycle, instr := true }
  let b4 (c : Cur) (bar : Nat) (e : BEv) : BChange :=
    { cyc := c.cycle + 4, rank := c.u.rank, bar := bar, ev := e, u := c.u, issue := c.cycle, instr := true }
  let reg16 (s : State) (c : Cur) (r : BitVec 8) : Nat := (readField s c r.toNat 0 true).toNat % 65536
  (∀ w : RF, Completes (.kset w) fun s c t => (¬Acts s c w.g → t = s) ∧ (Acts s c w.g → logs s t c fun g =>
    { g with kLog := insertK (k4 c (w.d.toNat % 16) (some (if w.a = 0xFF then w.md.toNat else reg16 s c w.a)) 0) g.kLog })) ∧
  (∀ w : RF, Completes (.kinc w) fun s c t => (¬Acts s c w.g → t = s) ∧ (Acts s c w.g → logs s t c fun g =>
    { g with kLog := insertK (k4 c (w.d.toNat % 16) none
        (if w.a = 0xFF then w.md.toInt else (BitVec.ofNat 16 (reg16 s c w.a)).toInt)) g.kLog })) ∧
  (∀ w : RF, Completes (.bara w) fun s c t => (¬Acts s c w.g → t = s) ∧ (Acts s c w.g →
    let n := if w.a = 0xFF then w.md.toNat + 1 else reg16 s c w.a
    (n ≠ 0 → logs s t c fun g => { g with bLog := insertB (b4 c (w.d.toNat % 16) (.arrive n)) g.bLog }) ∧
    (n = 0 → t.pend = s.pend ∧ ∀ gid g, s.group? gid = some g → ∃ h, t.group? gid = some h ∧ h.bLog = g.bLog))) ∧
  (∀ w : RF, Completes (.barinit w) fun s c t => (¬Acts s c w.g → t = s) ∧ (Acts s c w.g →
    (w.md.toNat < 128 → inits s t c (w.d.toNat % 16) fun g =>
      { g with bLog := insertB (b4 c (w.d.toNat % 16) (.init (if w.a = 0xFF then w.md.toNat else reg16 s c w.a))) g.bLog }) ∧
    (128 ≤ w.md.toNat → inits s t c (w.d.toNat % 16) fun g => { g with bLog := insertB (b4 c (w.d.toNat % 16) (.initTeam (w.md.toNat % 4))) g.bLog })))

/-- O45. A K counter takes its value, its increments and its clamps at their cycle: A counter whose earlier changes all
lie before cycle x, and which is changed at x, reads from x + 1 on as the value set, with OVF and UNF clear, or as its old
value plus the increment, clamped at 0 with UNF and at 65,535 with OVF; a read at x still gives the old value. -/
def Obligations.CounterRule : Prop :=
  ∀ (g : Group) (l : List KChange) (x : KChange), g.kLog = l ++ [x] → (∀ y ∈ l, y.k = x.k → y.cyc < x.cyc) →
    kValue g x.k x.cyc = kValue { g with kLog := l } x.k x.cyc ∧
    (∀ n, x.set = some n → x.delta = 0 → n < 65536 →
      kValue g x.k (x.cyc + 1) = { v := n, ovf := false, unf := false }) ∧
    (x.set = none → let o := kValue { g with kLog := l } x.k x.cyc
      let v : Int := (o.v : Int) + x.delta
      kValue g x.k (x.cyc + 1) = if v < 0 then { o with v := 0, unf := true }
        else if 65535 < v then { o with v := 65535, ovf := true } else { o with v := v.toNat })

/-- O46. BARST, KRD and TIME land what they read at issue, PHASE sets the marker, and an engine request takes a row of its quartet's
engine: MMA, MLOOP, MZERO, MDRAIN and DPLOAD are the requests. When they act, BARST and KRD land the barrier and counter status words as the issue
cycle sees them, and TIME the local TIME of the issue, all at issue + 4; TIME's counter is up from issue to then; PHASE makes IMM32
the current marker of its core, the windows that have begun being credited to the old one. Of these nothing else changes: no other
pending write, group, core or event; with a false lead guard nothing does. Each request adds one row, issued now and posted at
issue + 4, to the engine of the issuing core's quartet, with its kind, tile, type and operands as they read at issue; its counter
rises at issue, and its posting is due at issue + 4; no register, memory, operation or pending write changes, no other engine, and
of this one neither the accumulator tiles nor the drain memory. MSTAT and MCHK start an operation on their counter, reading at
issue + 4 and landing at issue + 8. -/
def Obligations.StatusReadsTimePhaseAndEngineRequests : Prop :=
  let lands (s t : State) (c : Cur) (d : Nat) : Prop := OnlyPending s t ∧ (∀ p ∈ s.pend, p ∈ t.pend) ∧
    (∀ p ∈ t.pend, p ∈ s.pend ∨ (p.u = c.u ∧ p.land = c.cycle + 4 ∧ p.inField c.u.lead d = true)) ∧
    (∀ a ∈ s.agenda, a ∈ t.agenda) ∧ ∀ a ∈ t.agenda, a ∈ s.agenda ∨ a.due = evU .registerLand c.u []
  let posts (s t : State) (c : Cur) (kind : Nat) (P : PassRow → Prop) : Prop :=
    let q := 8 * (c.u.core / 32) + c.u.core % 16 / 2
    SameMemory s t ∧ SameRegisters s t ∧ t.pend = s.pend ∧ t.ops = s.ops ∧
      ∃ r, t.engine c.u.die q = { s.engine c.u.die q with rows := r :: (s.engine c.u.die q).rows } ∧
        r.u = c.u ∧ r.kind = kind ∧ r.st = 1 ∧ r.issue = c.cycle ∧ r.post = c.cycle + 4 ∧ r.step = 0 ∧ r.flags = 0 ∧ P r ∧
        (∃ a ∈ t.agenda, a.due = evU .requestPost c.u [] ∧ a.at' = max s.now (instantOf s c.u.die c.u.core (c.cycle + 4))) ∧
        (∀ a ∈ s.agenda, a ∈ t.agenda) ∧ (∀ d e, ¬(d = c.u.die ∧ e = q) → t.engine d e = s.engine d e) ∧
        ∀ g, s.groupOf c.u = some g → r.gid = g.gid ∧ ∃ h, t.group? g.gid = some h ∧ h.kLog = insertK (countUp c r.k) g.kLog
  let reads (t : State) (c : Cur) : Prop := Due' t (evU .requestPost c.u []) ∧ Due' t (evU .requestPost c.u [1])
  let bar (w : ReqF) : Option Nat := if w.ben = 1 then some w.bar.toNat else none
  let S (s : State) (c : Cur) (r : BitVec 8) : Nat := (readField s c r.toNat 0 true).toNat
  (∀ w : RF, Completes (.barst w) fun s c t => lands s t c w.d.toNat ∧ (¬Acts s c w.g → t = s) ∧
    ∀ g, s.groupOf c.u = some g → Acts s c w.g →
      Lands t c w.d.toNat 0 true (BitVec.ofNat 64 ((bValue g (w.a.toNat % 16) c.cycle).word c.cycle)) 4) ∧
  (∀ w : RF, Completes (.krd w) fun s c t => lands s t c w.d.toNat ∧ (¬Acts s c w.g → t = s) ∧
    ∀ g, s.groupOf c.u = some g → Acts s c w.g →
      let k := kValue g (w.a.toNat % 16) c.cycle
      Lands t c w.d.toNat 0 true
        (BitVec.ofNat 64 (k.v + (if k.ovf then 2 ^ 16 else 0) + (if k.unf then 2 ^ 17 else 0))) 4) ∧
  (∀ w : RF, Completes (.time w) fun s c t => (¬Acts s c w.g → t = s) ∧ (Acts s c w.g →
    Lands t c w.d.toNat 0 true (BitVec.ofNat 64 (localTime s c.u.die c.u.core s.now)) 4 ∧
    lands { s with groups := t.groups } t c w.d.toNat ∧
    ∀ x, s.unit? c.u = some x → (∀ n, n ≠ x.gid → t.group? n = s.group? n) ∧ ∀ g, s.group? x.gid = some g →
      t.group? x.gid = some { g with
        kLog := insertK { (countUp c (w.a.toNat % 16)) with cyc := c.cycle + 4, issue := c.cycle + 4, delta := -1 }
          (insertK (countUp c (w.a.toNat % 16)) g.kLog) })) ∧
  (∀ w : IF, Completes (.phase w) fun s c t => t = { s with cores := t.cores } ∧ (¬Acts s c w.g → t = s) ∧
    (Acts s c w.g → t.core c.u.die c.u.core =
        { (s.core c.u.die c.u.core).settle (c.cycle / 16 + 1) with marker := w.imm.toNat } ∧
      ∀ d k, ¬(d = c.u.die ∧ k = c.u.core) → t.core d k = s.core d k)) ∧
  (∀ w : ReqF, Completes (.mma w) fun s c t => posts s t c 0 fun r => r.n = 1 ∧ r.tile = w.tile.toNat ∧ r.ty = w.ty.toNat ∧
    r.abase = w.abase.toNat ∧ r.bbase = w.bbase.toNat ∧ r.bsel = w.bsel.toNat ∧ r.za = (w.za == 1) ∧ r.pri = w.pri.toNat ∧
    r.k = w.kc.toNat ∧ r.bar = bar w ∧ r.den = false) ∧
  (∀ w : ReqF, Completes (.mloop w) fun s c t => posts s t c 1 fun r => r.n = S s c w.sk % 2 ^ 16 ∧ r.tile = w.tile.toNat ∧
    r.ty = w.ty.toNat ∧ r.rl = w.rl.toNat + 1 ∧ r.bscr = (w.bscr == 1) ∧ r.chk = (w.chk == 1) ∧ r.abase = w.abase.toNat ∧
    r.bbase = w.bbase.toNat ∧ r.za = (w.za == 1) ∧ r.pri = w.pri.toNat ∧ r.tol = w.tol.toNat ∧ r.k = w.kc.toNat ∧ r.bar = bar w ∧
    r.den = ((S s c w.sd).testBit 54 || w.chk == 1) ∧
    (r.den = true → r.dest = S s c w.sd % 2 ^ 32 ∧ r.stride = S s c w.sd / 2 ^ 32 % 2 ^ 16 ∧ r.slot = S s c w.sd / 2 ^ 48 % 64) ∧
    (w.bscr = 1 → r.badr = S s c w.sk / 2 ^ 32 % 2 ^ 32 ∧ r.inc = S s c w.sk / 2 ^ 16 % 2 ^ 16)) ∧
  (∀ w : ReqF, Completes (.mzero w) fun s c t => posts s t c 2 fun r => r.tile = w.tile.toNat ∧ r.k = w.kc.toNat ∧
    r.bar = bar w ∧ r.den = false) ∧
  (∀ w : ReqF, Completes (.mdrain w) fun s c t => posts s t c 3 fun r => r.tile = w.tile.toNat ∧ r.k = w.kc.toNat ∧
    r.bar = bar w ∧ r.den = true ∧ r.dest = S s c w.sd % 2 ^ 32 ∧ r.stride = S s c w.sd / 2 ^ 32 % 2 ^ 16 ∧
    r.slot = S s c w.sd / 2 ^ 48 % 64) ∧
  (∀ w : DploadF, Completes (.dpload w) fun s c t => posts s t c 4 fun r => r.badr = S s c w.src % 2 ^ 32 ∧
    r.isTab = (w.tab == 1) ∧ r.tabFirst = w.first.toNat ∧ r.tabCnt = w.cnt.toNat + 1 ∧ r.k = w.kc.toNat ∧
    r.bar = if w.ben = 1 then some w.bar.toNat else none) ∧
  (∀ w : MstatF, Completes (.mstat w) fun s c t => SameSystem s t ∧ t.engines = s.engines ∧ reads t c ∧
    Started s t c .mstat fun o => o.k = some w.k.toNat ∧ o.dest = w.d.toNat ∧ o.args = [w.sel.toNat]) ∧
  (∀ w : MstatF, Completes (.mchk w) fun s c t => SameSystem s t ∧ t.engines = s.engines ∧ reads t c ∧
    Started s t c .mchk fun o => o.k = some w.k.toNat ∧ o.dest = w.d.toNat ∧ o.args = [w.sel.toNat % 2])

/-- O47. Conversions, packing, quantising and the F32 reductions land the values of their tables and raise their flags: CVTF,
CVTI, CVTFI, PACK2, PACK4, UNPK and QDESC complete and land their results 8 cycles after issue: a value rounded into the
destination format, an integer rounded by RM and saturated, elements packed or widened exactly, the answer to a query about a span
descriptor. QNT, unless no lane is active, lands 12 cycles after issue the codes of the quantiser in its half of D, the other half
kept, and the descriptor; every code of a finite value is the nearest of its block's type, ties to the even code, and DQNT lands
code value times scale, rounded. WREDUCE.F32 and WSCAN.F32 land after 20 cycles the sums of the fixed binary tree, with -0.0 for
each lane that takes no part. The flags raised are those of the results. -/
def Obligations.ConversionAndReductionResults : Prop :=
  (∀ w : RF, Completes (.cvtf w) fun s c t => ∃ r : Nat → Nat × Nat, FloatIn s t c w.g [w.a.toNat] w.d.toNat false 8 r ∧ ∀ l,
    let f := fmtOf (w.md.toNat / 8)
    CvtGives f (fmtOf w.ty.toNat) (rmOf w) (satOf w) (elem f.width (readField s c w.a.toNat l false) 0) (r l)) ∧
  (∀ w : RF, Completes (.cvti w) fun s c t => ∃ r : Nat → Nat × Nat, FloatIn s t c w.g [w.a.toNat] w.d.toNat false 8 r ∧ ∀ l,
    let ty := w.md.toNat / 8
    let x := asInt ty (rd s c ty w.a.toNat l)
    Rounds (fmtOf w.ty.toNat) (rmOf w) (satOf w) (decide (x < 0)) x.natAbs 0 (r l)) ∧
  (∀ w : RF, Completes (.cvtfi w) fun s c t => ∃ r : Nat → Int × Nat,
    FloatIn s t c w.g [w.a.toNat] w.d.toNat false 8 (fun l => ((BitVec.ofInt 32 (r l).1).toNat, (r l).2)) ∧ ∀ l,
      let f := fmtOf (w.md.toNat / 8)
      let lo : Int := if w.ty.toNat = 2 then -2 ^ 31 else if w.ty.toNat = 0 then -128 else 0
      let hi : Int := if w.ty.toNat = 2 then 2 ^ 31 - 1 else if w.ty.toNat = 3 then 2 ^ 32 - 1 else if w.ty.toNat = 0 then 127
        else 255
      ToIntGives f (rmOf w) lo hi (elem f.width (readField s c w.a.toNat l false) 0) (r l)) ∧
  (∀ w : RF, Completes (.pack2 w) fun s c t => ∃ p : Nat → BitVec 8 → Nat × Nat,
    FloatIn s t c w.g [w.a.toNat, w.b.toNat] w.d.toNat false 8
      (fun l => ((p l w.a).1 + 65536 * (p l w.b).1, flOr (p l w.a).2 (p l w.b).2)) ∧
    ∀ l x, CvtGives F32 (fmtOf w.ty.toNat) (rmOf w) (satOf w) (readField s c x.toNat l false).toNat (p l x)) ∧
  (∀ w : RF, Completes (.pack4 w) fun s c t => ∃ p : Nat → Nat → Nat × Nat,
    FloatIn s t c w.g [w.a.toNat, w.b.toNat] w.d.toNat false 8
      (fun l => ((p l 0).1 + 2 ^ 8 * (p l 1).1 + 2 ^ 16 * (p l 2).1 + 2 ^ 24 * (p l 3).1,
        flOr (flOr (flOr (p l 0).2 (p l 1).2) (p l 2).2) (p l 3).2)) ∧
    ∀ l i, i < 4 →
      let x := (readField s c (if i < 2 then w.a else w.b).toNat l true).toNat / 2 ^ (32 * (i % 2)) % 2 ^ 32
      (13 ≤ w.ty.toNat → CvtGives F32 (fmtOf w.ty.toNat) (rmOf w) (satOf w) x (p l i)) ∧
      (w.ty.toNat = 0 → let n := (BitVec.ofNat 32 x).toInt
        p l i = ((BitVec.ofInt 8 (if n < -128 then -128 else if 127 < n then 127 else n)).toNat, 0)) ∧
      (w.ty.toNat = 1 → p l i = (min x 255, 0))) ∧
  (∀ w : RF, Completes (.unpk w) fun s c t => ∃ r : Nat → Nat → Nat,
    FloatIn s t c w.g [w.a.toNat] w.d.toNat true 8 (fun l => (r l 0 + 2 ^ 32 * r l 1, 0)) ∧ ∀ l i, i < 2 →
      let f := fmtOf w.ty.toNat
      WidensTo f (elem f.width (readField s c w.a.toNat l false) (i + if w.md.getLsbD 0 then 2 else 0)) (r l i)) ∧
  (∀ w : RF, Completes (.qdesc w) fun s c t => FloatIn s t c w.g [w.a.toNat, w.b.toNat] w.d.toNat false 8 fun l =>
    let d := (readField s c w.a.toNat l false).toNat
    let g := (readField s c w.b.toNat l false).toNat % 8
    let starts (n : Nat) : Nat := ((List.range (n + 1)).filter fun i => d.testBit i).length
    let valid : Bool := d.testBit 0 && starts 7 ≤ 3
    let j := starts g - 1
    let scale := d / 2 ^ (8 + 8 * j) % 256
    let q := w.md.toNat % 4
    (if q = 0 then (if valid then starts 7 else 0) else if q = 1 then (if valid then j else 0xFFFFFFFF)
      else if q = 2 then (if valid then scale else 0xFFFFFFFF)
      else if valid && scale % 64 != 63 then (scale % 64 + 87) * 2 ^ 23 else F32.nan, 0)) ∧
  (∀ w : RF, Completes (.qnt w) fun s c t =>
    let prot := protOf s c.u
    let x (side e : Nat) : FV :=
      let l := if prot then 2 * (e / 4) + side else e / 4
      if l < 32 ∧ laneActive s c w.g l = true then
        if w.ty.toNat = 8 then F32.value (s.v c.u (w.a.toNat + e % 4) l).toNat
        else (fmtOf w.ty.toNat).value ((s.v c.u (w.a.toNat + e % 4 / 2) l).toNat / 2 ^ (16 * (e % 2)) % 65536)
      else .fin false 0 0
    let q (side : Nat) : List Nat × Nat × Nat := quantise ((List.range 128).map (x side)) (w.md.toNat % 8 + 1) (w.md.toNat / 8 % 8)
    let code (side i : Nat) : Nat := (q side).1.getD i 0
    (activeLanes s c w.g = [] → t = s) ∧ (activeLanes s c w.g ≠ [] → OnlyPending s t ∧ Raises s t c 12 (q 0).2.2 ∧
      (isS c.u.lead w.c.toNat = true → Lands t c w.c.toNat 0 false (BitVec.ofNat 64 (q 0).2.1) 12) ∧
      ∀ l, l < 32 → laneCompute s c w.g l = true →
        let side := if prot then l % 2 else 0
        let k := if prot then l / 2 else l
        let old := (s.v c.u w.d.toNat l).toNat
        let new := code side (4 * k) + 16 * code side (4 * k + 1) + 256 * code side (4 * k + 2) + 4096 * code side (4 * k + 3)
        Lands t c w.d.toNat l false (BitVec.ofNat 64 (if w.md.getLsbD 6 then old % 65536 + 65536 * new
          else old / 65536 * 65536 + new)) 12 ∧
        (isV c.u.lead w.c.toNat = true → Lands t c w.c.toNat l false (BitVec.ofNat 64 (q side).2.1) 12))) ∧
  (∀ (ty ex : Nat) (n : Bool) (m : Nat) (e : Int), ty < 4 → ex ≤ 62 →
    let v8 : Dy := (if n then -(m : Int) else m, e + 43 - ex)
    let r := codeOf ty ex (.fin n m e)
    let le (a b : Dy) : Prop := Dy.lt b a = false
    let dist (c : Nat) : Dy :=
      let d := Dy.add v8 (-codeVal8 ty c, 0)
      ((d.1.natAbs : Int), d.2)
    let top : Int := if ty = 0 then 56 else if ty = 1 then 48 else if ty = 2 then 64 else 128
    let bottom : Int := if ty = 0 then -64 else -top
    (¬le v8 (top, 0) → r = (7, flOverflow + flInexact)) ∧
    (¬le (bottom, 0) v8 → r = (if ty = 0 then 8 else 15, flOverflow + flInexact)) ∧
    (le v8 (top, 0) → le (bottom, 0) v8 → r.1 < 16 ∧ (codeVal8 ty r.1 = 0 → r.1 = 0) ∧
      (∀ c, c < 16 → le (dist r.1) (dist c) ∧ (le (dist c) (dist r.1) → codeVal8 ty c ≠ codeVal8 ty r.1 → r.1 % 2 = 0)) ∧
      r.2 = if (dist r.1).1 = 0 then 0 else flInexact)) ∧
  (∀ w : RF, Completes (.dqnt w) fun s c t => OnlyPending s t ∧ ∃ r : Nat → Nat → Nat × Nat,
    Raises s t c 12 (orAll (realLanes s c w.g) fun l => orAll (List.range 4) fun i => (r l i).2) ∧
    ∀ l, l < 32 → laneCompute s c w.g l = true →
      (∀ i, i < 4 →
        let k := if protOf s c.u then l / 2 else l
        let codes := (s.v c.u w.a.toNat l).toNat / (if w.md.getLsbD 6 then 65536 else 1) % 65536
        let f := fmtOf w.ty.toNat
        let y := q4Value (readField s c w.b.toNat l false).toNat (4 * k + i) (codes / 16 ^ i % 16)
        (y = .nan → r l i = (f.nan, 0)) ∧ ∀ n m e, y = .fin n m e → Rounds f (rmOf w) (satOf w) n m e (r l i)) ∧
      (w.ty.toNat = 8 → ∀ i, i < 4 → Lands t c (w.d.toNat + i) l false (BitVec.ofNat 64 (r l i).1) 12) ∧
      (w.ty.toNat ≠ 8 → ∀ i, i < 2 →
        Lands t c (w.d.toNat + i) l false (BitVec.ofNat 64 ((r l (2 * i)).1 + 65536 * (r l (2 * i + 1)).1)) 12)) ∧
  (∃ add : Nat → Nat → Nat × Nat,
    (∀ a b, a < 2 ^ 32 → b < 2 ^ 32 → SumGives F32 0 false [F32.value a, F32.value b] false (add a b)) ∧
    let join (a b : Nat × Nat) : Nat × Nat := ((add a.1 b.1).1, flOr (flOr a.2 b.2) (add a.1 b.1).2)
    let leaf (s : State) (c : Cur) (w : RF) (side i : Nat) : Nat × Nat :=
      let l := if protOf s c.u then 2 * i + side else i
      (if l < 32 ∧ laneActive s c w.g l = true then (readField s c w.a.toNat l false).toNat else 0x80000000, 0)
    let level (u : Nat → Nat × Nat) (i : Nat) : Nat × Nat := join (u (2 * i)) (u (2 * i + 1))
    let node (s : State) (c : Cur) (w : RF) (side k : Nat) : Nat → Nat × Nat := level^[k] (leaf s c w side)
    (∀ w : RF, w.ty.toNat = 8 → Completes (.wreduce w) fun s c t => OnlyPending s t ∧
      let v (side : Nat) : Nat × Nat := node s c w side 5 0
      Raises s t c 20 (v 0).2 ∧
      (if w.d.toNat = 0xE0 ∨ isS c.u.lead w.d.toNat = true then Lands t c w.d.toNat 0 false (BitVec.ofNat 64 (v 0).1) 20
        else ∀ l, l < 32 → laneCompute s c w.g l = true →
          Lands t c w.d.toNat l false (BitVec.ofNat 64 (v (if protOf s c.u then l % 2 else 0)).1) 20)) ∧
    ∀ w : RF, w.ty.toNat = 8 → Completes (.wscan w) fun s c t => OnlyPending s t ∧
      let v (l : Nat) : Nat × Nat :=
        let side := if protOf s c.u then l % 2 else 0
        let n := (if protOf s c.u then l / 2 else l) + 1
        let blocks := ([5, 4, 3, 2, 1, 0].filter fun k => n.testBit k).map fun k =>
          node s c w side k (n / 2 ^ (k + 1) * 2)
        match blocks with
        | [] => (0, 0)
        | b :: bs =>
          let x := bs.foldl join b
          if (F32.value x.1).isNan then (F32.nan, x.2) else x
      Raises s t c 20 (orAll (realLanes s c w.g) fun l => (v l).2) ∧
      ∀ l, l < 32 → laneCompute s c w.g l = true → Lands t c w.d.toNat l false (BitVec.ofNat 64 (v l).1) 20)

/-- O48. TRAP and BKPT take their trap: TRAP, unless a guard other than P0 leaves no active lane, traps with kind 10, and
BKPT, when DEBUG[0] of the context is 1, with kind 11: the unit stops with its clause taken aside and otherwise as it was,
the trap records issue cycle, address, the lanes and IMM32, and is due to become final 384 cycles later; its group, when it
runs, becomes faulted. Registers, memory, context, counters, every other unit and every other group stay. Otherwise both
have no effect. -/
def Obligations.SoftwareTrapEntry : Prop :=
  let entry (s t : State) (c : Cur) (w : IF) (kind : Nat) : Prop :=
    (Trapped s t c kind fun p => p.detail = [w.imm.toNat] ∧ p.due = c.cycle + 384 ∧
      ∀ l, l < 32 → p.lanes.getLsbD l = laneActive s c w.g l) ∧
    (∃ e ∈ t.agenda, e.due = evU .trapFinal c.u [c.cycle] ∧
      e.at' = max s.now (instantOf s c.u.die c.u.core (c.cycle + 384))) ∧
    (∀ e ∈ t.agenda, e ∈ s.agenda ∨ e.due = evU .trapFinal c.u [c.cycle]) ∧
    (∀ v, v ≠ c.u → t.unit? v = s.unit? v) ∧
    ∀ x, s.unit? c.u = some x → (∃ p, t.unit? c.u = some { x with stop := some p, clause := none }) ∧
      (∀ n, n ≠ x.gid → t.group? n = s.group? n) ∧ ∀ g, s.group? x.gid = some g →
        t.group? x.gid = some { g with state := if g.state = .running then .faulted else g.state }
  let acts (s : State) (c : Cur) (w : IF) : Prop := w.g.prd = 0 ∨ ∃ l, l < 32 ∧ laneActive s c w.g l = true
  (∀ w : IF, Completes (.trap w) fun s c t => (acts s c w → entry s t c w 10) ∧ (¬acts s c w → t = s)) ∧
  (∀ w : IF, Completes (.bkpt w) fun s c t =>
    let on : Prop := (s.ctx (curGroup s c).2).debug % 2 = 1
    (on ∧ acts s c w → entry s t c w 11) ∧ (¬(on ∧ acts s c w) → t = s))

/-- O49. A micro-operation of the drain writes XD of the elements that do not skip it, and goes on: With a row in
progress, each calculating micro-operation, SEL, the table operations, NOP, SKIP, QSPAN, ST and CHK answer a next state:
the row goes to the next word of the slot; a drain register other than XD, or of an element that is skipping, keeps its
value; NOP, SKIP, QSPAN, ST and CHK write no drain register; nothing outside the row changes: registers, memories, engines
and counters stay. -/
def Obligations.MicroOperationFrame : Prop :=
  let X (r : RowRun) (n j : Nat) : BitVec 32 := Tab.get (0 : BitVec 32) r.x (8 * n + j)
  let skips (r : RowRun) (n : Nat) : Prop := Tab.get (0 : Nat) r.skip n ≠ 0
  let on (s : State) (r : RowRun) (t : State) (P : RowRun → Prop) : Prop :=
    ∃ q, t = { s with row := some q } ∧ q.die = r.die ∧ q.q = r.q ∧ q.row = r.row ∧ q.w = r.w + 1 ∧
      (∀ d p, drainPass s r.die r.q = some (d, p) → q.word = (s.engine r.die r.q).progWord p.slot (r.w + 1)) ∧ P q
  (∀ (w : UF) (i : Instr) (s : State) (r : RowRun), s.row = some r →
    i = .drainAdd w ∨ i = .drainSub w ∨ i = .drainMul w ∨ i = .drainFma w ∨ i = .drainMin w ∨ i = .drainMax w ∨ i = .drainAbs w ∨ i = .drainNeg w ∨ i = .drainMovi w ∨ i = .drainLdc w ∨ i = .drainLdr w ∨ i = .drainTab w ∨ i = .drainExp2 w ∨ i = .drainRcp w ∨ i = .drainClamp w ∨ i = .drainRnd w ∨ i = .drainCvt w ∨ i = .drainSel w →
    ∃ t, exec i s = .next t ∧ on s r t fun q => q.stores = r.stores ∧ q.span = r.span ∧ q.spanCfg = r.spanCfg ∧ q.chk = r.chk ∧ (s.poison = [] → q.bad = r.bad) ∧
      ∀ n j, n < 128 → j < 8 → skips r n ∨ j ≠ w.xd.toNat → X q n j = X r n j) ∧
  (∀ (w : UF) (i : Instr) (s : State) (r : RowRun), s.row = some r →
    i = .drainNop w ∨ i = .drainSkip w ∨ i = .drainQspan w ∨ i = .drainSt w ∨ i = .drainChk w →
    ∃ t, exec i s = .next t ∧ on s r t fun q => q.x = r.x ∧ (i ≠ .drainSt w → q.stores = r.stores ∧ q.flags = r.flags) ∧
      (i = .drainSt w → q.stores.length = r.stores.length +
        ((List.range 128).filter fun n => Tab.get (0 : Nat) r.skip n == 0).length) ∧
      (i = .drainQspan w → q.spanCfg = some (w.imm.toNat % 8 + 1, w.imm.toNat / 8 % 8, w.imm.toNat / 64 % 256)) ∧
      (i ≠ .drainQspan w → q.spanCfg = r.spanCfg ∧ q.span = r.span) ∧ (i ≠ .drainChk w → q.chk = r.chk)) ∧
  (∀ (w : UF) (s : State) (r : RowRun), s.row = some r → r.bad = false → s.poison = [] →
    ∃ t, exec (.drainEnd w) s = .next t ∧ t.row = none ∧
    SameMemory s t ∧ SameRegisters s t ∧ SameSystem s t ∧ t.pend = s.pend)

/-- O50. What the micro-operations of the drain give an element that does not skip them: XD of such an element
becomes: for MOVI the BF16 pattern across IMM and RM, shifted left by 16; for LDC table entry n and for LDR entry n + ROW
or n + COL, modulo 256 (all three when no NaN); for ABS and NEG the source without or with the other sign, or the
canonical NaN; for SEL a or b by the comparison of c with +0. After SKIP the element skips n micro-operations exactly when
its comparison holds. ADD, SUB, MUL, FMA, MIN, MAX, CLAMP, RND, EXP2 and RCP give what the F32 instructions of those names give, CVT
the F32 value of the source rounded into a format, TAB the table entry at n plus the clamped floor of the source; ST appends the
converted value with its offset and size to the row's stores; QSPAN and CHK take the element's value into the span and the row sum,
+0 for an element that skips; the flags that results call for join those of the pass. That a NaN pattern in the table or in MOVI is
read as the canonical NaN is an inference (log 76), not stated by the spec. -/
def Obligations.MicroOperationResults : Prop :=
  let nan (x : BitVec 32) : Prop := x &&& 0x7F800000#32 = 0x7F800000#32 ∧ x &&& 0x7FFFFF#32 ≠ 0
  let X (r : RowRun) (n j : Nat) : BitVec 32 := Tab.get (0 : BitVec 32) r.x (8 * n + j)
  let gives (i : Instr) (f : State → RowRun → Nat → BitVec 32 → Prop) (xd : Nat) : Prop :=
    ∀ (s : State) (r : RowRun), s.row = some r → ∃ t q, exec i s = .next t ∧ t.row = some q ∧
      ∀ n, n < 128 → Tab.get (0 : Nat) r.skip n = 0 → f s r n (X q n xd)
  let entry (s : State) (r : RowRun) (k : Nat) : BitVec 32 := Tab.get (0 : BitVec 32) (s.engine r.die r.q).tab (k % 256)
  (∀ w : UF, gives (.drainMovi w) (fun _ _ _ v =>
    let p : BitVec 32 := (w.imm ++ w.rm ++ 0#16).setWidth 32
    (nan p → v = 0x7FC00000#32) ∧ (¬nan p → v = p)) w.xd.toNat) ∧
  (∀ w : UF, gives (.drainLdc w) (fun s r _ v =>
    let p := entry s r (w.imm.toNat % 256)
    (nan p → v = 0x7FC00000#32) ∧ (¬nan p → v = p)) w.xd.toNat) ∧
  (∀ w : UF, gives (.drainLdr w) (fun s r n v =>
    let p := entry s r (w.imm.toNat % 256 + if w.imm.getLsbD 8 then n else r.row)
    (nan p → v = 0x7FC00000#32) ∧ (¬nan p → v = p)) w.xd.toNat) ∧
  (∀ w : UF, gives (.drainAbs w) (fun _ r n v =>
    let a := BitVec.ofNat 32 (r.src n w.sa.toNat)
    (nan a → v = 0x7FC00000#32) ∧ (¬nan a → v = a &&& 0x7FFFFFFF#32)) w.xd.toNat) ∧
  (∀ w : UF, gives (.drainNeg w) (fun _ r n v =>
    let a := BitVec.ofNat 32 (r.src n w.sa.toNat)
    (nan a → v = 0x7FC00000#32) ∧ (¬nan a → v = a ^^^ 0x80000000#32)) w.xd.toNat) ∧
  (∀ w : UF, gives (.drainSel w) (fun _ r n v =>
    v = BitVec.ofNat 32 (if fCond (w.imm.toNat / 16 % 8) (F32.value (r.src n (w.imm.toNat % 16))) (.fin false 0 0)
      then r.src n w.sa.toNat else r.src n w.sb.toNat)) w.xd.toNat) ∧
  (∀ (w : UF) (s : State) (r : RowRun), s.row = some r → ∃ t q, exec (.drainSkip w) s = .next t ∧ t.row = some q ∧
    ∀ n, n < 128 → Tab.get (0 : Nat) r.skip n = 0 → Tab.get (0 : Nat) q.skip n =
      if fCond (w.imm.toNat % 8) (F32.value (r.src n w.sa.toNat)) (F32.value (r.src n w.sb.toNat)) then w.imm.toNat / 8 % 16 else 0) ∧
  let noSkip (r : RowRun) : List Nat := (List.range 128).filter fun n => Tab.get (0 : Nat) r.skip n == 0
  let V (r : RowRun) (n code : Nat) : FV := F32.value (r.src n code)
  let collects (r q : RowRun) (fl : Nat → Nat) : Prop := q.flags = (noSkip r).foldl (fun a n => flOr a (fl n)) r.flags
  let forms (i : Instr) (xd : Nat) (G : State → RowRun → Nat → Nat × Nat → Prop) : Prop :=
    ∀ (s : State) (r : RowRun), s.row = some r → ∃ t q, exec i s = .next t ∧ t.row = some q ∧ ∃ v : Nat → Nat × Nat,
      collects r q (fun n => (v n).2) ∧ ∀ n, n < 128 → Tab.get (0 : Nat) r.skip n = 0 →
        G s r n (v n) ∧ X q n xd = BitVec.ofNat 32 (v n).1
  let fmt (k : Nat) : Fmt := if k = 0 then F32 else if k = 1 then F16 else if k = 2 then BF16 else if k = 3 then E4M3 else E5M2
  let converted (w : UF) (a : Nat) (p : Nat × Nat) : Prop :=
    let k := w.imm.toNat % 8
    (k < 5 → CvtGives F32 (fmt k) w.rm.toNat (w.imm.getLsbD 3) a p) ∧
    (5 ≤ k → ∃ x : Int × Nat, ToIntGives F32 w.rm.toNat (if k = 5 then -128 else 0) (if k = 5 then 127 else 255) a x ∧
      p = ((BitVec.ofInt 8 x.1).toNat, x.2))
  (∀ w : UF, forms (.drainAdd w) w.xd.toNat fun _ r n v => SumGives F32 w.rm.toNat (w.imm.getLsbD 0)
    [V r n w.sa.toNat, V r n w.sb.toNat] false v) ∧
  (∀ w : UF, forms (.drainSub w) w.xd.toNat fun _ r n v => SumGives F32 w.rm.toNat (w.imm.getLsbD 0)
    [V r n w.sa.toNat, (V r n w.sb.toNat).negate] false v) ∧
  (∀ w : UF, forms (.drainMul w) w.xd.toNat fun _ r n v => MulGives F32 w.rm.toNat (w.imm.getLsbD 0)
    (V r n w.sa.toNat) (V r n w.sb.toNat) v) ∧
  (∀ w : UF, forms (.drainFma w) w.xd.toNat fun _ r n v => FmaGives F32 w.rm.toNat (w.imm.getLsbD 0)
    (V r n w.sa.toNat) (V r n w.sb.toNat) (V r n w.xd.toNat) v) ∧
  (∀ w : UF, forms (.drainMin w) w.xd.toNat fun _ r n v =>
    MinMaxGives F32 false (r.src n w.sa.toNat) (r.src n w.sb.toNat) v.1 ∧ v.2 = 0) ∧
  (∀ w : UF, forms (.drainMax w) w.xd.toNat fun _ r n v =>
    MinMaxGives F32 true (r.src n w.sa.toNat) (r.src n w.sb.toNat) v.1 ∧ v.2 = 0) ∧
  (∀ w : UF, forms (.drainClamp w) w.xd.toNat fun _ r n v => v.2 = 0 ∧ ∃ y,
    MinMaxGives F32 true (r.src n w.xd.toNat) (r.src n w.sa.toNat) y ∧ MinMaxGives F32 false y (r.src n w.sb.toNat) v.1) ∧
  (∀ w : UF, forms (.drainRnd w) w.xd.toNat fun _ r n v => RndGives F32 w.rm.toNat (r.src n w.sa.toNat) v) ∧
  (∀ w : UF, forms (.drainExp2 w) w.xd.toNat fun _ r n v => Exp2Gives w.rm.toNat (w.imm.getLsbD 0) (r.src n w.sa.toNat) v) ∧
  (∀ w : UF, forms (.drainRcp w) w.xd.toNat fun _ r n v => RcpGives w.rm.toNat (w.imm.getLsbD 0) (r.src n w.sa.toNat) v) ∧
  (∀ w : UF, w.imm.toNat % 8 ≠ 7 → forms (.drainCvt w) w.xd.toNat fun _ r n v =>
    let k := w.imm.toNat % 8
    let a := r.src n w.sa.toNat
    (k = 0 → v = (if F32.value a = .nan then F32.nan else a, 0)) ∧
    (k ≠ 0 → ∃ p, converted w a p ∧ v.2 = p.2 ∧ (k < 5 → WidensTo (fmt k) p.1 v.1) ∧
      (5 ≤ k → let x : Int := if k = 5 then (BitVec.ofNat 8 p.1).toInt else p.1
        Rounds F32 0 false (decide (x < 0)) x.natAbs 0 (v.1, 0)))) ∧
  (∀ w : UF, forms (.drainTab w) w.xd.toNat fun s r n v =>
    let len := w.imm.toNat / 256
    let T (j : Nat) : Nat :=
      let p := entry s r (w.imm.toNat % 256 + j)
      if p &&& 0x7F800000#32 = 0x7F800000#32 ∧ p &&& 0x7FFFFF#32 ≠ 0 then 0x7FC00000 else p.toNat
    (V r n w.sa.toNat = .nan → v = (F32.nan, flInvalid)) ∧
    (∀ k, V r n w.sa.toNat = .inf k → v = (T (if k then 0 else len), 0)) ∧
    ∀ k m e, V r n w.sa.toNat = .fin k m e → v = (T (if k then 0 else min len (m * 2 ^ e.toNat / 2 ^ (-e).toNat)), 0)) ∧
  (∀ w : UF, w.imm.toNat % 8 ≠ 7 → ∀ (s : State) (r : RowRun), s.row = some r → ∃ t q, exec (.drainSt w) s = .next t ∧
    t.row = some q ∧ ∃ v : Nat → Nat × Nat, collects r q (fun n => (v n).2) ∧
      (∀ n ∈ noSkip r, converted w (r.src n w.sa.toNat) (v n)) ∧
      q.stores = r.stores ++ (noSkip r).map fun n =>
        let size : Nat := if w.imm.toNat % 8 = 0 then 4 else if w.imm.toNat % 8 < 3 then 2 else 1
        ((((w.imm.extractLsb' 4 10).toInt * 16 + ((size * n : Nat) : Int)) % 2 ^ 32).toNat, size, n, (v n).1)) ∧
  (∀ (w : UF) (s : State) (r : RowRun), s.row = some r →
    (∃ t q, exec (.drainQspan w) s = .next t ∧ t.row = some q ∧ ∀ n, n < 128 →
      Tab.get (0 : BitVec 32) q.span n = if Tab.get (0 : Nat) r.skip n = 0 then BitVec.ofNat 32 (r.src n w.sa.toNat) else 0) ∧
    ∃ t q, exec (.drainChk w) s = .next t ∧ t.row = some q ∧ Has q.chk fun k => ∀ n, n < 128 →
      Tab.get (0 : BitVec 32) k n = if Tab.get (0 : Nat) r.skip n = 0 then BitVec.ofNat 32 (r.src n w.sa.toNat) else 0)

/-- O51. Clause fetch and issue, landings, team barriers, placement, start, retirement, relaunch and TRIG: A fetched
header joins its sub-gang, or a failed check stops the unit with kind 2. An eligible sub-gang starts its clause with
position 0 due after PAD cycles, an ineligible one is passed over. Due writes land in order, the last one to a place
prevailing. A TBAR completes and counts its member once; a notification reaches every member's 16 barriers. A head team
that fits is placed and runs; the placed groups of a core that are due start together, each with its lead stream, warps,
zeroed V registers and arguments; a draining group retires after D cycles and frees its units; a killed team relaunches, or at its limit the kernel is
aborted; the first TRIG of a group signals. Which warp slots a group takes at its start (log 41), from when the D cycles of a draining
group that was frozen count (log 107), and that a notification reaches every member at one instant, and the members that the team then
has (log 111, 154), are the model's choices, not words of the spec. -/
def Obligations.UnitAndTeamEvents : Prop :=
  let u (s : State) : UnitId := s.arg.u
  (∀ s x g k y, s.unit? (u s) = some x → s.group? x.gid = some g → s.kernelOf g = some k →
    x.gangs.find? (fun y => lowQuad y.quads == s.num 0) = some y → x.ended = false → x.stop = none → y.wait = false → y.hdr = none →
    (headerCause s k.kid (8 * k.lpb.codew) (u s).lead y.pc = none → poisonedWord s k.kid y.pc (codeWord s k.kid y.pc) = none →
      Does .clauseFetch s fun t => Has (t.unit? (u s)) fun z => z =
        { x with gangs := x.gangs.map fun a => if a.quads = y.quads then { a with hdr := some (codeWord s k.kid y.pc) } else a }) ∧
    (∀ n, headerCause s k.kid (8 * k.lpb.codew) (u s).lead y.pc = some n → Does .clauseFetch s fun t =>
      Has (t.unit? (u s)) fun z => Has z.stop fun p => p.kind = 2 ∧ p.sub = n ∧ p.pc = y.pc ∧ p.quads = y.quads)) ∧
  (∀ s x g y h, s.unit? (u s) = some x → s.group? x.gid = some g → g.state ≠ .frozen → x.ended = false → x.clause = none →
    x.resume = none → s.ucyc (u s) % 16 = 0 → x.wins.contains (s.ucyc (u s) / 16 % 4) = true →
    mayIssue s g x (s.ucyc (u s)) = true → served x = some y → y.hdr = some h →
    let w0 := s.ucyc (u s)
    let ok : Prop := eligible s g x h (clauseWords s g.kid y.pc h) w0 = true
    let starts (t : State) : Prop :=
      Has (t.unit? (u s)) (fun z => z.clause = some { w0 := w0, pc := y.pc, hdr := h, quads := y.quads, xfer := .fall, reqs := 0 }) ∧
        ∃ a ∈ t.agenda, a.due = .slot (u s) 0 ∧ a.at' = max s.now (instantOf s (u s).die (u s).core (w0 + hPad h))
    let passes (t : State) : Prop :=
      Has (t.unit? (u s)) fun z => z.clause = none ∧ z.pi = lowQuad y.quads ∧ z.split = false
    ((u s).lead = false → Does .clauseIssue s fun t => (ok → starts t) ∧ (¬ok → passes t)) ∧
    ((u s).lead = true → x.issued.isEmpty = true ∨ x.lastIssue + 48 ≤ w0 →
      Does .leadClauseIssue s fun t => (ok → starts t) ∧ (¬ok → passes t))) ∧
  (∀ s, Does .registerLand s fun t =>
    let due (w : PendW) : Bool := w.u = u s && w.land ≤ s.ucyc (u s)
    let ws := s.pend.filter due
    t.pend = s.pend.filter (fun w => !due w) ∧ SameMemory s t ∧
    (∀ (a b : List PendW) w, ws = a ++ w :: b →
      (w.file = .v → (∀ x ∈ b, x.file = .v → vKey (u s) x.reg x.lane ≠ vKey (u s) w.reg w.lane) →
        t.v (u s) w.reg w.lane = w.val.setWidth 32) ∧
      (w.file = .s → (∀ x ∈ b, x.file = .s → x.reg ≠ w.reg) → t.sr (u s) w.reg = w.val) ∧
      (w.file = .g → (∀ x ∈ b, x.file = .g → x.reg ≠ w.reg) → t.gr (u s) w.reg = w.val) ∧
      (w.file = .p → w.reg ≠ 0 → (∀ x ∈ b, x.file = .p → pKey (u s) x.reg x.lane ≠ pKey (u s) w.reg w.lane) →
        t.p (u s) w.reg w.lane = w.val.getLsbD 0)) ∧
    ∀ v r l, (∀ w ∈ ws, w.file = .v → vKey (u s) w.reg w.lane ≠ vKey v r l) → t.v v r l = s.v v r l) ∧
  (∀ s o g b, s.op? (s.num 0) = some o → o.live = true → s.group? o.gid = some g → o.bar = some b →
    Does .teamBarrierApply s fun t => Has (t.op? o.id) (fun z => z.stage = .done) ∧
      let v := bBefore g b (o.issue + 4) o.u.rank
      (v.mode = 2 → ∀ m, s.team? g.tid = some m → (m.bar v.tidx).err = 0 → v.tidx < m.tb.length →
        let b := m.bar v.tidx
        let last : Prop := s.aliveMembers m ≠ [] ∧ ∀ n ∈ s.aliveMembers m, s.tmbrOf n = g.tmbr ∨ s.tmbrOf n ∈ b.bits
        Has (t.team? g.tid) fun n =>
          (¬last → (n.bar v.tidx).phases = b.phases ∧ ∀ k, k ∈ (n.bar v.tidx).bits ↔ k = g.tmbr ∨ k ∈ b.bits) ∧
          (last → (n.bar v.tidx).phases = (b.phases + 1) % 65536 ∧ (n.bar v.tidx).bits = [] ∧
            ((∃ x ∈ m.members, ∃ h, s.group? x = some h) → Due' t (ev .teamBarrierNotify [m.tid, v.tidx, 0]))))) ∧
  (∀ s m, s.team? (s.num 0) = some m → Does .teamBarrierNotify s fun t =>
    ∀ n ∈ m.members ++ m.twins, ∀ g, s.group? n = some g → ∀ b, b < 16 → Has (t.group? n) fun h => ∃ c ∈ h.bLog, c.bar = b ∧
      c.ev = (if s.num 2 = 0 then .teamDone (s.num 1) else .teamErr (s.num 1) (s.num 2)) ∧ c.cyc = s.cyc g.die g.core) ∧
  (∀ s k idx ps, diePlaces s (s.num 0) = true → headTeam s (s.num 0) = some (k, idx, none) →
    planTeam s (s.num 0) k.lpb idx = some ps → (∀ m ∈ s.teams, m.tid < s.nextId) →
    Does .teamPlace s fun t => Has (t.team? s.nextId) (fun m => m.kid = k.kid ∧ m.idx = idx ∧ m.die = s.num 0 ∧ m.state = .running) ∧
      ∀ p ∈ ps, ∃ g ∈ t.groups, g.tid = s.nextId ∧ g.g = p.1 ∧ g.core = p.2.1 ∧ g.die = s.num 0 ∧ g.state = .placed) ∧
  (∀ s g k, s.group? (s.num 0) = some g → s.kernelOf g = some k → mayBegin s g k = true → g.start ≤ s.cyc g.die g.core →
    Does .groupStart s fun t => ∀ x j, x ∈ s.groups → s.group? x.gid = some x → x.die = g.die → x.core = g.core →
      x.start = g.start → s.kernelOf x = some j → mayBegin s x j = true → Has (t.group? x.gid) fun h => h.state = .running) ∧
  (∀ s g k, s.group? (s.num 0) = some g → s.kernelOf g = some k → mayBegin s g k = true → g.start ≤ s.cyc g.die g.core →
    g.slots.Nodup → (s.groups.filter fun x => x.die = g.die && x.core = g.core && x.state == .placed && x.start = g.start) = [g] →
    Does .groupStart s fun t => Has (t.group? g.gid) fun h => h.state = .running ∧
      h.slots = startSlots s g k.lpb.warps ∧
      (s.partner g = none → h.slots = ((List.range 4).filter fun w => !(coreSlots s g.die g.core).contains w).take k.lpb.warps) ∧
      (∀ n ∈ h.slots, (t.core g.die g.core).wptr.getD n 0 = 0) ∧
      Has (t.unit? (leadId h)) (fun x => x.gid = g.gid ∧ x.gangs.map (·.pc) = [8 * k.lpb.leadent]) ∧
      t.gr (leadId h) 1 = BitVec.ofNat 64 k.lpb.args ∧
      ∀ n, n < h.slots.length →
        Has (t.unit? (warpId h n)) (fun x => x.gid = g.gid ∧ x.gangs.map (·.pc) = [8 * k.lpb.warpent] ∧
          x.exec = (warpLanes g.prot g.lanes n).1) ∧
        t.sr (warpId h n) 1 = BitVec.ofNat 64 k.lpb.args ∧ ∀ r l, r < 128 → l < 32 → t.v (warpId h n) r l = 0) ∧
  (∀ s g, s.group? (s.num 0) = some g → g.state = .draining → drainHeld s g = false →
    drainFrom s g + 384 ≤ s.cyc g.die g.core →
    Does .groupRetire s fun t => (∀ x ∈ t.units, x.gid ≠ g.gid) ∧
      Has (t.group? g.gid) (fun h => h.state = .retired ∧ h.slots = [] ∧ h.kLog = [] ∧ h.bLog = []) ∧
      (g.twinOf = none → ∀ k, s.kernel? g.kid = some k →
        Has (t.kernel? g.kid) fun k => (g.tid * 256 + g.tmbr) ∈ k.trig)) ∧
  (∀ s m k, s.team? (s.num 0) = some m → s.kernel? m.kid = some k → m.state = .killed → k.state = .running →
    (s.ops.any fun o => (m.members ++ m.twins).contains o.gid && o.live && (o.held || o.copy.isSome)) = false →
    Does .teamRelaunch s fun t =>
      (k.lpb.relim ≤ m.relaunches → Has (t.kernel? k.kid) fun z => z.state = .aborted) ∧
      (m.relaunches < k.lpb.relim → Has (t.team? m.tid) fun z => z =
        { m with state := .relaunching, relaunches := m.relaunches + 1, die := relaunchDie s k m.idx, killAt := s.now })) ∧
  (∀ s o g, s.op? (s.num 0) = some o → o.live = true → s.group? o.gid = some g →
    (s.ops.any fun e => e.gid = o.gid && e.kind.isWrite && e.live && e.issue ≤ o.issue) = false →
    Does .trigSignal s fun t => Has (t.op? o.id) (fun z => z.stage = .done) ∧ Has (t.group? g.gid) (fun h => h.trig = 2) ∧
      (g.trig ≠ 2 → ∀ k, s.kernel? g.kid = some k → Has (t.kernel? g.kid) fun k => (g.tid * 256 + g.tmbr) ∈ k.trig))

/-- O52. What a held entry, a home, a walk, a shoot-down and the end of an operation do: An entry leaves the stopper after
its hold: TBAR and TRIG go on, the others are released, a team store with no lane in range ends; an atomic, LAUNCH, TRIG or
TBAR commits its team. A released command that may go is in flight. A marker waits for a keyed link and raises a home's record
of it. A request that comes to its home is there from the next cycle on; in its turn, covered and unhindered, a write is
applied there lane by lane in order and a read is answered with the value there; an acknowledgement marks its lanes and the last one makes the write
visible. A fault of cause 2 or 5 parks a lane; the end of the last walk lets the access go; a swept translation is held no
more; an operation that ends is done: its counter falls and its results wait to land. The cycle at which the counter of an access falls
(log 87), that a request is served from the cycle after its arrival on (log 116), that a lane's 16 bytes are performed in one action
(log 117), and that a request or a response waits for a keyed link (log 134), are the model's readings, not words of the spec. -/
def Obligations.AccessEvents : Prop :=
  (∀ s o, s.op? (s.num 0) = some o → o.held = true → frozenUnit s o.u = false → o.leave ≤ s.ucyc o.u →
    s.arrPoisoned 7 o.id 1 = false → Does .stopperLeave s fun t => SameMemory s t ∧ SameRegisters s t ∧
      Has (t.op? o.id) (fun z => z.stage = if o.kind = .tbar ∨ o.kind = .trig then .inflight
        else if o.kind = .teamStore ∧ ∀ l ∈ o.lanes, l.st = .idle then .done else .released) ∧
      (if o.kind = .tbar then Due' t (ev .teamBarrierApply [o.id])
        else if o.kind = .trig then Due' t (ev .trigSignal [o.id]) else Due' t (evU .writeDispatch o.u [])) ∧
      (o.kind.isAtomic = true ∨ o.kind = .launch ∨ o.kind = .trig ∨ o.kind = .tbar →
        ∀ g m, s.group? o.gid = some g → s.team? g.tid = some m → Has (t.team? g.tid) fun n => n.committed = true)) ∧
  (∀ s o, s.ops = [o] → s.arg.u = o.u → o.stage = .released → frozenUnit s o.u = false → writeMayGo s o = true →
    ((o.kind = .copy ∨ o.kind = .copyr ∨ o.kind = .cpyst) ∧ o.copy ≠ none ∨ o.kind = .cpycan ∨ o.kind = .launch ∨ o.kind = .doorbell) →
    Does .writeDispatch s fun t => SameMemory s t ∧ SameRegisters s t ∧ Has (t.op? o.id) (fun z => z.stage = .inflight) ∧
      Due' t (if o.kind = .cpycan then ev .copyCancel [o.id] else if o.kind = .launch then ev .launchDelivered [o.id]
        else if o.kind = .doorbell then ev .doorbell [o.ctx, o.args.getD 0 0, o.args.getD 1 0, o.id]
        else ev .copyClaim [o.id])) ∧
  (∀ s, s.dies.length = 16 → s.num 1 < 16 →
    (linkHolds s (s.num 0) (s.num 1) = true → Does .markerReceive s fun t => t = { s with agenda := t.agenda } ∧
      Due' t (ev .markerReceive [s.num 0, s.num 1, s.num 2])) ∧
    (linkHolds s (s.num 0) (s.num 1) = false → Does .markerReceive s fun t => SameMemory s t ∧ SameRegisters s t ∧
      (let old := Tab.get (0 : Nat) (s.die (s.num 1)).markers (s.num 0)
       Tab.get (0 : Nat) (t.die (s.num 1)).markers (s.num 0) = if ctrGe (s.num 2) old = true then s.num 2 else old) ∧
      ∀ e, e < 16 → ctrGe ((t.die (s.num 1)).frontier.getD e 0) ((s.die (s.num 1)).frontier.getD e 0) = true)) ∧
  (∀ s o, s.op? (s.num 0) = some o → o.live = true →
    let h := s.num 1
    let s1 := Judged s h
    let mine := lanesAt o h
    let comes (i : Instr) : Prop := Does i s fun t => SameMemory s t ∧ SameRegisters s t ∧ Due' t (ev i [o.id, h]) ∧
      Has (t.op? o.id) fun p => p.lanes = o.lanes.map fun l =>
        if l.st == .sent && l.home = h then { l with st := .atHome, arr := homeCycle s h + 1 } else l
    mine ≠ [] → notArrived s o h = false → homeGone s h = false →
    ((∃ l ∈ mine, l.st = .sent) → comes .writeApply ∧ comes .readAnswer) ∧
    ((∀ l ∈ mine, l.st = .atHome) → yieldsTurn s o h = false → homeWaits s1 o h = false →
      ((∀ l ∈ mine, migrating s1 o l = false ∧ behindParked s1 o l = false) →
        Does .writeApply s fun t =>
          let z := mine.foldl (fun s l => (applyLane s o l).1) s1
          t.hbm = z.hbm ∧ t.hostMem = z.hostMem ∧ t.scratch = s.scratch ∧ t.code = s.code ∧ SameRegisters s t ∧
          Due' t (ev .writeAck [o.id, h]) ∧
          Has (t.op? o.id) fun p => ∀ l ∈ mine, ∃ k ∈ p.lanes, k.lane = l.lane ∧ k.st = .applied) ∧
      Does .readAnswer s fun t => SameMemory s t ∧ SameRegisters s t ∧
        Has (t.op? o.id) fun p => ∀ l ∈ mine, ∃ k ∈ p.lanes, k.lane = l.lane ∧ k.st = .answered ∧ k.res = loadValue s1 o l)) ∧
  (∀ s o, s.op? (s.num 0) = some o → o.live = true → (∀ l ∈ o.lanes, l.poison = false) →
    let h := s.num 1
    let acks (l : LaneReq) : Bool :=
      if 256 ≤ h then l.st == .applied && teamCore s o.u l.addr == h - 256
      else (l.st == .applied || (32 ≤ h && l.st == .sent)) && l.home == h
    let ls := o.lanes.map fun l => if acks l then { l with st := .acked } else l
    linkHolds s o.u.die h = false → Does .writeAck s fun t => Has (t.op? o.id) fun z => z.lanes = ls ∧
      ((∀ l ∈ ls, l.st = .acked) → z.stage = .done) ∧ (¬(∀ l ∈ ls, l.st = .acked) → z.stage = o.stage)) ∧
  (∀ s o, s.op? (s.num 0) = some o → o.live = true → (∀ l ∈ o.lanes, l.poison = false) →
    ((∀ l ∈ o.lanes, linkHolds s o.u.die l.home = false) → Does .loadComplete s fun t => Finished s t o (s.ucyc o.u + 1)) ∧
    Does .teamLoadComplete s fun t => Finished s t o (s.ucyc o.u)) ∧
  (∀ s o l, s.op? (s.num 0) = some o → Only s o → o.live = true → o.kind = .teamLoad → s.num 1 = l.lane →
    let x := teamCore s o.u l.addr
    (o.lanes.filter fun k => k.st == .sent && teamCore s o.u k.addr == x) = [l] → o.lanes.find? (fun k => k.lane == l.lane) = some l →
    teamQueue s o.u.die x = [] → s.atStart o.u.die x = true →
    (∀ w ∈ wordsOf l.addr o.size, bankFree s o.u.die x w (s.cyc o.u.die x) = true) →
    x = o.u.core ∨ lineClear s o.u.die x (l.addr % 2 ^ 19) (s.cyc o.u.die x) = true →
    Does .teamLoadServe s fun t => SameMemory s t ∧ SameRegisters s t ∧ Has (t.op? o.id) fun z => ∃ k ∈ z.lanes,
      k.lane = l.lane ∧ k.st = .answered ∧ k.res = s.scrRead o.u.die x (l.addr % 2 ^ 19) o.size) ∧
  (∀ s o l, s.op? (s.num 0) = some o → Only s o → o.live = true → o.kind = .teamStore →
    (o.lanes.filter fun l => l.st == .sent && teamCore s o.u l.addr == s.num 1) = [l] →
    teamBehind s o (s.num 1) = false → teamQueue s o.u.die (s.num 1) = [] → s.atStart o.u.die (s.num 1) = true →
    (∀ w ∈ wordsOf l.addr o.size, bankFree s o.u.die (s.num 1) w (s.cyc o.u.die (s.num 1)) = true) →
    Does .teamStoreApply s fun t => t.hbm = s.hbm ∧ t.hostMem = s.hostMem ∧ t.code = s.code ∧ SameRegisters s t ∧
      t.scratch = s.scratch.writeN (scrAddr o.u.die (s.num 1) (l.addr % 2 ^ 19)) l.data o.size ∧
      Due' t (ev .writeAck [o.id, 256 + s.num 1]) ∧
      Has (t.op? o.id) fun z => ∃ k ∈ z.lanes, k.lane = l.lane ∧ k.st = .applied) ∧
  (∀ s o l, s.op? (s.num 0) = some o → o.live = true → o.lanes.find? (fun l => l.lane == s.num 1) = some l →
    (o.kind = .probe → Does .walkComplete s fun t => SameMemory s t ∧ Has (t.op? o.id) fun z =>
      (z.lanes = o.lanes.map fun k =>
        if k.lane = l.lane then { k with st := .answered, res := probeWord s o.u.die o.ctx l.addr } else k) ∧
      ((∀ k ∈ z.lanes, k.st = .answered) → z.stage = .done)) ∧
    (o.kind ≠ .probe → l.st = .walking → ∀ p, (s.endWalk o l).op? o.id = some p → p.live = true →
      (∀ k ∈ p.lanes, k.st ≠ .walking ∧ k.st ≠ .faulted) →
      Does .walkComplete s fun t => Has (t.op? o.id) fun z =>
        z = { p with stage := if p.stage == .probing then .ready else p.stage })) ∧
  (∀ s d, s.sd? (s.num 0) = some d →
    Does .shootdownSweep s (fun t => SameMemory s t ∧ SameRegisters s t ∧
      t.xlb = s.xlb.filter fun e => !(e.die == s.num 1 && d.hits e.x)) ∧
    ((d.waiting.any fun w => w.1 = s.num 1 * 256 + s.num 2 &&
        match s.op? w.2 with | some o => underWay s d o | none => false) = false →
      Does .sweepAck s fun t => Has (t.sd? d.id) fun e =>
        e.waiting = d.waiting.filter fun w => w.1 ≠ s.num 1 * 256 + s.num 2) ∧
    ((∀ o ∈ s.ops, ∀ l ∈ o.lanes, l.st ≠ .parked) → Does .shootdownComplete s fun t =>
      t.sds = s.sds.filter (fun x => x.id ≠ d.id) ∧ (d.op = 0 → (t.ctx d.ctx).tinvBusy = false) ∧
      (∀ o, s.op? d.op = some o → d.op ≠ 0 → o.live = true → Has (t.op? d.op) fun z => z.stage = .done))) ∧
  (∀ s o l, s.op? (s.num 0) = some o → o.live = true → (s.num 2 = 2 ∨ s.num 2 = 5) → l ∈ o.lanes → l.lane = s.num 1 →
    l.st = .sent → Does .faultReport s fun t => t = { s with ops := t.ops } ∧
      Has (t.op? o.id) fun z => { l with st := .parked, cause := s.num 2 } ∈ z.lanes) ∧
  (∀ s o l p, s.ops = [o] → s.num 0 = o.id → o.live = true → (o.kind = .rld ∨ o.kind = .rst ∨ o.kind = .ratom) →
    o.lanes.find? (fun l => l.lane == s.num 1) = some l →
    (∀ k ∈ o.lanes, k.st = .parked ∧ k.xl = none ∧ k.peer = p ∧
      k.addr / 2 ^ regionPage s o.u.die o.ctx l.addr = l.addr / 2 ^ regionPage s o.u.die o.ctx l.addr) →
    Does .faultResolved s fun t => (Has (t.op? o.id) fun z => z.lanes = o.lanes.map fun k => { k with st := .sent }) ∧
      ∃ m, Due' t (.ev .dynamicMessage { Arg.none with n := [o.u.die, 0, s.nextId], msg := some m }) ∧ m.peer = p ∧
        m.addrs = o.lanes.map (·.addr)) ∧
  (∀ s o, s.op? (s.num 0) = some o → o.live = true →
    Does .sysrdComplete s (fun t =>
      let i := o.args.getD 0 0
      let held := (s.heldFlags.filter fun h => h.die = o.u.die && h.core = o.u.core && h.ctx = o.ctx).foldl
        (fun a h => flOr a h.flags) 0
      let v := if i = 4 then flOr (ctxReg s o.ctx 4) held else ctxReg s o.ctx i
      Finished s t { o with lanes := [{ laneReq 0 0 0 0 with res := v, st := .acked }] } (s.ucyc o.u)) ∧
    Does .scrflgComplete s (fun t =>
      Finished s t { o with lanes := [{ laneReq 0 0 0 0 with res := (s.ctx o.ctx).oor }] } (s.ucyc o.u + 1) ∧
      (t.ctx o.ctx).oor = if o.fn = 1 then 0 else (s.ctx o.ctx).oor) ∧
    (o.args.getD 0 0 ≤ localTime s o.u.die o.u.core s.now →
      Does .waittExpiry s fun t => Finished s t o (max (o.issue + 4) (cycUp s o.u))))

/-- O53. The life of a copy, of a queue record and of a kernel: A dispatched copy with an operand out of reach is
cancelled, and waits behind an earlier one of its channel that waits; otherwise it is claimed, its claims entered where their
homes have room; the words of a unit are read and written, and the last unit leads to its acknowledgement, which completes it
with its bytes counted; CPYCAN cancels what its channel dispatched before it, a
unit under way first ending, and nothing later. A LAUNCH waits at its queue or gives 1. QCFG, CLEAR, SKIP and doorbells change the queue as its tables say; a head
record is fetched, or puts the queue into error 2 or 3, and is consumed with QHEAD, one in a tick. A kernel is armed, started in order
and retired, its image gone, unless its context is frozen. That a channel whose earlier copy still waits makes a later one wait, and
that a scheduled copy ends only with its last word (log 120, 131), that SKIP after an error of a SIGNAL leaves QHEAD as it is (log
130), and the tick at which a head is consumed (log 131), are the model's readings, not words of the spec. -/
def Obligations.CopyQueueAndKernelEvents : Prop :=
  (∀ s o r, s.op? (s.num 0) = some o → o.copy = some r → o.stage = .inflight →
    let bad : Bool := (r.srcScr && (2 ^ 32 ≤ r.src || !scrReach s o.gid (r.all.map fun p => (p.1, p.2.2)))) ||
      (r.dstScr && (2 ^ 32 ≤ r.dst || !scrReach s o.gid (r.all.map fun p => (p.2.1, p.2.2))))
    (bad = true → Does .copyClaim s fun t => Has (t.op? o.id) fun z => z.stage = .cancelled) ∧
    (bad = false → channelWaits s o r = true → Does .copyClaim s fun t => t = { s with agenda := t.agenda } ∧
      Due' t (ev .copyClaim [o.id])) ∧
    (bad = false → channelWaits s o r = false → r.sched = true → Does .copyClaim s fun t =>
      Has (t.op? o.id) (fun z => z.stage = .claimed) ∧ Due' t (ev .scheduledCopyEnd [o.id])) ∧
    (bad = false → channelWaits s o r = false → r.sched = false → r.dstScr = true → Does .copyClaim s fun t =>
      Has (t.op? o.id) (fun z => z.stage = .claimed) ∧ Due' t (ev .copyStreamStart [o.id])) ∧
    (bad = false → channelWaits s o r = false → r.sched = false → r.dstScr = false → regionRefuses s o r = false →
      (∀ h, (distinct ((s.claims.filter fun k => k.home = h).map fun k => 2 * k.op + k.rng)).length + 2 ≤ 256) →
      Does .copyClaim s fun t => Has (t.op? o.id) (fun z => z.stage = .claimed) ∧ Due' t (ev .copyStreamStart [o.id]) ∧
        ∀ c ∈ claimsOf s o r, ∃ k ∈ t.claims, k.op = c.op ∧ k.rng = c.rng ∧ k.va = c.va)) ∧
  (∀ s o r, s.op? (s.num 0) = some o → o.copy = some r → o.stage = .claimed → channelClear s o r = true → o.args.getD 0 0 = 0 →
    Does .copyStreamStart s fun t => Has (t.op? o.id) fun z => z.stage = .streaming) ∧
  (∀ s o r, s.op? (s.num 0) = some o → o.copy = some r → o.stage = .streaming →
    (r.paused = false → r.stopping = false → frozenUnit s o.u = false →
      (r.shape.count ≤ r.units → Does .copyUnitDeliver s fun t =>
        Has (t.op? o.id) (fun z => z.stage = .delivered) ∧ Due' t (ev .copyAck [o.id])) ∧
      (let ls := if o.lanes.isEmpty then unitLanes r else o.lanes
       let x := ls.foldl (readWord o r) (s.modOp o.id fun o => { o with lanes := ls }, .ok)
       ∀ p q, r.units < r.shape.count → x.2 = .ok → x.1.op? o.id = some p → (∀ l ∈ p.lanes, l.st = .answered) →
        (∀ l ∈ ls, l.st ≠ .applied ∧ l.st ≠ .atHome) → let y := p.lanes.foldl (unitFault o r) (x.1, Unit8.ok)
        y.2 = .ok → y.1.op? o.id = some q → let z := q.lanes.foldl (writeWord o r) y
        z.2 = .ok → Does .copyUnitDeliver s fun t =>
          Has (t.op? o.id) (fun z => z.copy = some { r with units := r.units + 1, bytes := r.bytes + r.shape.unit } ∧ z.lanes = []) ∧
          t.hbm = z.1.hbm ∧ t.hostMem = z.1.hostMem ∧ t.scratch = z.1.scratch ∧ t.code = s.code ∧ SameRegisters s t ∧
          Due' t (ev .copyUnitDeliver [o.id]))) ∧
    ((∀ e ∈ regionEntries s o r, e.2.2.2.1 = true → some (Tab.get (0 : Nat) (s.ctx o.ctx).rgtseq e.1) = r.seq) →
      Does .sequencedCopyrApply s fun t => t.ops = s.ops ∧ Due' t (ev .copyUnitDeliver [o.id])) ∧
    (s.num 2 ≠ 1 → r.faulted = false → layServes s o.u = true →
      (∀ c, (if r.srcScr then some (copyCore s o r.src) else if r.dstScr then some (copyCore s o r.dst) else none) = some c →
        s.atStart o.u.die c = true) →
      let per := 64 / r.shape.unit
      let us := (List.range per).filterMap fun j =>
        if s.num 1 * per + j < r.shape.count then some (s.num 1 * per + j) else none
      ((us.flatMap fun n => (r.words n).map fun p => (n, p)).foldl (beatPiece o r) (s.modOp o.id fun o => { o with stage := .streaming }, 0, 0)).2.1 = 0 →
      Does .scheduledCopyBeat s fun t => Has (t.op? o.id) fun z =>
        z.copy = some { r with units := r.units + us.length, bytes := r.bytes + us.length * r.shape.unit })) ∧
  (∀ s o r, s.op? (s.num 0) = some o → o.copy = some r →
    (o.stage = .delivered → o.args.getD 1 0 = 0 → Does .copyAck s fun t => Has (t.op? o.id) (fun z => z.stage = .done) ∧
      (t.ctx o.ctx).flags = flOr (s.ctx o.ctx).flags (o.args.getD 2 0) ∧
      (r.dstScr = false → o.u.sh = false → r.ch < (s.core o.u.die o.u.core).wptr.length → (t.core o.u.die o.u.core).wptr.getD r.ch 0 =
        ((s.core o.u.die o.u.core).wptr.getD r.ch 0 + r.shape.unit * r.shape.count) % 2 ^ 32)) ∧
    (o.live = true → (∀ a ∈ s.agenda, ∀ b, a.due = .ev .scheduledCopyBeat b → b.n.getD 0 0 = o.id → b.n.getD 2 0 ≠ 1) →
      Does .scheduledCopyEnd s fun t => Has (t.op? o.id) fun z => z.stage = .done) ∧
    (o.live = true → o.kind ≠ .cpycan → Does .copyCancel s fun t => Has (t.op? o.id) fun z => z.stage = .cancelled)) ∧
  (∀ s o e q, s.op? (s.num 0) = some o → o.live = true → o.kind = .cpycan → o.copy = none → (s.ops.map (·.id)).Nodup →
    e ∈ s.ops → e.u.die = o.u.die → e.u.core = o.u.core → e.u.sh = o.u.sh → e.stage = .streaming → e.copy = some q → q.ch = o.fn →
    q.order < o.args.getD 0 0 → midUnit e = true → Does .copyCancel s fun t => Due' t (ev .copyCancel [o.id]) ∧
      Has (t.op? o.id) (fun z => z.stage = o.stage) ∧
      Has (t.op? e.id) fun z => z.stage = .streaming ∧ z.copy = some { q with stopping := true }) ∧
  (∀ s o, s.op? (s.num 0) = some o → o.live = true → o.kind = .cpycan → o.copy = none → (s.ops.map (·.id)).Nodup →
    (∀ e ∈ s.ops, midUnit e = false) → Does .copyCancel s fun t => Has (t.op? o.id) (fun z => z.stage = .done) ∧
      (∀ e ∈ s.ops, e.u.die = o.u.die → e.u.core = o.u.core → e.u.sh = o.u.sh →
        (e.stage = .inflight ∨ e.stage = .claimed ∨ e.stage = .streaming ∨ e.stage = .delivered) →
        (∃ q, e.copy = some q ∧ q.ch = o.fn ∧ q.order < o.args.getD 0 0) → Has (t.op? e.id) fun z => z.stage = .cancelled) ∧
      ∀ e ∈ s.ops, e.id ≠ o.id → (∀ q, e.copy = some q → q.ch = o.fn → o.args.getD 0 0 ≤ q.order) →
        Has (t.op? e.id) fun z => z.stage = e.stage) ∧
  (∀ s o, s.op? (s.num 0) = some o → o.live = true → let q := o.args.getD 1 0
    let on : Prop := (s.queue q).en = true ∧ (s.queue q).ctx = o.ctx
    Does .launchDelivered s fun t =>
      (on → (t.queue q).launches = (s.queue q).launches ++ [o.id] ∧ Due' t (ev .recordConsume [o.ctx])) ∧
      (¬on → Has (t.op? o.id) fun z => z.stage = .done ∧ z.lanes.map (·.res) = [1])) ∧
  (∀ s, let q := s.num 1
    let x := s.queue q
    let v := s.num 2
    owns s (s.num 0) = true → v < 2 ^ 27 → 4 ≤ bits v 6 5 → bits v 6 5 ≤ 16 →
    (x.en = false → v.testBit 15 = true → (s.ctx (v % 64)).state ≠ .free → Does .qcfgWrite s fun t => t.queue q =
      { Queue.reset with ctx := v % 64, size := bits v 6 5, port := bits v 11 1, pri := bits v 12 2, urgok := v.testBit 14,
                         vec := bits v 16 11, en := true, base := x.base, stale := x.stale }) ∧
    (x.en = true → v.testBit 15 = false → bits v 6 5 = x.size → v % 64 = x.ctx → Does .qcfgWrite s fun t =>
      (t.queue q).en = false ∧ (t.queue q).err = 0 ∧ (t.queue q).head = x.head ∧ (t.queue q).tail = x.head ∧
        (t.queue q).pend = [] ∧ (t.queue q).launches = [])) ∧
  (∀ s, let q := s.num 1
    let x := s.queue q
    (x.err ≠ 0 → Does .qcmdClear s fun t => t.queue q =
      { x with head := x.tail, err := 0, headRec := none, eligibleAt := none, behind := false }) ∧
    (x.err = 2 ∨ x.err = 3 ∨ x.err = 8 → Does .qcmdSkip s fun t => t.queue q =
      { x with head := if x.behind then x.head else (x.head + 1) % 65536, err := 0, headRec := none, eligibleAt := none,
               behind := false })) ∧
  (∀ s, let q := s.num 1
    let x := s.queue q
    let v := s.num 2 % 65536
    let d := (v + 65536 - x.head) % 65536
    (∀ a ∈ s.agenda, a.at' ≠ s.now) → x.en = true → x.ctx = s.num 0 →
    (x.waiting ≤ d → d ≤ x.slots → Does .doorbell s fun t => t.queue q = { x with tail := v } ∧
      ∀ o, s.num 3 ≠ 0 → s.op? (s.num 3) = some o → o.live = true → Has (t.op? o.id) fun z => z.stage = .done) ∧
    (d < x.waiting → Does .doorbell s fun t => t.queue q = { x with stale := min 65535 (x.stale + 1) })) ∧
  (∀ s, let q := s.num 0
    let x := s.queue q
    x.fetching = true → x.en = true → x.err = 0 → x.waiting ≠ 0 →
    let r := (s.modQueue q fun x => { x with fetching := false }).vreadWords x.ctx (x.base + 32 * (x.head % x.slots)) 4
    Does .recordFetch s fun t => (r.1 = none → (t.queue q).err = 3) ∧
      ∀ w, r.1 = some w → (malformed r.2 x w = true → (t.queue q).err = 2) ∧
        (malformed r.2 x w = false → t.queue q = { x with
          fetching := false, headRec := some w
          blocks := x.blocks.put 0 (if w.getD 0 0 % 16 = 1 then (r.2.readBlock x.ctx (w.getD 2 0)).1 else none) })) ∧
  (∀ s q w, let n := s.num 0
    let x := s.queue q
    ((List.range 256).filter fun q => (s.queue q).en && (s.queue q).ctx == n) = [q] → x.pend = [] → x.err = 0 →
    x.headRec = some w → x.launches = [] → w.getD 0 0 = 0 → s.ibrum.paused = false → (s.ctx n).state = .running →
    s.now % Config.unitsPerTick = 0 → (s.ctx n).nextTick ≤ s.now →
    Does .recordConsume s fun t => (t.ctx n).nextTick = s.now + Config.unitsPerTick ∧ t.queue q =
      { x with head := (x.head + 1) % 65536, headRec := none, eligibleAt := none, blocks := x.blocks.del 0, taken := x.taken + 1
               done := x.done + 1, doneRecs := (x.taken + 1) :: x.doneRecs }) ∧
  (∀ s k, s.kernel? (s.num 0) = some k →
    (k.state = .queued → ctxRuns s k.ctx = true → armRoom s k = true → Does .kernelArm s fun t =>
      Has (t.kernel? k.kid) (fun z => z.state = .armed) ∧ Due' t (ev .kernelStart [k.kid])) ∧
    (k.state = .armed → ctxPlaces s k.ctx = true → classOk s k = true → Does .kernelStart s fun t =>
      Has (t.kernel? k.kid) (fun z => z.state = .running ∧ z.order = s.kernelOrder + 1 ∧ z.startTick = originTime s) ∧
      ((∀ d ∈ k.dies, (s.die d).st = 0) → Has (t.kernel? k.kid) fun z => z =
        { k with state := .running, order := s.kernelOrder + 1, startTick := originTime s
                 late := k.lpb.sched && decide (k.lpb.start < originTime s) }) ∧
      t.kernelOrder = s.kernelOrder + 1 ∧ ∀ d ∈ k.dies, Due' t (ev .teamPlace [d])) ∧
    (k.state = .draining → (s.ctx k.ctx).state ≠ .freezing → (s.ctx k.ctx).state ≠ .suspended → (∀ o ∈ s.ops, o.live = true → o.kind.isWrite = true →
        ∀ g, s.group? o.gid = some g → g.kid ≠ k.kid) →
      Does .kernelRetire s fun t => Has (t.kernel? k.kid) (fun z => z.state = .retired) ∧
        (∀ a, codeAddr k.kid 0 ≤ a → a < codeAddr (k.kid + 1) 0 → t.code.read a = 0) ∧
        (k.recNo ≠ 0 → (t.queue k.q).done = (s.queue k.q).done + 1)))

/-- O54. Posting, granting, fetching, stepping, draining and ending of engine requests: A request reaches its row at its
posting, and status operations of 8 cycles ago complete. The only eligible request is granted at this cycle, or ends in
error. A free bank gives a word of a block. The last read of a step performs it; after the last step the drain or the
completion follows; MZERO leaves +0 everywhere; a valid program starts its drain, an invalid one ends with code 3; a drain
row begins with X0 from the tile; a waiting word is written; a completed pass reads done, or leaves no row when its warp has posted another request; a reserved interval met by an
unreserved pass raises cause 6; DPLOAD writes its words. That the quartet's events run by the clock of its lowest core (log 64), that
an older request of the warp shows no row (log 122), and the cycle at which a step updates its tile (log 65), are the model's readings,
not words of the spec. -/
def Obligations.EngineEvents : Prop :=
  let row (t : State) (d q : Nat) (n : Nat) (P : PassRow → Prop) : Prop := ∃ x ∈ (t.engine d q).rows, x.row = n ∧ P x
  (∀ s, let u := s.arg.u
    let e := s.engine u.die (quartetOf u.core)
    (∀ r, e.rows.find? (fun r => r.row == 16 + passRowNo u && r.post ≤ s.ucyc u) = some r →
      s.num 0 ≠ 1 → Does .requestPost s fun t => row t u.die (quartetOf u.core) (passRowNo u) fun x => x = { r with row := passRowNo u }) ∧
    (s.num 0 = 1 → ∀ o ∈ s.ops, (s.ops.map (·.id)).Nodup → o.u = u → (o.kind = .mstat ∨ o.kind = .mchk) → o.live = true →
      o.issue + 8 ≤ s.ucyc u → Does .requestPost s fun t => Has (t.op? o.id) fun z => z.stage = .done)) ∧
  (∀ s r, let d := s.num 0
    let q := s.num 1
    let e := s.engine d q
    let g := s.cyc d (quartetCore q)
    let v := reservedNow s d q
    ((e.rows.filter fun r => r.st = 1).filter fun r => r.post ≤ s.ucyc r.u && grantOk s e v r g) = [r] →
    (e.rows.any fun r => r.grant ≠ 0 && cycleAt s d (quartetCore q) (instantOf s d r.u.core r.grant) = g) = false →
    (∀ x ∈ e.rows, suppressedSlot s e x = none) →
    let r0 := { r with row := r.row % 16, grant := s.ucyc r.u }
    let code := if r.kind = 4 then imageCode s r0 else if r.kind ≠ 2 ∧ r.kind ≠ 3 ∧ r.bscr = true then blockCode s q r0 else 0
    Does .passGrant s fun t => row t d q (r.row % 16) fun x => x.u = r.u ∧ x.grant = s.ucyc r.u ∧
      (code ≠ 0 → x.st = 6 ∧ x.err = code) ∧ (code = 0 → x.st = if r.kind = 3 ∨ r.kind = 4 then 4 else 2)) ∧
  (∀ s r, let d := s.num 0
    let q := s.num 1
    rowAt s d q (s.num 2) (s.num 3) = some r → r.row < 32 → r.await = false →
    (∀ w, let a := r.wordAddr w.1 w.2
      let core := scrCore s r.gid a
      r.fwords = [w] → (r.st = 2 ∨ r.st = 3 ∨ r.st = 4 ∧ r.kind = 4) →
      bankFree s r.u.die core (a % 2 ^ 19 / 8) (s.cyc r.u.die core) = true → s.scrPoisoned r.u.die core (a % 2 ^ 19) 8 = false →
      Does .bFetch s fun t => SameMemory s t ∧ row t d q r.row fun x => x.fwords = [] ∧ ∀ i, i < 8 →
        Tab.get (0 : BitVec 8) x.fbytes (4096 * (w.1 % 2) + w.2 + i) =
          s.scratch.read (scrAddr r.u.die core (a % 2 ^ 19 + i))) ∧
    ((r.st = 2 ∨ r.st = 3) → r.wn = 0 → r.stepAt ≤ s.ucyc r.u → s.poison = [] →
      (r.step = r.n → Does .passStep s fun t => if r.den then
          row t d q r.row (fun x => x.st = 4) ∧ Due' t (ev .drainStart [d, q, r.row % 16, r.grant])
        else Due' t (ev .passComplete [d, q, r.row % 16, r.grant])) ∧
      (r.step ≠ r.n → s.ucyc r.u < r.stepAt + 3 → (∀ w ∈ r.fwords, w.1 ≠ r.step) → Does .passStep s fun t =>
        row t d q r.row (fun x => x.st = 3 ∧ x.step = r.step) ∧ Due' t (ev .passStep [d, q, r.row % 16, r.grant])) ∧
      (r.step ≠ r.n → s.ucyc r.u = r.stepAt + 3 → Does .passStep s fun t =>
        row t d q r.row (fun x => x.st = 3 ∧ x.step = r.step + 1) ∧ Due' t (ev .passStep [d, q, r.row % 16, r.grant]))) ∧
    (r.kind = 2 → r.st = 2 → Does .mzeroComplete s fun t => row t d q r.row (fun x => x.st = 5) ∧
      ∀ i c, (t.engine d q).tileAt r.tile i c = 0) ∧
    (let e := s.engine d q
      let c := s.ucyc r.u
      r.st = 4 → r.kind ≠ 4 → r.stopped c = false → drainUsed e = false → (e.lastDone < c ∨ e.lastDone = 0) →
      s.poison = [] → Does .drainStart s fun t =>
        (e.validProg r.slot = none → row t d q r.row fun x => x.st = 6 ∧ x.err = 3) ∧
        (e.validProg r.slot ≠ none → (t.engine d q).drain = some (DrainRun.fresh (r.row % 16) r.grant c) ∧
          Due' t (ev .drainRow [d, q, 0, c]))) ∧
    ((r.st = 3 ∨ r.st = 4) → Does .passComplete s fun t => row t d q r.row fun x => x.st = 5 ∧ x.err = 0) ∧
    (r.kind = 4 → r.st = 4 → Does .dploadWrite s fun t => row t d q r.row (fun x => x.st = 5) ∧ ∀ k, k < r.imageBytes / 4 →
      Tab.get (0xFFFFFFFF : BitVec 32) (if r.isTab then (t.engine d q).tab else (t.engine d q).prog)
          ((if r.isTab then r.tabFirst else 16 * r.tabFirst) + k) =
        BitVec.ofNat 32 ((List.range 4).foldl (fun a b =>
          a + (Tab.get (0 : BitVec 8) r.fbytes (r.badr % 8 + 4 * k + b)).toNat * 256 ^ b) 0))) ∧
  (∀ s r, let d := s.num 0
    let q := s.num 1
    rowAt s d q (s.num 2) (s.num 3) = some r → 32 ≤ r.row → (r.st = 3 ∨ r.st = 4) →
    Does .passComplete s fun t => ∀ x ∈ (t.engine d q).rows, x.same r = true → x.row < 32) ∧
  (∀ s d p, drainPass s (s.num 0) (s.num 1) = some (d, p) → p.st = 4 → p.await = false → p.stopped (s.ucyc p.u) = false →
    (d.start = s.num 3 → d.next = s.num 2 → s.poison = [] → Does .drainRow s fun t => Has t.row fun r => r.row = s.num 2 ∧ r.w = 0 ∧
      r.word = (s.engine (s.num 0) (s.num 1)).progWord p.slot 0 ∧ ∀ c, c < 128 →
        Tab.get (0 : BitVec 32) r.x (8 * c) = (s.engine (s.num 0) (s.num 1)).tileAt p.tile (s.num 2) c ∧
        ∀ k, 1 ≤ k → k < 8 → Tab.get (0 : BitVec 32) r.x (8 * c + k) = 0) ∧
    (∀ w, d.start = s.num 2 → d.words = [w] → bankFree s p.u.die p.u.core (w.addr / 8) (s.ucyc p.u) = true →
      Does .drainWrite s fun t =>
        t.scratch = (s.writeDrainWord p (s.ucyc p.u) w).scratch ∧ t.hbm = s.hbm ∧ t.hostMem = s.hostMem ∧ t.code = s.code ∧
        Has (t.engine (s.num 0) (s.num 1)).drain fun z => z.words = [])) ∧
  (∀ s, (s.lay (s.num 2)).state = .running → Does .reservationStart s fun t => Due' t (ev .passGrant [s.num 0, s.num 1]) ∧
    (((s.engine (s.num 0) (s.num 1)).rows.any fun r => (r.kind ≤ 1 || r.kind == 3) && !r.resvd && (r.st == 3 || r.st == 4)) = true →
      (t.lay (s.num 2)).cause = faultCause (s.lay (s.num 2)).cause 6))

/-- O55. Commands of the management owner create, bind, run, freeze, suspend, resume, kill, reset and free a context: A
permitted command of the owner leaves the context in the state of Table 15.2 with status 0: CREATE resets its registers,
BIND drops the translations and tiles of its dies, RUN starts placement, FREEZE starts the swap-out of each die, which stops
its clocks and then saves it, and whose last one suspends it, SUSPEND stops placement until nothing runs or the deadline kills,
RESUME thaws its groups, KILL aborts its kernels and abandons its lays, RESET binds it again, FREE empties it and stops its
queues; keys are loaded and erased, TDISP locks, starts and stops it, and TINVC starts a shoot-down. When a die's clocks stop and when it
reports its swap-out (log 128), and which registers go through the secure session of a port and that they go on changing there (log
126), are the model's choices. -/
def Obligations.ContextLifeEvents : Prop :=
  let cmd (s : State) : Prop := owns s (s.num 0) = true ∧ s.ibrum.updating = false
  let ex (s : State) : Prop := (s.ctx (s.num 1)).state = .running ∨ (s.ctx (s.num 1)).state = .faulted
  (∀ s, cmd s → let n := s.num 1
    let c := s.ctx n
    (c.state = .free → s.alarmSt.testBit 63 = false → Does .ctxCreate s fun t =>
      t.ctx n = { Context.reset with state := .created } ∧ ∀ m, m ≠ n → t.ctx m = s.ctx m) ∧
    (c.state = .created → holders s n c.partition = [] → Does .ctxBind s fun t =>
      t.ctx n = { c with state := .bound, status := 0 } ∧ (∀ e ∈ t.xlb, inPartition s n e.die = false) ∧
      ∀ e ∈ t.engines, inPartition s n e.die = true → e.acc0 = [] ∧ e.acc1 = [] ∧ e.prog = [] ∧ e.tab = []) ∧
    (c.state = .bound → (c.viaTdisp = true → c.tdisp = 2) → Does .ctxRun s fun t =>
      t.ctx n = { c with state := .running, status := 0 } ∧ Due' t (ev .recordConsume [n]) ∧
        ∀ d ∈ partitionDies s n, Due' t (ev .teamPlace [d])) ∧
    (ex s → freezeOk s n = true → Does .ctxFreeze s fun t => (t.ctx n).state = .freezing ∧ (t.ctx n).status = 0 ∧
      (t.ctx n).swapped = [] ∧ ∀ d ∈ partitionDies s n, Due' t (ev .swapOutComplete [n, d])) ∧
    (ex s → Does .ctxSuspend s fun t => (t.ctx n).graceful = true ∧ (t.ctx n).status = 0 ∧
      Due' t (ev .gracefulComplete [n]) ∧ (c.gdeadline ≠ 0 → Due' t (ev .gracefulDeadlineExpiry [n]))) ∧
    (c.state = .suspended → resumeOk s n = true → s.poison = [] → Does .ctxResume s fun t =>
      (t.ctx n).state = (if stoppedUnits s n = 0 then .running else .faulted) ∧ (t.ctx n).image = false ∧
      (t.ctx n).status = 0 ∧ ((∀ k ∈ s.kernels, k.ctx = n → k.doomed = false) →
        ∀ g, s.group? g.gid = some g → g.ctx = n → g.state = .frozen → Has (t.group? g.gid) fun h => h.state = g.before)) ∧
    (ex s ∨ c.state = .freezing ∨ c.state = .suspended → Does .ctxKill s fun t =>
      (t.ctx n).state = .killed ∧ (t.ctx n).status = 0 ∧ (t.ctx n).image = false ∧
      (∀ y ∈ t.lays, y.ctl % 64 = n → y.state = .empty ∨ y.state = .abandoned) ∧
      ∀ k, s.kernel? k.kid = some k → k.ctx = n → Has (t.kernel? k.kid) fun z => z.state = .aborted ∨ z.state = .retired) ∧
    (c.state = .killed → discardsLeft s n = false → holders s n c.partition = [] → Does .ctxReset s fun t =>
      t.ctx n = { c with state := .bound, status := 0 }) ∧
    (c.state = .created ∨ c.state = .bound ∨ (c.state = .killed ∧ discardsLeft s n = false) → Does .ctxFree s fun t =>
      t.ctx n = Context.reset ∧ ∀ q, (s.queue q).ctx = n → (t.queue q).en = false) ∧
    (c.state ≠ .free → c.keysel ≠ 0 → s.alarmSt.testBit 63 = false → keysLocked c (s.num 0) = false →
      Does .keycmdLoad s fun t => (t.ctx n).keys.get 0 c.keysel = keyMaterial c ∧ (t.ctx n).status = 0) ∧
    (c.state ≠ .free → keysLocked c (s.num 0) = false → (c.keys.map (·.1)).Nodup →
      Does .keycmdErase s fun t => (t.ctx n).keys.get? c.keysel = none ∧ (t.ctx n).status = 0)) ∧
  (∀ s, let n := s.num 1
    let c := s.ctx n
    (owns s (s.num 0) = true → c.state = .created → c.tdisp = 0 → holders s n c.partition = [] → Does .tdispLockInterface s fun t =>
      t.ctx n = { c with state := .bound, viaTdisp := true, tdisp := 1 }) ∧
    (c.tdisp = 1 → Does .tdispStartInterface s fun t => t.ctx n = { c with tdisp := 2 }) ∧
    (c.viaTdisp = true → (if s.num 2 = 1 then c.state = .killed else owns s (s.num 0) = true) →
      let s1 := if s.num 2 = 1 then s else s.killCtx n
      ((s1.ctx n).state ≠ .killed ∨ discardsLeft s1 n = false → Does .tdispStopInterface s fun t => t.ctx n = Context.reset) ∧
      ((s1.ctx n).state = .killed → discardsLeft s1 n = true → Does .tdispStopInterface s fun t =>
        (t.ctx n).state = .killed ∧ Due' t (ev .tdispStopInterface [s.num 0, n, 1]))) ∧
    (c.state.holdsDie = true ∨ c.state = .suspended → c.tinvBusy = false → s.num 2 % 4 ≠ 3 → Does .tinvcStart s fun t =>
      (t.ctx n).tinvBusy = true ∧ (t.ctx n).tinvc = s.num 2 ∧
        ∃ d ∈ t.sds, d.ctx = n ∧ d.kind = s.num 2 % 4 ∧ d.op = 0)) ∧
  (∀ s, let n := s.num 0
    let c := s.ctx n
    let d := s.num 1
    (c.state = .freezing → c.swapped.contains d = false → s.num 2 ≠ 1 → d < s.dies.length → passRuns s n d = false →
      (∀ x ∈ s.units, ∀ g ∈ s.groups, g.gid = x.gid → g.ctx = n → g.die = d → coreBusy s x = false) →
      Does .swapOutComplete s fun t => (t.die d).shadow = some n ∧ t.ctx n = c ∧ Due' t (ev .swapOutComplete [n, d, 1]) ∧
        (∀ e ∈ t.xlb, e.die ≠ d) ∧
        ∀ g ∈ t.groups, g.ctx = n → g.die = d → g.state ≠ .running ∧ g.state ≠ .faulted ∧ g.state ≠ .draining) ∧
    (c.state = .freezing → c.swapped.contains d = false → s.num 2 = 1 →
      Does .swapOutComplete s fun t => t = { s with ctxs := t.ctxs } ∧ (t.ctx n).swapped = d :: c.swapped ∧
        ((∀ e ∈ partitionDies s n, e ∈ d :: c.swapped) → (t.ctx n).state = .suspended ∧ (t.ctx n).image = true) ∧
        (¬(∀ e ∈ partitionDies s n, e ∈ d :: c.swapped) → (t.ctx n).state = .freezing)) ∧
    (c.graceful = true → (c.state = .running ∨ c.state = .faulted) →
      ((∀ g ∈ s.groups, g.ctx = n → g.state ≠ .running ∧ g.state ≠ .faulted ∧ g.state ≠ .draining) →
        Does .gracefulComplete s fun t => t.ctx n = { c with state := .suspended, graceful := false }) ∧
      Does .gracefulDeadlineExpiry s fun t => (t.ctx n).state = .killed ∧ (t.ctx n).graceful = false ∧
        (t.ctx n).tdisp = if c.viaTdisp then 3 else c.tdisp))

/-- O56. Traps become final and are disposed of, records are written, flags reach their context, the owner changes: D
cycles after its cycle a trap is final: its record joins those its die holds in the order of trapping cycles, and a running
context becomes faulted; a wait with cause 5 has no record. The oldest held record of a context
that may be written goes to the ring at FQBASE with QTAIL and SEQNO advanced, and an empty ring raises its vector; a queue that
is full or not enabled keeps it waiting, and what a die then holds beyond 64 records is counted once each. A disposition that Table 15.3 gives a final trap is accepted with status 0 and takes
effect at the unit's first window that begins at least one cycle later; any other is refused with status 1. RETRY goes on at the
trapped position, of a misframe by a new fetch; SKIP at the next position, after the last one by the end of the clause; REGION
sets the unit back to its newest record; KILL discards the team, which relaunches. The group runs again when no unit of it is
stopped and the context when none of it is. Flags D cycles old join FLAGS and the first fill of the out-of-range record stays,
of one cycle that of the lowest place. A host clears flags, the out-of-range record and idle-busy entries; the semaphore is
taken when it is free, the lower port first, and released by its owner. Nothing else changes. What SKIP of a unit set back by a
walk's fault does (log 36), REGION of a unit with no record (log 45), and that a second disposition is refused while one waits (log
124), are the model's readings, not words of the spec. -/
def Obligations.TrapRecordAndRegisterEvents : Prop :=
  (∀ (s : State) (x : ExecUnit) (t0 : Stop) (g : Group), s.unit? s.arg.u = some x → x.stop = some t0 →
    s.group? x.gid = some g → t0.final = false → t0.cycle = s.num 0 → t0.due ≤ s.ucyc s.arg.u → g.state ≠ .frozen →
    let d := s.arg.u.die
    let c := s.ctx g.ctx
    let r := stopRecord s x g.ctx t0
    Does .trapFinal s fun t =>
      t.unit? s.arg.u = some { x with stop := some { t0 with final := true } } ∧
      (∀ v, v ≠ s.arg.u → t.unit? v = s.unit? v) ∧
      (t0.waitOnly = true → t = { s with units := t.units }) ∧
      (t0.waitOnly = false →
        t = { s with units := t.units, ctxs := t.ctxs, dies := t.dies, agenda := t.agenda } ∧
        t.ctx g.ctx = { c with state := if c.state = .running then .faulted else c.state } ∧
        (∀ n, n ≠ g.ctx → t.ctx n = s.ctx n) ∧ (∀ e, e ≠ d → t.die e = s.die e) ∧
        Due' t (ev .faultRecordWrite [d, g.ctx]) ∧
        (d < s.dies.length → ∃ a b, (s.die d).hold = a ++ b ∧ t.die d = { s.die d with hold := a ++ r :: b } ∧
          (∀ y ∈ a, y.async = true ∨ y.cycle ≤ r.cycle) ∧ ∀ y, b.head? = some y → y.async = false ∧ r.cycle < y.cycle))) ∧
  (∀ (s : State), let d := s.num 0
    let n := s.num 1
    let c := s.ctx n
    let port := bits c.fqctl 5 1
    let beyond : List FaultRec := ((s.die d).hold.filter fun r => decide (r.due ≤ s.now)).drop 64
    let counts (r : FaultRec) : Bool := beyond.contains r && !r.counted
    ((s.die d).hold.find? (recordDue s n) = none → exec .faultRecordWrite s = .next s) ∧
    ((s.die d).hold.find? (recordDue s n) ≠ none → c.fqctl.testBit 17 = false ∨ ringRoom c = false →
      Does .faultRecordWrite s fun t => t = { s with dies := t.dies, ctxs := t.ctxs } ∧ (∀ e, e ≠ d → t.die e = s.die e) ∧
        t.die d = { s.die d with hold := (s.die d).hold.map fun r => if counts r then { r with counted := true } else r } ∧
        ∀ m, (s.ctx m).fqovf < 65536 → t.ctx m = { s.ctx m with
          fqovf := ((s.ctx m).fqovf + ((s.die d).hold.filter fun r => counts r && r.ctx == m).length) % 65536 }) ∧
    ∀ r, (s.die d).hold.find? (recordDue s n) = some r → c.fqctl.testBit 17 = true → ringRoom c = true →
      Does .faultRecordWrite s fun t =>
        t = { s with hostMem := t.hostMem, dies := t.dies, ctxs := t.ctxs, out := t.out, agenda := t.agenda } ∧
        t.hostMem = ((recordWords r c.seqno).zipIdx.foldl (fun m x =>
          m.writeN (hostAddr port (c.fqbase + 128 * (c.fqtail % 2 ^ (c.fqctl % 32)) + 8 * x.2)) x.1 8) s.hostMem) ∧
        t.ctx n = { c with fqtail := (c.fqtail + 1) % 65536, seqno := (c.seqno + 1) % 65536,
                           fqfull := decide ((c.fqtail + 1) % 65536 = c.fqhead) } ∧
        (∀ m, m ≠ n → t.ctx m = s.ctx m) ∧
        t.die d = { s.die d with hold := (s.die d).hold.erase r } ∧ (∀ e, e ≠ d → t.die e = s.die e) ∧
        (((s.die d).hold.erase r).any (recordDue s n) = true → Due' t (ev .faultRecordWrite [d, n])) ∧
        t.out = s.out ++ if c.fqhead = c.fqtail then [.msix port (bits c.fqctl 6 11)] else []) ∧
  (∀ (s : State), s.num 1 = 0 →
    let n := s.num 0
    let c := s.ctx n
    let written (how : Nat) (t : State) : Prop :=
      (∀ m, m ≠ n → t.ctx m = s.ctx m) ∧
      ((∀ x g t0, unitNamed s n s.arg.u = some (x, g) → x.stop = some t0 →
          ¬(t0.final = true ∧ t0.disp = none ∧ dispOk t0 how = true)) →
        t = { s with ctxs := t.ctxs } ∧ t.ctx n = { c with status := 1 }) ∧
      ∀ x g t0, unitNamed s n s.arg.u = some (x, g) → x.stop = some t0 → t0.final = true → t0.disp = none →
        dispOk t0 how = true →
        t = { s with units := t.units, ctxs := t.ctxs, agenda := t.agenda } ∧ t.ctx n = { c with status := 0 } ∧
        t.unit? x.id = some { x with stop := some { t0 with disp := some how } } ∧
        (∀ v, v ≠ x.id → t.unit? v = s.unit? v) ∧
        (g.state = .frozen → t.agenda = s.agenda) ∧
        (g.state ≠ .frozen → ∃ a ∈ t.agenda, a.due = evU (dispInstr how) x.id [n, 1] ∧
          a.at' = max s.now (instantOf s x.id.die x.id.core (nextWindowOf x.wins (s.ucyc x.id + 1))))
    Does .unitcmdRetry s (written 0) ∧ Does .unitcmdSkip s (written 1) ∧ Does .unitcmdRegion s (written 2) ∧
      Does .unitcmdKill s (written 3)) ∧
  (∀ (s : State) (x : ExecUnit) (t0 : Stop) (g : Group), s.num 1 ≠ 0 → s.unit? s.arg.u = some x → x.stop = some t0 →
    s.group? x.gid = some g → g.state ≠ .frozen → (s.ctx g.ctx).state ≠ .freezing →
    let now := s.ucyc s.arg.u
    let goesOn (z : ExecUnit) (t : State) : Prop :=
      t = { s with units := t.units, groups := t.groups, ctxs := t.ctxs, agenda := t.agenda } ∧
      t.unit? s.arg.u = some z ∧ (∀ v, v ≠ s.arg.u → t.unit? v = s.unit? v) ∧
      (∀ n, n ≠ x.gid → t.group? n = s.group? n) ∧
      t.group? x.gid = some (if (∀ y ∈ s.units, y.gid = x.gid → y.id ≠ x.id → y.stop = none) then
        { g with state := if g.state = .faulted then .running else g.state } else g) ∧
      ∀ n, t.ctx n = if n = g.ctx ∧ (s.ctx n).state = .faulted ∧ stoppedUnits t n = 0 then
        { s.ctx n with state := .running } else s.ctx n
    let refetched : ExecUnit := { x with
      stop := none, clause := none, resume := none, pi := lowQuad t0.quads, split := true, holdUntil := now,
      gangs := x.gangs.map fun y => if y.quads = t0.quads then { y with hdr := none } else y }
    (t0.disp = some 0 →
      (t0.kind ≠ 2 → Does .unitcmdRetry s (goesOn { x with
        stop := none, clause := t0.clause, resume := some t0.idx, holdUntil := now,
        pi := ((List.range 8).find? fun q => t0.quads.getLsbD q).getD 0 })) ∧
      (t0.kind = 2 → Does .unitcmdRetry s (goesOn refetched))) ∧
    (t0.disp = some 1 →
      (t0.clause = none → Does .unitcmdSkip s (goesOn { x with stop := none, holdUntil := now })) ∧
      ∀ r, t0.clause = some r →
        (t0.idx < hN r.hdr → Does .unitcmdSkip s (goesOn { x with
          stop := none, clause := some r, resume := some (t0.idx + 1), holdUntil := now,
          pi := ((List.range 8).find? fun q => t0.quads.getLsbD q).getD 0 })) ∧
        (hN r.hdr ≤ t0.idx → x.id.lead = true ∨ x.exec ≠ 0 → ∀ pc,
          r.xfer = .goto pc ∨ (r.xfer = .fall ∧ pc = nextHeader r.pc r.hdr) →
          Does .unitcmdSkip s (goesOn { x with
            stop := none, clause := none, pi := lowQuad t0.quads, split := false,
            holdUntil := now + hPad r.hdr + t0.idx + 1,
            gangs := x.gangs.filter (fun y => y.quads ≠ r.quads) ++
              [{ pc := pc, quads := r.quads, wait := false, wmask := 0, hdr := none }] }))) ∧
    (t0.disp = some 2 →
      (x.ring = [] → Does .unitcmdRegion s (goesOn refetched)) ∧
      (x.ring ≠ [] → t0.byWalk = true → x.ended = false →
        Does .unitcmdRegion s (goesOn { x with stop := none, holdUntil := now })) ∧
      ∀ r rs, x.ring = r :: rs → t0.byWalk = false ∨ x.ended = true → Does .unitcmdRegion s fun t =>
        SameMemory s t ∧ SameRegisters s t ∧ Has (t.unit? s.arg.u) fun z => z = { x with
          stop := none, clause := none, resume := none, gangs := r.gangs.map fun y => { y with hdr := none },
          exec := r.exec, marked := r.marked, pi := r.pi, split := r.split, pp := r.pp, push := r.push,
          rgnc := (r.number + 2 ^ 32 - 1) % 2 ^ 32, ended := false, ring := r :: x.ring.filter fun y => y.cycle < r.cycle,
          nEnter := r.nEnter, nBar := r.nBar, nCpy := r.nCpy, keepEnter := z.keepEnter,
          keepBar := max x.keepBar x.nBar, keepCpy := z.keepCpy, holdUntil := now }) ∧
    (t0.disp = some 3 → ∀ m, s.team? g.tid = some m → m.state ≠ .killed → m.state ≠ .retired →
      Does .unitcmdKill s fun t => SameMemory s t ∧
        Has (t.team? g.tid) (fun z => z.state = .killed ∧ z.killAt = s.now ∧ z.members = m.members) ∧
        (∀ n ∈ m.members ++ m.twins, ∀ h, s.group? n = some h → h.state ≠ .retired →
          Has (t.group? n) (fun k => k.state = .discarded ∧ k.slots = []) ∧ ∀ y ∈ t.units, y.gid ≠ n) ∧
        Due' t (ev .teamRelaunch [g.tid]))) ∧
  (∀ (s : State), Does .flagReachContext s fun t =>
    let due (h : HeldFlag) : Bool := h.die = s.num 0 && h.q = s.num 1 && h.cycle + 384 ≤ s.cyc (s.num 0) h.core
    let place (w : Nat) : Nat := w / 2 ^ 44 % 2 ^ 12
    let mine (n : Nat) (h : HeldFlag) : Prop := h ∈ s.heldFlags ∧ due h = true ∧ h.ctx = n
    t = { s with heldFlags := s.heldFlags.filter (fun h => !due h), ctxs := t.ctxs } ∧ ∀ n,
      t.ctx n = { s.ctx n with flags := (t.ctx n).flags, oor := (t.ctx n).oor, oorCyc := (t.ctx n).oorCyc } ∧
      (∀ i, (t.ctx n).flags.testBit i = true ↔
        (s.ctx n).flags.testBit i = true ∨ ∃ h, mine n h ∧ h.flags.testBit i = true) ∧
      ((∀ h, mine n h → h.oor = 0 ∨ ((s.ctx n).oor ≠ 0 ∧ h.cycle ≠ (s.ctx n).oorCyc)) →
        (t.ctx n).oor = (s.ctx n).oor ∧ (t.ctx n).oorCyc = (s.ctx n).oorCyc) ∧
      ∀ h, (s.ctx n).oor = 0 → mine n h → h.oor ≠ 0 →
        (∀ k, mine n k → k.oor ≠ 0 → k = h ∨ (k.cycle = h.cycle ∧ place h.oor < place k.oor)) →
        (t.ctx n).oor = h.oor ∧ (t.ctx n).oorCyc = h.cycle) ∧
  (∀ (s : State), let n := s.num 0
    Does .flagsClear s fun t => t = { s with ctxs := t.ctxs } ∧ (∀ m, m ≠ n → t.ctx m = s.ctx m) ∧
      t.ctx n = { s.ctx n with flags := (t.ctx n).flags } ∧
      ∀ i, (t.ctx n).flags.testBit i = (decide (i < 4) && (s.ctx n).flags.testBit i && !(s.num 1).testBit i)) ∧
  (∀ (s : State), let n := s.num 0
    Does .oorrecClear s fun t => t = { s with ctxs := t.ctxs } ∧ (∀ m, m ≠ n → t.ctx m = s.ctx m) ∧
      t.ctx n = { s.ctx n with oor := 0 }) ∧
  (∀ (s : State), let die := (s.ctx (s.num 0)).ibsel % 16
    let core := (s.ctx (s.num 0)).ibsel / 16 % 256
    let k := (s.core die core).settle ((s.cyc die core + 15) / 16)
    (k.ib.map (·.1)).Nodup → k.die = die → k.core = core → Does .ibdataClear s fun t =>
      t = { s with cores := t.cores } ∧ (∀ d q, ¬(d = die ∧ q = core) → t.core d q = s.core d q) ∧
      t.core die core = { k with ib := (t.core die core).ib } ∧
      Tab.get ((0, 0) : Nat × Nat) (t.core die core).ib (s.num 1) = (0, 0) ∧
      ∀ j, j ≠ s.num 1 → Tab.get ((0, 0) : Nat × Nat) (t.core die core).ib j = Tab.get (0, 0) k.ib j) ∧
  (∀ (s : State), let p := s.num 0
    let lower : Prop := ∃ a ∈ s.agenda, a.at' = s.now ∧ ∃ y, a.due = .ev .mgmtsemAcquire y ∧ y.n.getD 0 0 < p
    (lower → Does .mgmtsemAcquire s fun t => t = { s with agenda := t.agenda } ∧ Due' t (ev .mgmtsemAcquire [p])) ∧
    (¬lower → exec .mgmtsemAcquire s = .next
      (if s.mgmtOwner = 0 then { s with mgmtOwner := p + 1, mgmtGen := (s.mgmtGen + 1) % 2 ^ 32 } else s)) ∧
    exec .mgmtsemRelease s = .next (if s.mgmtOwner = p + 1 then { s with mgmtOwner := 0 } else s))

/-- O57. The life of a lay: load, arm, run, periods, slack, notice, restart, abandonment; and synchronisation of TIME:
LOAD fills an empty slot or shows its check cause; ARM, DISARM and UNLOAD change the state as Table 18.6 says; at its base
tick an armed lay runs; a boundary starts the next period or ends the lay. A slack event adds its demand and an overrun
raises cause 1. A first notice resynchronises, or at the limit or for causes 7 and 8 abandons; ready modules are noted;
the roll call ends in a restart tick; it is announced and the lay runs again shifted; a standby takes over with cause 8; a
restart that never comes abandons, and so does a silence of the origin's messages of 8,192 ticks at the standby. A correction sets the
offset and moves TIME forward only outside lays; SYNCLOST raises cause 10. A pending cause 7 or 8 is not lost to another. Which die is
the origin (log 31), that a correction steps TIME forward (log 53), that a faulted or resynchronising lay counts as armed or running
(log 135), that DISARM abandons a resynchronising lay (log 148), and that a correction stands for the messages of the time origin
(log 149), are the model's choices, not words of the spec. -/
def Obligations.LayAndTimeEvents : Prop :=
  let own (s : State) : Prop := owns s (s.num 0) = true ∧ s.ibrum.updating = false
  (∀ s, own s → let l := s.num 1
    let y := s.lay l
    (y.state = .empty → l < s.lays.length → Does .laycmdLoad s fun t =>
      let r := s.readImage y
      let c := r.1.cause s y
      (c ≠ 0 → t.lay l = { y with status := 2, checkCause := c }) ∧
      (c = 0 → t.lay l = { y.fill r.1 with status := 0, checkCause := 0 })) ∧
    (y.state = .loaded → (∀ d ∈ maskDies y.diemask, (s.die d).cls = y.cls ∧ (s.die d).st = 0) →
      (∀ d, d < 16 → (s.die d).cls = y.cls → (s.die d).boost = none) →
      (∀ z ∈ s.lays, z.holds = true → z.origin = y.origin) →
      originTime s + 65536 ≤ y.startReg → Does .laycmdArm s fun t =>
        t.lay l = { y.arm y.startReg with status := 0 } ∧ t.originDie = y.origin ∧ Due' t (ev .layBaseTick [l])) ∧
    (y.state = .armed → Does .laycmdDisarm s fun t => t.lay l = { y with state := .loaded, status := 0 }) ∧
    (y.serves = true → Does .laycmdDisarm s fun t => t.lay l = { y with state := .abandoned, noticed := false, status := 0 } ∧
      ∀ k, s.kernel? k.kid = some k → k.lay = some l → Has (t.kernel? k.kid) fun z => z.state = .aborted ∨ z.state = .retired) ∧
    (y.state = .loaded ∨ y.state = .abandoned → Does .laycmdUnload s fun t => t.lay l =
      { Lay.reset with base := y.base, ctl := y.ctl, startReg := y.startReg, rst := y.rst, lastCause := y.lastCause })) ∧
  (∀ s, let l := s.num 0
    let y := s.lay l
    let now := originTime s
    (y.state = .armed → y.baseTick ≤ now → Does .layBaseTick s fun t => (t.lay l).state = .running ∧ (t.lay l).per = 0 ∧
      Due' t (ev .periodBoundary [l]) ∧
      (unplacedAtR s l ≠ [] → (t.lay l).cause = faultCause y.cause 5) ∧
      (unplacedAtR s l = [] → (t.lay l).cause = if s.syncLost then faultCause y.cause 10 else y.cause)) ∧
    (y.state = .running → y.period ≠ 0 → y.start 0 ≤ now → (now - y.baseTick) % y.period = 0 →
      Does .periodBoundary s fun t =>
        (y.nperiod ≠ 0 ∧ y.nperiod ≤ y.perAt now → t.lay l = { y with state := .loaded, lingers := true }) ∧
        (¬(y.nperiod ≠ 0 ∧ y.nperiod ≤ y.perAt now) → t.lay l = { y with per := y.perAt now } ∧
          Due' t (ev .periodBoundary [l]))) ∧
    (s.num 1 ≠ 1 → y.serves = true → y.noticed = false → (y.cause ≠ 0 ∨ s.num 2 ≠ 0) → Does .faultNotice s fun t =>
      let c := if y.cause ≠ 0 then y.cause else s.num 2
      let ends : Prop := c = 7 ∨ c = 8 ∨ bits y.ctl 11 4 ≤ y.resyncs
      (t.lay l).noticed = true ∧ (t.lay l).lastCause = c ∧ (t.lay l).state = (if ends then .abandoned else .faulted) ∧
        (t.lay l).faultPer = y.perAt (if y.cause ≠ 0 then y.faultTick else s.num 3) ∧
        (t.lay l).resyncs = if ends then y.resyncs else y.resyncs + 1) ∧
    (l < s.lays.length → Does .readyReport s fun t => s.num 1 ∈ (t.lay l).ready) ∧
    (isOrigin s = true → y.noticed = true → y.announced = false → y.accept ≠ 0 → y.accept + 32768 ≤ now →
      Does .rollCallTimeout s fun t => Due' t (ev .restartAnnounce [l, State.tryAnnounce.restartOf y]) ∧
        (y.serves = true → (t.lay l).cause = faultCause y.cause 8)) ∧
    (y.noticed = true → y.announced = false → Does .restartAnnounce s fun t => (t.lay l).rst = s.num 1 ∧
      (t.lay l).announced = true ∧
      (isOrigin s = true →
        Due' t (.ev .dynamicMessage { Arg.none with n := [16, 4, s.nextId], vc3 := some (.restart l (s.num 1)) })) ∧
      (y.state ≠ .abandoned → Due' t (ev .layResume [l])) ∧
      (y.state = .abandoned → fallbackOf s y = none → ∀ k, s.kernel? k.kid = some k → k.lay = some l →
        Has (t.kernel? k.kid) fun z => z.state = .aborted ∨ z.state = .retired) ∧
      ∀ f, y.state = .abandoned → fallbackOf s y = some f → (t.lay f).state = .armed ∧ (t.lay f).baseTick = s.num 1) ∧
    (y.state = .resyncing → y.announced = true → y.rst ≤ now → Does .layResume s fun t => (t.lay l).state = .running ∧
      (t.lay l).per = y.faultPer ∧ (t.lay l).noticed = false ∧
        (t.lay l).shift = (y.rst - y.baseTick) / max y.period 1 - y.faultPer) ∧
    ((s.num 1 = 0 ∧ s.announced + 8192 ≤ now) ∨
        (s.num 1 = 1 ∧ y.noticed = true ∧ y.accept = 0 ∧ y.announced = false) →
      y.sben = true → isOrigin s = false → y.serves = true → Does .originLoss s fun t =>
      t.podOrigin = y.sbmod ∧ (y.sbmod = s.modl → (t.lay l).state = .abandoned)) ∧
    (y.noticed = true → y.announced = false → (y.state = .faulted ∨ y.state = .resyncing ∨ y.state = .abandoned) →
      y.stopTick + 131072 ≤ now → Does .restartWaitExpiry s fun t =>
        (t.lay l).state = .abandoned ∧ (t.lay l).noticed = false) ∧
    (y.serves = true → Does .slackOverrun s fun t => (t.lay l).cause = faultCause y.cause 1 ∧ (t.lay l).lastCause = 1)) ∧
  (∀ s l w wl dem free, let die := s.num 0
    let code := s.num 1
    let y := s.lay l
    let mine (e : SlotEnt) : Bool := e.kind = 6 && (e.die = die && e.key % 4096 = code)
    let key := die * 256 + code
    let at' := timeAt s (unitDist s { die := die, core := 0, lead := false, slot := 0 } (slackUnit code))
    s.num 3 = 0 → s.num 2 ≠ 0 → layOfUnit s die code = some l → y.slots.any mine = true →
    slackBegin y key at' (s.num 2) (occurrencesTo y at' (Tab.get (0 : Nat) y.demand (4 * key + 2)) mine) =
        some (w, wl, dem, free) →
    Does .slackEvent s fun t => Tab.get (0 : Nat) (t.lay l).demand (4 * key) = w ∧
      Tab.get (0 : Nat) (t.lay l).demand (4 * key + 1) = dem ∧ Tab.get (0 : Nat) (t.lay l).demand (4 * key + 2) = free ∧
      (wl < dem → Due' t (ev .slackOverrun [l, die, code]))) ∧
  (∀ s, let off : Int := if s.podOrigin = s.modl then 0 else max (-32767) (min 32767 (sgn 64 (s.num 0)))
    Does .timeCorrection s fun t => t.syncOff = off ∧ t.slewing = decide (s.num 1 ≠ 0) ∧ t.syncLost = s.syncLost ∧
      t.announced = originTime s ∧
      (t.timeAdj = if (∀ y ∈ s.lays, y.holds = false) then s.timeAdj + s.num 2 else s.timeAdj) ∧
      ((∃ y ∈ s.lays, y.holds = true) →
        t = { s with syncOff := t.syncOff, slewing := t.slewing, announced := t.announced, agenda := t.agenda }) ∧
      (off < -3 ∨ 3 < off → s.syncLost = false → Due' t (ev .synclostSet [])) ∧
      (-3 ≤ off → off ≤ 3 → s.syncLost = true → Due' t (ev .synclostClear []))) ∧
  (∀ s, (s.syncLost = false → Does .synclostSet s fun t => t.syncLost = true ∧
      t.syncEpisodes = min (s.syncEpisodes + 1) (2 ^ 32 - 1) ∧
      ∀ l, l < 4 → (s.lay l).state = .running → (t.lay l).cause = faultCause (s.lay l).cause 10) ∧
    Does .synclostClear s fun t => t = { s with syncLost := false })

/-- O58. Links train, spare, degrade and go down; keys are staged, activated and retired; frames and messages move: A link
that is down trains; with enough spares it comes up, one lane short it degrades, else it goes down; a failing lane is
spared at a maintenance window, or the link degrades. A frame of contiguous beats leaves in its slot and is written at its
home under its key; one that never comes raises cause 2. A received frame that passes hands its message on, one that fails
is asked for again, sixteen in a row retrain; a port that is asked sends what it sent from there on again. Messages leave under
the key of their VC behind the earlier ones of it and behind higher VCs, with the tags of their frames; a peer's write sets its
leaf's companion bits, is applied and acknowledged. Keys enter retired slots, become active at their tick with SEQ 0, and are
erased. What operand 4 of a retry request counts and what a port sends again (log 34), that the flags of elements combined for another
module go nowhere (log 39), how a WCTL mode and the SEQ of a die link are shown (log 97), that no frame of a schedule is expected at a
port by itself (log 146), and that VC3 messages take any port that can send (log 147), are the model's choices, not words of the
spec. -/
def Obligations.LinkEvents : Prop :=
  (∀ s, let d := s.num 0
    let l := s.num 1
    let x := s.link d l
    (x.st = 0 → Does .linkEnable s fun t => (t.link d l).st = 1 ∧ Due' t (ev .trainingComplete [d, l, x.bad])) ∧
    (x.st = 1 → x.trained = false → Does .trainingComplete s fun t =>
      let bad := max (s.num 2) x.bad
      (bad + x.spareUsed ≤ spares l → (t.link d l).bad = 0 ∧ (t.link d l).spareUsed = x.spareUsed + bad ∧
        (l < 16 → (t.link d l).st = 2)) ∧
      (bad + x.spareUsed = spares l + 1 → (t.link d l).st = 4 ∧ (t.link d l).bad = 1) ∧
      (spares l + 1 < bad + x.spareUsed → (t.link d l).st = 0)) ∧
    (x.st = 2 → Does .laneFail s fun t => (t.link d l).bad = x.bad + 1 ∧
      (x.spareUsed + x.bad < spares l → (t.link d l).wantSpare = true ∧ (t.link d l).st = 2 ∧ Due' t (ev .laneSpare [d, l])) ∧
      (spares l ≤ x.spareUsed + x.bad → (t.link d l).st = 4)) ∧
    (maintenance s d (linkCode l) = some s.now → Does .laneSpare s fun t =>
      (x.st = 4 → (t.link d l).st = 1 ∧ (t.link d l).bad = x.bad - 1) ∧
      (x.st ≠ 4 → x.wantSpare = true → x.spareUsed < spares l → (t.link d l).spareUsed = x.spareUsed + 1 ∧
        (t.link d l).bad = x.bad - 1 ∧ (t.link d l).wantSpare = false ∧
        (t.link d l).pause ≤ s.now + 105000 * Config.unitsPerTick ∧
        ∀ b e, maintWindow s d (linkCode l) = some (b, some e) → (t.link d l).pause ≤ e)) ∧
    (x.st ≠ 0 → Does .linkDown s fun t => (t.link d l).st = 0) ∧
    (l < 16 → Does .retryRequest s fun t => (t.link d l).fails = min (x.fails + 1) (2 ^ 32 - 1) ∧
      (16 ≤ x.run + 1 → (t.link d l).st = 1 ∧ (t.link d l).run = 0)) ∧
    (∀ m ms k, 16 ≤ l → s.num 2 ≠ 0 → sentFrom s d (s.num 2) (s.num 4) = (m :: ms, k) → Does .retryRequest s fun t =>
      let again (p : OutMsg) (j : Nat) : Prop :=
        (∀ e v q ts, p = .dyn e v q ts → Due' t (.ev .dynamicMessage { Arg.none with
          n := [e, 0, 0, msgFrames q - ts.length + j], msg := some q })) ∧
        ∀ e q g, p = .vc3 e q g → Due' t (.ev .dynamicMessage { Arg.none with n := [e, 4, 0], vc3 := some q })
      again m k ∧ ∀ p ∈ ms, again p 0) ∧
    (∀ e g f ms k, 16 ≤ l → s.num 2 = 0 → s.num 3 = 1 → sentFrom s d 0 (s.num 4) = (.vc0 e g f :: ms, k) →
      ((s.lay f.lay).serving = false → exec .retryRequest s = .next s) ∧
      ∀ ks sq, (s.lay f.lay).serving = true → (s.useKey d 0 1).1 = some (ks, sq) → Does .retryRequest s fun t =>
        t.out = s.out ++ [.vc0 d (vc0Tag f sq ks ((s.link d 16).mode 0)) { f with seq := sq }])) ∧
  (∀ s, let d := s.num 1
    let x := s.link d 16
    let ok : Prop := owns s (s.num 0) = true ∨ s.num 0 = 2
    let dist := unitDist s { die := d, core := 0, lead := false, slot := 0 } 3
    (Does .laneSpareRequest s fun t => (ok → (t.link d 16).wantSpare = true ∧ Due' t (ev .laneSpare [d, 16])) ∧
      (¬ok → (t.link d 16).status = 3)) ∧
    (ok → s.ibrum.updating = false →
      (x.slotState (selSlot x) = 0 → s.alarmSt.testBit 63 = false → Does .wkcmdStage s fun t =>
        (x.wktick < timeAt s dist + 65536 → (t.link d 16).status = 2) ∧
        (timeAt s dist + 65536 ≤ x.wktick → (t.link d 16).status = 0 ∧
          Tab.get (0, 0, 0, 0, 0) (t.link d 16).slots (selSlot x) = (1, wyuskKey x, x.wksalt, x.wktick, 0) ∧
          Due' t (ev .keySlotActivate [d, bits x.wksel 0 2, bits x.wksel 3 1, bits x.wksel 2 1]))) ∧
      ((x.slots.map (·.1)).Nodup → Does .wkcmdErase s fun t => (t.link d 16).slotState (selSlot x) = 0 ∧
        (t.link d 16).status = 0))) ∧
  (∀ s, let d := s.num 0
    let x := s.link d 16
    let i := keySlot (s.num 1) (s.num 2) (s.num 3)
    let o := keySlot (s.num 1) (s.num 2) (1 - s.num 3)
    let e := Tab.get (0, 0, 0, 0, 0) x.slots i
    (e.1 = 1 → s.num 3 < 2 → e.2.2.2.1 ≤ timeAt s (unitDist s { die := d, core := 0, lead := false, slot := 0 } 3) →
      Does .keySlotActivate s fun t => Tab.get (0, 0, 0, 0, 0) (t.link d 16).slots i = (2, e.2.1, e.2.2.1, e.2.2.2.1, 0) ∧
        (s.num 2 = 0 → (x.slots.map (·.1)).Nodup → (t.link d 16).slotState o = 0) ∧
        (s.num 2 ≠ 0 → x.slotState o = 2 → Due' t (ev .keySlotRetire [d, s.num 1, s.num 2, 1 - s.num 3]))) ∧
    (x.slotState i = 2 → (x.slots.map (·.1)).Nodup → Does .keySlotRetire s fun t => (t.link d 16).slotState i = 0)) ∧
  (∀ s, let l := s.num 0
    let d := s.num 1
    (s.num 3 ≠ 1 ∨ (s.link d 16).await.contains 0 = true) → Does .missingFrame s fun t => 0 ∉ (t.link d 16).await ∧
      ((s.lay l).serves = true → (t.lay l).cause = faultCause (s.lay l).cause 2)) ∧
  (∀ s f bs, let die := s.num 0
    let lnk := s.num 1
    let st := linkState s die lnk
    (s.lay (s.num 2)).serving = true → nextFrame s die lnk = some (f, bs) →
    frameOffset lnk (s.num 5) (st == 4) < s.num 4 → (st = 3 ∨ st = 4) → Does .vc0FrameSend s fun t =>
      t.gates = s.gates.filter (fun b => !bs.contains b) ∧
      (lnk < 16 → Due' t (.ev .vc0FrameWrite { Arg.none with
        n := [die, lnk, (bs.map (·.op)).headD 0], frame := some { f with seq := Tab.get 0 (s.link die lnk).sent 0 } })) ∧
      ∀ ks sq, 16 ≤ lnk → (s.useKey die 0 1).1 = some (ks, sq) →
        t.out = s.out ++ [.vc0 die (vc0Tag f sq ks ((s.link die 16).mode 0)) { f with seq := sq }]) ∧
  (∀ s f, s.arg.frame = some f → (s.lay f.lay).serving = true → (s.die (f.ddie % 16)).st ≠ 2 →
    let x : Xlat := { ctx := (s.lay f.lay).ctl % 64, page := 0, psize := 52, r := true, w := true, at' := true, pin := true,
                      tgt := 0, tid := f.ddie % 16, preg := 0, frame := 0, key := f.key, dirty := true }
    Does .vc0FrameWrite s fun t => t.hostMem = s.hostMem ∧ t.scratch = s.scratch ∧ t.code = s.code ∧ SameRegisters s t ∧
      t.hbm = (if f.opk = 0 then s.writePlace x f.dline f.payload else (s.combineFrame f x).1).hbm ∧
      (f.opk ≠ 0 → s.num 0 ≠ 16 →
        (∀ o, s.op? (s.num 2) = some o → o.live = true →
          Has (t.op? o.id) fun z => z.args.getD 2 0 = flOr (o.args.getD 2 0) (s.combineFrame f x).2) ∧
        ((∀ o, s.op? (s.num 2) = some o → o.live = false) →
          (t.ctx x.ctx).flags = flOr (s.ctx x.ctx).flags (s.combineFrame f x).2))) ∧
  (∀ s f, let die := s.num 0
    let x := s.link die 16
    s.arg.rx = some f → (x.st = 2 ∨ x.st = 4) → (x.await.contains f.vc = true → f.resend = true ∨ f.vc = 0) →
    (∀ m, framePasses s die f = true → f.msg = some m → Does .frameReceive s fun t => (t.link die 16).run = 0 ∧
      Due' t (.ev .dynamicMessage { Arg.none with n := [die, 1], msg := some m })) ∧
    (∀ v, framePasses s die f = true → f.msg = none → f.vc0 = some v → Does .frameReceive s fun t =>
      (t.link die 16).run = 0 ∧ Due' t (.ev .vc0FrameWrite { Arg.none with n := [16, die], frame := some v })) ∧
    (framePasses s die f = false → Does .frameReceive s fun t => (t.link die 16).fails = min (x.fails + 1) (2 ^ 32 - 1) ∧
      (x.run + 1 < 16 → (t.link die 16).run = x.run + 1 ∧
        Due' t (.ev .dynamicMessage { Arg.none with n := [die, 4, s.nextId], vc3 := some (.retry 16 f.vc) })) ∧
      (16 ≤ x.run + 1 → (t.link die 16).st = 1))) ∧
  (∀ (s : State) (no k ks sq : Nat) (m : Msg), let die := s.num 0
    s.arg.msg = some m → s.arg.n = [die, 0, no, k] → portReady s die = true → sendYields s die (msgVc m) = false →
    sendBehind s die no (msgVc m) = false → (s.useKey die (msgVc m) (msgFrames m - k)).1 = some (ks, sq) →
    Does .dynamicMessage s fun t => ∃ ts : List Tag, t.out = s.out ++ [.dyn die (msgVc m) m ts] ∧ ts.length = msgFrames m - k ∧
      ∀ i g, ts[i]? = some g → g.vc = msgVc m ∧ g.ks = ks ∧ g.seq = sq + i ∧ g.mode = (s.link die 16).mode (msgVc m)) ∧
  (∀ (s : State) (no ks sq : Nat) (m : Vc3), let die := s.num 0
    s.arg.msg = none → s.arg.vc3 = some m → s.arg.n = [die, 4, no] → die < 16 → portReady s die = true →
    sendYields s die 3 = false → sendBehind s die no 3 = false → (s.useKey die 3 1).1 = some (ks, sq) →
    Does .dynamicMessage s fun t => ∃ g : Tag, t.out = s.out ++ [.vc3 die m g] ∧ g.vc = 3 ∧ g.ks = ks ∧ g.seq = sq) ∧
  (∀ (s : State) (m : Msg), let die := s.num 0
    s.arg.msg = some m →
    (∀ a x, s.num 1 ≠ 0 → s.num 1 ≠ 4 → m.kind = 2 → m.addrs = [a] → msgBehind s die m (s.num 1) = false →
      peerLane s die m a = (0, some x) → seqHeld s m = false → chanPaused s x.home (x.place a) m.sz = false →
      (∀ c ∈ s.claims, c.op ≠ peerClaim m) →
      claimed s x.home (x.place a) m.sz (cycleAt s x.home 0 (if s.num 1 = 1 then s.now else s.num 2) + 1) = false →
      Does .dynamicMessage s fun t =>
        t.hbm = ((s.setCompanion m.ctx die true (walk s die m.ctx a)).writePlace x a (leBytes m.sz (m.data.getD 0 0))).hbm ∧
        t.scratch = s.scratch ∧
        Due' t (.ev .dynamicMessage { Arg.none with n := [die, 0, s.nextId], msg := some (msgReply m 7 0 [a] [0]) })))

/-- O59. Strike reports, rollbacks, mismatches, replays of uncore blocks and repair: A report counts in its zone and rolls
its units back at its cut for 54 cycles, those of a dual-run partner with it: a unit restarts from its target record or waits,
held entries issued since the cut are cancelled, flags raised since are withdrawn, a running lay whose scheduled kernel has a
unit there takes cause 9; a frozen zone keeps the earliest cut for its saved units. At the end every unit left to run resumes.
Old records are freed. A first mismatch marks the unit and reports its zone with SRC 2, or 3 for an entry that differs from its
twin's or has none; a second is an uncorrectable error with source 8 or 9; an equal twin entry is bound to the primary's. A
retransmitted beat costs at most 16 ticks; a failed home replay poisons the lines it was applying, of an access, a copy or a peer's
request. A machine instruction that passes its checks and reads an uncorrectable register counts one error and its team is killed. A
repair is granted while a spare is left and uses it at the channel's maintenance window; a corrected error is counted in the module and
at its pin; counters are cleared by the owner and the Ibrum controller, others get status 3. That a unit that takes no restart goes on
from the position it had reached (log 50), when a pair is compared and that it is judged once (log 84, 85), how a repair pauses its
channel (log 136), and how a corrected error reaches the model (log 156), are the model's readings, not words of the spec. -/
def Obligations.StrikeAndErrorEvents : Prop :=
  let ok (s : State) : Prop := owns s (s.num 0) = true ∨ s.num 0 = 2
  (∀ (s : State), let z := s.num 0
    let src := s.num 1
    let ts := s.num 2
    let x := s.zone z
    let now (z : Nat) : Nat := s.cyc (z / 64) (zoneCore z)
    let p := partnerZone s z
    let c1 := match p with | some q => min (ts - 32) (if (s.zone q).rolling then (s.zone q).cut else ts - 32) | none => ts - 32
    let c := if x.rolling then min c1 x.cut else c1
    let fin := max (now z) (match p with | some q => now q | none => 0) + 54
    let counted (x : Zone) (y : Zone) (z : Nat) : Prop := y.zlast = reportWord z src ts ∧
      y.zcnt = bump16 x.zcnt (if src = 0 then 48 else if src = 1 then 32 else 16)
    let rolls (t : State) (z : Nat) : Prop := (t.zone z).rolling = true ∧ (t.zone z).cut = c ∧
      (t.zone z).fin = max fin (if (s.zone z).rolling then (s.zone z).fin else 0) ∧ Due' t (ev .rollbackEnd [z])
    Does .strikeReport s fun t => SameMemory s t ∧ SameRegisters s t ∧
      (s.num 3 = 1 → (t.zone z).zlast = x.zlast ∧ (t.zone z).zcnt = x.zcnt) ∧ (s.num 3 ≠ 1 → counted x (t.zone z) z) ∧
      (∀ q, p = some q → q ≠ z → s.num 3 ≠ 1 → src = 3 → counted (s.zone q) (t.zone q) q) ∧
      (t.zone z).heldCut = (if zoneFrozen s z = true then (match x.heldCut with
        | some h => some (min h.1 (ts - 32), h.2)
        | none => some (ts - 32, src)) else x.heldCut) ∧
      (s.num 3 ≠ 1 → ∀ h, 64 * h.die + h.q = z → ts - 32 ≤ h.cycle → h.cycle < now z →
        (∀ q, p = some q → h.cycle < now q) → h ∉ t.heldFlags) ∧
      (∀ h ∈ s.heldFlags, (64 * h.die + h.q ≠ z ∧ p ≠ some (64 * h.die + h.q)) ∨ h.cycle < c → h ∈ t.heldFlags) ∧
      (zoneUnits s z = [] → t = { s with zones := t.zones, heldFlags := t.heldFlags } ∧
        (t.zone z).rolling = x.rolling ∧ (t.zone z).cut = x.cut ∧ (t.zone z).fin = x.fin) ∧
      (zoneUnits s z ≠ [] → rolls t z ∧ (∀ q, p = some q → zoneUnits s q ≠ [] → rolls t q) ∧
        (∀ l, l < 4 → (s.lay l).serves = true → (∃ y ∈ zoneUnits s z, ∃ g k, s.group? y.gid = some g ∧
          s.kernelOf g = some k ∧ k.lpb.sched = true ∧ k.lay = some l) → (t.lay l).cause = faultCause (s.lay l).cause 9) ∧
        (∀ o, Only s o → o.held = true → zoneOf o.u.die o.u.core = z → o.u.sh = false → c ≤ o.issue →
          Has (t.op? o.id) fun e => e.stage = .cancelled) ∧
        ∀ y ∈ zoneUnits s z, Alone s y → Has (t.unit? y.id) fun e =>
          (∀ r, (restartFrom s y c).bind (targetRecord y) = some r → e.clause = none ∧ e.resume = none ∧ e.stop = none ∧
            e.gangs = r.gangs.map (fun a => { a with hdr := none }) ∧ e.exec = r.exec ∧ e.marked = r.marked ∧ e.pi = r.pi ∧
            e.pp = r.pp ∧ e.push = r.push ∧ e.rgnc = (r.number + 2 ^ 32 - 1) % 2 ^ 32 ∧
            e.ring = r :: y.ring.filter fun a => a.cycle < r.cycle) ∧
          ((restartFrom s y c).bind (targetRecord y) = none →
            e = { y with resume := e.resume } ∧ (y.clause = none ∨ y.resume ≠ none → e = y)))) ∧
  (∀ (s : State), let z := s.num 0
    let fin := (s.zone z).fin
    (((s.zone z).rolling = false ∨ s.cyc (z / 64) (zoneCore z) < fin) → exec .rollbackEnd s = .next s) ∧
    ((s.zone z).rolling = true → fin ≤ s.cyc (z / 64) (zoneCore z) → Does .rollbackEnd s fun t =>
      t = { s with zones := t.zones, units := t.units, agenda := t.agenda } ∧
      t.zone z = { s.zone z with rolling := false } ∧ (∀ w, w ≠ z → t.zone w = s.zone w) ∧
      ∀ x ∈ s.units, Alone s x →
        let goes : Prop := zoneOf x.id.die x.id.core = z ∧ x.id.sh = false ∧ x.ended = false ∧ x.stop = none ∧ x.laySt = 0
        (¬goes → t.unit? x.id = some x) ∧
        (goes → t.unit? x.id = some { x with holdUntil := max x.holdUntil fin } ∧
          ∃ a ∈ t.agenda, a.due = evU (if x.id.lead then .leadClauseIssue else .clauseIssue) x.id [] ∧
            a.at' = max s.now (instantOf s x.id.die x.id.core (nextWindowOf x.wins fin))))) ∧
  (∀ (s : State) (x : ExecUnit), s.unit? s.arg.u = some x →
    let z := zoneOf s.arg.u.die s.arg.u.core
    let now := s.ucyc s.arg.u
    let old (i : Nat) : Prop := ∃ j a, j ≤ i ∧ x.ring[j]? = some a ∧ a.cycle + 432 < now
    Does .regionRecordFree s (fun t => t = { s with units := t.units } ∧ (∀ v, v ≠ s.arg.u → t.unit? v = s.unit? v) ∧
      Has (t.unit? s.arg.u) fun y => y = { x with ring := y.ring, pr := y.pr, dq := y.dq } ∧ y.ring[0]? = x.ring[0]? ∧
        (∀ i, (old i → y.ring[i + 1]? = none) ∧ (¬old i → y.ring[i + 1]? = x.ring[i + 1]?)) ∧
        (∀ r, y.ring.getLast? = some r → y.pr = r.pp) ∧ y.dq = x.dq.filter fun e => y.pr ≤ e.1) ∧
    (rolledBack s z (s.num 0) = true → exec .protectedMismatch s = .next s) ∧
    (rolledBack s z (s.num 0) = false →
      (x.mark = none → Does .protectedMismatch s fun t => t = { s with units := t.units, agenda := t.agenda } ∧
        Due' t (ev .strikeReport [z, 2, s.num 0 + 32]) ∧ (∀ v, v ≠ s.arg.u → t.unit? v = s.unit? v) ∧
        t.unit? s.arg.u = some { x with mark := some (match x.ring with | r :: _ => r.number | [] => x.rgnc) }) ∧
      ∀ g, x.mark ≠ none → s.group? x.gid = some g → Does .protectedMismatch s fun t => Consumed s t s.arg.u g 8)) ∧
  (∀ (i : Instr) (w : Word64) (s : State) (c : Cur) (x : ExecUnit) (g : Group), encode i = some (.inl w) → s.cur = some c →
    s.unit? c.u = some x → s.group? x.gid = some g → decodeCheck s c i = none → sourcePoisoned s c i = true →
    ∃ t, exec i s = .next t ∧ Consumed s t c.u g 1) ∧
  (∀ (s : State) (o : Op), s.op? (s.num 0) = some o →
    let p := s.ops.find? fun e => e.u = twinUnit o.u && e.issue = o.issue && e.ordinal ≠ 0 && e.ordinal < 2 ^ 40 &&
      (e.held || e.fwd = o.id)
    let twin : Prop := ∃ g, s.group? o.gid = some g ∧ g.twinOf ≠ none
    let mismatch : Prop :=
      (isMarked s o.u = false → isMarked s (twinUnit o.u) = false → Does .dualRunMismatch s fun t =>
        t = { s with units := t.units, agenda := t.agenda } ∧
        Due' t (ev .strikeReport [zoneOf o.u.die o.u.core, 3, o.issue + 32]) ∧
        ∀ x, s.unit? x.id = some x → t.unit? x.id = some (if x.id = o.u ∨ x.id = twinUnit o.u then
          { x with mark := some (match x.ring with | r :: _ => r.number | [] => x.rgnc) } else x)) ∧
      ∀ g, isMarked s o.u = true ∨ isMarked s (twinUnit o.u) = true → s.group? o.gid = some g →
        Does .dualRunMismatch s fun t => Consumed s t o.u g 9
    (o.held = false → exec .dualRunMismatch s = .next s) ∧
    (o.held = true → p = none → mismatch) ∧
    ∀ e, o.held = true → p = some e →
      (¬twin ∨ e.fwd = o.id → exec .dualRunMismatch s = .next s) ∧
      (twin → e.fwd ≠ o.id → sameEntry o e = false → mismatch) ∧
      (twin → e.fwd ≠ o.id → sameEntry o e = true → s.op? e.id = some e → Does .dualRunMismatch s fun t =>
        t = { s with ops := t.ops } ∧ t.op? o.id = some { o with fwd := e.id, kdone := true, stage := .done } ∧
        t.op? e.id = some { e with binds := e.binds ++ [{ u := o.u, issue := o.issue, k := o.k }] } ∧
        ∀ n, n ≠ o.id → n ≠ e.id → t.op? n = s.op? n)) ∧
  (∀ (s : State), (s.num 2 = 0 → exec .meshRetransmit s = .next s) ∧
    (s.num 2 ≠ 0 → Does .meshRetransmit s fun t => ∃ n, 1 ≤ n ∧ n ≤ 16 ∧
      t = State.slackEvent { s with freeCtr := s.freeCtr + 1 } (s.num 0) (s.num 1) n)) ∧
  (∀ (s : State),
    (s.num 2 ≠ 0 ∨ 16 ≤ s.num 1 → exec .homeReplay s = .next s) ∧
    (s.num 2 = 0 → s.num 1 < 16 →
      let covers (a n p : Nat) : Prop := ∃ i j, i < (a % 64 + n + 63) / 64 ∧ j < 8 ∧
        p = poisonHbm (hbmAddr (s.num 1) (a / 64 * 64 + 64 * i + 8 * j))
      let applies (p : Nat) : Prop :=
        (∃ m, s.arg.msg = some m ∧ ∃ a ∈ m.addrs, ∃ x, (peerLane s (s.num 3) m a).2 = some x ∧ x.home = s.num 1 ∧
          covers (x.place a) m.sz p) ∨
        (s.arg.msg = none ∧ ∃ o, s.op? (s.num 0) = some o ∧ ∃ l ∈ o.lanes, ∃ x,
          (o.copy = none ∧ l.home = s.num 1 ∧ l.xl = some x ∧ covers (x.place l.addr) o.size p) ∨
          (o.copy ≠ none ∧ l.st ≠ .idle ∧ (walk s o.u.die o.ctx l.data).xl = some x ∧ x.home = s.num 1 ∧
            covers (x.place l.data) l.cmp p))
      Does .homeReplay s fun t => t = { s with poison := t.poison } ∧
        ∀ p, p ∈ t.poison ↔ p ∈ s.poison ∨ applies p ∨ ∃ w, applies w ∧ p = homeMark w)) ∧
  (∀ (s : State), let d := s.hsel % 16
    let c := bits s.hsel 4 5
    let z := s.errsel % 1024
    let pin := s.num 1
    let turnedAway (t : State) : Prop := t = { s with hrepStatus := 3 }
    (¬ok s → Does .hrepcmdGo s turnedAway ∧ Does .zcntClear s turnedAway ∧ Does .uecntClear s turnedAway) ∧
    (ok s →
      (s.ibrum.updating = true ∨ (s.chan d c).spare = 0 → Does .hrepcmdGo s fun t => t = { s with hrepStatus := 1 }) ∧
      (s.ibrum.updating = false → (s.chan d c).spare ≠ 0 → Does .hrepcmdGo s fun t =>
        t = { s with chans := t.chans, hrepStatus := t.hrepStatus, agenda := t.agenda } ∧
        t.chan d c = { s.chan d c with want := some pin } ∧ (∀ e f, ¬(e = d ∧ f = c) → t.chan e f = s.chan e f) ∧
        t.hrepStatus = (if maintenance s d c = some s.now then 0 else 2) ∧
        ∃ a ∈ t.agenda, a.due = ev .hbmLaneRepair [d, c, pin] ∧ ∀ m, maintenance s d c = some m → a.at' = m) ∧
      Does .zcntClear s (fun t => t = { s with zones := t.zones } ∧ t.zone z = { s.zone z with zcnt := 0 } ∧
        ∀ w, w ≠ z → t.zone w = s.zone w) ∧
      Does .uecntClear s fun t => t = { s with uecnt := 0 })) ∧
  (∀ (s : State), let d := s.num 0
    let c := s.num 1
    let x := s.chan d c
    (x.want = none → exec .hbmLaneRepair s = .next s) ∧
    (x.want ≠ none → maintenance s d c ≠ some s.now → Does .hbmLaneRepair s fun t => t = { s with agenda := t.agenda } ∧
      Due' t (ev .hbmLaneRepair [d, c, s.num 2])) ∧
    (x.want ≠ none → maintenance s d c = some s.now → Does .hbmLaneRepair s fun t =>
      t = { s with chans := t.chans, freeCtr := t.freeCtr, hrepStatus := if s.hrepStatus = 2 then 0 else s.hrepStatus } ∧
      t.chan d c = { x with want := none, spare := x.spare - 1, pins := x.pins.del (s.num 2), pause := (t.chan d c).pause } ∧
      (t.chan d c).pause ≤ s.now + 105000 * Config.unitsPerTick ∧
      (∀ b e, maintWindow s d c = some (b, some e) → (t.chan d c).pause ≤ e) ∧
      ∀ e f, ¬(e = d ∧ f = c) → t.chan e f = s.chan e f)) ∧
  (∀ (s : State), s.num 2 = 0 → s.num 3 ≠ 0 → let d := s.num 0
    let c := s.num 1
    let pin := s.num 3 - 1
    let up (n : Nat) : Nat := min (2 ^ 32 - 1) (n + 1)
    Does .slackEvent s fun t => t = { s with uecnt := t.uecnt, chans := t.chans } ∧ t.uecnt % 2 ^ 32 = s.uecnt % 2 ^ 32 ∧
      (s.uecnt < 2 ^ 64 → t.uecnt / 2 ^ 32 = up (s.uecnt / 2 ^ 32)) ∧
      (c < 32 → pin < 256 → (t.chan d c).pins = (s.chan d c).pins.put pin (up (Tab.get 0 (s.chan d c).pins pin)) ∧
        ∀ e f, ¬(e = d ∧ f = c) → t.chan e f = s.chan e f) ∧
      (¬(c < 32 ∧ pin < 256) → t.chans = s.chans))

/-- O60. Classes, leases, power, controllers, firmware, measurements, the alarm, power-on and register writes: The owner's
pool write sets requested classes, a quiet die changes and takes its new clock; leases start, end and expire. Each millisecond PMEAS is
compared: an excess ends leases and, when repeated, lowers the limit of the die that drew the most; below 95 % the last reduction is
undone; the hottest die above its threshold quiesces. A die past 115 degrees, a loss of coolant and 5 ms above 6,000 W cut the power. A
quiesced die's forming and running teams are killed and its relaunching ones moved to the next online die; it goes offline and returns
once its links have trained. A heartbeat commits a hand-over, a time-out undoes it, the third missed one in a row makes the standby take
over; images are staged, activated and dropped; blocks 1 to 4 are measured. An alarm latches its cause and by policy erases keys and
kills contexts with their lays. POWER_ON brings the module up from an accepted image, the dies in ascending order, and keeps flash
alone. A register write sets its field or asks for its command. A closed owner port frees the semaphore. Which check lowers a limit
(log 59), what STAGE carries (log 60), how sensor readings come in (log 61), that the alarm kills every context that is not free (log
63), that a change of class ends a lease (log 157), what a heartbeat carries (log 158), and the stages of a bring-up and what an image
that is not accepted leaves (log 160), are the model's choices, not words of the spec. -/
def Obligations.ModuleEvents : Prop :=
  let ok (s : State) : Prop := owns s (s.num 0) = true ∨ s.num 0 = 2
  (∀ s, ok s → s.dies.length = 16 → Does .poolcfgWrite s fun t => t.poolcfg = s.num 1 % 2 ^ 32 ∧
    ∀ d, d < 16 → (t.die d).reqCls = bits (s.num 1) (2 * d) 2 ∧
      (bits (s.num 1) (2 * d) 2 ≠ (s.die d).cls → (t.die d).changing = true ∧ Due' t (ev .operatingPointChange [d])) ∧
      (bits (s.num 1) (2 * d) 2 = (s.die d).cls → (s.die d).st ≠ 3 → (t.die d).changing = false)) ∧
  (∀ s, let d := s.num 0
    let x := s.die d
    (x.changing = true → changeWaits s d = true ∨ (x.st = 3 ∧ linksTrain s d = true) → Does .operatingPointChange s fun t =>
      t = { s with agenda := t.agenda } ∧ Due' t (ev .operatingPointChange [d])) ∧
    (x.changing = true → changeWaits s d = false → (x.st ≠ 3 ∨ linksTrain s d = false) →
      (s.num 1 = 0 → Does .operatingPointChange s fun t =>
        t.dies = s.dies ∧ Due' t (ev .operatingPointChange [d, 1])) ∧
      (s.num 1 ≠ 0 → Does .operatingPointChange s fun t => (t.die d).cls = x.reqCls ∧ (t.die d).changing = false ∧
        (t.die d).st = (if x.st = 3 then 0 else x.st) ∧ (t.die d).upc = Config.unitsPerCycle x.reqCls ∧ (t.die d).boost = none ∧
        (t.die d).limit = (if x.st = 3 then 2048 - (s.reductions.filter fun e => e = d).length else x.limit) ∧
        Due' t (ev .teamPlace [d]))) ∧
    (∀ e, x.boost = some e → e ≤ s.now → Does .boostExpiry s fun t => (t.die d).boost = none ∧
      (t.die d).upc = Config.unitsPerCycle x.cls) ∧
    (x.st = 0 → d < s.dies.length → Does .dieQuiesce s fun t => (t.die d).st = 1 ∧ (t.die d).limit = 0 ∧
      (∀ l, l < 4 → (s.lay l).serves = true → (s.lay l).diemask.testBit d = true → (t.lay l).cause = faultCause (s.lay l).cause 7) ∧
      (∀ m, s.team? m.tid = some m → m.die = d → m.state = .forming ∨ m.state = .running →
        Has (t.team? m.tid) fun n => n.state = .killed) ∧
      ∀ m k, (s.teams.filter fun y => y.tid = m.tid) = [m] → m.tid < s.nextId → m.die = d → m.state = .relaunching →
        s.kernel? m.kid = some k →
        let s1 : State := s.modDie d fun y => { y with st := 1 }
        Has (t.team? m.tid) (fun n => n = { m with die := relaunchDie s1 k m.idx }) ∧
          Due' t (ev .teamPlace [relaunchDie s1 k m.idx]))) ∧
  (∀ s, ok s → s.ibrum.updating = false → let d := s.num 1 % 16
    let x := s.die d
    (x.cls = 3 → x.st = 0 → x.changing = false → x.boost = none → poolInLay s 3 = false → Does .pwrcmdBoost s fun t =>
      t.pwrStatus = 0 ∧ (t.die d).boost = some (x.cycleStart (nextPhase s d) + 690 * coreDist s d 0 + 21000000 * 690) ∧
        (t.die d).upc = Config.boostUnits ∧ Due' t (ev .boostExpiry [d])) ∧
    (x.boost ≠ none → Does .pwrcmdEndboost s fun t => t.pwrStatus = 0 ∧ (t.die d).boost = some 0 ∧ Due' t (ev .boostExpiry [d])) ∧
    (x.st = 0 → Does .pwrcmdOffline s fun t => t.pwrStatus = 0 ∧ Due' t (ev .dieQuiesce [d])) ∧
    (x.st = 1 → Does .pwrcmdOffline s fun t => t.pwrStatus = 0 ∧ (t.die d).st = 2) ∧
    (x.st = 1 ∨ x.st = 2 → x.temp + 10 ≤ x.thr → Does .pwrcmdOnline s fun t => t.pwrStatus = 0 ∧ (t.die d).st = 3 ∧
      (t.die d).changing = true ∧ Due' t (ev .operatingPointChange [d]))) ∧
  (∀ (s : State) (w : Nat) (temps draws : List Nat), s.dies.length = 16 → s.arg.n = w :: (temps ++ draws) → temps.length = 16 →
    draws.length = 16 → Does .powerCheck s fun t =>
      ((∀ d, d < 16 → temps.getD d 0 % 256 ≤ 115) → t = { s with pmeas := w % 2 ^ 16, dies := t.dies } ∧ ∀ d, d < 16 →
        t.die d = { s.die d with temp := temps.getD d 0 % 256, draw := draws.getD d 0 }) ∧
      ((∃ d, d < 16 ∧ 115 < temps.getD d 0 % 256) → t.powered = false ∧ t.agenda = [])) ∧
  (∀ s, s.dies.length = 16 → s.arg.n = [] → Does .powerCheck s fun t => t.pmeas = s.pmeas ∧
    t.overPower = decide (s.plimit < s.pmeas) ∧
    (s.plimit < s.pmeas → (∀ d, d < 16 → (s.die d).boost ≠ none → (t.die d).boost = some 0) ∧
      ∀ n, n < 16 → (∀ d, d < 16 → (s.die d).draw < (s.die n).draw ∨ ((s.die d).draw = (s.die n).draw ∧ n ≤ d)) →
        (t.die n).limit = if s.overPower then (s.die n).limit - 1 else (s.die n).limit) ∧
    (100 * s.pmeas < 95 * s.plimit → ∀ d ds, s.reductions = d :: ds → d < 16 → t.reductions = ds ∧
      (t.die d).limit = if (s.die d).st = 0 then (s.die d).limit + 1 else (s.die d).limit) ∧
    (∀ n, n < 16 → (s.die n).st = 0 → (s.die n).thr < (s.die n).temp → (∀ d, d < 16 → (s.die d).st = 0 →
      (s.die d).thr < (s.die d).temp → (s.die d).temp < (s.die n).temp ∨ ((s.die d).temp = (s.die n).temp ∧ n ≤ d)) →
      Due' t (ev .dieQuiesce [n])) ∧
    ∃ a ∈ t.agenda, a.due = ev .powerCheck [] ∧ a.at' = s.now + 2100000 * Config.unitsPerTick) ∧
  (∀ s, let ms5 := 10500000 * Config.unitsPerTick
    let cut (t : State) : Prop := t = { s with powered := false, agenda := [], out := s.out ++ [.powerOff] }
    (s.num 0 = 0 → ((∃ d, d < 16 ∧ 115 < (s.die d).temp) → Does .powerCutoff s cut) ∧
      ((∀ d, d < 16 → (s.die d).temp ≤ 115) → exec .powerCutoff s = .next s)) ∧
    (s.num 0 = 1 → Does .powerCutoff s cut) ∧
    (s.num 0 = 2 → (s.num 1 ≤ 6000 → Does .powerCutoff s fun t => t = { s with overSince := none }) ∧
      (6000 < s.num 1 → s.overSince = none → Does .powerCutoff s fun t =>
        t = { s with overSince := some s.now, agenda := t.agenda } ∧
        ∃ a ∈ t.agenda, a.due = ev .powerCutoff [3] ∧ a.at' = s.now + ms5)) ∧
    (s.num 0 = 3 → ∀ b, s.overSince = some b → (b + ms5 ≤ s.now → Does .powerCutoff s cut) ∧
      (s.now < b + ms5 → exec .powerCutoff s = .next s))) ∧
  (∀ s, let b := s.ibrum
    (b.handover = false → Does .heartbeat s fun t =>
      t = { s with ibrum := { b with standby := decide (s.num 0 = 1), missed := 0, lastBeat := s.now }, agenda := t.agenda } ∧
      (s.num 0 = 1 → Due' t (ev .controllerTakeover []))) ∧
    (b.handover = true → Does .heartbeat s fun t => t.flash = { s.flash with active := 1 - b.active } ∧
      t.ibrum.active = 1 - b.active ∧ t.ibrum.version = (s.flash.slot (1 - b.active)).2 ∧ t.ibrum.updating = false ∧
        t.ibrum.paused = false ∧ t.ibrum.measActive = (s.flash.slot (1 - b.active)).1 ∧ ¬Due' t (ev .handoverTimeout [])) ∧
    (b.handover = true → Does .handoverTimeout s fun t => t.flash = s.flash ∧ t.ibrum =
      { b with handover := false, updating := false, paused := false, staged := false, status := 4 }) ∧
    (b.standby = true → b.lastBeat + 210000 * Config.unitsPerTick ≤ s.now →
      (b.missed < 2 → Does .controllerTakeover s fun t => t.ibrum = { b with missed := b.missed + 1, lastBeat := s.now } ∧
        Due' t (ev .controllerTakeover [])) ∧
      (2 ≤ b.missed → Does .controllerTakeover s fun t => t = { s with ibrum := { b with standby := false, missed := 0 } })) ∧
    (ok s → b.updating = false →
      (let f := match s.arg.n.drop 1 with
          | [] => s.flash
          | v :: bs => s.flash.putSlot (1 - b.active) v (bs.map fun x => BitVec.ofNat 8 x)
        let good : Bool := Config.signatureGood Config.rootKey f.record &&
          Config.signatureGood (Config.imageKey f.record) (f.slot (1 - b.active)).1 && f.minVer ≤ (f.slot (1 - b.active)).2
        Does .fwcmdStage s fun t => t = { s with flash := f, ibrum := if good then { b with staged := true, status := 0 }
          else { b with staged := b.staged && (s.arg.n.drop 1).isEmpty, status := 2 } }) ∧
      (b.staged = true → Does .fwcmdActivate s fun t => t.ibrum =
        { b with updating := true, paused := true, handover := true, status := 0 } ∧ Due' t (ev .handoverTimeout [])) ∧
      (b.staged = true → Does .fwcmdAbort s fun t => t = { s with ibrum := { b with staged := false, status := 0 } }))) ∧
  (∀ s, Does .spdmGetMeasurements s fun t => t = { s with out := s.out ++
    [if s.num 1 = 1 then .spdm (s.num 0) (s.num 1) (Config.sha512 Config.bootRom)
     else if s.num 1 = 2 then .spdm (s.num 0) (s.num 1) (Config.sha512 s.flash.record)
     else if s.num 1 = 3 then .spdm (s.num 0) (s.num 1) (Config.sha512 s.ibrum.measActive)
     else if s.num 1 = 4 then .spdm (s.num 0) (s.num 1) (Config.sha512 s.ibrum.measStandby)
     else .spdmError (s.num 0) (s.num 1)] }) ∧
  (∀ s, Does .securityAlarm s fun t => t.alarmSt.testBit 63 = true ∧ t.alarmSt.testBit (s.num 0 % 3) = true ∧
    (s.alarmPol.testBit 0 = true → (∀ n, (t.ctx n).keys = []) ∧ ∀ l ∈ t.links, l.slots = []) ∧
    (s.alarmPol.testBit 1 = true → ∀ n, n < 64 → (s.ctx n).state ≠ .free → (t.ctx n).state = .killed ∧
      ∀ l, l < 4 → (s.lay l).ctl % 64 = n → (s.lay l).state ≠ .empty → (t.lay l).state = .abandoned)) ∧
  (∀ s, let k := s.num 0
    let f := s.flash
    let good : Prop := Config.signatureGood Config.rootKey f.record = true ∧
      Config.signatureGood (Config.imageKey f.record) (f.slot f.active).1 = true ∧ f.minVer ≤ (f.slot f.active).2
    let off (t : State) : Prop := t.flash = f ∧ t.hostMem = s.hostMem ∧ t.ctxs = [] ∧ t.hbm = [] ∧ t.scratch = [] ∧ t.units = [] ∧
      t.mgmtOwner = 0 ∧ t.modl = s.modl ∧ t.alarmPol = f.alarmPol
    (k = 0 → (s.num 1 = 0 ∨ s.num 2 = 0 → exec .powerOn s = .next s) ∧
      (s.num 1 ≠ 0 → s.num 2 ≠ 0 → Does .powerOn s fun t => off t ∧ t.powered = false ∧ (∀ d, d < 16 → (t.die d).st = 3) ∧
        Due' t (ev .powerOn [1]))) ∧
    (k = 1 → Does .powerOn s fun t => t.powered = false ∧ (s.powered = true → off t) ∧ (good → Due' t (ev .powerOn [2])) ∧
      (¬good → t.agenda = if s.powered then [] else s.agenda)) ∧
    (2 ≤ k → s.powered = true → exec .powerOn s = .next s) ∧
    (2 ≤ k → s.powered = false →
      (k < 18 → s.dies.length = 16 → Does .powerOn s fun t => t.powered = false ∧ (t.die (k - 2)).st = 0 ∧
        (∀ d, d ≠ k - 2 → t.die d = s.die d) ∧ Due' t (ev .powerOn [k + 1])) ∧
      (k = 18 → Does .powerOn s fun t => t.powered = false ∧ (∀ d l, d < 16 → l < 16 → (t.link d l).st = 1) ∧
        Due' t (ev .powerOn [19])) ∧
      (k = 19 → Does .powerOn s fun t => t.powered = false ∧ t.links = [] ∧ Due' t (ev .powerOn [20])) ∧
      (20 ≤ k → Does .powerOn s fun t => t.powered = true ∧ off t ∧ originTime t = 0))) ∧
  (∀ s, let p := s.num 0
    let off := s.num 1
    let v := s.num 2 % 2 ^ 64
    (off = 0x100 → bits v 2 2 = 1 → Does .registerWrite s fun t => Due' t (ev .mgmtsemAcquire [p])) ∧
    (off = 0xF020 → ok s → Does .registerWrite s fun t => t = { s with plimit := min (v % 2 ^ 16) 5500 }) ∧
    (off = 0xD008 → owns s p = true → Does .registerWrite s fun t =>
      t = { s with podmask := v * 2 ^ 64 + s.podmask % 2 ^ 64 }) ∧
    (∀ n, n < 64 → off = 0x100000 + 0x10000 * n + 0x18 → (s.ctx n).state = .created → Does .registerWrite s fun t =>
      t.ctx n = { s.ctx n with partition := v % 2 ^ 16, det := v.testBit 16 }) ∧
    (∀ n, n < 64 → off = 0x100000 + 0x10000 * n + 0x10 → v % 16 = 1 → Does .registerWrite s fun t =>
      Due' t (ev .ctxCreate [p, n])) ∧
    (∀ q, q < 256 → off = 0x8000 + 64 * q → Does .registerWrite s fun t => Due' t (ev .qcfgWrite [p, q, v])) ∧
    (∀ l, l < 4 → off = 0x4020 + 64 * l → s.lays.length = 4 → owns s p = true → Does .registerWrite s fun t =>
      (t.lay l).startReg = v)) ∧
  (∀ s, (s.mgmtOwner = 1 ∨ s.mgmtOwner = 2) → Does .ownerPortLinkDown s fun t => t = { s with mgmtOwner := 0 })
end

