-- ==== Sys2Proof/Laws/Memory.lean ====
section
/-! SUPPORT. Sparse tables and byte memories: reading what was written, leaving every other place alone, and the one
canonical form that every memory operation keeps (log 3). -/

namespace Sys2Proof.Laws

open Sys2Proof.Machine

/-! ### Tables -/

@[simp] theorem tab_get_nil {β : Type} (d : β) (i : Nat) : Tab.get d ([] : Tab β) i = d := rfl

@[simp] theorem tab_get_put {β : Type} (d v : β) (t : Tab β) (i j : Nat) :
    Tab.get d (Tab.put t i v) j = if j = i then v else Tab.get d t j := by
  induction t with
  | nil => simp [Tab.put, Tab.get]
  | cons e t ih =>
    obtain ⟨k, w⟩ := e
    simp only [Tab.put]
    split
    · simp [Tab.get]
    · split
      · subst_vars
        simp only [Tab.get]
        split <;> rfl
      · simp only [Tab.get, ih]
        split <;> split <;> simp_all

@[simp] theorem tab_get?_put {β : Type} (v : β) (t : Tab β) (i j : Nat) :
    Tab.get? (Tab.put t i v) j = if j = i then some v else Tab.get? t j := by
  induction t with
  | nil => simp [Tab.put, Tab.get?]
  | cons e t ih =>
    obtain ⟨k, w⟩ := e
    simp only [Tab.put]
    split
    · simp [Tab.get?]
    · split
      · subst_vars
        simp only [Tab.get?]
        split <;> rfl
      · simp only [Tab.get?, ih]
        split <;> split <;> simp_all

/-! ### Byte memory -/

@[simp] theorem mem_read_nil (a : Nat) : Mem.read [] a = 0 := rfl

theorem wfFrom_le {m : Mem} {lo hi : Nat} (h : Mem.wfFrom hi m = true) (hl : lo ≤ hi) : Mem.wfFrom lo m = true := by
  cases m with
  | nil => rfl
  | cons e m =>
    obtain ⟨a, b⟩ := e
    simp only [Mem.wfFrom, Bool.and_eq_true, decide_eq_true_eq] at h ⊢
    exact ⟨⟨Nat.le_trans hl h.1.1, h.1.2⟩, h.2⟩

theorem read_below {m : Mem} {lo i : Nat} (h : Mem.wfFrom lo m = true) (hi : i < lo) : Mem.read m i = 0 := by
  induction m generalizing lo with
  | nil => rfl
  | cons e m ih =>
    obtain ⟨a, b⟩ := e
    simp only [Mem.wfFrom, Bool.and_eq_true, decide_eq_true_eq] at h
    simp only [Mem.read]
    rw [if_neg (by omega)]
    exact ih h.2 (by omega)

theorem wfFrom_write {m : Mem} {lo : Nat} (i : Nat) (v : Byte) (h : Mem.wfFrom lo m = true) (hi : lo ≤ i) :
    Mem.wfFrom lo (m.write i v) = true := by
  induction m generalizing lo with
  | nil =>
    simp only [Mem.write]
    split
    · rfl
    · next hv =>
      simp only [Mem.wfFrom, Bool.and_true, Bool.and_eq_true, decide_eq_true_eq, bne_iff_ne, ne_eq]
      exact ⟨hi, hv⟩
  | cons e m ih =>
    obtain ⟨a, b⟩ := e
    have h0 := h
    simp only [Mem.wfFrom, Bool.and_eq_true, decide_eq_true_eq] at h
    simp only [Mem.write]
    split
    · next hia =>
      split
      · exact h0
      · next hv =>
        simp only [Mem.wfFrom, Bool.and_eq_true, decide_eq_true_eq, bne_iff_ne, ne_eq]
        exact ⟨⟨hi, hv⟩, ⟨by omega, by simpa using h.1.2⟩, h.2⟩
    · split
      · split
        · exact wfFrom_le h.2 (by omega)
        · next hv =>
          simp only [Mem.wfFrom, Bool.and_eq_true, decide_eq_true_eq, bne_iff_ne, ne_eq]
          subst_vars
          exact ⟨⟨hi, hv⟩, h.2⟩
      · simp only [Mem.wfFrom, Bool.and_eq_true, decide_eq_true_eq]
        exact ⟨h.1, ih h.2 (by omega)⟩

/-- A write keeps the canonical form. -/
theorem wf_write {m : Mem} (i : Nat) (v : Byte) (h : m.wf = true) : (m.write i v).wf = true :=
  wfFrom_write i v h (Nat.zero_le i)

/-- Writing bytes keeps the canonical form. -/
theorem wf_writeBytes {m : Mem} (a : Nat) (bs : List Byte) (h : m.wf = true) : (m.writeBytes a bs).wf = true := by
  induction bs generalizing m a with
  | nil => exact h
  | cons b bs ih => exact ih (a + 1) (wf_write a b h)

/-- Writing a number keeps the canonical form. -/
theorem wf_writeN {m : Mem} (a v n : Nat) (h : m.wf = true) : (m.writeN a v n).wf = true := wf_writeBytes a _ h

theorem wfFrom_filter {m : Mem} {lo : Nat} (p : Host.Cell → Bool) (h : Mem.wfFrom lo m = true) :
    Mem.wfFrom lo (m.filter p) = true := by
  induction m generalizing lo with
  | nil => rfl
  | cons e m ih =>
    obtain ⟨a, b⟩ := e
    simp only [Mem.wfFrom, Bool.and_eq_true, decide_eq_true_eq] at h
    simp only [List.filter_cons]
    split
    · simp only [Mem.wfFrom, Bool.and_eq_true, decide_eq_true_eq]
      exact ⟨h.1, ih h.2⟩
    · exact wfFrom_le (ih h.2) (by omega)

/-- Clearing a range keeps the canonical form. -/
theorem wf_clear {m : Mem} (lo hi : Nat) (h : m.wf = true) : (m.clear lo hi).wf = true := wfFrom_filter _ h

/-- A byte reads as last written, and every other byte as before. -/
theorem read_write {m : Mem} (h : m.wf = true) (i j : Nat) (v : Byte) :
    (m.write i v).read j = if j = i then v else m.read j := by
  suffices ∀ lo, Mem.wfFrom lo m = true → (m.write i v).read j = if j = i then v else m.read j from this 0 h
  intro lo hlo
  clear h
  induction m generalizing lo with
  | nil =>
    simp only [Mem.write]
    split
    · next hv => simp [hv]
    · simp [Mem.read]
  | cons e m ih =>
    obtain ⟨a, b⟩ := e
    have h0 := hlo
    simp only [Mem.wfFrom, Bool.and_eq_true, decide_eq_true_eq] at hlo
    simp only [Mem.write]
    split
    · next hia =>
      split
      · next hv =>
        by_cases hj : j = i
        · subst hj
          simp only [if_true, hv, Mem.read]
          rw [if_neg (by omega)]
          exact read_below hlo.2 (by omega)
        · simp [hj]
      · simp only [Mem.read]
    · split
      · next hia =>
        subst hia
        split
        · next hv =>
          by_cases hj : j = i
          · subst hj
            simp only [if_true, hv]
            exact read_below hlo.2 (by omega)
          · simp [Mem.read, hj]
        · simp only [Mem.read]
          split <;> rfl
      · next hia =>
        simp only [Mem.read, ih (a + 1) hlo.2]
        by_cases hj : j = i
        · subst hj; simp [hia]
        · simp [hj]

/-- Bytes outside the written ones read as before. -/
theorem read_writeBytes_out {m : Mem} (h : m.wf = true) (a j : Nat) (bs : List Byte) (hj : j < a ∨ a + bs.length ≤ j) :
    (m.writeBytes a bs).read j = m.read j := by
  induction bs generalizing m a with
  | nil => rfl
  | cons b bs ih =>
    simp only [List.length_cons] at hj
    simp only [Mem.writeBytes]
    rw [ih (wf_write a b h) (a + 1) (by omega), read_write h, if_neg (by omega)]

/-- The written bytes read as written. -/
theorem read_writeBytes_in {m : Mem} (h : m.wf = true) (a k : Nat) (bs : List Byte) (hk : k < bs.length) :
    (m.writeBytes a bs).read (a + k) = bs[k] := by
  induction bs generalizing m a k with
  | nil => simp at hk
  | cons b bs ih =>
    simp only [Mem.writeBytes]
    cases k with
    | zero =>
      rw [read_writeBytes_out (wf_write a b h) (a + 1) (a + 0) bs (by omega), read_write h]
      simp
    | succ k =>
      have := ih (wf_write a b h) (a + 1) k (by simpa using hk)
      simpa [Nat.add_assoc, Nat.add_comm 1 k] using this

@[simp] theorem leBytes_length (n v : Nat) : (leBytes n v).length = n := by simp [leBytes]

/-- Bytes outside a written number read as before. -/
theorem read_writeN_out {m : Mem} (h : m.wf = true) (a v n j : Nat) (hj : j < a ∨ a + n ≤ j) :
    (m.writeN a v n).read j = m.read j :=
  read_writeBytes_out h a j _ (by simpa using hj)

/-- A number written reads back, as far as its bytes reach. -/
theorem readN_writeN {m : Mem} (h : m.wf = true) (a v n : Nat) : (m.writeN a v n).readN a n = v % 2 ^ (8 * n) := by
  have key : ∀ k, k ≤ n → (m.writeN a v n).readN (a + (n - k)) k = v / 2 ^ (8 * (n - k)) % 2 ^ (8 * k) := by
    intro k
    induction k with
    | zero => intro _; simp [Mem.readN, Nat.mod_one]
    | succ k ih =>
      intro hk
      have h1 := read_writeBytes_in h a (n - (k + 1)) (leBytes n v) (by simp; omega)
      have h2 := ih (by omega)
      have h3 : a + (n - (k + 1)) + 1 = a + (n - k) := by omega
      have h4 : 8 * (n - k) = 8 * (n - (k + 1)) + 8 := by omega
      have h5 : 8 * (k + 1) = 8 + 8 * k := by omega
      simp only [Mem.readN, Mem.writeN] at h1 h2 ⊢
      rw [h1, h3, h2, h4, h5, Nat.pow_add, Nat.pow_add, ← Nat.div_div_eq_div_mul, Nat.mod_mul]
      simp [leBytes]
  have := key n (Nat.le_refl n)
  simpa using this

/-- A cleared range reads 0, and every other byte as before. -/
theorem read_clear (m : Mem) (lo hi j : Nat) :
    (m.clear lo hi).read j = if lo ≤ j ∧ j < hi then 0 else m.read j := by
  induction m with
  | nil => simp [Mem.clear]
  | cons e m ih =>
    obtain ⟨a, b⟩ := e
    simp only [Mem.clear, List.filter_cons] at ih ⊢
    by_cases ha : lo ≤ a ∧ a < hi
    · have : (decide (a < lo) || decide (hi ≤ a)) = false := by simp; omega
      simp only [this, Bool.false_eq_true, if_false, ih]
      by_cases hj : j = a
      · subst hj; simp [ha]
      · simp [Mem.read, hj]
    · have : (decide (a < lo) || decide (hi ≤ a)) = true := by simp; omega
      simp only [this, if_true, Mem.read, ih]
      by_cases hj : j = a
      · subst hj; simp [ha]
      · simp [hj]

/-! ### Lists in order -/

theorem insertBy_perm {α : Type} (b : α → α → Bool) (x : α) (ys : List α) : (insertBy b x ys).Perm (x :: ys) := by
  induction ys with
  | nil => exact .refl _
  | cons y ys ih =>
    simp only [insertBy]
    split
    · exact .refl _
    · exact (ih.cons y).trans (.swap x y ys)

/-- Putting a list in order keeps its elements. -/
theorem sortBy_perm {α : Type} (b : α → α → Bool) (xs : List α) : (sortBy b xs).Perm xs := by
  induction xs with
  | nil => exact .refl _
  | cons x xs ih => exact (insertBy_perm b x _).trans (ih.cons x)

@[simp] theorem mem_sortBy {α : Type} (b : α → α → Bool) (xs : List α) (x : α) : x ∈ sortBy b xs ↔ x ∈ xs :=
  (sortBy_perm b xs).mem_iff

@[simp] theorem sortBy_nil {α : Type} (b : α → α → Bool) : sortBy b ([] : List α) = [] := rfl

@[simp] theorem sortBy_single {α : Type} (b : α → α → Bool) (x : α) : sortBy b [x] = [x] := rfl

end Sys2Proof.Laws
end

