-- ==== Sys2Proof/Laws/State.lean ====
section
/-! SUPPORT. What each named update of the state leaves as it was: one fact per field, all by computation. -/

namespace Sys2Proof.Laws

open Sys2Proof.Machine

/-- Scheduling: every field but `agenda` is as it was. -/
@[simp] theorem sched_frame (s : State) (a p : Nat) (d : Due) :
    (s.sched a p d).now = s.now ∧ (s.sched a p d).timeAdj = s.timeAdj ∧ (s.sched a p d).cur = s.cur ∧
    (s.sched a p d).row = s.row ∧ (s.sched a p d).arg = s.arg ∧ (s.sched a p d).freeCtr = s.freeCtr ∧
    (s.sched a p d).nextId = s.nextId ∧ (s.sched a p d).halted = s.halted ∧ (s.sched a p d).hbm = s.hbm ∧
    (s.sched a p d).hostMem = s.hostMem ∧ (s.sched a p d).scratch = s.scratch ∧ (s.sched a p d).code = s.code ∧
    (s.sched a p d).hbmKey = s.hbmKey ∧ (s.sched a p d).poison = s.poison ∧ (s.sched a p d).lines = s.lines ∧
    (s.sched a p d).vreg = s.vreg ∧ (s.sched a p d).sreg = s.sreg ∧ (s.sched a p d).preg = s.preg ∧
    (s.sched a p d).greg = s.greg ∧ (s.sched a p d).pend = s.pend ∧ (s.sched a p d).units = s.units ∧
    (s.sched a p d).groups = s.groups ∧ (s.sched a p d).teams = s.teams ∧ (s.sched a p d).kernels = s.kernels ∧
    (s.sched a p d).kernelOrder = s.kernelOrder ∧ (s.sched a p d).ops = s.ops ∧ (s.sched a p d).bankUse = s.bankUse ∧
    (s.sched a p d).claims = s.claims ∧ (s.sched a p d).cores = s.cores ∧ (s.sched a p d).engines = s.engines ∧
    (s.sched a p d).xlb = s.xlb ∧ (s.sched a p d).sds = s.sds ∧ (s.sched a p d).ctxs = s.ctxs ∧
    (s.sched a p d).queues = s.queues ∧ (s.sched a p d).dies = s.dies ∧ (s.sched a p d).heldFlags = s.heldFlags ∧
    (s.sched a p d).zones = s.zones ∧ (s.sched a p d).lays = s.lays ∧ (s.sched a p d).links = s.links ∧
    (s.sched a p d).gates = s.gates ∧ (s.sched a p d).peerFaults = s.peerFaults ∧ (s.sched a p d).chans = s.chans ∧
    (s.sched a p d).mgmtOwner = s.mgmtOwner ∧ (s.sched a p d).mgmtGen = s.mgmtGen ∧
    (s.sched a p d).mgmtPort = s.mgmtPort ∧ (s.sched a p d).podmask = s.podmask ∧ (s.sched a p d).modl = s.modl ∧
    (s.sched a p d).podOrigin = s.podOrigin ∧ (s.sched a p d).podStandby = s.podStandby ∧
    (s.sched a p d).originDie = s.originDie ∧ (s.sched a p d).errsel = s.errsel ∧ (s.sched a p d).uecnt = s.uecnt ∧
    (s.sched a p d).hsel = s.hsel ∧ (s.sched a p d).hrepStatus = s.hrepStatus ∧ (s.sched a p d).poolcfg = s.poolcfg ∧
    (s.sched a p d).pwrStatus = s.pwrStatus ∧ (s.sched a p d).plimit = s.plimit ∧ (s.sched a p d).pmeas = s.pmeas ∧
    (s.sched a p d).overPower = s.overPower ∧ (s.sched a p d).reductions = s.reductions ∧
    (s.sched a p d).nReduce = s.nReduce ∧ (s.sched a p d).alarmSt = s.alarmSt ∧ (s.sched a p d).alarmPol = s.alarmPol ∧
    (s.sched a p d).syncLost = s.syncLost ∧ (s.sched a p d).slewing = s.slewing ∧ (s.sched a p d).syncOff = s.syncOff ∧
    (s.sched a p d).syncEpisodes = s.syncEpisodes ∧ (s.sched a p d).announced = s.announced ∧
    (s.sched a p d).overSince = s.overSince ∧ (s.sched a p d).ibrum = s.ibrum ∧ (s.sched a p d).flash = s.flash ∧
    (s.sched a p d).powered = s.powered ∧ (s.sched a p d).out = s.out := by
  and_intros <;> rfl

/-- A free number taken: every field but `freeCtr` is as it was. -/
@[simp] theorem freeDelay_frame (s : State) :
    (s.freeDelay.2).now = s.now ∧ (s.freeDelay.2).timeAdj = s.timeAdj ∧ (s.freeDelay.2).agenda = s.agenda ∧
    (s.freeDelay.2).cur = s.cur ∧ (s.freeDelay.2).row = s.row ∧ (s.freeDelay.2).arg = s.arg ∧
    (s.freeDelay.2).nextId = s.nextId ∧ (s.freeDelay.2).halted = s.halted ∧ (s.freeDelay.2).hbm = s.hbm ∧
    (s.freeDelay.2).hostMem = s.hostMem ∧ (s.freeDelay.2).scratch = s.scratch ∧ (s.freeDelay.2).code = s.code ∧
    (s.freeDelay.2).hbmKey = s.hbmKey ∧ (s.freeDelay.2).poison = s.poison ∧ (s.freeDelay.2).lines = s.lines ∧
    (s.freeDelay.2).vreg = s.vreg ∧ (s.freeDelay.2).sreg = s.sreg ∧ (s.freeDelay.2).preg = s.preg ∧
    (s.freeDelay.2).greg = s.greg ∧ (s.freeDelay.2).pend = s.pend ∧ (s.freeDelay.2).units = s.units ∧
    (s.freeDelay.2).groups = s.groups ∧ (s.freeDelay.2).teams = s.teams ∧ (s.freeDelay.2).kernels = s.kernels ∧
    (s.freeDelay.2).kernelOrder = s.kernelOrder ∧ (s.freeDelay.2).ops = s.ops ∧ (s.freeDelay.2).bankUse = s.bankUse ∧
    (s.freeDelay.2).claims = s.claims ∧ (s.freeDelay.2).cores = s.cores ∧ (s.freeDelay.2).engines = s.engines ∧
    (s.freeDelay.2).xlb = s.xlb ∧ (s.freeDelay.2).sds = s.sds ∧ (s.freeDelay.2).ctxs = s.ctxs ∧
    (s.freeDelay.2).queues = s.queues ∧ (s.freeDelay.2).dies = s.dies ∧ (s.freeDelay.2).heldFlags = s.heldFlags ∧
    (s.freeDelay.2).zones = s.zones ∧ (s.freeDelay.2).lays = s.lays ∧ (s.freeDelay.2).links = s.links ∧
    (s.freeDelay.2).gates = s.gates ∧ (s.freeDelay.2).peerFaults = s.peerFaults ∧ (s.freeDelay.2).chans = s.chans ∧
    (s.freeDelay.2).mgmtOwner = s.mgmtOwner ∧ (s.freeDelay.2).mgmtGen = s.mgmtGen ∧
    (s.freeDelay.2).mgmtPort = s.mgmtPort ∧ (s.freeDelay.2).podmask = s.podmask ∧ (s.freeDelay.2).modl = s.modl ∧
    (s.freeDelay.2).podOrigin = s.podOrigin ∧ (s.freeDelay.2).podStandby = s.podStandby ∧
    (s.freeDelay.2).originDie = s.originDie ∧ (s.freeDelay.2).errsel = s.errsel ∧ (s.freeDelay.2).uecnt = s.uecnt ∧
    (s.freeDelay.2).hsel = s.hsel ∧ (s.freeDelay.2).hrepStatus = s.hrepStatus ∧ (s.freeDelay.2).poolcfg = s.poolcfg ∧
    (s.freeDelay.2).pwrStatus = s.pwrStatus ∧ (s.freeDelay.2).plimit = s.plimit ∧ (s.freeDelay.2).pmeas = s.pmeas ∧
    (s.freeDelay.2).overPower = s.overPower ∧ (s.freeDelay.2).reductions = s.reductions ∧
    (s.freeDelay.2).nReduce = s.nReduce ∧ (s.freeDelay.2).alarmSt = s.alarmSt ∧ (s.freeDelay.2).alarmPol = s.alarmPol ∧
    (s.freeDelay.2).syncLost = s.syncLost ∧ (s.freeDelay.2).slewing = s.slewing ∧ (s.freeDelay.2).syncOff = s.syncOff ∧
    (s.freeDelay.2).syncEpisodes = s.syncEpisodes ∧ (s.freeDelay.2).announced = s.announced ∧
    (s.freeDelay.2).overSince = s.overSince ∧ (s.freeDelay.2).ibrum = s.ibrum ∧ (s.freeDelay.2).flash = s.flash ∧
    (s.freeDelay.2).powered = s.powered ∧ (s.freeDelay.2).out = s.out := by
  and_intros <;> rfl

/-- A fresh number taken: every field but `nextId` is as it was. -/
@[simp] theorem fresh_frame (s : State) :
    (s.fresh.2).now = s.now ∧ (s.fresh.2).timeAdj = s.timeAdj ∧ (s.fresh.2).agenda = s.agenda ∧ (s.fresh.2).cur = s.cur ∧
    (s.fresh.2).row = s.row ∧ (s.fresh.2).arg = s.arg ∧ (s.fresh.2).freeCtr = s.freeCtr ∧ (s.fresh.2).halted = s.halted ∧
    (s.fresh.2).hbm = s.hbm ∧ (s.fresh.2).hostMem = s.hostMem ∧ (s.fresh.2).scratch = s.scratch ∧
    (s.fresh.2).code = s.code ∧ (s.fresh.2).hbmKey = s.hbmKey ∧ (s.fresh.2).poison = s.poison ∧
    (s.fresh.2).lines = s.lines ∧ (s.fresh.2).vreg = s.vreg ∧ (s.fresh.2).sreg = s.sreg ∧ (s.fresh.2).preg = s.preg ∧
    (s.fresh.2).greg = s.greg ∧ (s.fresh.2).pend = s.pend ∧ (s.fresh.2).units = s.units ∧ (s.fresh.2).groups = s.groups ∧
    (s.fresh.2).teams = s.teams ∧ (s.fresh.2).kernels = s.kernels ∧ (s.fresh.2).kernelOrder = s.kernelOrder ∧
    (s.fresh.2).ops = s.ops ∧ (s.fresh.2).bankUse = s.bankUse ∧ (s.fresh.2).claims = s.claims ∧
    (s.fresh.2).cores = s.cores ∧ (s.fresh.2).engines = s.engines ∧ (s.fresh.2).xlb = s.xlb ∧ (s.fresh.2).sds = s.sds ∧
    (s.fresh.2).ctxs = s.ctxs ∧ (s.fresh.2).queues = s.queues ∧ (s.fresh.2).dies = s.dies ∧
    (s.fresh.2).heldFlags = s.heldFlags ∧ (s.fresh.2).zones = s.zones ∧ (s.fresh.2).lays = s.lays ∧
    (s.fresh.2).links = s.links ∧ (s.fresh.2).gates = s.gates ∧ (s.fresh.2).peerFaults = s.peerFaults ∧
    (s.fresh.2).chans = s.chans ∧ (s.fresh.2).mgmtOwner = s.mgmtOwner ∧ (s.fresh.2).mgmtGen = s.mgmtGen ∧
    (s.fresh.2).mgmtPort = s.mgmtPort ∧ (s.fresh.2).podmask = s.podmask ∧ (s.fresh.2).modl = s.modl ∧
    (s.fresh.2).podOrigin = s.podOrigin ∧ (s.fresh.2).podStandby = s.podStandby ∧ (s.fresh.2).originDie = s.originDie ∧
    (s.fresh.2).errsel = s.errsel ∧ (s.fresh.2).uecnt = s.uecnt ∧ (s.fresh.2).hsel = s.hsel ∧
    (s.fresh.2).hrepStatus = s.hrepStatus ∧ (s.fresh.2).poolcfg = s.poolcfg ∧ (s.fresh.2).pwrStatus = s.pwrStatus ∧
    (s.fresh.2).plimit = s.plimit ∧ (s.fresh.2).pmeas = s.pmeas ∧ (s.fresh.2).overPower = s.overPower ∧
    (s.fresh.2).reductions = s.reductions ∧ (s.fresh.2).nReduce = s.nReduce ∧ (s.fresh.2).alarmSt = s.alarmSt ∧
    (s.fresh.2).alarmPol = s.alarmPol ∧ (s.fresh.2).syncLost = s.syncLost ∧ (s.fresh.2).slewing = s.slewing ∧
    (s.fresh.2).syncOff = s.syncOff ∧ (s.fresh.2).syncEpisodes = s.syncEpisodes ∧ (s.fresh.2).announced = s.announced ∧
    (s.fresh.2).overSince = s.overSince ∧ (s.fresh.2).ibrum = s.ibrum ∧ (s.fresh.2).flash = s.flash ∧
    (s.fresh.2).powered = s.powered ∧ (s.fresh.2).out = s.out := by
  and_intros <;> rfl

/-- A message sent: every field but `out` is as it was. -/
@[simp] theorem send_frame (s : State) (m : OutMsg) :
    (s.send m).now = s.now ∧ (s.send m).timeAdj = s.timeAdj ∧ (s.send m).agenda = s.agenda ∧ (s.send m).cur = s.cur ∧
    (s.send m).row = s.row ∧ (s.send m).arg = s.arg ∧ (s.send m).freeCtr = s.freeCtr ∧ (s.send m).nextId = s.nextId ∧
    (s.send m).halted = s.halted ∧ (s.send m).hbm = s.hbm ∧ (s.send m).hostMem = s.hostMem ∧
    (s.send m).scratch = s.scratch ∧ (s.send m).code = s.code ∧ (s.send m).hbmKey = s.hbmKey ∧
    (s.send m).poison = s.poison ∧ (s.send m).lines = s.lines ∧ (s.send m).vreg = s.vreg ∧ (s.send m).sreg = s.sreg ∧
    (s.send m).preg = s.preg ∧ (s.send m).greg = s.greg ∧ (s.send m).pend = s.pend ∧ (s.send m).units = s.units ∧
    (s.send m).groups = s.groups ∧ (s.send m).teams = s.teams ∧ (s.send m).kernels = s.kernels ∧
    (s.send m).kernelOrder = s.kernelOrder ∧ (s.send m).ops = s.ops ∧ (s.send m).bankUse = s.bankUse ∧
    (s.send m).claims = s.claims ∧ (s.send m).cores = s.cores ∧ (s.send m).engines = s.engines ∧ (s.send m).xlb = s.xlb ∧
    (s.send m).sds = s.sds ∧ (s.send m).ctxs = s.ctxs ∧ (s.send m).queues = s.queues ∧ (s.send m).dies = s.dies ∧
    (s.send m).heldFlags = s.heldFlags ∧ (s.send m).zones = s.zones ∧ (s.send m).lays = s.lays ∧
    (s.send m).links = s.links ∧ (s.send m).gates = s.gates ∧ (s.send m).peerFaults = s.peerFaults ∧
    (s.send m).chans = s.chans ∧ (s.send m).mgmtOwner = s.mgmtOwner ∧ (s.send m).mgmtGen = s.mgmtGen ∧
    (s.send m).mgmtPort = s.mgmtPort ∧ (s.send m).podmask = s.podmask ∧ (s.send m).modl = s.modl ∧
    (s.send m).podOrigin = s.podOrigin ∧ (s.send m).podStandby = s.podStandby ∧ (s.send m).originDie = s.originDie ∧
    (s.send m).errsel = s.errsel ∧ (s.send m).uecnt = s.uecnt ∧ (s.send m).hsel = s.hsel ∧
    (s.send m).hrepStatus = s.hrepStatus ∧ (s.send m).poolcfg = s.poolcfg ∧ (s.send m).pwrStatus = s.pwrStatus ∧
    (s.send m).plimit = s.plimit ∧ (s.send m).pmeas = s.pmeas ∧ (s.send m).overPower = s.overPower ∧
    (s.send m).reductions = s.reductions ∧ (s.send m).nReduce = s.nReduce ∧ (s.send m).alarmSt = s.alarmSt ∧
    (s.send m).alarmPol = s.alarmPol ∧ (s.send m).syncLost = s.syncLost ∧ (s.send m).slewing = s.slewing ∧
    (s.send m).syncOff = s.syncOff ∧ (s.send m).syncEpisodes = s.syncEpisodes ∧ (s.send m).announced = s.announced ∧
    (s.send m).overSince = s.overSince ∧ (s.send m).ibrum = s.ibrum ∧ (s.send m).flash = s.flash ∧
    (s.send m).powered = s.powered := by
  and_intros <;> rfl

/-- A unit changed: every field but `units` is as it was. -/
@[simp] theorem modUnit_frame (s : State) (u : UnitId) (f : ExecUnit → ExecUnit) :
    (s.modUnit u f).now = s.now ∧ (s.modUnit u f).timeAdj = s.timeAdj ∧ (s.modUnit u f).agenda = s.agenda ∧
    (s.modUnit u f).cur = s.cur ∧ (s.modUnit u f).row = s.row ∧ (s.modUnit u f).arg = s.arg ∧
    (s.modUnit u f).freeCtr = s.freeCtr ∧ (s.modUnit u f).nextId = s.nextId ∧ (s.modUnit u f).halted = s.halted ∧
    (s.modUnit u f).hbm = s.hbm ∧ (s.modUnit u f).hostMem = s.hostMem ∧ (s.modUnit u f).scratch = s.scratch ∧
    (s.modUnit u f).code = s.code ∧ (s.modUnit u f).hbmKey = s.hbmKey ∧ (s.modUnit u f).poison = s.poison ∧
    (s.modUnit u f).lines = s.lines ∧ (s.modUnit u f).vreg = s.vreg ∧ (s.modUnit u f).sreg = s.sreg ∧
    (s.modUnit u f).preg = s.preg ∧ (s.modUnit u f).greg = s.greg ∧ (s.modUnit u f).pend = s.pend ∧
    (s.modUnit u f).groups = s.groups ∧ (s.modUnit u f).teams = s.teams ∧ (s.modUnit u f).kernels = s.kernels ∧
    (s.modUnit u f).kernelOrder = s.kernelOrder ∧ (s.modUnit u f).ops = s.ops ∧ (s.modUnit u f).bankUse = s.bankUse ∧
    (s.modUnit u f).claims = s.claims ∧ (s.modUnit u f).cores = s.cores ∧ (s.modUnit u f).engines = s.engines ∧
    (s.modUnit u f).xlb = s.xlb ∧ (s.modUnit u f).sds = s.sds ∧ (s.modUnit u f).ctxs = s.ctxs ∧
    (s.modUnit u f).queues = s.queues ∧ (s.modUnit u f).dies = s.dies ∧ (s.modUnit u f).heldFlags = s.heldFlags ∧
    (s.modUnit u f).zones = s.zones ∧ (s.modUnit u f).lays = s.lays ∧ (s.modUnit u f).links = s.links ∧
    (s.modUnit u f).gates = s.gates ∧ (s.modUnit u f).peerFaults = s.peerFaults ∧ (s.modUnit u f).chans = s.chans ∧
    (s.modUnit u f).mgmtOwner = s.mgmtOwner ∧ (s.modUnit u f).mgmtGen = s.mgmtGen ∧
    (s.modUnit u f).mgmtPort = s.mgmtPort ∧ (s.modUnit u f).podmask = s.podmask ∧ (s.modUnit u f).modl = s.modl ∧
    (s.modUnit u f).podOrigin = s.podOrigin ∧ (s.modUnit u f).podStandby = s.podStandby ∧
    (s.modUnit u f).originDie = s.originDie ∧ (s.modUnit u f).errsel = s.errsel ∧ (s.modUnit u f).uecnt = s.uecnt ∧
    (s.modUnit u f).hsel = s.hsel ∧ (s.modUnit u f).hrepStatus = s.hrepStatus ∧ (s.modUnit u f).poolcfg = s.poolcfg ∧
    (s.modUnit u f).pwrStatus = s.pwrStatus ∧ (s.modUnit u f).plimit = s.plimit ∧ (s.modUnit u f).pmeas = s.pmeas ∧
    (s.modUnit u f).overPower = s.overPower ∧ (s.modUnit u f).reductions = s.reductions ∧
    (s.modUnit u f).nReduce = s.nReduce ∧ (s.modUnit u f).alarmSt = s.alarmSt ∧ (s.modUnit u f).alarmPol = s.alarmPol ∧
    (s.modUnit u f).syncLost = s.syncLost ∧ (s.modUnit u f).slewing = s.slewing ∧ (s.modUnit u f).syncOff = s.syncOff ∧
    (s.modUnit u f).syncEpisodes = s.syncEpisodes ∧ (s.modUnit u f).announced = s.announced ∧
    (s.modUnit u f).overSince = s.overSince ∧ (s.modUnit u f).ibrum = s.ibrum ∧ (s.modUnit u f).flash = s.flash ∧
    (s.modUnit u f).powered = s.powered ∧ (s.modUnit u f).out = s.out := by
  and_intros <;> rfl

/-- A group changed: every field but `groups` is as it was. -/
@[simp] theorem modGroup_frame (s : State) (g : Nat) (f : Group → Group) :
    (s.modGroup g f).now = s.now ∧ (s.modGroup g f).timeAdj = s.timeAdj ∧ (s.modGroup g f).agenda = s.agenda ∧
    (s.modGroup g f).cur = s.cur ∧ (s.modGroup g f).row = s.row ∧ (s.modGroup g f).arg = s.arg ∧
    (s.modGroup g f).freeCtr = s.freeCtr ∧ (s.modGroup g f).nextId = s.nextId ∧ (s.modGroup g f).halted = s.halted ∧
    (s.modGroup g f).hbm = s.hbm ∧ (s.modGroup g f).hostMem = s.hostMem ∧ (s.modGroup g f).scratch = s.scratch ∧
    (s.modGroup g f).code = s.code ∧ (s.modGroup g f).hbmKey = s.hbmKey ∧ (s.modGroup g f).poison = s.poison ∧
    (s.modGroup g f).lines = s.lines ∧ (s.modGroup g f).vreg = s.vreg ∧ (s.modGroup g f).sreg = s.sreg ∧
    (s.modGroup g f).preg = s.preg ∧ (s.modGroup g f).greg = s.greg ∧ (s.modGroup g f).pend = s.pend ∧
    (s.modGroup g f).units = s.units ∧ (s.modGroup g f).teams = s.teams ∧ (s.modGroup g f).kernels = s.kernels ∧
    (s.modGroup g f).kernelOrder = s.kernelOrder ∧ (s.modGroup g f).ops = s.ops ∧ (s.modGroup g f).bankUse = s.bankUse ∧
    (s.modGroup g f).claims = s.claims ∧ (s.modGroup g f).cores = s.cores ∧ (s.modGroup g f).engines = s.engines ∧
    (s.modGroup g f).xlb = s.xlb ∧ (s.modGroup g f).sds = s.sds ∧ (s.modGroup g f).ctxs = s.ctxs ∧
    (s.modGroup g f).queues = s.queues ∧ (s.modGroup g f).dies = s.dies ∧ (s.modGroup g f).heldFlags = s.heldFlags ∧
    (s.modGroup g f).zones = s.zones ∧ (s.modGroup g f).lays = s.lays ∧ (s.modGroup g f).links = s.links ∧
    (s.modGroup g f).gates = s.gates ∧ (s.modGroup g f).peerFaults = s.peerFaults ∧ (s.modGroup g f).chans = s.chans ∧
    (s.modGroup g f).mgmtOwner = s.mgmtOwner ∧ (s.modGroup g f).mgmtGen = s.mgmtGen ∧
    (s.modGroup g f).mgmtPort = s.mgmtPort ∧ (s.modGroup g f).podmask = s.podmask ∧ (s.modGroup g f).modl = s.modl ∧
    (s.modGroup g f).podOrigin = s.podOrigin ∧ (s.modGroup g f).podStandby = s.podStandby ∧
    (s.modGroup g f).originDie = s.originDie ∧ (s.modGroup g f).errsel = s.errsel ∧ (s.modGroup g f).uecnt = s.uecnt ∧
    (s.modGroup g f).hsel = s.hsel ∧ (s.modGroup g f).hrepStatus = s.hrepStatus ∧ (s.modGroup g f).poolcfg = s.poolcfg ∧
    (s.modGroup g f).pwrStatus = s.pwrStatus ∧ (s.modGroup g f).plimit = s.plimit ∧ (s.modGroup g f).pmeas = s.pmeas ∧
    (s.modGroup g f).overPower = s.overPower ∧ (s.modGroup g f).reductions = s.reductions ∧
    (s.modGroup g f).nReduce = s.nReduce ∧ (s.modGroup g f).alarmSt = s.alarmSt ∧
    (s.modGroup g f).alarmPol = s.alarmPol ∧ (s.modGroup g f).syncLost = s.syncLost ∧
    (s.modGroup g f).slewing = s.slewing ∧ (s.modGroup g f).syncOff = s.syncOff ∧
    (s.modGroup g f).syncEpisodes = s.syncEpisodes ∧ (s.modGroup g f).announced = s.announced ∧
    (s.modGroup g f).overSince = s.overSince ∧ (s.modGroup g f).ibrum = s.ibrum ∧ (s.modGroup g f).flash = s.flash ∧
    (s.modGroup g f).powered = s.powered ∧ (s.modGroup g f).out = s.out := by
  and_intros <;> rfl

/-- A team changed: every field but `teams` is as it was. -/
@[simp] theorem modTeam_frame (s : State) (t : Nat) (f : Team → Team) :
    (s.modTeam t f).now = s.now ∧ (s.modTeam t f).timeAdj = s.timeAdj ∧ (s.modTeam t f).agenda = s.agenda ∧
    (s.modTeam t f).cur = s.cur ∧ (s.modTeam t f).row = s.row ∧ (s.modTeam t f).arg = s.arg ∧
    (s.modTeam t f).freeCtr = s.freeCtr ∧ (s.modTeam t f).nextId = s.nextId ∧ (s.modTeam t f).halted = s.halted ∧
    (s.modTeam t f).hbm = s.hbm ∧ (s.modTeam t f).hostMem = s.hostMem ∧ (s.modTeam t f).scratch = s.scratch ∧
    (s.modTeam t f).code = s.code ∧ (s.modTeam t f).hbmKey = s.hbmKey ∧ (s.modTeam t f).poison = s.poison ∧
    (s.modTeam t f).lines = s.lines ∧ (s.modTeam t f).vreg = s.vreg ∧ (s.modTeam t f).sreg = s.sreg ∧
    (s.modTeam t f).preg = s.preg ∧ (s.modTeam t f).greg = s.greg ∧ (s.modTeam t f).pend = s.pend ∧
    (s.modTeam t f).units = s.units ∧ (s.modTeam t f).groups = s.groups ∧ (s.modTeam t f).kernels = s.kernels ∧
    (s.modTeam t f).kernelOrder = s.kernelOrder ∧ (s.modTeam t f).ops = s.ops ∧ (s.modTeam t f).bankUse = s.bankUse ∧
    (s.modTeam t f).claims = s.claims ∧ (s.modTeam t f).cores = s.cores ∧ (s.modTeam t f).engines = s.engines ∧
    (s.modTeam t f).xlb = s.xlb ∧ (s.modTeam t f).sds = s.sds ∧ (s.modTeam t f).ctxs = s.ctxs ∧
    (s.modTeam t f).queues = s.queues ∧ (s.modTeam t f).dies = s.dies ∧ (s.modTeam t f).heldFlags = s.heldFlags ∧
    (s.modTeam t f).zones = s.zones ∧ (s.modTeam t f).lays = s.lays ∧ (s.modTeam t f).links = s.links ∧
    (s.modTeam t f).gates = s.gates ∧ (s.modTeam t f).peerFaults = s.peerFaults ∧ (s.modTeam t f).chans = s.chans ∧
    (s.modTeam t f).mgmtOwner = s.mgmtOwner ∧ (s.modTeam t f).mgmtGen = s.mgmtGen ∧
    (s.modTeam t f).mgmtPort = s.mgmtPort ∧ (s.modTeam t f).podmask = s.podmask ∧ (s.modTeam t f).modl = s.modl ∧
    (s.modTeam t f).podOrigin = s.podOrigin ∧ (s.modTeam t f).podStandby = s.podStandby ∧
    (s.modTeam t f).originDie = s.originDie ∧ (s.modTeam t f).errsel = s.errsel ∧ (s.modTeam t f).uecnt = s.uecnt ∧
    (s.modTeam t f).hsel = s.hsel ∧ (s.modTeam t f).hrepStatus = s.hrepStatus ∧ (s.modTeam t f).poolcfg = s.poolcfg ∧
    (s.modTeam t f).pwrStatus = s.pwrStatus ∧ (s.modTeam t f).plimit = s.plimit ∧ (s.modTeam t f).pmeas = s.pmeas ∧
    (s.modTeam t f).overPower = s.overPower ∧ (s.modTeam t f).reductions = s.reductions ∧
    (s.modTeam t f).nReduce = s.nReduce ∧ (s.modTeam t f).alarmSt = s.alarmSt ∧ (s.modTeam t f).alarmPol = s.alarmPol ∧
    (s.modTeam t f).syncLost = s.syncLost ∧ (s.modTeam t f).slewing = s.slewing ∧ (s.modTeam t f).syncOff = s.syncOff ∧
    (s.modTeam t f).syncEpisodes = s.syncEpisodes ∧ (s.modTeam t f).announced = s.announced ∧
    (s.modTeam t f).overSince = s.overSince ∧ (s.modTeam t f).ibrum = s.ibrum ∧ (s.modTeam t f).flash = s.flash ∧
    (s.modTeam t f).powered = s.powered ∧ (s.modTeam t f).out = s.out := by
  and_intros <;> rfl

/-- A kernel changed: every field but `kernels` is as it was. -/
@[simp] theorem modKernel_frame (s : State) (k : Nat) (f : Kernel → Kernel) :
    (s.modKernel k f).now = s.now ∧ (s.modKernel k f).timeAdj = s.timeAdj ∧ (s.modKernel k f).agenda = s.agenda ∧
    (s.modKernel k f).cur = s.cur ∧ (s.modKernel k f).row = s.row ∧ (s.modKernel k f).arg = s.arg ∧
    (s.modKernel k f).freeCtr = s.freeCtr ∧ (s.modKernel k f).nextId = s.nextId ∧ (s.modKernel k f).halted = s.halted ∧
    (s.modKernel k f).hbm = s.hbm ∧ (s.modKernel k f).hostMem = s.hostMem ∧ (s.modKernel k f).scratch = s.scratch ∧
    (s.modKernel k f).code = s.code ∧ (s.modKernel k f).hbmKey = s.hbmKey ∧ (s.modKernel k f).poison = s.poison ∧
    (s.modKernel k f).lines = s.lines ∧ (s.modKernel k f).vreg = s.vreg ∧ (s.modKernel k f).sreg = s.sreg ∧
    (s.modKernel k f).preg = s.preg ∧ (s.modKernel k f).greg = s.greg ∧ (s.modKernel k f).pend = s.pend ∧
    (s.modKernel k f).units = s.units ∧ (s.modKernel k f).groups = s.groups ∧ (s.modKernel k f).teams = s.teams ∧
    (s.modKernel k f).kernelOrder = s.kernelOrder ∧ (s.modKernel k f).ops = s.ops ∧
    (s.modKernel k f).bankUse = s.bankUse ∧ (s.modKernel k f).claims = s.claims ∧ (s.modKernel k f).cores = s.cores ∧
    (s.modKernel k f).engines = s.engines ∧ (s.modKernel k f).xlb = s.xlb ∧ (s.modKernel k f).sds = s.sds ∧
    (s.modKernel k f).ctxs = s.ctxs ∧ (s.modKernel k f).queues = s.queues ∧ (s.modKernel k f).dies = s.dies ∧
    (s.modKernel k f).heldFlags = s.heldFlags ∧ (s.modKernel k f).zones = s.zones ∧ (s.modKernel k f).lays = s.lays ∧
    (s.modKernel k f).links = s.links ∧ (s.modKernel k f).gates = s.gates ∧ (s.modKernel k f).peerFaults = s.peerFaults ∧
    (s.modKernel k f).chans = s.chans ∧ (s.modKernel k f).mgmtOwner = s.mgmtOwner ∧
    (s.modKernel k f).mgmtGen = s.mgmtGen ∧ (s.modKernel k f).mgmtPort = s.mgmtPort ∧
    (s.modKernel k f).podmask = s.podmask ∧ (s.modKernel k f).modl = s.modl ∧ (s.modKernel k f).podOrigin = s.podOrigin ∧
    (s.modKernel k f).podStandby = s.podStandby ∧ (s.modKernel k f).originDie = s.originDie ∧
    (s.modKernel k f).errsel = s.errsel ∧ (s.modKernel k f).uecnt = s.uecnt ∧ (s.modKernel k f).hsel = s.hsel ∧
    (s.modKernel k f).hrepStatus = s.hrepStatus ∧ (s.modKernel k f).poolcfg = s.poolcfg ∧
    (s.modKernel k f).pwrStatus = s.pwrStatus ∧ (s.modKernel k f).plimit = s.plimit ∧ (s.modKernel k f).pmeas = s.pmeas ∧
    (s.modKernel k f).overPower = s.overPower ∧ (s.modKernel k f).reductions = s.reductions ∧
    (s.modKernel k f).nReduce = s.nReduce ∧ (s.modKernel k f).alarmSt = s.alarmSt ∧
    (s.modKernel k f).alarmPol = s.alarmPol ∧ (s.modKernel k f).syncLost = s.syncLost ∧
    (s.modKernel k f).slewing = s.slewing ∧ (s.modKernel k f).syncOff = s.syncOff ∧
    (s.modKernel k f).syncEpisodes = s.syncEpisodes ∧ (s.modKernel k f).announced = s.announced ∧
    (s.modKernel k f).overSince = s.overSince ∧ (s.modKernel k f).ibrum = s.ibrum ∧ (s.modKernel k f).flash = s.flash ∧
    (s.modKernel k f).powered = s.powered ∧ (s.modKernel k f).out = s.out := by
  and_intros <;> rfl

/-- An operation changed: every field but `ops` is as it was. -/
@[simp] theorem modOp_frame (s : State) (o : Nat) (f : Op → Op) :
    (s.modOp o f).now = s.now ∧ (s.modOp o f).timeAdj = s.timeAdj ∧ (s.modOp o f).agenda = s.agenda ∧
    (s.modOp o f).cur = s.cur ∧ (s.modOp o f).row = s.row ∧ (s.modOp o f).arg = s.arg ∧
    (s.modOp o f).freeCtr = s.freeCtr ∧ (s.modOp o f).nextId = s.nextId ∧ (s.modOp o f).halted = s.halted ∧
    (s.modOp o f).hbm = s.hbm ∧ (s.modOp o f).hostMem = s.hostMem ∧ (s.modOp o f).scratch = s.scratch ∧
    (s.modOp o f).code = s.code ∧ (s.modOp o f).hbmKey = s.hbmKey ∧ (s.modOp o f).poison = s.poison ∧
    (s.modOp o f).lines = s.lines ∧ (s.modOp o f).vreg = s.vreg ∧ (s.modOp o f).sreg = s.sreg ∧
    (s.modOp o f).preg = s.preg ∧ (s.modOp o f).greg = s.greg ∧ (s.modOp o f).pend = s.pend ∧
    (s.modOp o f).units = s.units ∧ (s.modOp o f).groups = s.groups ∧ (s.modOp o f).teams = s.teams ∧
    (s.modOp o f).kernels = s.kernels ∧ (s.modOp o f).kernelOrder = s.kernelOrder ∧ (s.modOp o f).bankUse = s.bankUse ∧
    (s.modOp o f).claims = s.claims ∧ (s.modOp o f).cores = s.cores ∧ (s.modOp o f).engines = s.engines ∧
    (s.modOp o f).xlb = s.xlb ∧ (s.modOp o f).sds = s.sds ∧ (s.modOp o f).ctxs = s.ctxs ∧
    (s.modOp o f).queues = s.queues ∧ (s.modOp o f).dies = s.dies ∧ (s.modOp o f).heldFlags = s.heldFlags ∧
    (s.modOp o f).zones = s.zones ∧ (s.modOp o f).lays = s.lays ∧ (s.modOp o f).links = s.links ∧
    (s.modOp o f).gates = s.gates ∧ (s.modOp o f).peerFaults = s.peerFaults ∧ (s.modOp o f).chans = s.chans ∧
    (s.modOp o f).mgmtOwner = s.mgmtOwner ∧ (s.modOp o f).mgmtGen = s.mgmtGen ∧ (s.modOp o f).mgmtPort = s.mgmtPort ∧
    (s.modOp o f).podmask = s.podmask ∧ (s.modOp o f).modl = s.modl ∧ (s.modOp o f).podOrigin = s.podOrigin ∧
    (s.modOp o f).podStandby = s.podStandby ∧ (s.modOp o f).originDie = s.originDie ∧ (s.modOp o f).errsel = s.errsel ∧
    (s.modOp o f).uecnt = s.uecnt ∧ (s.modOp o f).hsel = s.hsel ∧ (s.modOp o f).hrepStatus = s.hrepStatus ∧
    (s.modOp o f).poolcfg = s.poolcfg ∧ (s.modOp o f).pwrStatus = s.pwrStatus ∧ (s.modOp o f).plimit = s.plimit ∧
    (s.modOp o f).pmeas = s.pmeas ∧ (s.modOp o f).overPower = s.overPower ∧ (s.modOp o f).reductions = s.reductions ∧
    (s.modOp o f).nReduce = s.nReduce ∧ (s.modOp o f).alarmSt = s.alarmSt ∧ (s.modOp o f).alarmPol = s.alarmPol ∧
    (s.modOp o f).syncLost = s.syncLost ∧ (s.modOp o f).slewing = s.slewing ∧ (s.modOp o f).syncOff = s.syncOff ∧
    (s.modOp o f).syncEpisodes = s.syncEpisodes ∧ (s.modOp o f).announced = s.announced ∧
    (s.modOp o f).overSince = s.overSince ∧ (s.modOp o f).ibrum = s.ibrum ∧ (s.modOp o f).flash = s.flash ∧
    (s.modOp o f).powered = s.powered ∧ (s.modOp o f).out = s.out := by
  and_intros <;> rfl

/-- An operation added: every field but `ops` is as it was. -/
@[simp] theorem addOp_frame (s : State) (o : Op) :
    (s.addOp o).now = s.now ∧ (s.addOp o).timeAdj = s.timeAdj ∧ (s.addOp o).agenda = s.agenda ∧ (s.addOp o).cur = s.cur ∧
    (s.addOp o).row = s.row ∧ (s.addOp o).arg = s.arg ∧ (s.addOp o).freeCtr = s.freeCtr ∧ (s.addOp o).nextId = s.nextId ∧
    (s.addOp o).halted = s.halted ∧ (s.addOp o).hbm = s.hbm ∧ (s.addOp o).hostMem = s.hostMem ∧
    (s.addOp o).scratch = s.scratch ∧ (s.addOp o).code = s.code ∧ (s.addOp o).hbmKey = s.hbmKey ∧
    (s.addOp o).poison = s.poison ∧ (s.addOp o).lines = s.lines ∧ (s.addOp o).vreg = s.vreg ∧ (s.addOp o).sreg = s.sreg ∧
    (s.addOp o).preg = s.preg ∧ (s.addOp o).greg = s.greg ∧ (s.addOp o).pend = s.pend ∧ (s.addOp o).units = s.units ∧
    (s.addOp o).groups = s.groups ∧ (s.addOp o).teams = s.teams ∧ (s.addOp o).kernels = s.kernels ∧
    (s.addOp o).kernelOrder = s.kernelOrder ∧ (s.addOp o).bankUse = s.bankUse ∧ (s.addOp o).claims = s.claims ∧
    (s.addOp o).cores = s.cores ∧ (s.addOp o).engines = s.engines ∧ (s.addOp o).xlb = s.xlb ∧ (s.addOp o).sds = s.sds ∧
    (s.addOp o).ctxs = s.ctxs ∧ (s.addOp o).queues = s.queues ∧ (s.addOp o).dies = s.dies ∧
    (s.addOp o).heldFlags = s.heldFlags ∧ (s.addOp o).zones = s.zones ∧ (s.addOp o).lays = s.lays ∧
    (s.addOp o).links = s.links ∧ (s.addOp o).gates = s.gates ∧ (s.addOp o).peerFaults = s.peerFaults ∧
    (s.addOp o).chans = s.chans ∧ (s.addOp o).mgmtOwner = s.mgmtOwner ∧ (s.addOp o).mgmtGen = s.mgmtGen ∧
    (s.addOp o).mgmtPort = s.mgmtPort ∧ (s.addOp o).podmask = s.podmask ∧ (s.addOp o).modl = s.modl ∧
    (s.addOp o).podOrigin = s.podOrigin ∧ (s.addOp o).podStandby = s.podStandby ∧ (s.addOp o).originDie = s.originDie ∧
    (s.addOp o).errsel = s.errsel ∧ (s.addOp o).uecnt = s.uecnt ∧ (s.addOp o).hsel = s.hsel ∧
    (s.addOp o).hrepStatus = s.hrepStatus ∧ (s.addOp o).poolcfg = s.poolcfg ∧ (s.addOp o).pwrStatus = s.pwrStatus ∧
    (s.addOp o).plimit = s.plimit ∧ (s.addOp o).pmeas = s.pmeas ∧ (s.addOp o).overPower = s.overPower ∧
    (s.addOp o).reductions = s.reductions ∧ (s.addOp o).nReduce = s.nReduce ∧ (s.addOp o).alarmSt = s.alarmSt ∧
    (s.addOp o).alarmPol = s.alarmPol ∧ (s.addOp o).syncLost = s.syncLost ∧ (s.addOp o).slewing = s.slewing ∧
    (s.addOp o).syncOff = s.syncOff ∧ (s.addOp o).syncEpisodes = s.syncEpisodes ∧ (s.addOp o).announced = s.announced ∧
    (s.addOp o).overSince = s.overSince ∧ (s.addOp o).ibrum = s.ibrum ∧ (s.addOp o).flash = s.flash ∧
    (s.addOp o).powered = s.powered ∧ (s.addOp o).out = s.out := by
  and_intros <;> rfl

/-- A context changed: every field but `ctxs` is as it was. -/
@[simp] theorem modCtx_frame (s : State) (c : Nat) (f : Context → Context) :
    (s.modCtx c f).now = s.now ∧ (s.modCtx c f).timeAdj = s.timeAdj ∧ (s.modCtx c f).agenda = s.agenda ∧
    (s.modCtx c f).cur = s.cur ∧ (s.modCtx c f).row = s.row ∧ (s.modCtx c f).arg = s.arg ∧
    (s.modCtx c f).freeCtr = s.freeCtr ∧ (s.modCtx c f).nextId = s.nextId ∧ (s.modCtx c f).halted = s.halted ∧
    (s.modCtx c f).hbm = s.hbm ∧ (s.modCtx c f).hostMem = s.hostMem ∧ (s.modCtx c f).scratch = s.scratch ∧
    (s.modCtx c f).code = s.code ∧ (s.modCtx c f).hbmKey = s.hbmKey ∧ (s.modCtx c f).poison = s.poison ∧
    (s.modCtx c f).lines = s.lines ∧ (s.modCtx c f).vreg = s.vreg ∧ (s.modCtx c f).sreg = s.sreg ∧
    (s.modCtx c f).preg = s.preg ∧ (s.modCtx c f).greg = s.greg ∧ (s.modCtx c f).pend = s.pend ∧
    (s.modCtx c f).units = s.units ∧ (s.modCtx c f).groups = s.groups ∧ (s.modCtx c f).teams = s.teams ∧
    (s.modCtx c f).kernels = s.kernels ∧ (s.modCtx c f).kernelOrder = s.kernelOrder ∧ (s.modCtx c f).ops = s.ops ∧
    (s.modCtx c f).bankUse = s.bankUse ∧ (s.modCtx c f).claims = s.claims ∧ (s.modCtx c f).cores = s.cores ∧
    (s.modCtx c f).engines = s.engines ∧ (s.modCtx c f).xlb = s.xlb ∧ (s.modCtx c f).sds = s.sds ∧
    (s.modCtx c f).queues = s.queues ∧ (s.modCtx c f).dies = s.dies ∧ (s.modCtx c f).heldFlags = s.heldFlags ∧
    (s.modCtx c f).zones = s.zones ∧ (s.modCtx c f).lays = s.lays ∧ (s.modCtx c f).links = s.links ∧
    (s.modCtx c f).gates = s.gates ∧ (s.modCtx c f).peerFaults = s.peerFaults ∧ (s.modCtx c f).chans = s.chans ∧
    (s.modCtx c f).mgmtOwner = s.mgmtOwner ∧ (s.modCtx c f).mgmtGen = s.mgmtGen ∧ (s.modCtx c f).mgmtPort = s.mgmtPort ∧
    (s.modCtx c f).podmask = s.podmask ∧ (s.modCtx c f).modl = s.modl ∧ (s.modCtx c f).podOrigin = s.podOrigin ∧
    (s.modCtx c f).podStandby = s.podStandby ∧ (s.modCtx c f).originDie = s.originDie ∧
    (s.modCtx c f).errsel = s.errsel ∧ (s.modCtx c f).uecnt = s.uecnt ∧ (s.modCtx c f).hsel = s.hsel ∧
    (s.modCtx c f).hrepStatus = s.hrepStatus ∧ (s.modCtx c f).poolcfg = s.poolcfg ∧
    (s.modCtx c f).pwrStatus = s.pwrStatus ∧ (s.modCtx c f).plimit = s.plimit ∧ (s.modCtx c f).pmeas = s.pmeas ∧
    (s.modCtx c f).overPower = s.overPower ∧ (s.modCtx c f).reductions = s.reductions ∧
    (s.modCtx c f).nReduce = s.nReduce ∧ (s.modCtx c f).alarmSt = s.alarmSt ∧ (s.modCtx c f).alarmPol = s.alarmPol ∧
    (s.modCtx c f).syncLost = s.syncLost ∧ (s.modCtx c f).slewing = s.slewing ∧ (s.modCtx c f).syncOff = s.syncOff ∧
    (s.modCtx c f).syncEpisodes = s.syncEpisodes ∧ (s.modCtx c f).announced = s.announced ∧
    (s.modCtx c f).overSince = s.overSince ∧ (s.modCtx c f).ibrum = s.ibrum ∧ (s.modCtx c f).flash = s.flash ∧
    (s.modCtx c f).powered = s.powered ∧ (s.modCtx c f).out = s.out := by
  and_intros <;> rfl

/-- A queue changed: every field but `queues` is as it was. -/
@[simp] theorem modQueue_frame (s : State) (q : Nat) (f : Queue → Queue) :
    (s.modQueue q f).now = s.now ∧ (s.modQueue q f).timeAdj = s.timeAdj ∧ (s.modQueue q f).agenda = s.agenda ∧
    (s.modQueue q f).cur = s.cur ∧ (s.modQueue q f).row = s.row ∧ (s.modQueue q f).arg = s.arg ∧
    (s.modQueue q f).freeCtr = s.freeCtr ∧ (s.modQueue q f).nextId = s.nextId ∧ (s.modQueue q f).halted = s.halted ∧
    (s.modQueue q f).hbm = s.hbm ∧ (s.modQueue q f).hostMem = s.hostMem ∧ (s.modQueue q f).scratch = s.scratch ∧
    (s.modQueue q f).code = s.code ∧ (s.modQueue q f).hbmKey = s.hbmKey ∧ (s.modQueue q f).poison = s.poison ∧
    (s.modQueue q f).lines = s.lines ∧ (s.modQueue q f).vreg = s.vreg ∧ (s.modQueue q f).sreg = s.sreg ∧
    (s.modQueue q f).preg = s.preg ∧ (s.modQueue q f).greg = s.greg ∧ (s.modQueue q f).pend = s.pend ∧
    (s.modQueue q f).units = s.units ∧ (s.modQueue q f).groups = s.groups ∧ (s.modQueue q f).teams = s.teams ∧
    (s.modQueue q f).kernels = s.kernels ∧ (s.modQueue q f).kernelOrder = s.kernelOrder ∧ (s.modQueue q f).ops = s.ops ∧
    (s.modQueue q f).bankUse = s.bankUse ∧ (s.modQueue q f).claims = s.claims ∧ (s.modQueue q f).cores = s.cores ∧
    (s.modQueue q f).engines = s.engines ∧ (s.modQueue q f).xlb = s.xlb ∧ (s.modQueue q f).sds = s.sds ∧
    (s.modQueue q f).ctxs = s.ctxs ∧ (s.modQueue q f).dies = s.dies ∧ (s.modQueue q f).heldFlags = s.heldFlags ∧
    (s.modQueue q f).zones = s.zones ∧ (s.modQueue q f).lays = s.lays ∧ (s.modQueue q f).links = s.links ∧
    (s.modQueue q f).gates = s.gates ∧ (s.modQueue q f).peerFaults = s.peerFaults ∧ (s.modQueue q f).chans = s.chans ∧
    (s.modQueue q f).mgmtOwner = s.mgmtOwner ∧ (s.modQueue q f).mgmtGen = s.mgmtGen ∧
    (s.modQueue q f).mgmtPort = s.mgmtPort ∧ (s.modQueue q f).podmask = s.podmask ∧ (s.modQueue q f).modl = s.modl ∧
    (s.modQueue q f).podOrigin = s.podOrigin ∧ (s.modQueue q f).podStandby = s.podStandby ∧
    (s.modQueue q f).originDie = s.originDie ∧ (s.modQueue q f).errsel = s.errsel ∧ (s.modQueue q f).uecnt = s.uecnt ∧
    (s.modQueue q f).hsel = s.hsel ∧ (s.modQueue q f).hrepStatus = s.hrepStatus ∧ (s.modQueue q f).poolcfg = s.poolcfg ∧
    (s.modQueue q f).pwrStatus = s.pwrStatus ∧ (s.modQueue q f).plimit = s.plimit ∧ (s.modQueue q f).pmeas = s.pmeas ∧
    (s.modQueue q f).overPower = s.overPower ∧ (s.modQueue q f).reductions = s.reductions ∧
    (s.modQueue q f).nReduce = s.nReduce ∧ (s.modQueue q f).alarmSt = s.alarmSt ∧
    (s.modQueue q f).alarmPol = s.alarmPol ∧ (s.modQueue q f).syncLost = s.syncLost ∧
    (s.modQueue q f).slewing = s.slewing ∧ (s.modQueue q f).syncOff = s.syncOff ∧
    (s.modQueue q f).syncEpisodes = s.syncEpisodes ∧ (s.modQueue q f).announced = s.announced ∧
    (s.modQueue q f).overSince = s.overSince ∧ (s.modQueue q f).ibrum = s.ibrum ∧ (s.modQueue q f).flash = s.flash ∧
    (s.modQueue q f).powered = s.powered ∧ (s.modQueue q f).out = s.out := by
  and_intros <;> rfl

/-- A lay changed: every field but `lays` is as it was. -/
@[simp] theorem modLay_frame (s : State) (l : Nat) (f : Lay → Lay) :
    (s.modLay l f).now = s.now ∧ (s.modLay l f).timeAdj = s.timeAdj ∧ (s.modLay l f).agenda = s.agenda ∧
    (s.modLay l f).cur = s.cur ∧ (s.modLay l f).row = s.row ∧ (s.modLay l f).arg = s.arg ∧
    (s.modLay l f).freeCtr = s.freeCtr ∧ (s.modLay l f).nextId = s.nextId ∧ (s.modLay l f).halted = s.halted ∧
    (s.modLay l f).hbm = s.hbm ∧ (s.modLay l f).hostMem = s.hostMem ∧ (s.modLay l f).scratch = s.scratch ∧
    (s.modLay l f).code = s.code ∧ (s.modLay l f).hbmKey = s.hbmKey ∧ (s.modLay l f).poison = s.poison ∧
    (s.modLay l f).lines = s.lines ∧ (s.modLay l f).vreg = s.vreg ∧ (s.modLay l f).sreg = s.sreg ∧
    (s.modLay l f).preg = s.preg ∧ (s.modLay l f).greg = s.greg ∧ (s.modLay l f).pend = s.pend ∧
    (s.modLay l f).units = s.units ∧ (s.modLay l f).groups = s.groups ∧ (s.modLay l f).teams = s.teams ∧
    (s.modLay l f).kernels = s.kernels ∧ (s.modLay l f).kernelOrder = s.kernelOrder ∧ (s.modLay l f).ops = s.ops ∧
    (s.modLay l f).bankUse = s.bankUse ∧ (s.modLay l f).claims = s.claims ∧ (s.modLay l f).cores = s.cores ∧
    (s.modLay l f).engines = s.engines ∧ (s.modLay l f).xlb = s.xlb ∧ (s.modLay l f).sds = s.sds ∧
    (s.modLay l f).ctxs = s.ctxs ∧ (s.modLay l f).queues = s.queues ∧ (s.modLay l f).dies = s.dies ∧
    (s.modLay l f).heldFlags = s.heldFlags ∧ (s.modLay l f).zones = s.zones ∧ (s.modLay l f).links = s.links ∧
    (s.modLay l f).gates = s.gates ∧ (s.modLay l f).peerFaults = s.peerFaults ∧ (s.modLay l f).chans = s.chans ∧
    (s.modLay l f).mgmtOwner = s.mgmtOwner ∧ (s.modLay l f).mgmtGen = s.mgmtGen ∧ (s.modLay l f).mgmtPort = s.mgmtPort ∧
    (s.modLay l f).podmask = s.podmask ∧ (s.modLay l f).modl = s.modl ∧ (s.modLay l f).podOrigin = s.podOrigin ∧
    (s.modLay l f).podStandby = s.podStandby ∧ (s.modLay l f).originDie = s.originDie ∧
    (s.modLay l f).errsel = s.errsel ∧ (s.modLay l f).uecnt = s.uecnt ∧ (s.modLay l f).hsel = s.hsel ∧
    (s.modLay l f).hrepStatus = s.hrepStatus ∧ (s.modLay l f).poolcfg = s.poolcfg ∧
    (s.modLay l f).pwrStatus = s.pwrStatus ∧ (s.modLay l f).plimit = s.plimit ∧ (s.modLay l f).pmeas = s.pmeas ∧
    (s.modLay l f).overPower = s.overPower ∧ (s.modLay l f).reductions = s.reductions ∧
    (s.modLay l f).nReduce = s.nReduce ∧ (s.modLay l f).alarmSt = s.alarmSt ∧ (s.modLay l f).alarmPol = s.alarmPol ∧
    (s.modLay l f).syncLost = s.syncLost ∧ (s.modLay l f).slewing = s.slewing ∧ (s.modLay l f).syncOff = s.syncOff ∧
    (s.modLay l f).syncEpisodes = s.syncEpisodes ∧ (s.modLay l f).announced = s.announced ∧
    (s.modLay l f).overSince = s.overSince ∧ (s.modLay l f).ibrum = s.ibrum ∧ (s.modLay l f).flash = s.flash ∧
    (s.modLay l f).powered = s.powered ∧ (s.modLay l f).out = s.out := by
  and_intros <;> rfl

/-- A die changed: every field but `dies` is as it was. -/
@[simp] theorem modDie_frame (s : State) (d : Nat) (f : Die → Die) :
    (s.modDie d f).now = s.now ∧ (s.modDie d f).timeAdj = s.timeAdj ∧ (s.modDie d f).agenda = s.agenda ∧
    (s.modDie d f).cur = s.cur ∧ (s.modDie d f).row = s.row ∧ (s.modDie d f).arg = s.arg ∧
    (s.modDie d f).freeCtr = s.freeCtr ∧ (s.modDie d f).nextId = s.nextId ∧ (s.modDie d f).halted = s.halted ∧
    (s.modDie d f).hbm = s.hbm ∧ (s.modDie d f).hostMem = s.hostMem ∧ (s.modDie d f).scratch = s.scratch ∧
    (s.modDie d f).code = s.code ∧ (s.modDie d f).hbmKey = s.hbmKey ∧ (s.modDie d f).poison = s.poison ∧
    (s.modDie d f).lines = s.lines ∧ (s.modDie d f).vreg = s.vreg ∧ (s.modDie d f).sreg = s.sreg ∧
    (s.modDie d f).preg = s.preg ∧ (s.modDie d f).greg = s.greg ∧ (s.modDie d f).pend = s.pend ∧
    (s.modDie d f).units = s.units ∧ (s.modDie d f).groups = s.groups ∧ (s.modDie d f).teams = s.teams ∧
    (s.modDie d f).kernels = s.kernels ∧ (s.modDie d f).kernelOrder = s.kernelOrder ∧ (s.modDie d f).ops = s.ops ∧
    (s.modDie d f).bankUse = s.bankUse ∧ (s.modDie d f).claims = s.claims ∧ (s.modDie d f).cores = s.cores ∧
    (s.modDie d f).engines = s.engines ∧ (s.modDie d f).xlb = s.xlb ∧ (s.modDie d f).sds = s.sds ∧
    (s.modDie d f).ctxs = s.ctxs ∧ (s.modDie d f).queues = s.queues ∧ (s.modDie d f).heldFlags = s.heldFlags ∧
    (s.modDie d f).zones = s.zones ∧ (s.modDie d f).lays = s.lays ∧ (s.modDie d f).links = s.links ∧
    (s.modDie d f).gates = s.gates ∧ (s.modDie d f).peerFaults = s.peerFaults ∧ (s.modDie d f).chans = s.chans ∧
    (s.modDie d f).mgmtOwner = s.mgmtOwner ∧ (s.modDie d f).mgmtGen = s.mgmtGen ∧ (s.modDie d f).mgmtPort = s.mgmtPort ∧
    (s.modDie d f).podmask = s.podmask ∧ (s.modDie d f).modl = s.modl ∧ (s.modDie d f).podOrigin = s.podOrigin ∧
    (s.modDie d f).podStandby = s.podStandby ∧ (s.modDie d f).originDie = s.originDie ∧
    (s.modDie d f).errsel = s.errsel ∧ (s.modDie d f).uecnt = s.uecnt ∧ (s.modDie d f).hsel = s.hsel ∧
    (s.modDie d f).hrepStatus = s.hrepStatus ∧ (s.modDie d f).poolcfg = s.poolcfg ∧
    (s.modDie d f).pwrStatus = s.pwrStatus ∧ (s.modDie d f).plimit = s.plimit ∧ (s.modDie d f).pmeas = s.pmeas ∧
    (s.modDie d f).overPower = s.overPower ∧ (s.modDie d f).reductions = s.reductions ∧
    (s.modDie d f).nReduce = s.nReduce ∧ (s.modDie d f).alarmSt = s.alarmSt ∧ (s.modDie d f).alarmPol = s.alarmPol ∧
    (s.modDie d f).syncLost = s.syncLost ∧ (s.modDie d f).slewing = s.slewing ∧ (s.modDie d f).syncOff = s.syncOff ∧
    (s.modDie d f).syncEpisodes = s.syncEpisodes ∧ (s.modDie d f).announced = s.announced ∧
    (s.modDie d f).overSince = s.overSince ∧ (s.modDie d f).ibrum = s.ibrum ∧ (s.modDie d f).flash = s.flash ∧
    (s.modDie d f).powered = s.powered ∧ (s.modDie d f).out = s.out := by
  and_intros <;> rfl

/-- A core changed: every field but `cores` is as it was. -/
@[simp] theorem modCore_frame (s : State) (d c : Nat) (f : CoreRec → CoreRec) :
    (s.modCore d c f).now = s.now ∧ (s.modCore d c f).timeAdj = s.timeAdj ∧ (s.modCore d c f).agenda = s.agenda ∧
    (s.modCore d c f).cur = s.cur ∧ (s.modCore d c f).row = s.row ∧ (s.modCore d c f).arg = s.arg ∧
    (s.modCore d c f).freeCtr = s.freeCtr ∧ (s.modCore d c f).nextId = s.nextId ∧ (s.modCore d c f).halted = s.halted ∧
    (s.modCore d c f).hbm = s.hbm ∧ (s.modCore d c f).hostMem = s.hostMem ∧ (s.modCore d c f).scratch = s.scratch ∧
    (s.modCore d c f).code = s.code ∧ (s.modCore d c f).hbmKey = s.hbmKey ∧ (s.modCore d c f).poison = s.poison ∧
    (s.modCore d c f).lines = s.lines ∧ (s.modCore d c f).vreg = s.vreg ∧ (s.modCore d c f).sreg = s.sreg ∧
    (s.modCore d c f).preg = s.preg ∧ (s.modCore d c f).greg = s.greg ∧ (s.modCore d c f).pend = s.pend ∧
    (s.modCore d c f).units = s.units ∧ (s.modCore d c f).groups = s.groups ∧ (s.modCore d c f).teams = s.teams ∧
    (s.modCore d c f).kernels = s.kernels ∧ (s.modCore d c f).kernelOrder = s.kernelOrder ∧
    (s.modCore d c f).ops = s.ops ∧ (s.modCore d c f).bankUse = s.bankUse ∧ (s.modCore d c f).claims = s.claims ∧
    (s.modCore d c f).engines = s.engines ∧ (s.modCore d c f).xlb = s.xlb ∧ (s.modCore d c f).sds = s.sds ∧
    (s.modCore d c f).ctxs = s.ctxs ∧ (s.modCore d c f).queues = s.queues ∧ (s.modCore d c f).dies = s.dies ∧
    (s.modCore d c f).heldFlags = s.heldFlags ∧ (s.modCore d c f).zones = s.zones ∧ (s.modCore d c f).lays = s.lays ∧
    (s.modCore d c f).links = s.links ∧ (s.modCore d c f).gates = s.gates ∧ (s.modCore d c f).peerFaults = s.peerFaults ∧
    (s.modCore d c f).chans = s.chans ∧ (s.modCore d c f).mgmtOwner = s.mgmtOwner ∧
    (s.modCore d c f).mgmtGen = s.mgmtGen ∧ (s.modCore d c f).mgmtPort = s.mgmtPort ∧
    (s.modCore d c f).podmask = s.podmask ∧ (s.modCore d c f).modl = s.modl ∧ (s.modCore d c f).podOrigin = s.podOrigin ∧
    (s.modCore d c f).podStandby = s.podStandby ∧ (s.modCore d c f).originDie = s.originDie ∧
    (s.modCore d c f).errsel = s.errsel ∧ (s.modCore d c f).uecnt = s.uecnt ∧ (s.modCore d c f).hsel = s.hsel ∧
    (s.modCore d c f).hrepStatus = s.hrepStatus ∧ (s.modCore d c f).poolcfg = s.poolcfg ∧
    (s.modCore d c f).pwrStatus = s.pwrStatus ∧ (s.modCore d c f).plimit = s.plimit ∧ (s.modCore d c f).pmeas = s.pmeas ∧
    (s.modCore d c f).overPower = s.overPower ∧ (s.modCore d c f).reductions = s.reductions ∧
    (s.modCore d c f).nReduce = s.nReduce ∧ (s.modCore d c f).alarmSt = s.alarmSt ∧
    (s.modCore d c f).alarmPol = s.alarmPol ∧ (s.modCore d c f).syncLost = s.syncLost ∧
    (s.modCore d c f).slewing = s.slewing ∧ (s.modCore d c f).syncOff = s.syncOff ∧
    (s.modCore d c f).syncEpisodes = s.syncEpisodes ∧ (s.modCore d c f).announced = s.announced ∧
    (s.modCore d c f).overSince = s.overSince ∧ (s.modCore d c f).ibrum = s.ibrum ∧ (s.modCore d c f).flash = s.flash ∧
    (s.modCore d c f).powered = s.powered ∧ (s.modCore d c f).out = s.out := by
  and_intros <;> rfl

/-- An engine changed: every field but `engines` is as it was. -/
@[simp] theorem modEngine_frame (s : State) (d q : Nat) (f : Engine → Engine) :
    (s.modEngine d q f).now = s.now ∧ (s.modEngine d q f).timeAdj = s.timeAdj ∧ (s.modEngine d q f).agenda = s.agenda ∧
    (s.modEngine d q f).cur = s.cur ∧ (s.modEngine d q f).row = s.row ∧ (s.modEngine d q f).arg = s.arg ∧
    (s.modEngine d q f).freeCtr = s.freeCtr ∧ (s.modEngine d q f).nextId = s.nextId ∧
    (s.modEngine d q f).halted = s.halted ∧ (s.modEngine d q f).hbm = s.hbm ∧ (s.modEngine d q f).hostMem = s.hostMem ∧
    (s.modEngine d q f).scratch = s.scratch ∧ (s.modEngine d q f).code = s.code ∧ (s.modEngine d q f).hbmKey = s.hbmKey ∧
    (s.modEngine d q f).poison = s.poison ∧ (s.modEngine d q f).lines = s.lines ∧ (s.modEngine d q f).vreg = s.vreg ∧
    (s.modEngine d q f).sreg = s.sreg ∧ (s.modEngine d q f).preg = s.preg ∧ (s.modEngine d q f).greg = s.greg ∧
    (s.modEngine d q f).pend = s.pend ∧ (s.modEngine d q f).units = s.units ∧ (s.modEngine d q f).groups = s.groups ∧
    (s.modEngine d q f).teams = s.teams ∧ (s.modEngine d q f).kernels = s.kernels ∧
    (s.modEngine d q f).kernelOrder = s.kernelOrder ∧ (s.modEngine d q f).ops = s.ops ∧
    (s.modEngine d q f).bankUse = s.bankUse ∧ (s.modEngine d q f).claims = s.claims ∧
    (s.modEngine d q f).cores = s.cores ∧ (s.modEngine d q f).xlb = s.xlb ∧ (s.modEngine d q f).sds = s.sds ∧
    (s.modEngine d q f).ctxs = s.ctxs ∧ (s.modEngine d q f).queues = s.queues ∧ (s.modEngine d q f).dies = s.dies ∧
    (s.modEngine d q f).heldFlags = s.heldFlags ∧ (s.modEngine d q f).zones = s.zones ∧
    (s.modEngine d q f).lays = s.lays ∧ (s.modEngine d q f).links = s.links ∧ (s.modEngine d q f).gates = s.gates ∧
    (s.modEngine d q f).peerFaults = s.peerFaults ∧ (s.modEngine d q f).chans = s.chans ∧
    (s.modEngine d q f).mgmtOwner = s.mgmtOwner ∧ (s.modEngine d q f).mgmtGen = s.mgmtGen ∧
    (s.modEngine d q f).mgmtPort = s.mgmtPort ∧ (s.modEngine d q f).podmask = s.podmask ∧
    (s.modEngine d q f).modl = s.modl ∧ (s.modEngine d q f).podOrigin = s.podOrigin ∧
    (s.modEngine d q f).podStandby = s.podStandby ∧ (s.modEngine d q f).originDie = s.originDie ∧
    (s.modEngine d q f).errsel = s.errsel ∧ (s.modEngine d q f).uecnt = s.uecnt ∧ (s.modEngine d q f).hsel = s.hsel ∧
    (s.modEngine d q f).hrepStatus = s.hrepStatus ∧ (s.modEngine d q f).poolcfg = s.poolcfg ∧
    (s.modEngine d q f).pwrStatus = s.pwrStatus ∧ (s.modEngine d q f).plimit = s.plimit ∧
    (s.modEngine d q f).pmeas = s.pmeas ∧ (s.modEngine d q f).overPower = s.overPower ∧
    (s.modEngine d q f).reductions = s.reductions ∧ (s.modEngine d q f).nReduce = s.nReduce ∧
    (s.modEngine d q f).alarmSt = s.alarmSt ∧ (s.modEngine d q f).alarmPol = s.alarmPol ∧
    (s.modEngine d q f).syncLost = s.syncLost ∧ (s.modEngine d q f).slewing = s.slewing ∧
    (s.modEngine d q f).syncOff = s.syncOff ∧ (s.modEngine d q f).syncEpisodes = s.syncEpisodes ∧
    (s.modEngine d q f).announced = s.announced ∧ (s.modEngine d q f).overSince = s.overSince ∧
    (s.modEngine d q f).ibrum = s.ibrum ∧ (s.modEngine d q f).flash = s.flash ∧ (s.modEngine d q f).powered = s.powered ∧
    (s.modEngine d q f).out = s.out := by
  and_intros <;> rfl

/-- A zone changed: every field but `zones` is as it was. -/
@[simp] theorem modZone_frame (s : State) (z : Nat) (f : Zone → Zone) :
    (s.modZone z f).now = s.now ∧ (s.modZone z f).timeAdj = s.timeAdj ∧ (s.modZone z f).agenda = s.agenda ∧
    (s.modZone z f).cur = s.cur ∧ (s.modZone z f).row = s.row ∧ (s.modZone z f).arg = s.arg ∧
    (s.modZone z f).freeCtr = s.freeCtr ∧ (s.modZone z f).nextId = s.nextId ∧ (s.modZone z f).halted = s.halted ∧
    (s.modZone z f).hbm = s.hbm ∧ (s.modZone z f).hostMem = s.hostMem ∧ (s.modZone z f).scratch = s.scratch ∧
    (s.modZone z f).code = s.code ∧ (s.modZone z f).hbmKey = s.hbmKey ∧ (s.modZone z f).poison = s.poison ∧
    (s.modZone z f).lines = s.lines ∧ (s.modZone z f).vreg = s.vreg ∧ (s.modZone z f).sreg = s.sreg ∧
    (s.modZone z f).preg = s.preg ∧ (s.modZone z f).greg = s.greg ∧ (s.modZone z f).pend = s.pend ∧
    (s.modZone z f).units = s.units ∧ (s.modZone z f).groups = s.groups ∧ (s.modZone z f).teams = s.teams ∧
    (s.modZone z f).kernels = s.kernels ∧ (s.modZone z f).kernelOrder = s.kernelOrder ∧ (s.modZone z f).ops = s.ops ∧
    (s.modZone z f).bankUse = s.bankUse ∧ (s.modZone z f).claims = s.claims ∧ (s.modZone z f).cores = s.cores ∧
    (s.modZone z f).engines = s.engines ∧ (s.modZone z f).xlb = s.xlb ∧ (s.modZone z f).sds = s.sds ∧
    (s.modZone z f).ctxs = s.ctxs ∧ (s.modZone z f).queues = s.queues ∧ (s.modZone z f).dies = s.dies ∧
    (s.modZone z f).heldFlags = s.heldFlags ∧ (s.modZone z f).lays = s.lays ∧ (s.modZone z f).links = s.links ∧
    (s.modZone z f).gates = s.gates ∧ (s.modZone z f).peerFaults = s.peerFaults ∧ (s.modZone z f).chans = s.chans ∧
    (s.modZone z f).mgmtOwner = s.mgmtOwner ∧ (s.modZone z f).mgmtGen = s.mgmtGen ∧
    (s.modZone z f).mgmtPort = s.mgmtPort ∧ (s.modZone z f).podmask = s.podmask ∧ (s.modZone z f).modl = s.modl ∧
    (s.modZone z f).podOrigin = s.podOrigin ∧ (s.modZone z f).podStandby = s.podStandby ∧
    (s.modZone z f).originDie = s.originDie ∧ (s.modZone z f).errsel = s.errsel ∧ (s.modZone z f).uecnt = s.uecnt ∧
    (s.modZone z f).hsel = s.hsel ∧ (s.modZone z f).hrepStatus = s.hrepStatus ∧ (s.modZone z f).poolcfg = s.poolcfg ∧
    (s.modZone z f).pwrStatus = s.pwrStatus ∧ (s.modZone z f).plimit = s.plimit ∧ (s.modZone z f).pmeas = s.pmeas ∧
    (s.modZone z f).overPower = s.overPower ∧ (s.modZone z f).reductions = s.reductions ∧
    (s.modZone z f).nReduce = s.nReduce ∧ (s.modZone z f).alarmSt = s.alarmSt ∧ (s.modZone z f).alarmPol = s.alarmPol ∧
    (s.modZone z f).syncLost = s.syncLost ∧ (s.modZone z f).slewing = s.slewing ∧ (s.modZone z f).syncOff = s.syncOff ∧
    (s.modZone z f).syncEpisodes = s.syncEpisodes ∧ (s.modZone z f).announced = s.announced ∧
    (s.modZone z f).overSince = s.overSince ∧ (s.modZone z f).ibrum = s.ibrum ∧ (s.modZone z f).flash = s.flash ∧
    (s.modZone z f).powered = s.powered ∧ (s.modZone z f).out = s.out := by
  and_intros <;> rfl

/-- A link changed: every field but `links` is as it was. -/
@[simp] theorem modLink_frame (s : State) (d l : Nat) (f : LinkRec → LinkRec) :
    (s.modLink d l f).now = s.now ∧ (s.modLink d l f).timeAdj = s.timeAdj ∧ (s.modLink d l f).agenda = s.agenda ∧
    (s.modLink d l f).cur = s.cur ∧ (s.modLink d l f).row = s.row ∧ (s.modLink d l f).arg = s.arg ∧
    (s.modLink d l f).freeCtr = s.freeCtr ∧ (s.modLink d l f).nextId = s.nextId ∧ (s.modLink d l f).halted = s.halted ∧
    (s.modLink d l f).hbm = s.hbm ∧ (s.modLink d l f).hostMem = s.hostMem ∧ (s.modLink d l f).scratch = s.scratch ∧
    (s.modLink d l f).code = s.code ∧ (s.modLink d l f).hbmKey = s.hbmKey ∧ (s.modLink d l f).poison = s.poison ∧
    (s.modLink d l f).lines = s.lines ∧ (s.modLink d l f).vreg = s.vreg ∧ (s.modLink d l f).sreg = s.sreg ∧
    (s.modLink d l f).preg = s.preg ∧ (s.modLink d l f).greg = s.greg ∧ (s.modLink d l f).pend = s.pend ∧
    (s.modLink d l f).units = s.units ∧ (s.modLink d l f).groups = s.groups ∧ (s.modLink d l f).teams = s.teams ∧
    (s.modLink d l f).kernels = s.kernels ∧ (s.modLink d l f).kernelOrder = s.kernelOrder ∧
    (s.modLink d l f).ops = s.ops ∧ (s.modLink d l f).bankUse = s.bankUse ∧ (s.modLink d l f).claims = s.claims ∧
    (s.modLink d l f).cores = s.cores ∧ (s.modLink d l f).engines = s.engines ∧ (s.modLink d l f).xlb = s.xlb ∧
    (s.modLink d l f).sds = s.sds ∧ (s.modLink d l f).ctxs = s.ctxs ∧ (s.modLink d l f).queues = s.queues ∧
    (s.modLink d l f).dies = s.dies ∧ (s.modLink d l f).heldFlags = s.heldFlags ∧ (s.modLink d l f).zones = s.zones ∧
    (s.modLink d l f).lays = s.lays ∧ (s.modLink d l f).gates = s.gates ∧ (s.modLink d l f).peerFaults = s.peerFaults ∧
    (s.modLink d l f).chans = s.chans ∧ (s.modLink d l f).mgmtOwner = s.mgmtOwner ∧
    (s.modLink d l f).mgmtGen = s.mgmtGen ∧ (s.modLink d l f).mgmtPort = s.mgmtPort ∧
    (s.modLink d l f).podmask = s.podmask ∧ (s.modLink d l f).modl = s.modl ∧ (s.modLink d l f).podOrigin = s.podOrigin ∧
    (s.modLink d l f).podStandby = s.podStandby ∧ (s.modLink d l f).originDie = s.originDie ∧
    (s.modLink d l f).errsel = s.errsel ∧ (s.modLink d l f).uecnt = s.uecnt ∧ (s.modLink d l f).hsel = s.hsel ∧
    (s.modLink d l f).hrepStatus = s.hrepStatus ∧ (s.modLink d l f).poolcfg = s.poolcfg ∧
    (s.modLink d l f).pwrStatus = s.pwrStatus ∧ (s.modLink d l f).plimit = s.plimit ∧ (s.modLink d l f).pmeas = s.pmeas ∧
    (s.modLink d l f).overPower = s.overPower ∧ (s.modLink d l f).reductions = s.reductions ∧
    (s.modLink d l f).nReduce = s.nReduce ∧ (s.modLink d l f).alarmSt = s.alarmSt ∧
    (s.modLink d l f).alarmPol = s.alarmPol ∧ (s.modLink d l f).syncLost = s.syncLost ∧
    (s.modLink d l f).slewing = s.slewing ∧ (s.modLink d l f).syncOff = s.syncOff ∧
    (s.modLink d l f).syncEpisodes = s.syncEpisodes ∧ (s.modLink d l f).announced = s.announced ∧
    (s.modLink d l f).overSince = s.overSince ∧ (s.modLink d l f).ibrum = s.ibrum ∧ (s.modLink d l f).flash = s.flash ∧
    (s.modLink d l f).powered = s.powered ∧ (s.modLink d l f).out = s.out := by
  and_intros <;> rfl

/-- A channel changed: every field but `chans` is as it was. -/
@[simp] theorem modChan_frame (s : State) (d c : Nat) (f : Chan → Chan) :
    (s.modChan d c f).now = s.now ∧ (s.modChan d c f).timeAdj = s.timeAdj ∧ (s.modChan d c f).agenda = s.agenda ∧
    (s.modChan d c f).cur = s.cur ∧ (s.modChan d c f).row = s.row ∧ (s.modChan d c f).arg = s.arg ∧
    (s.modChan d c f).freeCtr = s.freeCtr ∧ (s.modChan d c f).nextId = s.nextId ∧ (s.modChan d c f).halted = s.halted ∧
    (s.modChan d c f).hbm = s.hbm ∧ (s.modChan d c f).hostMem = s.hostMem ∧ (s.modChan d c f).scratch = s.scratch ∧
    (s.modChan d c f).code = s.code ∧ (s.modChan d c f).hbmKey = s.hbmKey ∧ (s.modChan d c f).poison = s.poison ∧
    (s.modChan d c f).lines = s.lines ∧ (s.modChan d c f).vreg = s.vreg ∧ (s.modChan d c f).sreg = s.sreg ∧
    (s.modChan d c f).preg = s.preg ∧ (s.modChan d c f).greg = s.greg ∧ (s.modChan d c f).pend = s.pend ∧
    (s.modChan d c f).units = s.units ∧ (s.modChan d c f).groups = s.groups ∧ (s.modChan d c f).teams = s.teams ∧
    (s.modChan d c f).kernels = s.kernels ∧ (s.modChan d c f).kernelOrder = s.kernelOrder ∧
    (s.modChan d c f).ops = s.ops ∧ (s.modChan d c f).bankUse = s.bankUse ∧ (s.modChan d c f).claims = s.claims ∧
    (s.modChan d c f).cores = s.cores ∧ (s.modChan d c f).engines = s.engines ∧ (s.modChan d c f).xlb = s.xlb ∧
    (s.modChan d c f).sds = s.sds ∧ (s.modChan d c f).ctxs = s.ctxs ∧ (s.modChan d c f).queues = s.queues ∧
    (s.modChan d c f).dies = s.dies ∧ (s.modChan d c f).heldFlags = s.heldFlags ∧ (s.modChan d c f).zones = s.zones ∧
    (s.modChan d c f).lays = s.lays ∧ (s.modChan d c f).links = s.links ∧ (s.modChan d c f).gates = s.gates ∧
    (s.modChan d c f).peerFaults = s.peerFaults ∧ (s.modChan d c f).mgmtOwner = s.mgmtOwner ∧
    (s.modChan d c f).mgmtGen = s.mgmtGen ∧ (s.modChan d c f).mgmtPort = s.mgmtPort ∧
    (s.modChan d c f).podmask = s.podmask ∧ (s.modChan d c f).modl = s.modl ∧ (s.modChan d c f).podOrigin = s.podOrigin ∧
    (s.modChan d c f).podStandby = s.podStandby ∧ (s.modChan d c f).originDie = s.originDie ∧
    (s.modChan d c f).errsel = s.errsel ∧ (s.modChan d c f).uecnt = s.uecnt ∧ (s.modChan d c f).hsel = s.hsel ∧
    (s.modChan d c f).hrepStatus = s.hrepStatus ∧ (s.modChan d c f).poolcfg = s.poolcfg ∧
    (s.modChan d c f).pwrStatus = s.pwrStatus ∧ (s.modChan d c f).plimit = s.plimit ∧ (s.modChan d c f).pmeas = s.pmeas ∧
    (s.modChan d c f).overPower = s.overPower ∧ (s.modChan d c f).reductions = s.reductions ∧
    (s.modChan d c f).nReduce = s.nReduce ∧ (s.modChan d c f).alarmSt = s.alarmSt ∧
    (s.modChan d c f).alarmPol = s.alarmPol ∧ (s.modChan d c f).syncLost = s.syncLost ∧
    (s.modChan d c f).slewing = s.slewing ∧ (s.modChan d c f).syncOff = s.syncOff ∧
    (s.modChan d c f).syncEpisodes = s.syncEpisodes ∧ (s.modChan d c f).announced = s.announced ∧
    (s.modChan d c f).overSince = s.overSince ∧ (s.modChan d c f).ibrum = s.ibrum ∧ (s.modChan d c f).flash = s.flash ∧
    (s.modChan d c f).powered = s.powered ∧ (s.modChan d c f).out = s.out := by
  and_intros <;> rfl

/-- A counter changed: every field but `groups` is as it was. -/
@[simp] theorem kChange_frame (s : State) (g : Nat) (c : KChange) :
    (s.kChange g c).now = s.now ∧ (s.kChange g c).timeAdj = s.timeAdj ∧ (s.kChange g c).agenda = s.agenda ∧
    (s.kChange g c).cur = s.cur ∧ (s.kChange g c).row = s.row ∧ (s.kChange g c).arg = s.arg ∧
    (s.kChange g c).freeCtr = s.freeCtr ∧ (s.kChange g c).nextId = s.nextId ∧ (s.kChange g c).halted = s.halted ∧
    (s.kChange g c).hbm = s.hbm ∧ (s.kChange g c).hostMem = s.hostMem ∧ (s.kChange g c).scratch = s.scratch ∧
    (s.kChange g c).code = s.code ∧ (s.kChange g c).hbmKey = s.hbmKey ∧ (s.kChange g c).poison = s.poison ∧
    (s.kChange g c).lines = s.lines ∧ (s.kChange g c).vreg = s.vreg ∧ (s.kChange g c).sreg = s.sreg ∧
    (s.kChange g c).preg = s.preg ∧ (s.kChange g c).greg = s.greg ∧ (s.kChange g c).pend = s.pend ∧
    (s.kChange g c).units = s.units ∧ (s.kChange g c).teams = s.teams ∧ (s.kChange g c).kernels = s.kernels ∧
    (s.kChange g c).kernelOrder = s.kernelOrder ∧ (s.kChange g c).ops = s.ops ∧ (s.kChange g c).bankUse = s.bankUse ∧
    (s.kChange g c).claims = s.claims ∧ (s.kChange g c).cores = s.cores ∧ (s.kChange g c).engines = s.engines ∧
    (s.kChange g c).xlb = s.xlb ∧ (s.kChange g c).sds = s.sds ∧ (s.kChange g c).ctxs = s.ctxs ∧
    (s.kChange g c).queues = s.queues ∧ (s.kChange g c).dies = s.dies ∧ (s.kChange g c).heldFlags = s.heldFlags ∧
    (s.kChange g c).zones = s.zones ∧ (s.kChange g c).lays = s.lays ∧ (s.kChange g c).links = s.links ∧
    (s.kChange g c).gates = s.gates ∧ (s.kChange g c).peerFaults = s.peerFaults ∧ (s.kChange g c).chans = s.chans ∧
    (s.kChange g c).mgmtOwner = s.mgmtOwner ∧ (s.kChange g c).mgmtGen = s.mgmtGen ∧
    (s.kChange g c).mgmtPort = s.mgmtPort ∧ (s.kChange g c).podmask = s.podmask ∧ (s.kChange g c).modl = s.modl ∧
    (s.kChange g c).podOrigin = s.podOrigin ∧ (s.kChange g c).podStandby = s.podStandby ∧
    (s.kChange g c).originDie = s.originDie ∧ (s.kChange g c).errsel = s.errsel ∧ (s.kChange g c).uecnt = s.uecnt ∧
    (s.kChange g c).hsel = s.hsel ∧ (s.kChange g c).hrepStatus = s.hrepStatus ∧ (s.kChange g c).poolcfg = s.poolcfg ∧
    (s.kChange g c).pwrStatus = s.pwrStatus ∧ (s.kChange g c).plimit = s.plimit ∧ (s.kChange g c).pmeas = s.pmeas ∧
    (s.kChange g c).overPower = s.overPower ∧ (s.kChange g c).reductions = s.reductions ∧
    (s.kChange g c).nReduce = s.nReduce ∧ (s.kChange g c).alarmSt = s.alarmSt ∧ (s.kChange g c).alarmPol = s.alarmPol ∧
    (s.kChange g c).syncLost = s.syncLost ∧ (s.kChange g c).slewing = s.slewing ∧ (s.kChange g c).syncOff = s.syncOff ∧
    (s.kChange g c).syncEpisodes = s.syncEpisodes ∧ (s.kChange g c).announced = s.announced ∧
    (s.kChange g c).overSince = s.overSince ∧ (s.kChange g c).ibrum = s.ibrum ∧ (s.kChange g c).flash = s.flash ∧
    (s.kChange g c).powered = s.powered ∧ (s.kChange g c).out = s.out := by
  and_intros <;> rfl

/-- A barrier changed: every field but `groups` is as it was. -/
@[simp] theorem bChange_frame (s : State) (g : Nat) (c : BChange) :
    (s.bChange g c).now = s.now ∧ (s.bChange g c).timeAdj = s.timeAdj ∧ (s.bChange g c).agenda = s.agenda ∧
    (s.bChange g c).cur = s.cur ∧ (s.bChange g c).row = s.row ∧ (s.bChange g c).arg = s.arg ∧
    (s.bChange g c).freeCtr = s.freeCtr ∧ (s.bChange g c).nextId = s.nextId ∧ (s.bChange g c).halted = s.halted ∧
    (s.bChange g c).hbm = s.hbm ∧ (s.bChange g c).hostMem = s.hostMem ∧ (s.bChange g c).scratch = s.scratch ∧
    (s.bChange g c).code = s.code ∧ (s.bChange g c).hbmKey = s.hbmKey ∧ (s.bChange g c).poison = s.poison ∧
    (s.bChange g c).lines = s.lines ∧ (s.bChange g c).vreg = s.vreg ∧ (s.bChange g c).sreg = s.sreg ∧
    (s.bChange g c).preg = s.preg ∧ (s.bChange g c).greg = s.greg ∧ (s.bChange g c).pend = s.pend ∧
    (s.bChange g c).units = s.units ∧ (s.bChange g c).teams = s.teams ∧ (s.bChange g c).kernels = s.kernels ∧
    (s.bChange g c).kernelOrder = s.kernelOrder ∧ (s.bChange g c).ops = s.ops ∧ (s.bChange g c).bankUse = s.bankUse ∧
    (s.bChange g c).claims = s.claims ∧ (s.bChange g c).cores = s.cores ∧ (s.bChange g c).engines = s.engines ∧
    (s.bChange g c).xlb = s.xlb ∧ (s.bChange g c).sds = s.sds ∧ (s.bChange g c).ctxs = s.ctxs ∧
    (s.bChange g c).queues = s.queues ∧ (s.bChange g c).dies = s.dies ∧ (s.bChange g c).heldFlags = s.heldFlags ∧
    (s.bChange g c).zones = s.zones ∧ (s.bChange g c).lays = s.lays ∧ (s.bChange g c).links = s.links ∧
    (s.bChange g c).gates = s.gates ∧ (s.bChange g c).peerFaults = s.peerFaults ∧ (s.bChange g c).chans = s.chans ∧
    (s.bChange g c).mgmtOwner = s.mgmtOwner ∧ (s.bChange g c).mgmtGen = s.mgmtGen ∧
    (s.bChange g c).mgmtPort = s.mgmtPort ∧ (s.bChange g c).podmask = s.podmask ∧ (s.bChange g c).modl = s.modl ∧
    (s.bChange g c).podOrigin = s.podOrigin ∧ (s.bChange g c).podStandby = s.podStandby ∧
    (s.bChange g c).originDie = s.originDie ∧ (s.bChange g c).errsel = s.errsel ∧ (s.bChange g c).uecnt = s.uecnt ∧
    (s.bChange g c).hsel = s.hsel ∧ (s.bChange g c).hrepStatus = s.hrepStatus ∧ (s.bChange g c).poolcfg = s.poolcfg ∧
    (s.bChange g c).pwrStatus = s.pwrStatus ∧ (s.bChange g c).plimit = s.plimit ∧ (s.bChange g c).pmeas = s.pmeas ∧
    (s.bChange g c).overPower = s.overPower ∧ (s.bChange g c).reductions = s.reductions ∧
    (s.bChange g c).nReduce = s.nReduce ∧ (s.bChange g c).alarmSt = s.alarmSt ∧ (s.bChange g c).alarmPol = s.alarmPol ∧
    (s.bChange g c).syncLost = s.syncLost ∧ (s.bChange g c).slewing = s.slewing ∧ (s.bChange g c).syncOff = s.syncOff ∧
    (s.bChange g c).syncEpisodes = s.syncEpisodes ∧ (s.bChange g c).announced = s.announced ∧
    (s.bChange g c).overSince = s.overSince ∧ (s.bChange g c).ibrum = s.ibrum ∧ (s.bChange g c).flash = s.flash ∧
    (s.bChange g c).powered = s.powered ∧ (s.bChange g c).out = s.out := by
  and_intros <;> rfl

/-- Scratch bytes written: every field but `scratch` and `poison` is as it was. -/
@[simp] theorem scrWrite_frame (s : State) (d c a v n : Nat) :
    (s.scrWrite d c a v n).now = s.now ∧ (s.scrWrite d c a v n).timeAdj = s.timeAdj ∧
    (s.scrWrite d c a v n).agenda = s.agenda ∧ (s.scrWrite d c a v n).cur = s.cur ∧ (s.scrWrite d c a v n).row = s.row ∧
    (s.scrWrite d c a v n).arg = s.arg ∧ (s.scrWrite d c a v n).freeCtr = s.freeCtr ∧
    (s.scrWrite d c a v n).nextId = s.nextId ∧ (s.scrWrite d c a v n).halted = s.halted ∧
    (s.scrWrite d c a v n).hbm = s.hbm ∧ (s.scrWrite d c a v n).hostMem = s.hostMem ∧
    (s.scrWrite d c a v n).code = s.code ∧ (s.scrWrite d c a v n).hbmKey = s.hbmKey ∧
    (s.scrWrite d c a v n).lines = s.lines ∧ (s.scrWrite d c a v n).vreg = s.vreg ∧
    (s.scrWrite d c a v n).sreg = s.sreg ∧ (s.scrWrite d c a v n).preg = s.preg ∧ (s.scrWrite d c a v n).greg = s.greg ∧
    (s.scrWrite d c a v n).pend = s.pend ∧ (s.scrWrite d c a v n).units = s.units ∧
    (s.scrWrite d c a v n).groups = s.groups ∧ (s.scrWrite d c a v n).teams = s.teams ∧
    (s.scrWrite d c a v n).kernels = s.kernels ∧ (s.scrWrite d c a v n).kernelOrder = s.kernelOrder ∧
    (s.scrWrite d c a v n).ops = s.ops ∧ (s.scrWrite d c a v n).bankUse = s.bankUse ∧
    (s.scrWrite d c a v n).claims = s.claims ∧ (s.scrWrite d c a v n).cores = s.cores ∧
    (s.scrWrite d c a v n).engines = s.engines ∧ (s.scrWrite d c a v n).xlb = s.xlb ∧
    (s.scrWrite d c a v n).sds = s.sds ∧ (s.scrWrite d c a v n).ctxs = s.ctxs ∧
    (s.scrWrite d c a v n).queues = s.queues ∧ (s.scrWrite d c a v n).dies = s.dies ∧
    (s.scrWrite d c a v n).heldFlags = s.heldFlags ∧ (s.scrWrite d c a v n).zones = s.zones ∧
    (s.scrWrite d c a v n).lays = s.lays ∧ (s.scrWrite d c a v n).links = s.links ∧
    (s.scrWrite d c a v n).gates = s.gates ∧ (s.scrWrite d c a v n).peerFaults = s.peerFaults ∧
    (s.scrWrite d c a v n).chans = s.chans ∧ (s.scrWrite d c a v n).mgmtOwner = s.mgmtOwner ∧
    (s.scrWrite d c a v n).mgmtGen = s.mgmtGen ∧ (s.scrWrite d c a v n).mgmtPort = s.mgmtPort ∧
    (s.scrWrite d c a v n).podmask = s.podmask ∧ (s.scrWrite d c a v n).modl = s.modl ∧
    (s.scrWrite d c a v n).podOrigin = s.podOrigin ∧ (s.scrWrite d c a v n).podStandby = s.podStandby ∧
    (s.scrWrite d c a v n).originDie = s.originDie ∧ (s.scrWrite d c a v n).errsel = s.errsel ∧
    (s.scrWrite d c a v n).uecnt = s.uecnt ∧ (s.scrWrite d c a v n).hsel = s.hsel ∧
    (s.scrWrite d c a v n).hrepStatus = s.hrepStatus ∧ (s.scrWrite d c a v n).poolcfg = s.poolcfg ∧
    (s.scrWrite d c a v n).pwrStatus = s.pwrStatus ∧ (s.scrWrite d c a v n).plimit = s.plimit ∧
    (s.scrWrite d c a v n).pmeas = s.pmeas ∧ (s.scrWrite d c a v n).overPower = s.overPower ∧
    (s.scrWrite d c a v n).reductions = s.reductions ∧ (s.scrWrite d c a v n).nReduce = s.nReduce ∧
    (s.scrWrite d c a v n).alarmSt = s.alarmSt ∧ (s.scrWrite d c a v n).alarmPol = s.alarmPol ∧
    (s.scrWrite d c a v n).syncLost = s.syncLost ∧ (s.scrWrite d c a v n).slewing = s.slewing ∧
    (s.scrWrite d c a v n).syncOff = s.syncOff ∧ (s.scrWrite d c a v n).syncEpisodes = s.syncEpisodes ∧
    (s.scrWrite d c a v n).announced = s.announced ∧ (s.scrWrite d c a v n).overSince = s.overSince ∧
    (s.scrWrite d c a v n).ibrum = s.ibrum ∧ (s.scrWrite d c a v n).flash = s.flash ∧
    (s.scrWrite d c a v n).powered = s.powered ∧ (s.scrWrite d c a v n).out = s.out := by
  and_intros <;> rfl

/-- A line touched: every field but `lines` is as it was. -/
@[simp] theorem touchLine_frame (s : State) (d c a cy sl r : Nat) :
    (s.touchLine d c a cy sl r).now = s.now ∧ (s.touchLine d c a cy sl r).timeAdj = s.timeAdj ∧
    (s.touchLine d c a cy sl r).agenda = s.agenda ∧ (s.touchLine d c a cy sl r).cur = s.cur ∧
    (s.touchLine d c a cy sl r).row = s.row ∧ (s.touchLine d c a cy sl r).arg = s.arg ∧
    (s.touchLine d c a cy sl r).freeCtr = s.freeCtr ∧ (s.touchLine d c a cy sl r).nextId = s.nextId ∧
    (s.touchLine d c a cy sl r).halted = s.halted ∧ (s.touchLine d c a cy sl r).hbm = s.hbm ∧
    (s.touchLine d c a cy sl r).hostMem = s.hostMem ∧ (s.touchLine d c a cy sl r).scratch = s.scratch ∧
    (s.touchLine d c a cy sl r).code = s.code ∧ (s.touchLine d c a cy sl r).hbmKey = s.hbmKey ∧
    (s.touchLine d c a cy sl r).poison = s.poison ∧ (s.touchLine d c a cy sl r).vreg = s.vreg ∧
    (s.touchLine d c a cy sl r).sreg = s.sreg ∧ (s.touchLine d c a cy sl r).preg = s.preg ∧
    (s.touchLine d c a cy sl r).greg = s.greg ∧ (s.touchLine d c a cy sl r).pend = s.pend ∧
    (s.touchLine d c a cy sl r).units = s.units ∧ (s.touchLine d c a cy sl r).groups = s.groups ∧
    (s.touchLine d c a cy sl r).teams = s.teams ∧ (s.touchLine d c a cy sl r).kernels = s.kernels ∧
    (s.touchLine d c a cy sl r).kernelOrder = s.kernelOrder ∧ (s.touchLine d c a cy sl r).ops = s.ops ∧
    (s.touchLine d c a cy sl r).bankUse = s.bankUse ∧ (s.touchLine d c a cy sl r).claims = s.claims ∧
    (s.touchLine d c a cy sl r).cores = s.cores ∧ (s.touchLine d c a cy sl r).engines = s.engines ∧
    (s.touchLine d c a cy sl r).xlb = s.xlb ∧ (s.touchLine d c a cy sl r).sds = s.sds ∧
    (s.touchLine d c a cy sl r).ctxs = s.ctxs ∧ (s.touchLine d c a cy sl r).queues = s.queues ∧
    (s.touchLine d c a cy sl r).dies = s.dies ∧ (s.touchLine d c a cy sl r).heldFlags = s.heldFlags ∧
    (s.touchLine d c a cy sl r).zones = s.zones ∧ (s.touchLine d c a cy sl r).lays = s.lays ∧
    (s.touchLine d c a cy sl r).links = s.links ∧ (s.touchLine d c a cy sl r).gates = s.gates ∧
    (s.touchLine d c a cy sl r).peerFaults = s.peerFaults ∧ (s.touchLine d c a cy sl r).chans = s.chans ∧
    (s.touchLine d c a cy sl r).mgmtOwner = s.mgmtOwner ∧ (s.touchLine d c a cy sl r).mgmtGen = s.mgmtGen ∧
    (s.touchLine d c a cy sl r).mgmtPort = s.mgmtPort ∧ (s.touchLine d c a cy sl r).podmask = s.podmask ∧
    (s.touchLine d c a cy sl r).modl = s.modl ∧ (s.touchLine d c a cy sl r).podOrigin = s.podOrigin ∧
    (s.touchLine d c a cy sl r).podStandby = s.podStandby ∧ (s.touchLine d c a cy sl r).originDie = s.originDie ∧
    (s.touchLine d c a cy sl r).errsel = s.errsel ∧ (s.touchLine d c a cy sl r).uecnt = s.uecnt ∧
    (s.touchLine d c a cy sl r).hsel = s.hsel ∧ (s.touchLine d c a cy sl r).hrepStatus = s.hrepStatus ∧
    (s.touchLine d c a cy sl r).poolcfg = s.poolcfg ∧ (s.touchLine d c a cy sl r).pwrStatus = s.pwrStatus ∧
    (s.touchLine d c a cy sl r).plimit = s.plimit ∧ (s.touchLine d c a cy sl r).pmeas = s.pmeas ∧
    (s.touchLine d c a cy sl r).overPower = s.overPower ∧ (s.touchLine d c a cy sl r).reductions = s.reductions ∧
    (s.touchLine d c a cy sl r).nReduce = s.nReduce ∧ (s.touchLine d c a cy sl r).alarmSt = s.alarmSt ∧
    (s.touchLine d c a cy sl r).alarmPol = s.alarmPol ∧ (s.touchLine d c a cy sl r).syncLost = s.syncLost ∧
    (s.touchLine d c a cy sl r).slewing = s.slewing ∧ (s.touchLine d c a cy sl r).syncOff = s.syncOff ∧
    (s.touchLine d c a cy sl r).syncEpisodes = s.syncEpisodes ∧ (s.touchLine d c a cy sl r).announced = s.announced ∧
    (s.touchLine d c a cy sl r).overSince = s.overSince ∧ (s.touchLine d c a cy sl r).ibrum = s.ibrum ∧
    (s.touchLine d c a cy sl r).flash = s.flash ∧ (s.touchLine d c a cy sl r).powered = s.powered ∧
    (s.touchLine d c a cy sl r).out = s.out := by
  and_intros <;> rfl

/-- Lines settled: every field but `lines` and `poison` is as it was. -/
@[simp] theorem settleLines_frame (s : State) (d c sl : Nat) (n : Option Nat) :
    (s.settleLines d c sl n).now = s.now ∧ (s.settleLines d c sl n).timeAdj = s.timeAdj ∧
    (s.settleLines d c sl n).agenda = s.agenda ∧ (s.settleLines d c sl n).cur = s.cur ∧
    (s.settleLines d c sl n).row = s.row ∧ (s.settleLines d c sl n).arg = s.arg ∧
    (s.settleLines d c sl n).freeCtr = s.freeCtr ∧ (s.settleLines d c sl n).nextId = s.nextId ∧
    (s.settleLines d c sl n).halted = s.halted ∧ (s.settleLines d c sl n).hbm = s.hbm ∧
    (s.settleLines d c sl n).hostMem = s.hostMem ∧ (s.settleLines d c sl n).scratch = s.scratch ∧
    (s.settleLines d c sl n).code = s.code ∧ (s.settleLines d c sl n).hbmKey = s.hbmKey ∧
    (s.settleLines d c sl n).vreg = s.vreg ∧ (s.settleLines d c sl n).sreg = s.sreg ∧
    (s.settleLines d c sl n).preg = s.preg ∧ (s.settleLines d c sl n).greg = s.greg ∧
    (s.settleLines d c sl n).pend = s.pend ∧ (s.settleLines d c sl n).units = s.units ∧
    (s.settleLines d c sl n).groups = s.groups ∧ (s.settleLines d c sl n).teams = s.teams ∧
    (s.settleLines d c sl n).kernels = s.kernels ∧ (s.settleLines d c sl n).kernelOrder = s.kernelOrder ∧
    (s.settleLines d c sl n).ops = s.ops ∧ (s.settleLines d c sl n).bankUse = s.bankUse ∧
    (s.settleLines d c sl n).claims = s.claims ∧ (s.settleLines d c sl n).cores = s.cores ∧
    (s.settleLines d c sl n).engines = s.engines ∧ (s.settleLines d c sl n).xlb = s.xlb ∧
    (s.settleLines d c sl n).sds = s.sds ∧ (s.settleLines d c sl n).ctxs = s.ctxs ∧
    (s.settleLines d c sl n).queues = s.queues ∧ (s.settleLines d c sl n).dies = s.dies ∧
    (s.settleLines d c sl n).heldFlags = s.heldFlags ∧ (s.settleLines d c sl n).zones = s.zones ∧
    (s.settleLines d c sl n).lays = s.lays ∧ (s.settleLines d c sl n).links = s.links ∧
    (s.settleLines d c sl n).gates = s.gates ∧ (s.settleLines d c sl n).peerFaults = s.peerFaults ∧
    (s.settleLines d c sl n).chans = s.chans ∧ (s.settleLines d c sl n).mgmtOwner = s.mgmtOwner ∧
    (s.settleLines d c sl n).mgmtGen = s.mgmtGen ∧ (s.settleLines d c sl n).mgmtPort = s.mgmtPort ∧
    (s.settleLines d c sl n).podmask = s.podmask ∧ (s.settleLines d c sl n).modl = s.modl ∧
    (s.settleLines d c sl n).podOrigin = s.podOrigin ∧ (s.settleLines d c sl n).podStandby = s.podStandby ∧
    (s.settleLines d c sl n).originDie = s.originDie ∧ (s.settleLines d c sl n).errsel = s.errsel ∧
    (s.settleLines d c sl n).uecnt = s.uecnt ∧ (s.settleLines d c sl n).hsel = s.hsel ∧
    (s.settleLines d c sl n).hrepStatus = s.hrepStatus ∧ (s.settleLines d c sl n).poolcfg = s.poolcfg ∧
    (s.settleLines d c sl n).pwrStatus = s.pwrStatus ∧ (s.settleLines d c sl n).plimit = s.plimit ∧
    (s.settleLines d c sl n).pmeas = s.pmeas ∧ (s.settleLines d c sl n).overPower = s.overPower ∧
    (s.settleLines d c sl n).reductions = s.reductions ∧ (s.settleLines d c sl n).nReduce = s.nReduce ∧
    (s.settleLines d c sl n).alarmSt = s.alarmSt ∧ (s.settleLines d c sl n).alarmPol = s.alarmPol ∧
    (s.settleLines d c sl n).syncLost = s.syncLost ∧ (s.settleLines d c sl n).slewing = s.slewing ∧
    (s.settleLines d c sl n).syncOff = s.syncOff ∧ (s.settleLines d c sl n).syncEpisodes = s.syncEpisodes ∧
    (s.settleLines d c sl n).announced = s.announced ∧ (s.settleLines d c sl n).overSince = s.overSince ∧
    (s.settleLines d c sl n).ibrum = s.ibrum ∧ (s.settleLines d c sl n).flash = s.flash ∧
    (s.settleLines d c sl n).powered = s.powered ∧ (s.settleLines d c sl n).out = s.out := by
  and_intros <;> rfl

end Sys2Proof.Laws
end

