-- ==== Sys2Proof/Laws/Issue.lean ====
section
/-! SUPPORT. What the shared operations can do, said once: the issue of an instruction, the kinds of step, pending writes
and the loop of the lane-wise instructions. -/

namespace Sys2Proof.Laws

open Sys2Proof.Machine

/-! ### Issue and step -/

/-- An instruction that passes its checks has its effect. -/
theorem issue_ok {i : Instr} {s : State} {c : Cur} (f : Cur → State) (h : Issuing s c i) : issue i s f = .next (f c) := by
  simp [issue, h.1, h.2.1, h.2.2]

/-- An instruction that fails a check takes that check's trap. -/
theorem issue_trap {i : Instr} {s : State} {c : Cur} (f : Cur → State) {k : Nat × Nat} (hc : s.cur = some c)
    (h : decodeCheck s c i = some k) : issue i s f = .next (trapCur s c k.1 k.2 (trapLanes s c (instrUni s c i) (guardOfInstr i)) []) := by
  simp [issue, hc, h]

/-- Everything the issue of an instruction can do. -/
theorem issue_cases {i : Instr} {s t : State} {f : Cur → State} (h : issue i s f = .next t) :
    ∃ c, s.cur = some c ∧ ((decodeCheck s c i = none ∧ sourcePoisoned s c i = false ∧ t = f c) ∨
      (decodeCheck s c i = none ∧ sourcePoisoned s c i = true ∧ t = consumeRegister s c) ∨
      ∃ k, decodeCheck s c i = some k ∧ t = trapCur s c k.1 k.2 (trapLanes s c (instrUni s c i) (guardOfInstr i)) []) := by
  unfold issue at h
  split at h
  · cases h
  · next c hc =>
    refine ⟨c, hc, ?_⟩
    split at h
    · next k hk => cases h; exact .inr (.inr ⟨k, hk, rfl⟩)
    · next hk =>
      split at h
      · next hp => cases h; exact .inr (.inl ⟨hk, hp, rfl⟩)
      · next hp => cases h; exact .inl ⟨hk, by simpa using hp, rfl⟩

/-- What follows a step that answers a next state. -/
theorem andThen_next {o : Host.Outcome State Fault Refusal} {k : State → State} {t : State}
    (h : andThen o k = .next t) : ∃ u, o = .next u ∧ t = k u := by
  cases o <;> simp only [andThen] at h
  · cases h; exact ⟨_, rfl, rfl⟩
  · cases h
  · cases h

/-- Every kind of step: time passes, an event happens, a slot issues, or a drain row goes on. -/
theorem step_cases {s t : State} (h : step s = .next t) :
    s.halted = none ∧
    ((∃ r, s.row = some r ∧ stepRow s r = .next t) ∨
     (s.row = none ∧ s.agenda = [] ∧ t = { s with now := s.now + Config.unitsPerTick }) ∨
     (s.row = none ∧ ∃ a rest, s.agenda = a :: rest ∧
        stepDue { s with agenda := rest, now := max s.now a.at' } a.due = .next t)) := by
  unfold step at h
  split at h
  · cases h
  · next hh =>
    refine ⟨hh, ?_⟩
    split at h
    · next r hr => exact .inl ⟨r, hr, h⟩
    · next hr =>
      unfold stepAgenda at h
      split at h
      · next ha => cases h; exact .inr (.inl ⟨hr, ha, rfl⟩)
      · next a rest ha => exact .inr (.inr ⟨hr, a, rest, ha, h⟩)

/-! ### Pending writes -/

theorem onlyPending_refl (s : State) : OnlyPending s s := rfl

theorem onlyPending_trans {s t u : State} (h : OnlyPending s t) (k : OnlyPending t u) : OnlyPending s u := by
  unfold OnlyPending at *
  rw [k, h]

/-- An event scheduled at a cycle. -/
theorem schedCyc_eq (s : State) (d c cyc p : Nat) (i : Due) :
    s.schedCyc d c cyc p i = { s with agenda := (s.schedCyc d c cyc p i).agenda } := rfl

/-- A result that waits to land. -/
theorem onlyPending_land (s : State) (w : PendW) : OnlyPending s (s.land w) := by
  unfold OnlyPending State.land
  rw [schedCyc_eq]

/-- The write is pending after it. -/
theorem land_pend (s : State) (w : PendW) : (s.land w).pend = insertPend w s.pend := by
  unfold State.land
  rw [schedCyc_eq]

theorem mem_insertPend (w x : PendW) (l : List PendW) : x ∈ insertPend w l ↔ x = w ∨ x ∈ l := by
  induction l with
  | nil => simp [insertPend]
  | cons y l ih =>
    simp only [insertPend]
    split
    · simp
    · simp only [List.mem_cons, ih]
      tauto

/-- Flags that wait to be raised. -/
theorem onlyPending_raise (s : State) (u : UnitId) (f c i : Nat) : OnlyPending s (s.raise u f c i) := by
  unfold State.raise
  split
  · rfl
  · exact onlyPending_land _ _

/-- A destination field. -/
theorem onlyPending_landField (s : State) (c : Cur) (r l : Nat) (w : Bool) (v : Word64) (cyc op : Nat) :
    OnlyPending s (landField s c r l w v cyc op) := by
  unfold landField
  dsimp only
  split
  · split
    · exact onlyPending_trans (onlyPending_land _ _) (onlyPending_land _ _)
    · exact onlyPending_land _ _
  · split
    · split <;> exact onlyPending_land _ _
    · split
      · exact onlyPending_land _ _
      · rfl

/-- A fold of operations that only add pending writes. -/
theorem onlyPending_foldl {α : Type} (f : State → α → State) (h : ∀ s a, OnlyPending s (f s a)) (s : State) (l : List α) :
    OnlyPending s (l.foldl f s) := by
  induction l generalizing s with
  | nil => rfl
  | cons a l ih => exact onlyPending_trans (h s a) (ih _)

theorem onlyPending_landRes (s : State) (c : Cur) (l cyc : Nat) (rs : List Res) : OnlyPending s (landRes s c l cyc rs) :=
  onlyPending_foldl _ (fun _ _ => onlyPending_landField ..) _ _

/-- The loop of R65 changes nothing but what waits to land. -/
theorem onlyPending_alu (s : State) (c : Cur) (g : Guard) (ds : List Nat) (srcs : List (Nat × Bool)) (lat : Nat)
    (f : List Word64 → List Res × Nat) : OnlyPending s (alu s c g ds srcs lat f) := by
  unfold alu
  dsimp only
  split
  · split
    · rfl
    · exact onlyPending_trans (onlyPending_landRes ..) (onlyPending_raise ..)
  · exact onlyPending_trans (onlyPending_foldl _ (fun _ _ => onlyPending_landRes ..) _ _) (onlyPending_raise ..)

/-- An exchange between lanes changes nothing but what waits to land. -/
theorem onlyPending_xLanes (s : State) (c : Cur) (w : RF) (lat : Nat) (f : Nat → Nat → Word64) :
    OnlyPending s (xLanes s c w lat f) :=
  onlyPending_foldl _ (fun _ _ => onlyPending_landField ..) _ _

theorem onlyPending_warpWide (s : State) (c : Cur) (w : RF) (lat : Nat) (f : Nat → Word64) :
    OnlyPending s (warpWide s c w lat f) := by
  unfold warpWide
  split
  · exact onlyPending_landField ..
  · exact onlyPending_xLanes ..

/-! ### What waits to land -/

/-- Every write that was pending still is. -/
def Grows (s t : State) : Prop := ∀ w ∈ s.pend, w ∈ t.pend

theorem grows_refl (s : State) : Grows s s := fun _ h => h

theorem grows_trans {s t u : State} (h : Grows s t) (k : Grows t u) : Grows s u := fun w hw => k w (h w hw)

theorem waits_of_grows {s t : State} {u : UnitId} {f : RFile} {r l : Nat} {v : Word64} {c : Nat} (h : Waits s u f r l v c)
    (k : Grows s t) : Waits t u f r l v c := by
  obtain ⟨w, hw, h⟩ := h
  exact ⟨w, k w hw, h⟩

theorem lands_of_grows {s t : State} {c : Cur} {d l : Nat} {wide : Bool} {v : Word64} {lat : Nat}
    (h : Lands s c d l wide v lat) (k : Grows s t) : Lands t c d l wide v lat := by
  unfold Lands at *
  revert h
  cases isV c.u.lead d
  · cases isS c.u.lead d
    · cases isP d
      · exact fun _ => trivial
      · exact fun h => waits_of_grows h k
    · exact fun h => waits_of_grows h k
  · exact fun h => ⟨waits_of_grows h.1 k, fun hw => waits_of_grows (h.2 hw) k⟩

theorem grows_land (s : State) (w : PendW) : Grows s (s.land w) := fun x hx => by
  rw [land_pend, mem_insertPend]
  exact .inr hx

theorem waits_land (s : State) (w : PendW) : Waits (s.land w) w.u w.file w.reg w.lane w.val w.land :=
  ⟨w, by rw [land_pend, mem_insertPend]; exact .inl rfl, rfl, rfl, rfl, rfl, rfl, rfl⟩

theorem grows_raise (s : State) (u : UnitId) (f c i : Nat) : Grows s (s.raise u f c i) := by
  unfold State.raise
  split
  · exact grows_refl _
  · exact grows_land _ _

theorem grows_landField (s : State) (c : Cur) (r l : Nat) (w : Bool) (v : Word64) (cyc op : Nat) :
    Grows s (landField s c r l w v cyc op) := by
  unfold landField
  dsimp only
  split
  · split
    · exact grows_trans (grows_land _ _) (grows_land _ _)
    · exact grows_land _ _
  · split
    · split <;> exact grows_land _ _
    · split
      · exact grows_land _ _
      · exact grows_refl _

/-- A destination field lands where `Lands` says. -/
theorem lands_landField (s : State) (c : Cur) (d l : Nat) (wide : Bool) (v : Word64) (lat op : Nat) :
    Lands (landField s c d l wide v (c.cycle + lat) op) c d l wide v lat := by
  unfold Lands landField
  dsimp only
  cases isV c.u.lead d
  · cases isS c.u.lead d
    · cases isP d
      · trivial
      · exact waits_land _ _
    · cases hl : c.u.lead
      · exact waits_land _ _
      · exact waits_land _ _
  · cases wide
    · exact ⟨waits_land _ _, fun h => by cases h⟩
    · exact ⟨waits_of_grows (waits_land _ _) (grows_land _ _), fun _ => waits_land _ _⟩

theorem grows_foldl {α : Type} (f : State → α → State) (h : ∀ s a, Grows s (f s a)) (s : State) (l : List α) :
    Grows s (l.foldl f s) := by
  induction l generalizing s with
  | nil => exact grows_refl _
  | cons a l ih => exact grows_trans (h s a) (ih _)

theorem grows_landRes (s : State) (c : Cur) (l cyc : Nat) (rs : List Res) : Grows s (landRes s c l cyc rs) :=
  grows_foldl _ (fun _ _ => grows_landField _ _ _ _ _ _ _ _) _ _

/-- What a fold lands for one of its elements. -/
theorem lands_foldl {α : Type} (f : State → α → State) (hg : ∀ s a, Grows s (f s a)) {c : Cur} {d l : Nat} {wide : Bool}
    {v : Word64} {lat : Nat} {a : α} (ha : ∀ s, Lands (f s a) c d l wide v lat) (s : State) (xs : List α) (hx : a ∈ xs) :
    Lands (xs.foldl f s) c d l wide v lat := by
  induction xs generalizing s with
  | nil => cases hx
  | cons b xs ih =>
    rcases List.mem_cons.mp hx with rfl | hx
    · exact lands_of_grows (ha s) (grows_foldl f hg _ xs)
    · exact ih _ hx

/-- An instruction of one result that runs through the loop of R65. -/
theorem resultIn_alu (s : State) (c : Cur) (g : Guard) (d : Nat) (wide : Bool) (srcs : List (Nat × Bool)) (lat : Nat)
    (v : List Word64 → Word64) (fl : List Word64 → Nat) :
    ResultIn s (alu s c g [d] srcs lat fun xs => ([(d, wide, v xs)], fl xs)) c g (srcs.map (·.1)) d wide lat
      fun l => v (srcs.map fun x => readField s c x.1 l x.2) := by
  refine ⟨onlyPending_alu .., ?_⟩
  unfold alu
  simp only [List.singleton_append]
  split
  · split
    · rfl
    · exact lands_of_grows (lands_landField ..) (grows_raise _ _ _ _ _)
  · intro l hl hc
    refine lands_of_grows ?_ (grows_raise _ _ _ _ _)
    refine lands_foldl (fun t (x : Nat × List Res × Nat) => landRes t c x.1 (c.cycle + lat) x.2.1)
      (fun _ _ => grows_landRes _ _ _ _ _) (a := (l, [(d, wide, v (srcs.map fun x => readField s c x.1 l x.2))],
        fl (srcs.map fun x => readField s c x.1 l x.2)))
      (fun _ => lands_landField ..) _ _ ?_
    exact List.mem_map.mpr ⟨l, List.mem_filter.mpr ⟨List.mem_range.mpr hl, hc⟩, rfl⟩

/-- What only adds pending writes leaves every memory as it was. -/
theorem sameMemory_of_onlyPending {s t : State} (h : OnlyPending s t) : SameMemory s t := by
  intro a
  rw [h]
  exact ⟨rfl, rfl, rfl, rfl⟩

/-- What only adds pending writes leaves every register as it was. -/
theorem sameRegisters_of_onlyPending {s t : State} (h : OnlyPending s t) : SameRegisters s t := by
  rw [h]
  exact ⟨rfl, rfl, rfl, rfl⟩

/-! ### Registers as they read -/

@[simp] theorem p_zero (s : State) (u : UnitId) (l : Nat) : s.p u 0 l = true := by simp [State.p]

/-! ### Traps -/

/-- Taking a trap changes units, groups and the agenda only. -/
theorem takeTrap_eq (s : State) (u : UnitId) (t : Stop) :
    s.takeTrap u t = { s with units := (s.takeTrap u t).units, groups := (s.takeTrap u t).groups,
                              agenda := (s.takeTrap u t).agenda } := by
  unfold State.takeTrap
  dsimp only
  rw [schedCyc_eq]
  split
  · rfl
  · split <;> rfl

/-! ### The canonical form -/

theorem memWf_of_eq {s t : State} (h : s.memWf) (h1 : t.hbm = s.hbm) (h2 : t.hostMem = s.hostMem)
    (h3 : t.scratch = s.scratch) (h4 : t.code = s.code) : t.memWf := by
  unfold State.memWf at *
  rw [h1, h2, h3, h4]
  exact h

theorem memWf_onlyPending {s t : State} (h : s.memWf) (k : OnlyPending s t) : t.memWf := by
  rw [k]
  exact h

theorem memWf_scrWrite {s : State} (h : s.memWf) (d c a v n : Nat) : (s.scrWrite d c a v n).memWf :=
  ⟨h.1, h.2.1, wf_writeN _ _ _ h.2.2.1, h.2.2.2⟩

theorem memWf_hbmPut {s : State} (h : s.memWf) (c d k a : Nat) (b : Byte) : (s.hbmPut c d k a b).memWf :=
  ⟨wf_write _ _ h.1, h.2⟩

theorem memWf_needFrame {s : State} (h : s.memWf) (a n : Nat) : (s.needFrame a n).memWf := by
  unfold State.needFrame
  split
  · exact h
  · exact h

theorem memWf_hbmWrite {s : State} (h : s.memWf) (c d k a : Nat) (bs : List Byte) : (s.hbmWrite c d k a bs).memWf := by
  unfold State.hbmWrite
  dsimp only
  have key : ∀ (l : List (Byte × Nat)) (t : State), t.memWf →
      (l.foldl (fun s x => s.hbmPut c d k (a + x.2) x.1) t).memWf := by
    intro l
    induction l with
    | nil => exact fun t ht => ht
    | cons x l ih => exact fun t ht => ih _ (memWf_hbmPut ht ..)
  exact key _ _ (memWf_needFrame h ..)

theorem memWf_schedCyc {s : State} (h : s.memWf) (d c cyc p : Nat) (i : Due) : (s.schedCyc d c cyc p i).memWf := by
  rw [schedCyc_eq]
  exact h

theorem memWf_takeTrap {s : State} (h : s.memWf) (u : UnitId) (t : Stop) : (s.takeTrap u t).memWf := by
  rw [takeTrap_eq]
  exact h

end Sys2Proof.Laws
end

