-- ==== Sys2Proof/Laws/PerInstr.lean ====
section
/-! SUPPORT. The family EncSpec: what is said of every instruction as syntax, one lemma per constructor. -/

namespace Sys2Proof.Laws

/-- A well-formed instruction has words; what has no words, an event, is not well-formed. -/
def EncSpec.Statement (i : Instr) : Prop := i.wf = true → (encode i).isSome = true

theorem EncSpec.iadd (w : RF) : EncSpec.Statement (.iadd w) := fun _ => rfl
theorem EncSpec.isub (w : RF) : EncSpec.Statement (.isub w) := fun _ => rfl
theorem EncSpec.imul (w : RF) : EncSpec.Statement (.imul w) := fun _ => rfl
theorem EncSpec.imulh (w : RF) : EncSpec.Statement (.imulh w) := fun _ => rfl
theorem EncSpec.imad (w : RF) : EncSpec.Statement (.imad w) := fun _ => rfl
theorem EncSpec.imin (w : RF) : EncSpec.Statement (.imin w) := fun _ => rfl
theorem EncSpec.imax (w : RF) : EncSpec.Statement (.imax w) := fun _ => rfl
theorem EncSpec.iaddc (w : RF) : EncSpec.Statement (.iaddc w) := fun _ => rfl
theorem EncSpec.iabs (w : RF) : EncSpec.Statement (.iabs w) := fun _ => rfl
theorem EncSpec.ineg (w : RF) : EncSpec.Statement (.ineg w) := fun _ => rfl
theorem EncSpec.and (w : RF) : EncSpec.Statement (.and w) := fun _ => rfl
theorem EncSpec.or (w : RF) : EncSpec.Statement (.or w) := fun _ => rfl
theorem EncSpec.xor (w : RF) : EncSpec.Statement (.xor w) := fun _ => rfl
theorem EncSpec.andn (w : RF) : EncSpec.Statement (.andn w) := fun _ => rfl
theorem EncSpec.not (w : RF) : EncSpec.Statement (.not w) := fun _ => rfl
theorem EncSpec.shl (w : RF) : EncSpec.Statement (.shl w) := fun _ => rfl
theorem EncSpec.shr (w : RF) : EncSpec.Statement (.shr w) := fun _ => rfl
theorem EncSpec.sar (w : RF) : EncSpec.Statement (.sar w) := fun _ => rfl
theorem EncSpec.rotl (w : RF) : EncSpec.Statement (.rotl w) := fun _ => rfl
theorem EncSpec.bfe (w : RF) : EncSpec.Statement (.bfe w) := fun _ => rfl
theorem EncSpec.bfi (w : RF) : EncSpec.Statement (.bfi w) := fun _ => rfl
theorem EncSpec.popc (w : RF) : EncSpec.Statement (.popc w) := fun _ => rfl
theorem EncSpec.clz (w : RF) : EncSpec.Statement (.clz w) := fun _ => rfl
theorem EncSpec.ffs (w : RF) : EncSpec.Statement (.ffs w) := fun _ => rfl
theorem EncSpec.brev (w : RF) : EncSpec.Statement (.brev w) := fun _ => rfl
theorem EncSpec.icmp (w : RF) : EncSpec.Statement (.icmp w) := fun _ => rfl
theorem EncSpec.sel (w : RF) : EncSpec.Statement (.sel w) := fun _ => rfl
theorem EncSpec.mov (w : RF) : EncSpec.Statement (.mov w) := fun _ => rfl
theorem EncSpec.movi (w : IF) : EncSpec.Statement (.movi w) := fun _ => rfl
theorem EncSpec.movhi (w : IF) : EncSpec.Statement (.movhi w) := fun _ => rfl
theorem EncSpec.lea (w : RF) : EncSpec.Statement (.lea w) := fun _ => rfl
theorem EncSpec.iaddi (w : IF) : EncSpec.Statement (.iaddi w) := fun _ => rfl
theorem EncSpec.imuli (w : IF) : EncSpec.Statement (.imuli w) := fun _ => rfl
theorem EncSpec.andi (w : IF) : EncSpec.Statement (.andi w) := fun _ => rfl
theorem EncSpec.ori (w : IF) : EncSpec.Statement (.ori w) := fun _ => rfl
theorem EncSpec.xori (w : IF) : EncSpec.Statement (.xori w) := fun _ => rfl
theorem EncSpec.icmpi (w : IF) : EncSpec.Statement (.icmpi w) := fun _ => rfl
theorem EncSpec.plop (w : RF) : EncSpec.Statement (.plop w) := fun _ => rfl
theorem EncSpec.fadd (w : RF) : EncSpec.Statement (.fadd w) := fun _ => rfl
theorem EncSpec.fsub (w : RF) : EncSpec.Statement (.fsub w) := fun _ => rfl
theorem EncSpec.fmul (w : RF) : EncSpec.Statement (.fmul w) := fun _ => rfl
theorem EncSpec.ffma (w : RF) : EncSpec.Statement (.ffma w) := fun _ => rfl
theorem EncSpec.fmin (w : RF) : EncSpec.Statement (.fmin w) := fun _ => rfl
theorem EncSpec.fmax (w : RF) : EncSpec.Statement (.fmax w) := fun _ => rfl
theorem EncSpec.fabs (w : RF) : EncSpec.Statement (.fabs w) := fun _ => rfl
theorem EncSpec.fneg (w : RF) : EncSpec.Statement (.fneg w) := fun _ => rfl
theorem EncSpec.fcmp (w : RF) : EncSpec.Statement (.fcmp w) := fun _ => rfl
theorem EncSpec.frnd (w : RF) : EncSpec.Statement (.frnd w) := fun _ => rfl
theorem EncSpec.fclass (w : RF) : EncSpec.Statement (.fclass w) := fun _ => rfl
theorem EncSpec.fscale (w : RF) : EncSpec.Statement (.fscale w) := fun _ => rfl
theorem EncSpec.fdot2 (w : RF) : EncSpec.Statement (.fdot2 w) := fun _ => rfl
theorem EncSpec.dot4 (w : RF) : EncSpec.Statement (.dot4 w) := fun _ => rfl
theorem EncSpec.cvtf (w : RF) : EncSpec.Statement (.cvtf w) := fun _ => rfl
theorem EncSpec.cvti (w : RF) : EncSpec.Statement (.cvti w) := fun _ => rfl
theorem EncSpec.cvtfi (w : RF) : EncSpec.Statement (.cvtfi w) := fun _ => rfl
theorem EncSpec.pack2 (w : RF) : EncSpec.Statement (.pack2 w) := fun _ => rfl
theorem EncSpec.pack4 (w : RF) : EncSpec.Statement (.pack4 w) := fun _ => rfl
theorem EncSpec.unpk (w : RF) : EncSpec.Statement (.unpk w) := fun _ => rfl
theorem EncSpec.qnt (w : RF) : EncSpec.Statement (.qnt w) := fun _ => rfl
theorem EncSpec.dqnt (w : RF) : EncSpec.Statement (.dqnt w) := fun _ => rfl
theorem EncSpec.qdesc (w : RF) : EncSpec.Statement (.qdesc w) := fun _ => rfl
theorem EncSpec.frcp (w : RF) : EncSpec.Statement (.frcp w) := fun _ => rfl
theorem EncSpec.frsq (w : RF) : EncSpec.Statement (.frsq w) := fun _ => rfl
theorem EncSpec.fsqrt (w : RF) : EncSpec.Statement (.fsqrt w) := fun _ => rfl
theorem EncSpec.fexp2 (w : RF) : EncSpec.Statement (.fexp2 w) := fun _ => rfl
theorem EncSpec.flog2 (w : RF) : EncSpec.Statement (.flog2 w) := fun _ => rfl
theorem EncSpec.fsin (w : RF) : EncSpec.Statement (.fsin w) := fun _ => rfl
theorem EncSpec.fcos (w : RF) : EncSpec.Statement (.fcos w) := fun _ => rfl
theorem EncSpec.ftanh (w : RF) : EncSpec.Statement (.ftanh w) := fun _ => rfl
theorem EncSpec.qswph (w : RF) : EncSpec.Statement (.qswph w) := fun _ => rfl
theorem EncSpec.qswpv (w : RF) : EncSpec.Statement (.qswpv w) := fun _ => rfl
theorem EncSpec.qswpd (w : RF) : EncSpec.Statement (.qswpd w) := fun _ => rfl
theorem EncSpec.qbc (w : RF) : EncSpec.Statement (.qbc w) := fun _ => rfl
theorem EncSpec.shfl (w : RF) : EncSpec.Statement (.shfl w) := fun _ => rfl
theorem EncSpec.shflu (w : RF) : EncSpec.Statement (.shflu w) := fun _ => rfl
theorem EncSpec.shfld (w : RF) : EncSpec.Statement (.shfld w) := fun _ => rfl
theorem EncSpec.shflx (w : RF) : EncSpec.Statement (.shflx w) := fun _ => rfl
theorem EncSpec.vote (w : RF) : EncSpec.Statement (.vote w) := fun _ => rfl
theorem EncSpec.ballot (w : RF) : EncSpec.Statement (.ballot w) := fun _ => rfl
theorem EncSpec.matchLanes (w : RF) : EncSpec.Statement (.matchLanes w) := fun _ => rfl
theorem EncSpec.lpopc (w : RF) : EncSpec.Statement (.lpopc w) := fun _ => rfl
theorem EncSpec.rdlane (w : RF) : EncSpec.Statement (.rdlane w) := fun _ => rfl
theorem EncSpec.wrlane (w : RF) : EncSpec.Statement (.wrlane w) := fun _ => rfl
theorem EncSpec.wreduce (w : RF) : EncSpec.Statement (.wreduce w) := fun _ => rfl
theorem EncSpec.wscan (w : RF) : EncSpec.Statement (.wscan w) := fun _ => rfl
theorem EncSpec.xmov (w : RF) : EncSpec.Statement (.xmov w) := fun _ => rfl
theorem EncSpec.dqpop (w : RF) : EncSpec.Statement (.dqpop w) := fun _ => rfl
theorem EncSpec.lpush (w : RF) : EncSpec.Statement (.lpush w) := fun _ => rfl
theorem EncSpec.lds (w : MF) : EncSpec.Statement (.lds w) := fun _ => rfl
theorem EncSpec.sts (w : MF) : EncSpec.Statement (.sts w) := fun _ => rfl
theorem EncSpec.ldsb (w : MF) : EncSpec.Statement (.ldsb w) := fun _ => rfl
theorem EncSpec.atomsAdd (w : RF) : EncSpec.Statement (.atomsAdd w) := fun _ => rfl
theorem EncSpec.atomsSub (w : RF) : EncSpec.Statement (.atomsSub w) := fun _ => rfl
theorem EncSpec.atomsMin (w : RF) : EncSpec.Statement (.atomsMin w) := fun _ => rfl
theorem EncSpec.atomsMax (w : RF) : EncSpec.Statement (.atomsMax w) := fun _ => rfl
theorem EncSpec.atomsAnd (w : RF) : EncSpec.Statement (.atomsAnd w) := fun _ => rfl
theorem EncSpec.atomsOr (w : RF) : EncSpec.Statement (.atomsOr w) := fun _ => rfl
theorem EncSpec.atomsXor (w : RF) : EncSpec.Statement (.atomsXor w) := fun _ => rfl
theorem EncSpec.atomsExch (w : RF) : EncSpec.Statement (.atomsExch w) := fun _ => rfl
theorem EncSpec.atomsCas (w : RF) : EncSpec.Statement (.atomsCas w) := fun _ => rfl
theorem EncSpec.scrflg (w : RF) : EncSpec.Statement (.scrflg w) := fun _ => rfl
theorem EncSpec.copy (w : CopyF) : EncSpec.Statement (.copy w) := fun _ => rfl
theorem EncSpec.copyr (w : CopyF) : EncSpec.Statement (.copyr w) := fun _ => rfl
theorem EncSpec.cpyst (w : CpystF) : EncSpec.Statement (.cpyst w) := fun _ => rfl
theorem EncSpec.cpycan (w : CpycanF) : EncSpec.Statement (.cpycan w) := fun _ => rfl
theorem EncSpec.ldg (w : MF) : EncSpec.Statement (.ldg w) := fun _ => rfl
theorem EncSpec.stg (w : MF) : EncSpec.Statement (.stg w) := fun _ => rfl
theorem EncSpec.atomgAdd (w : RF) : EncSpec.Statement (.atomgAdd w) := fun _ => rfl
theorem EncSpec.atomgSub (w : RF) : EncSpec.Statement (.atomgSub w) := fun _ => rfl
theorem EncSpec.atomgMin (w : RF) : EncSpec.Statement (.atomgMin w) := fun _ => rfl
theorem EncSpec.atomgMax (w : RF) : EncSpec.Statement (.atomgMax w) := fun _ => rfl
theorem EncSpec.atomgAnd (w : RF) : EncSpec.Statement (.atomgAnd w) := fun _ => rfl
theorem EncSpec.atomgOr (w : RF) : EncSpec.Statement (.atomgOr w) := fun _ => rfl
theorem EncSpec.atomgXor (w : RF) : EncSpec.Statement (.atomgXor w) := fun _ => rfl
theorem EncSpec.atomgExch (w : RF) : EncSpec.Statement (.atomgExch w) := fun _ => rfl
theorem EncSpec.atomgCas (w : RF) : EncSpec.Statement (.atomgCas w) := fun _ => rfl
theorem EncSpec.fence (w : MF) : EncSpec.Statement (.fence w) := fun _ => rfl
theorem EncSpec.rld (w : MF) : EncSpec.Statement (.rld w) := fun _ => rfl
theorem EncSpec.rst (w : MF) : EncSpec.Statement (.rst w) := fun _ => rfl
theorem EncSpec.ratomAdd (w : RatomF) : EncSpec.Statement (.ratomAdd w) := fun _ => rfl
theorem EncSpec.ratomSub (w : RatomF) : EncSpec.Statement (.ratomSub w) := fun _ => rfl
theorem EncSpec.ratomMin (w : RatomF) : EncSpec.Statement (.ratomMin w) := fun _ => rfl
theorem EncSpec.ratomMax (w : RatomF) : EncSpec.Statement (.ratomMax w) := fun _ => rfl
theorem EncSpec.ratomAnd (w : RatomF) : EncSpec.Statement (.ratomAnd w) := fun _ => rfl
theorem EncSpec.ratomOr (w : RatomF) : EncSpec.Statement (.ratomOr w) := fun _ => rfl
theorem EncSpec.ratomXor (w : RatomF) : EncSpec.Statement (.ratomXor w) := fun _ => rfl
theorem EncSpec.ratomExch (w : RatomF) : EncSpec.Statement (.ratomExch w) := fun _ => rfl
theorem EncSpec.ratomCas (w : RatomF) : EncSpec.Statement (.ratomCas w) := fun _ => rfl
theorem EncSpec.bra (w : BF) : EncSpec.Statement (.bra w) := fun _ => rfl
theorem EncSpec.brq (w : BF) : EncSpec.Statement (.brq w) := fun _ => rfl
theorem EncSpec.brd (w : BF) : EncSpec.Statement (.brd w) := fun _ => rfl
theorem EncSpec.brs (w : BF) : EncSpec.Statement (.brs w) := fun _ => rfl
theorem EncSpec.call (w : BF) : EncSpec.Statement (.call w) := fun _ => rfl
theorem EncSpec.ret (w : RF) : EncSpec.Statement (.ret w) := fun _ => rfl
theorem EncSpec.jmpx (w : RF) : EncSpec.Statement (.jmpx w) := fun _ => rfl
theorem EncSpec.regang (w : IF) : EncSpec.Statement (.regang w) := fun _ => rfl
theorem EncSpec.exit (w : RF) : EncSpec.Statement (.exit w) := fun _ => rfl
theorem EncSpec.nop (w : RF) : EncSpec.Statement (.nop w) := fun _ => rfl
theorem EncSpec.bara (w : RF) : EncSpec.Statement (.bara w) := fun _ => rfl
theorem EncSpec.barinit (w : RF) : EncSpec.Statement (.barinit w) := fun _ => rfl
theorem EncSpec.barst (w : RF) : EncSpec.Statement (.barst w) := fun _ => rfl
theorem EncSpec.tbar (w : RF) : EncSpec.Statement (.tbar w) := fun _ => rfl
theorem EncSpec.kinc (w : RF) : EncSpec.Statement (.kinc w) := fun _ => rfl
theorem EncSpec.kset (w : RF) : EncSpec.Statement (.kset w) := fun _ => rfl
theorem EncSpec.krd (w : RF) : EncSpec.Statement (.krd w) := fun _ => rfl
theorem EncSpec.time (w : RF) : EncSpec.Statement (.time w) := fun _ => rfl
theorem EncSpec.waitt (w : RF) : EncSpec.Statement (.waitt w) := fun _ => rfl
theorem EncSpec.phase (w : IF) : EncSpec.Statement (.phase w) := fun _ => rfl
theorem EncSpec.trig (w : RF) : EncSpec.Statement (.trig w) := fun _ => rfl
theorem EncSpec.mma (w : ReqF) : EncSpec.Statement (.mma w) := fun _ => rfl
theorem EncSpec.mloop (w : ReqF) : EncSpec.Statement (.mloop w) := fun _ => rfl
theorem EncSpec.mzero (w : ReqF) : EncSpec.Statement (.mzero w) := fun _ => rfl
theorem EncSpec.mdrain (w : ReqF) : EncSpec.Statement (.mdrain w) := fun _ => rfl
theorem EncSpec.mstat (w : MstatF) : EncSpec.Statement (.mstat w) := fun _ => rfl
theorem EncSpec.mchk (w : MstatF) : EncSpec.Statement (.mchk w) := fun _ => rfl
theorem EncSpec.dpload (w : DploadF) : EncSpec.Statement (.dpload w) := fun _ => rfl
theorem EncSpec.launch (w : LaunchF) : EncSpec.Statement (.launch w) := fun _ => rfl
theorem EncSpec.probe (w : RF) : EncSpec.Statement (.probe w) := fun _ => rfl
theorem EncSpec.tinv (w : RF) : EncSpec.Statement (.tinv w) := fun _ => rfl
theorem EncSpec.trap (w : IF) : EncSpec.Statement (.trap w) := fun _ => rfl
theorem EncSpec.bkpt (w : IF) : EncSpec.Statement (.bkpt w) := fun _ => rfl
theorem EncSpec.sysrd (w : IF) : EncSpec.Statement (.sysrd w) := fun _ => rfl
theorem EncSpec.syswr (w : IF) : EncSpec.Statement (.syswr w) := fun _ => rfl
theorem EncSpec.drainAdd (w : UF) : EncSpec.Statement (.drainAdd w) := fun _ => rfl
theorem EncSpec.drainSub (w : UF) : EncSpec.Statement (.drainSub w) := fun _ => rfl
theorem EncSpec.drainMul (w : UF) : EncSpec.Statement (.drainMul w) := fun _ => rfl
theorem EncSpec.drainFma (w : UF) : EncSpec.Statement (.drainFma w) := fun _ => rfl
theorem EncSpec.drainMin (w : UF) : EncSpec.Statement (.drainMin w) := fun _ => rfl
theorem EncSpec.drainMax (w : UF) : EncSpec.Statement (.drainMax w) := fun _ => rfl
theorem EncSpec.drainAbs (w : UF) : EncSpec.Statement (.drainAbs w) := fun _ => rfl
theorem EncSpec.drainNeg (w : UF) : EncSpec.Statement (.drainNeg w) := fun _ => rfl
theorem EncSpec.drainMovi (w : UF) : EncSpec.Statement (.drainMovi w) := fun _ => rfl
theorem EncSpec.drainLdc (w : UF) : EncSpec.Statement (.drainLdc w) := fun _ => rfl
theorem EncSpec.drainLdr (w : UF) : EncSpec.Statement (.drainLdr w) := fun _ => rfl
theorem EncSpec.drainTab (w : UF) : EncSpec.Statement (.drainTab w) := fun _ => rfl
theorem EncSpec.drainExp2 (w : UF) : EncSpec.Statement (.drainExp2 w) := fun _ => rfl
theorem EncSpec.drainRcp (w : UF) : EncSpec.Statement (.drainRcp w) := fun _ => rfl
theorem EncSpec.drainClamp (w : UF) : EncSpec.Statement (.drainClamp w) := fun _ => rfl
theorem EncSpec.drainRnd (w : UF) : EncSpec.Statement (.drainRnd w) := fun _ => rfl
theorem EncSpec.drainCvt (w : UF) : EncSpec.Statement (.drainCvt w) := fun _ => rfl
theorem EncSpec.drainQspan (w : UF) : EncSpec.Statement (.drainQspan w) := fun _ => rfl
theorem EncSpec.drainSt (w : UF) : EncSpec.Statement (.drainSt w) := fun _ => rfl
theorem EncSpec.drainChk (w : UF) : EncSpec.Statement (.drainChk w) := fun _ => rfl
theorem EncSpec.drainSkip (w : UF) : EncSpec.Statement (.drainSkip w) := fun _ => rfl
theorem EncSpec.drainSel (w : UF) : EncSpec.Statement (.drainSel w) := fun _ => rfl
theorem EncSpec.drainNop (w : UF) : EncSpec.Statement (.drainNop w) := fun _ => rfl
theorem EncSpec.drainEnd (w : UF) : EncSpec.Statement (.drainEnd w) := fun _ => rfl
theorem EncSpec.clauseFetch : EncSpec.Statement .clauseFetch := fun h => Bool.noConfusion h
theorem EncSpec.clauseIssue : EncSpec.Statement .clauseIssue := fun h => Bool.noConfusion h
theorem EncSpec.leadClauseIssue : EncSpec.Statement .leadClauseIssue := fun h => Bool.noConfusion h
theorem EncSpec.registerLand : EncSpec.Statement .registerLand := fun h => Bool.noConfusion h
theorem EncSpec.teamBarrierApply : EncSpec.Statement .teamBarrierApply := fun h => Bool.noConfusion h
theorem EncSpec.teamBarrierNotify : EncSpec.Statement .teamBarrierNotify := fun h => Bool.noConfusion h
theorem EncSpec.teamPlace : EncSpec.Statement .teamPlace := fun h => Bool.noConfusion h
theorem EncSpec.groupStart : EncSpec.Statement .groupStart := fun h => Bool.noConfusion h
theorem EncSpec.groupRetire : EncSpec.Statement .groupRetire := fun h => Bool.noConfusion h
theorem EncSpec.teamRelaunch : EncSpec.Statement .teamRelaunch := fun h => Bool.noConfusion h
theorem EncSpec.trigSignal : EncSpec.Statement .trigSignal := fun h => Bool.noConfusion h
theorem EncSpec.stopperLeave : EncSpec.Statement .stopperLeave := fun h => Bool.noConfusion h
theorem EncSpec.writeDispatch : EncSpec.Statement .writeDispatch := fun h => Bool.noConfusion h
theorem EncSpec.markerReceive : EncSpec.Statement .markerReceive := fun h => Bool.noConfusion h
theorem EncSpec.writeApply : EncSpec.Statement .writeApply := fun h => Bool.noConfusion h
theorem EncSpec.faultResolved : EncSpec.Statement .faultResolved := fun h => Bool.noConfusion h
theorem EncSpec.faultReport : EncSpec.Statement .faultReport := fun h => Bool.noConfusion h
theorem EncSpec.writeAck : EncSpec.Statement .writeAck := fun h => Bool.noConfusion h
theorem EncSpec.readAnswer : EncSpec.Statement .readAnswer := fun h => Bool.noConfusion h
theorem EncSpec.loadComplete : EncSpec.Statement .loadComplete := fun h => Bool.noConfusion h
theorem EncSpec.teamLoadServe : EncSpec.Statement .teamLoadServe := fun h => Bool.noConfusion h
theorem EncSpec.teamLoadComplete : EncSpec.Statement .teamLoadComplete := fun h => Bool.noConfusion h
theorem EncSpec.teamStoreApply : EncSpec.Statement .teamStoreApply := fun h => Bool.noConfusion h
theorem EncSpec.copyClaim : EncSpec.Statement .copyClaim := fun h => Bool.noConfusion h
theorem EncSpec.copyStreamStart : EncSpec.Statement .copyStreamStart := fun h => Bool.noConfusion h
theorem EncSpec.copyUnitDeliver : EncSpec.Statement .copyUnitDeliver := fun h => Bool.noConfusion h
theorem EncSpec.copyAck : EncSpec.Statement .copyAck := fun h => Bool.noConfusion h
theorem EncSpec.copyCancel : EncSpec.Statement .copyCancel := fun h => Bool.noConfusion h
theorem EncSpec.sequencedCopyrApply : EncSpec.Statement .sequencedCopyrApply := fun h => Bool.noConfusion h
theorem EncSpec.scheduledCopyBeat : EncSpec.Statement .scheduledCopyBeat := fun h => Bool.noConfusion h
theorem EncSpec.scheduledCopyEnd : EncSpec.Statement .scheduledCopyEnd := fun h => Bool.noConfusion h
theorem EncSpec.requestPost : EncSpec.Statement .requestPost := fun h => Bool.noConfusion h
theorem EncSpec.passGrant : EncSpec.Statement .passGrant := fun h => Bool.noConfusion h
theorem EncSpec.passStep : EncSpec.Statement .passStep := fun h => Bool.noConfusion h
theorem EncSpec.bFetch : EncSpec.Statement .bFetch := fun h => Bool.noConfusion h
theorem EncSpec.mzeroComplete : EncSpec.Statement .mzeroComplete := fun h => Bool.noConfusion h
theorem EncSpec.drainStart : EncSpec.Statement .drainStart := fun h => Bool.noConfusion h
theorem EncSpec.drainRow : EncSpec.Statement .drainRow := fun h => Bool.noConfusion h
theorem EncSpec.drainWrite : EncSpec.Statement .drainWrite := fun h => Bool.noConfusion h
theorem EncSpec.passComplete : EncSpec.Statement .passComplete := fun h => Bool.noConfusion h
theorem EncSpec.reservationStart : EncSpec.Statement .reservationStart := fun h => Bool.noConfusion h
theorem EncSpec.dploadWrite : EncSpec.Statement .dploadWrite := fun h => Bool.noConfusion h
theorem EncSpec.walkComplete : EncSpec.Statement .walkComplete := fun h => Bool.noConfusion h
theorem EncSpec.shootdownSweep : EncSpec.Statement .shootdownSweep := fun h => Bool.noConfusion h
theorem EncSpec.sweepAck : EncSpec.Statement .sweepAck := fun h => Bool.noConfusion h
theorem EncSpec.shootdownComplete : EncSpec.Statement .shootdownComplete := fun h => Bool.noConfusion h
theorem EncSpec.tinvcStart : EncSpec.Statement .tinvcStart := fun h => Bool.noConfusion h
theorem EncSpec.ctxCreate : EncSpec.Statement .ctxCreate := fun h => Bool.noConfusion h
theorem EncSpec.ctxBind : EncSpec.Statement .ctxBind := fun h => Bool.noConfusion h
theorem EncSpec.ctxRun : EncSpec.Statement .ctxRun := fun h => Bool.noConfusion h
theorem EncSpec.ctxFreeze : EncSpec.Statement .ctxFreeze := fun h => Bool.noConfusion h
theorem EncSpec.ctxSuspend : EncSpec.Statement .ctxSuspend := fun h => Bool.noConfusion h
theorem EncSpec.ctxResume : EncSpec.Statement .ctxResume := fun h => Bool.noConfusion h
theorem EncSpec.ctxKill : EncSpec.Statement .ctxKill := fun h => Bool.noConfusion h
theorem EncSpec.ctxReset : EncSpec.Statement .ctxReset := fun h => Bool.noConfusion h
theorem EncSpec.ctxFree : EncSpec.Statement .ctxFree := fun h => Bool.noConfusion h
theorem EncSpec.swapOutComplete : EncSpec.Statement .swapOutComplete := fun h => Bool.noConfusion h
theorem EncSpec.gracefulComplete : EncSpec.Statement .gracefulComplete := fun h => Bool.noConfusion h
theorem EncSpec.gracefulDeadlineExpiry : EncSpec.Statement .gracefulDeadlineExpiry := fun h => Bool.noConfusion h
theorem EncSpec.unitcmdRetry : EncSpec.Statement .unitcmdRetry := fun h => Bool.noConfusion h
theorem EncSpec.unitcmdSkip : EncSpec.Statement .unitcmdSkip := fun h => Bool.noConfusion h
theorem EncSpec.unitcmdRegion : EncSpec.Statement .unitcmdRegion := fun h => Bool.noConfusion h
theorem EncSpec.unitcmdKill : EncSpec.Statement .unitcmdKill := fun h => Bool.noConfusion h
theorem EncSpec.trapFinal : EncSpec.Statement .trapFinal := fun h => Bool.noConfusion h
theorem EncSpec.faultRecordWrite : EncSpec.Statement .faultRecordWrite := fun h => Bool.noConfusion h
theorem EncSpec.keycmdLoad : EncSpec.Statement .keycmdLoad := fun h => Bool.noConfusion h
theorem EncSpec.keycmdErase : EncSpec.Statement .keycmdErase := fun h => Bool.noConfusion h
theorem EncSpec.flagsClear : EncSpec.Statement .flagsClear := fun h => Bool.noConfusion h
theorem EncSpec.oorrecClear : EncSpec.Statement .oorrecClear := fun h => Bool.noConfusion h
theorem EncSpec.ibdataClear : EncSpec.Statement .ibdataClear := fun h => Bool.noConfusion h
theorem EncSpec.flagReachContext : EncSpec.Statement .flagReachContext := fun h => Bool.noConfusion h
theorem EncSpec.tdispLockInterface : EncSpec.Statement .tdispLockInterface := fun h => Bool.noConfusion h
theorem EncSpec.tdispStartInterface : EncSpec.Statement .tdispStartInterface := fun h => Bool.noConfusion h
theorem EncSpec.tdispStopInterface : EncSpec.Statement .tdispStopInterface := fun h => Bool.noConfusion h
theorem EncSpec.mgmtsemAcquire : EncSpec.Statement .mgmtsemAcquire := fun h => Bool.noConfusion h
theorem EncSpec.mgmtsemRelease : EncSpec.Statement .mgmtsemRelease := fun h => Bool.noConfusion h
theorem EncSpec.qcfgWrite : EncSpec.Statement .qcfgWrite := fun h => Bool.noConfusion h
theorem EncSpec.qcmdClear : EncSpec.Statement .qcmdClear := fun h => Bool.noConfusion h
theorem EncSpec.qcmdSkip : EncSpec.Statement .qcmdSkip := fun h => Bool.noConfusion h
theorem EncSpec.doorbell : EncSpec.Statement .doorbell := fun h => Bool.noConfusion h
theorem EncSpec.recordFetch : EncSpec.Statement .recordFetch := fun h => Bool.noConfusion h
theorem EncSpec.recordConsume : EncSpec.Statement .recordConsume := fun h => Bool.noConfusion h
theorem EncSpec.kernelArm : EncSpec.Statement .kernelArm := fun h => Bool.noConfusion h
theorem EncSpec.kernelStart : EncSpec.Statement .kernelStart := fun h => Bool.noConfusion h
theorem EncSpec.kernelRetire : EncSpec.Statement .kernelRetire := fun h => Bool.noConfusion h
theorem EncSpec.laycmdLoad : EncSpec.Statement .laycmdLoad := fun h => Bool.noConfusion h
theorem EncSpec.laycmdArm : EncSpec.Statement .laycmdArm := fun h => Bool.noConfusion h
theorem EncSpec.laycmdDisarm : EncSpec.Statement .laycmdDisarm := fun h => Bool.noConfusion h
theorem EncSpec.laycmdUnload : EncSpec.Statement .laycmdUnload := fun h => Bool.noConfusion h
theorem EncSpec.layBaseTick : EncSpec.Statement .layBaseTick := fun h => Bool.noConfusion h
theorem EncSpec.periodBoundary : EncSpec.Statement .periodBoundary := fun h => Bool.noConfusion h
theorem EncSpec.slackEvent : EncSpec.Statement .slackEvent := fun h => Bool.noConfusion h
theorem EncSpec.slackOverrun : EncSpec.Statement .slackOverrun := fun h => Bool.noConfusion h
theorem EncSpec.faultNotice : EncSpec.Statement .faultNotice := fun h => Bool.noConfusion h
theorem EncSpec.readyReport : EncSpec.Statement .readyReport := fun h => Bool.noConfusion h
theorem EncSpec.rollCallTimeout : EncSpec.Statement .rollCallTimeout := fun h => Bool.noConfusion h
theorem EncSpec.restartAnnounce : EncSpec.Statement .restartAnnounce := fun h => Bool.noConfusion h
theorem EncSpec.layResume : EncSpec.Statement .layResume := fun h => Bool.noConfusion h
theorem EncSpec.originLoss : EncSpec.Statement .originLoss := fun h => Bool.noConfusion h
theorem EncSpec.restartWaitExpiry : EncSpec.Statement .restartWaitExpiry := fun h => Bool.noConfusion h
theorem EncSpec.timeCorrection : EncSpec.Statement .timeCorrection := fun h => Bool.noConfusion h
theorem EncSpec.synclostSet : EncSpec.Statement .synclostSet := fun h => Bool.noConfusion h
theorem EncSpec.synclostClear : EncSpec.Statement .synclostClear := fun h => Bool.noConfusion h
theorem EncSpec.waittExpiry : EncSpec.Statement .waittExpiry := fun h => Bool.noConfusion h
theorem EncSpec.vc0FrameSend : EncSpec.Statement .vc0FrameSend := fun h => Bool.noConfusion h
theorem EncSpec.vc0FrameWrite : EncSpec.Statement .vc0FrameWrite := fun h => Bool.noConfusion h
theorem EncSpec.missingFrame : EncSpec.Statement .missingFrame := fun h => Bool.noConfusion h
theorem EncSpec.frameReceive : EncSpec.Statement .frameReceive := fun h => Bool.noConfusion h
theorem EncSpec.retryRequest : EncSpec.Statement .retryRequest := fun h => Bool.noConfusion h
theorem EncSpec.dynamicMessage : EncSpec.Statement .dynamicMessage := fun h => Bool.noConfusion h
theorem EncSpec.wkcmdStage : EncSpec.Statement .wkcmdStage := fun h => Bool.noConfusion h
theorem EncSpec.wkcmdErase : EncSpec.Statement .wkcmdErase := fun h => Bool.noConfusion h
theorem EncSpec.keySlotActivate : EncSpec.Statement .keySlotActivate := fun h => Bool.noConfusion h
theorem EncSpec.keySlotRetire : EncSpec.Statement .keySlotRetire := fun h => Bool.noConfusion h
theorem EncSpec.laneSpareRequest : EncSpec.Statement .laneSpareRequest := fun h => Bool.noConfusion h
theorem EncSpec.laneSpare : EncSpec.Statement .laneSpare := fun h => Bool.noConfusion h
theorem EncSpec.linkEnable : EncSpec.Statement .linkEnable := fun h => Bool.noConfusion h
theorem EncSpec.trainingComplete : EncSpec.Statement .trainingComplete := fun h => Bool.noConfusion h
theorem EncSpec.laneFail : EncSpec.Statement .laneFail := fun h => Bool.noConfusion h
theorem EncSpec.linkDown : EncSpec.Statement .linkDown := fun h => Bool.noConfusion h
theorem EncSpec.strikeReport : EncSpec.Statement .strikeReport := fun h => Bool.noConfusion h
theorem EncSpec.rollbackEnd : EncSpec.Statement .rollbackEnd := fun h => Bool.noConfusion h
theorem EncSpec.regionRecordFree : EncSpec.Statement .regionRecordFree := fun h => Bool.noConfusion h
theorem EncSpec.protectedMismatch : EncSpec.Statement .protectedMismatch := fun h => Bool.noConfusion h
theorem EncSpec.dualRunMismatch : EncSpec.Statement .dualRunMismatch := fun h => Bool.noConfusion h
theorem EncSpec.meshRetransmit : EncSpec.Statement .meshRetransmit := fun h => Bool.noConfusion h
theorem EncSpec.homeReplay : EncSpec.Statement .homeReplay := fun h => Bool.noConfusion h
theorem EncSpec.hrepcmdGo : EncSpec.Statement .hrepcmdGo := fun h => Bool.noConfusion h
theorem EncSpec.hbmLaneRepair : EncSpec.Statement .hbmLaneRepair := fun h => Bool.noConfusion h
theorem EncSpec.zcntClear : EncSpec.Statement .zcntClear := fun h => Bool.noConfusion h
theorem EncSpec.uecntClear : EncSpec.Statement .uecntClear := fun h => Bool.noConfusion h
theorem EncSpec.poolcfgWrite : EncSpec.Statement .poolcfgWrite := fun h => Bool.noConfusion h
theorem EncSpec.operatingPointChange : EncSpec.Statement .operatingPointChange := fun h => Bool.noConfusion h
theorem EncSpec.pwrcmdBoost : EncSpec.Statement .pwrcmdBoost := fun h => Bool.noConfusion h
theorem EncSpec.pwrcmdEndboost : EncSpec.Statement .pwrcmdEndboost := fun h => Bool.noConfusion h
theorem EncSpec.pwrcmdOffline : EncSpec.Statement .pwrcmdOffline := fun h => Bool.noConfusion h
theorem EncSpec.pwrcmdOnline : EncSpec.Statement .pwrcmdOnline := fun h => Bool.noConfusion h
theorem EncSpec.boostExpiry : EncSpec.Statement .boostExpiry := fun h => Bool.noConfusion h
theorem EncSpec.powerCheck : EncSpec.Statement .powerCheck := fun h => Bool.noConfusion h
theorem EncSpec.dieQuiesce : EncSpec.Statement .dieQuiesce := fun h => Bool.noConfusion h
theorem EncSpec.powerCutoff : EncSpec.Statement .powerCutoff := fun h => Bool.noConfusion h
theorem EncSpec.heartbeat : EncSpec.Statement .heartbeat := fun h => Bool.noConfusion h
theorem EncSpec.controllerTakeover : EncSpec.Statement .controllerTakeover := fun h => Bool.noConfusion h
theorem EncSpec.fwcmdStage : EncSpec.Statement .fwcmdStage := fun h => Bool.noConfusion h
theorem EncSpec.fwcmdActivate : EncSpec.Statement .fwcmdActivate := fun h => Bool.noConfusion h
theorem EncSpec.fwcmdAbort : EncSpec.Statement .fwcmdAbort := fun h => Bool.noConfusion h
theorem EncSpec.handoverTimeout : EncSpec.Statement .handoverTimeout := fun h => Bool.noConfusion h
theorem EncSpec.spdmGetMeasurements : EncSpec.Statement .spdmGetMeasurements := fun h => Bool.noConfusion h
theorem EncSpec.securityAlarm : EncSpec.Statement .securityAlarm := fun h => Bool.noConfusion h
theorem EncSpec.powerOn : EncSpec.Statement .powerOn := fun h => Bool.noConfusion h
theorem EncSpec.registerWrite : EncSpec.Statement .registerWrite := fun h => Bool.noConfusion h
theorem EncSpec.ownerPortLinkDown : EncSpec.Statement .ownerPortLinkDown := fun h => Bool.noConfusion h
theorem EncSpec.sysrdComplete : EncSpec.Statement .sysrdComplete := fun h => Bool.noConfusion h
theorem EncSpec.scrflgComplete : EncSpec.Statement .scrflgComplete := fun h => Bool.noConfusion h
theorem EncSpec.launchDelivered : EncSpec.Statement .launchDelivered := fun h => Bool.noConfusion h

end Sys2Proof.Laws
end

