-- ==== Sys2Proof/Tests/Slice0.lean ====
section
/-! SUPPORT. Tests: ill-formed terms that the checks of WellFormed refuse; every constructor's decoding, by words laid out
from the spec's encoding tables and by the words the spec itself works out; and, for every statement of
Certificates/Slice0/Obligations with hypotheses, states and operands that meet them (`witness_<statement>`). -/

namespace Sys2Proof.Tests

-- One theorem at a time: the tests are evaluated in the kernel and a thread each would need much memory.
set_option Elab.async false

open Sys2Proof.Machine

/-! ### Well-formed terms -/

/-- No guard. -/
def g0 : Guard := { prd := 0, png := 0 }
/-- An ill-formed guard: PRD = 0 with PNG = 1 (R38). -/
def gBad : Guard := { prd := 0, png := 1 }
/-- IADD.I32 V3, V1, V2. -/
def r0 : RF := { g := g0, d := 3, a := 1, b := 2, c := 0xFF, ty := 2, md := 0 }
/-- An I-format word. -/
def i0 : IF := { g := g0, d := 3, a := 1, md := 0, imm := 7 }
/-- LDS.B32 V3, [V1]. -/
def m0 : MF := { g := g0, data := 3, base := 1, index := 0xFF, sz := 2, ord := 0, sco := 0, off := 0 }
/-- A branch two words on. -/
def b0 : BF := { g := g0, cond := 0, a := 0xFF, off := 2 }
/-- COPY of shape 0 on channel 0, K2. -/
def cp0 : CopyF :=
  { g := g0, src := 0x81, dst := 0x80, seq := 0xFF, shape := 0, ch := 0, ty := 0, k := 2, bar := 0, ben := 0, sched := 0, skind := 0,
    kind := 1 }
/-- CPYST on channel 0, K3. -/
def cs0 : CpystF := { g := g0, val := 0x80, addr := 0x82, nul := 0xFF, ch := 0, sco := 2, k := 3, bar := 0, ben := 0 }
/-- CPYCAN of channel 0, K3. -/
def cc0 : CpycanF := { g := g0, n1 := 0xFF, n2 := 0xFF, n3 := 0xFF, ch := 0, k := 3 }
/-- MMA.BF16 ACC1, V64, V80, K2. -/
def q0 : ReqF :=
  { g := g0, abase := 4, bbase := 5, rl := 0, sk := 0xFF, sd := 0xFF, bsel := 0, z39 := 0, tol := 0, chk := 0, ty := 10, kc := 2,
    bar := 0, ben := 0, tile := 1, bscr := 0, za := 0, pri := 0 }
/-- MSTAT S6, K3, 0. -/
def ms0 : MstatF := { g := g0, d := 0x86, k := 3, sel := 0 }
/-- DPLOAD.PROG S6, 5, K2. -/
def dp0 : DploadF :=
  { g := g0, src := 0x86, nul := 0xFF, cnt := 0, first := 5, tab := 0, kc := 2, bar := 0, ben := 0 }
/-- LAUNCH S4, S2, queue 5, K1. -/
def la0 : LaunchF := { g := g0, d := 0x84, a := 0x82, t := 0xFF, q := 5, ser := 0, kc := 1 }
/-- RATOM.ADD.I32 V3, S3, [V10], V12. -/
def ra0 : RatomF := { g := g0, d := 3, p := 0x83, a := 10, b := 12, ty := 2, c := 0xFF, ord := 1 }

/-- The terms above are well-formed. -/
theorem test_wf_accepts :
    ([.iadd r0, .movi i0, .lds m0, .bra b0, .copy cp0, .cpyst cs0, .cpycan cc0, .mma q0, .mstat ms0, .dpload dp0, .launch la0,
      .ratomAdd ra0, .drainEnd { xd := 0, sa := 0, sb := 0, rm := 0, imm := 0 }] : List Instr).all (·.wf) = true := by decide

/-- PRD = 0 with PNG = 1 is refused in every format (R38). -/
theorem test_wf_refuses_guard :
    ([.iadd { r0 with g := gBad }, .movi { i0 with g := gBad }, .lds { m0 with g := gBad }, .bra { b0 with g := gBad },
      .copy { cp0 with g := gBad }, .cpyst { cs0 with g := gBad }, .cpycan { cc0 with g := gBad }, .mma { q0 with g := gBad },
      .mstat { ms0 with g := gBad }, .dpload { dp0 with g := gBad }, .launch { la0 with g := gBad },
      .ratomAdd { ra0 with g := gBad }] : List Instr).any (·.wf) = false := by decide

/-- TY = 17 is refused wherever there is a type (R42). -/
theorem test_wf_refuses_type :
    ([.iadd { r0 with ty := 17 }, .copyr { cp0 with ty := 17 }, .mloop { q0 with ty := 17 }, .ratomCas { ra0 with ty := 17 }] :
      List Instr).any (·.wf) = false := by decide

/-- SZ, ORD and SCO codes of 5 or more and a scope under plain ordering are refused (R32). -/
theorem test_wf_refuses_memory_codes :
    ([.ldg { m0 with sz := 5 }, .stg { m0 with ord := 5 }, .fence { m0 with ord := 4, sco := 5 }, .lds { m0 with sco := 1 },
      .ratomOr { ra0 with ord := 5 }, .cpyst { cs0 with sco := 5 }] : List Instr).any (·.wf) = false := by decide

/-- A barrier without BEN is refused (Tables 11.3, 12.3, 13.5; R239). -/
theorem test_wf_refuses_barrier :
    ([.copy { cp0 with bar := 3 }, .copyr { cp0 with bar := 3 }, .cpyst { cs0 with bar := 3 }, .mdrain { q0 with bar := 3 },
      .dpload { dp0 with bar := 3 }] : List Instr).any (·.wf) = false := by decide

/-- Unused fields that do not hold their value are refused: CPYCAN's registers (R240), bit 39 of a request (Table 12.3), selector 3
of MSTAT (R265), [28:21] of DPLOAD (Table 13.5), a field that a micro-operation does not use (R270). -/
theorem test_wf_refuses_unused_fields :
    ([.cpycan { cc0 with n1 := 0 }, .cpycan { cc0 with n2 := 0 }, .cpycan { cc0 with n3 := 0 }, .mma { q0 with z39 := 1 },
      .mstat { ms0 with sel := 3 }, .mchk { ms0 with sel := 3 }, .dpload { dp0 with nul := 0 },
      .drainAbs { xd := 1, sa := 2, sb := 1, rm := 0, imm := 0 }, .drainEnd { xd := 0, sa := 0, sb := 0, rm := 0, imm := 1 }] :
      List Instr).any (·.wf) = false := by decide

/-- Events have no words: none is well-formed. -/
theorem test_wf_refuses_events : ([.clauseFetch, .powerOn, .heartbeat] : List Instr).any (·.wf) = false := by decide

/-! ### Every constructor's decoding: OP from Table 2.8 below the fields of its format, each at the bits its table gives -/

/-- PRD at [11:9] and PNG at 12 (R31). -/
def gBits : Nat := 5 * 2 ^ 9 + 1 * 2 ^ 12
/-- The guard of `gBits`. -/
def gT : Guard := { prd := 5, png := 1 }
/-- D [20:13], A [28:21], B [36:29], C [44:37], TY [49:45], MOD [57:50] (Table 2.4). -/
def rBits : Nat := gBits + 0x11 * 2 ^ 13 + 0xA2 * 2 ^ 21 + 0x33 * 2 ^ 29 + 0xC4 * 2 ^ 37 + 0x16 * 2 ^ 45 + 0xE5 * 2 ^ 50
/-- The fields of `rBits`. -/
def rT : RF := { g := gT, d := 0x11, a := 0xA2, b := 0x33, c := 0xC4, ty := 0x16, md := 0xE5 }
/-- D [20:13], A [28:21], MOD [31:29], IMM32 [63:32] (Table 2.4). -/
def iBits : Nat := gBits + 0x91 * 2 ^ 13 + 0x62 * 2 ^ 21 + 5 * 2 ^ 29 + 0x89ABCDEF * 2 ^ 32
/-- The fields of `iBits`. -/
def iT : IF := { g := gT, d := 0x91, a := 0x62, md := 5, imm := 0x89ABCDEF }
/-- data [20:13], base [28:21], index [36:29], SZ [39:37], ORD [42:40], SCO [45:43], OFF [63:46] (Table 2.4). -/
def mBits : Nat := gBits + 0x91 * 2 ^ 13 + 0x62 * 2 ^ 21 + 0xB3 * 2 ^ 29 + 3 * 2 ^ 37 + 6 * 2 ^ 40 + 1 * 2 ^ 43 + 0x2ABCD * 2 ^ 46
/-- The fields of `mBits`. -/
def mT : MF := { g := gT, data := 0x91, base := 0x62, index := 0xB3, sz := 3, ord := 6, sco := 1, off := 0x2ABCD }
/-- COND [20:13], A [28:21], OFF32 [63:32] (Table 2.4). -/
def bBits : Nat := gBits + 0x91 * 2 ^ 13 + 0x62 * 2 ^ 21 + 0xFEDCBA98 * 2 ^ 32
/-- The fields of `bBits`. -/
def bT : BF := { g := gT, cond := 0x91, a := 0x62, off := 0xFEDCBA98 }
/-- Table 12.3. -/
def qBits : Nat :=
  gBits + 1 * 2 ^ 13 + 6 * 2 ^ 16 + 2 * 2 ^ 19 + 0x91 * 2 ^ 21 + 0x62 * 2 ^ 29 + 1 * 2 ^ 37 + 1 * 2 ^ 39 + 9 * 2 ^ 40 + 0 * 2 ^ 44 +
    0x16 * 2 ^ 45 + 6 * 2 ^ 50 + 9 * 2 ^ 54 + 1 * 2 ^ 58 + 0 * 2 ^ 59 + 1 * 2 ^ 60 + 0 * 2 ^ 61 + 2 * 2 ^ 62
/-- The fields of `qBits`. -/
def qT : ReqF :=
  { g := gT, abase := 1, bbase := 6, rl := 2, sk := 0x91, sd := 0x62, bsel := 1, z39 := 1, tol := 9, chk := 0, ty := 0x16, kc := 6,
    bar := 9, ben := 1, tile := 0, bscr := 1, za := 0, pri := 2 }
/-- D, P, A, B in the places of format R, C [57:50], ORD [60:58] (Table 19.9). -/
def tBits : Nat := gBits + 0x11 * 2 ^ 13 + 0xA2 * 2 ^ 21 + 0x33 * 2 ^ 29 + 0xC4 * 2 ^ 37 + 0x16 * 2 ^ 45 + 0xE5 * 2 ^ 50 + 3 * 2 ^ 58
/-- The fields of `tBits`. -/
def tT : RatomF := { g := gT, d := 0x11, p := 0xA2, a := 0x33, b := 0xC4, ty := 0x16, c := 0xE5, ord := 3 }

/-- Format R of group 0. -/
theorem test_decode_r0 : ([
    (0x000, .iadd), (0x001, .isub), (0x002, .imul), (0x003, .imulh), (0x004, .imad), (0x005, .imin),
    (0x006, .imax), (0x007, .iaddc), (0x008, .iabs), (0x009, .ineg), (0x00A, .and), (0x00B, .or),
    (0x00C, .xor), (0x00D, .andn), (0x00E, .not), (0x00F, .shl), (0x010, .shr), (0x011, .sar), (0x012, .rotl),
    (0x013, .bfe), (0x014, .bfi), (0x015, .popc), (0x016, .clz), (0x017, .ffs), (0x018, .brev), (0x019, .icmp),
    (0x01A, .sel), (0x01B, .mov), (0x01E, .lea), (0x025, .plop)] : List (Nat × (RF → Instr))).all
    (fun x => decodeTableWord 64 (x.1 + rBits) == some (x.2 rT)) = true := by decide

/-- Format R of groups 1 and 2. -/
theorem test_decode_r1 : ([
    (0x040, .fadd), (0x041, .fsub), (0x042, .fmul), (0x043, .ffma), (0x044, .fmin), (0x045, .fmax),
    (0x046, .fabs), (0x047, .fneg), (0x048, .fcmp), (0x049, .frnd), (0x04A, .fclass), (0x04B, .fscale),
    (0x04C, .fdot2), (0x04D, .dot4), (0x080, .cvtf), (0x081, .cvti), (0x082, .cvtfi), (0x083, .pack2),
    (0x084, .pack4), (0x085, .unpk), (0x086, .qnt), (0x087, .dqnt), (0x088, .qdesc), (0x089, .frcp),
    (0x08A, .frsq), (0x08B, .fsqrt), (0x08C, .fexp2), (0x08D, .flog2), (0x08E, .fsin), (0x08F, .fcos),
    (0x090, .ftanh)] : List (Nat × (RF → Instr))).all
    (fun x => decodeTableWord 64 (x.1 + rBits) == some (x.2 rT)) = true := by decide

/-- Format R of group 3. -/
theorem test_decode_r3 : ([
    (0x0C0, .qswph), (0x0C1, .qswpv), (0x0C2, .qswpd), (0x0C3, .qbc), (0x0C4, .shfl), (0x0C5, .shflu),
    (0x0C6, .shfld), (0x0C7, .shflx), (0x0C8, .vote), (0x0C9, .ballot), (0x0CA, .matchLanes), (0x0CB, .lpopc),
    (0x0CC, .rdlane), (0x0CD, .wrlane), (0x0CE, .wreduce), (0x0CF, .wscan), (0x0D0, .xmov), (0x0D1, .dqpop),
    (0x0D2, .lpush)] : List (Nat × (RF → Instr))).all
    (fun x => decodeTableWord 64 (x.1 + rBits) == some (x.2 rT)) = true := by decide

/-- Format R of groups 4 and 5. -/
theorem test_decode_r4 : ([
    (0x103, .atomsAdd), (0x104, .atomsSub), (0x105, .atomsMin), (0x106, .atomsMax), (0x107, .atomsAnd),
    (0x108, .atomsOr), (0x109, .atomsXor), (0x10A, .atomsExch), (0x10B, .atomsCas), (0x10C, .scrflg),
    (0x142, .atomgAdd), (0x143, .atomgSub), (0x144, .atomgMin), (0x145, .atomgMax), (0x146, .atomgAnd),
    (0x147, .atomgOr), (0x148, .atomgXor), (0x149, .atomgExch), (0x14A, .atomgCas)] : List (Nat × (RF → Instr))).all
    (fun x => decodeTableWord 64 (x.1 + rBits) == some (x.2 rT)) = true := by decide

/-- Format R of groups 6 and 7. -/
theorem test_decode_r6 : ([
    (0x185, .ret), (0x186, .jmpx), (0x188, .exit), (0x189, .nop), (0x18A, .bara), (0x18B, .barinit),
    (0x18C, .barst), (0x18D, .tbar), (0x18E, .kinc), (0x18F, .kset), (0x190, .krd), (0x191, .time),
    (0x192, .waitt), (0x194, .trig), (0x1C8, .probe), (0x1C9, .tinv)] : List (Nat × (RF → Instr))).all
    (fun x => decodeTableWord 64 (x.1 + rBits) == some (x.2 rT)) = true := by decide

/-- Format I. -/
theorem test_decode_i : ([
    (0x01C, .movi), (0x01D, .movhi), (0x01F, .iaddi), (0x020, .imuli), (0x021, .andi), (0x022, .ori),
    (0x023, .xori), (0x024, .icmpi), (0x187, .regang), (0x193, .phase), (0x1CA, .trap), (0x1CB, .bkpt),
    (0x1CC, .sysrd), (0x1CD, .syswr)] : List (Nat × (IF → Instr))).all
    (fun x => decodeTableWord 64 (x.1 + iBits) == some (x.2 iT)) = true := by decide

/-- Format M. -/
theorem test_decode_m : ([
    (0x100, .lds), (0x101, .sts), (0x102, .ldsb), (0x140, .ldg), (0x141, .stg), (0x14B, .fence), (0x14C, .rld),
    (0x14D, .rst)] : List (Nat × (MF → Instr))).all
    (fun x => decodeTableWord 64 (x.1 + mBits) == some (x.2 mT)) = true := by decide

/-- Format B. -/
theorem test_decode_b : ([
    (0x180, .bra), (0x181, .brq), (0x182, .brd), (0x183, .brs), (0x184, .call)] : List (Nat × (BF → Instr))).all
    (fun x => decodeTableWord 64 (x.1 + bBits) == some (x.2 bT)) = true := by decide

/-- Engine requests. -/
theorem test_decode_requests : ([
    (0x1C0, .mma), (0x1C1, .mloop), (0x1C2, .mzero), (0x1C3, .mdrain)] : List (Nat × (ReqF → Instr))).all
    (fun x => decodeTableWord 64 (x.1 + qBits) == some (x.2 qT)) = true := by decide

/-- The RATOM family. -/
theorem test_decode_ratom : ([
    (0x14E, .ratomAdd), (0x14F, .ratomSub), (0x150, .ratomMin), (0x151, .ratomMax), (0x152, .ratomAnd),
    (0x153, .ratomOr), (0x154, .ratomXor), (0x155, .ratomExch), (0x156, .ratomCas)] : List (Nat × (RatomF → Instr))).all
    (fun x => decodeTableWord 64 (x.1 + tBits) == some (x.2 tT)) = true := by decide

/-- COPY and COPYR: SRC [20:13], DST [28:21], [36:29], SHAPE [42:37], CH [44:43], TY [49:45], K [53:50], BAR [57:54], BEN 58, SCHED
59, SKIND 60, [62:61] (Table 11.3). -/
theorem test_decode_copy :
    let b := gBits + 0x91 * 2 ^ 13 + 0x62 * 2 ^ 21 + 0xB3 * 2 ^ 29 + 0x2A * 2 ^ 37 + 1 * 2 ^ 43 + 0x16 * 2 ^ 45 + 6 * 2 ^ 50 + 9 * 2 ^ 54 +
      1 * 2 ^ 58 + 0 * 2 ^ 59 + 1 * 2 ^ 60 + 2 * 2 ^ 61
    let f : CopyF := { g := gT, src := 0x91, dst := 0x62, seq := 0xB3, shape := 0x2A, ch := 1, ty := 0x16, k := 6, bar := 9, ben := 1,
                       sched := 0, skind := 1, kind := 2 }
    decodeTableWord 64 (0x10D + b) = some (.copy f) ∧ decodeTableWord 64 (0x10E + b) = some (.copyr f) := by decide

/-- CPYST (R239) and CPYCAN (R240). -/
theorem test_decode_cpyst_cpycan :
    decodeTableWord 64 (0x10F + gBits + 0x91 * 2 ^ 13 + 0x62 * 2 ^ 21 + 0xFF * 2 ^ 29 + 2 * 2 ^ 43 + 3 * 2 ^ 45 + 6 * 2 ^ 50 + 9 * 2 ^ 54 + 2 ^ 58) =
      some (.cpyst { g := gT, val := 0x91, addr := 0x62, nul := 0xFF, ch := 2, sco := 3, k := 6, bar := 9, ben := 1 }) ∧
    decodeTableWord 64 (0x110 + gBits + 0xFF * 2 ^ 13 + 0xFF * 2 ^ 21 + 0xFF * 2 ^ 29 + 2 * 2 ^ 43 + 6 * 2 ^ 50) =
      some (.cpycan { g := gT, n1 := 0xFF, n2 := 0xFF, n3 := 0xFF, ch := 2, k := 6 }) := by decide

/-- MSTAT and MCHK (R265). -/
theorem test_decode_status :
    let b := gBits + 0x91 * 2 ^ 13 + 6 * 2 ^ 21 + 2 * 2 ^ 25
    let f : MstatF := { g := gT, d := 0x91, k := 6, sel := 2 }
    decodeTableWord 64 (0x1C4 + b) = some (.mstat f) ∧ decodeTableWord 64 (0x1C5 + b) = some (.mchk f) := by decide

/-- DPLOAD (Table 13.5) and LAUNCH (R343). -/
theorem test_decode_dpload_launch :
    decodeTableWord 64 (0x1C6 + gBits + 0x91 * 2 ^ 13 + 0xFF * 2 ^ 21 + 0x62 * 2 ^ 29 + 0xB3 * 2 ^ 37 + 1 * 2 ^ 45 + 6 * 2 ^ 50 + 9 * 2 ^ 54 + 2 ^ 58) =
      some (.dpload { g := gT, src := 0x91, nul := 0xFF, cnt := 0x62, first := 0xB3, tab := 1, kc := 6, bar := 9, ben := 1 }) ∧
    decodeTableWord 64 (0x1C7 + gBits + 0x91 * 2 ^ 13 + 0x62 * 2 ^ 21 + 0xB3 * 2 ^ 29 + 0xC4 * 2 ^ 37 + 1 * 2 ^ 45 + 6 * 2 ^ 50) =
      some (.launch { g := gT, d := 0x91, a := 0x62, t := 0xB3, q := 0xC4, ser := 1, kc := 6 }) := by decide

/-- Micro-operation words with every field they use (Tables 13.1, 13.3). -/
theorem test_decode_uops0 :
    decodeTableWord 32 0x000669a0 = some (.drainAdd { xd := 5, sa := 9, sb := 6, rm := 2, imm := 0x1 }) ∧
    decodeTableWord 32 0x000669a1 = some (.drainSub { xd := 5, sa := 9, sb := 6, rm := 2, imm := 0x1 }) ∧
    decodeTableWord 32 0x000699a2 = some (.drainMul { xd := 5, sa := 9, sb := 9, rm := 2, imm := 0x1 }) ∧
    decodeTableWord 32 0x000699a3 = some (.drainFma { xd := 5, sa := 9, sb := 9, rm := 2, imm := 0x1 }) ∧
    decodeTableWord 32 0x000099a4 = some (.drainMin { xd := 5, sa := 9, sb := 9, rm := 0, imm := 0x0 }) ∧
    decodeTableWord 32 0x000099a5 = some (.drainMax { xd := 5, sa := 9, sb := 9, rm := 0, imm := 0x0 }) ∧
    decodeTableWord 32 0x000009a6 = some (.drainAbs { xd := 5, sa := 9, sb := 0, rm := 0, imm := 0x0 }) ∧
    decodeTableWord 32 0x000009a7 = some (.drainNeg { xd := 5, sa := 9, sb := 0, rm := 0, imm := 0x0 }) ∧
    decodeTableWord 32 0xbeef00a8 = some (.drainMovi { xd := 5, sa := 0, sb := 0, rm := 3, imm := 0x2fbb }) ∧
    decodeTableWord 32 0x029400a9 = some (.drainLdc { xd := 5, sa := 0, sb := 0, rm := 0, imm := 0xa5 }) ∧
    decodeTableWord 32 0x069400aa = some (.drainLdr { xd := 5, sa := 0, sb := 0, rm := 0, imm := 0x1a5 }) ∧
    decodeTableWord 32 0xa69409ab = some (.drainTab { xd := 5, sa := 9, sb := 0, rm := 0, imm := 0x29a5 }) := by decide

/-- Micro-operation words with every field they use (Tables 13.1, 13.3). -/
theorem test_decode_uops1 :
    decodeTableWord 32 0x000609ac = some (.drainExp2 { xd := 5, sa := 9, sb := 0, rm := 2, imm := 0x1 }) ∧
    decodeTableWord 32 0x000609ad = some (.drainRcp { xd := 5, sa := 9, sb := 0, rm := 2, imm := 0x1 }) ∧
    decodeTableWord 32 0x000099ae = some (.drainClamp { xd := 5, sa := 9, sb := 9, rm := 0, imm := 0x0 }) ∧
    decodeTableWord 32 0x000209af = some (.drainRnd { xd := 5, sa := 9, sb := 0, rm := 2, imm := 0x0 }) ∧
    decodeTableWord 32 0x003609b0 = some (.drainCvt { xd := 5, sa := 9, sb := 0, rm := 2, imm := 0xd }) ∧
    decodeTableWord 32 0xa5b40911 = some (.drainQspan { xd := 0, sa := 9, sb := 0, rm := 0, imm := 0x296d }) ∧
    decodeTableWord 32 0xa9760912 = some (.drainSt { xd := 0, sa := 9, sb := 0, rm := 2, imm := 0x2a5d }) ∧
    decodeTableWord 32 0x00000913 = some (.drainChk { xd := 0, sa := 9, sb := 0, rm := 0, imm := 0x0 }) ∧
    decodeTableWord 32 0x01349914 = some (.drainSkip { xd := 0, sa := 9, sb := 9, rm := 0, imm := 0x4d }) ∧
    decodeTableWord 32 0x016499b5 = some (.drainSel { xd := 5, sa := 9, sb := 9, rm := 0, imm := 0x59 }) ∧
    decodeTableWord 32 0x00000016 = some (.drainNop { xd := 0, sa := 0, sb := 0, rm := 0, imm := 0x0 }) ∧
    decodeTableWord 32 0x00000017 = some (.drainEnd { xd := 0, sa := 0, sb := 0, rm := 0, imm := 0x0 }) := by decide

/-- Codes the opcode map leaves unassigned, reserved bits and used-by-none bits decode to nothing, under their subcode (R44, R46). -/
theorem test_decode_refuses :
    ([0x026, 0x04E, 0x091, 0x0D3, 0x111, 0x157, 0x195, 0x1CE, 0x1FF].all fun op => decode (BitVec.ofNat 64 op) == .error 1) = true ∧
    ([0x000 + 2 ^ 58, 0x180 + 2 ^ 29, 0x10D + 2 ^ 63, 0x10F + 2 ^ 59, 0x110 + 2 ^ 54, 0x1C4 + 2 ^ 27, 0x1C6 + 2 ^ 46, 0x1C7 + 2 ^ 54,
      0x14E + 2 ^ 61].all fun w => decode (BitVec.ofNat 64 w) == .error 2) = true ∧
    decodeUop 24#32 = none ∧ decodeUop 31#32 = none ∧ decodeUop 0x10016#32 = none := by decide

/-! ### Words the spec works out -/

/-- Words the spec works out, for warp clauses (chapters 2, 3, 5, 6). -/
theorem test_spec_words_warp0 :
    decodeTableWord 64 0x00005fe040208000 = some (.iadd { g := g0, d := 0x4, a := 0x1, b := 0x2, c := 0xff, ty := 2, md := 0x0 }) ∧
    decodeTableWord 64 0x00011fe0e0c0b642 = some (.fmul { g := { prd := 3, png := 1 }, d := 0x5, a := 0x6, b := 0x7, c := 0xff, ty := 8, md := 0x0 }) ∧
    decodeTableWord 64 0x0004005fe1210100 = some (.lds { g := g0, data := 0x8, base := 0x9, index := 0xff, sz := 2, ord := 0, sco := 0, off := 0x10 }) ∧
    decodeTableWord 64 0x00085fe0a0744019 = some (.icmp { g := g0, d := 0xa2, a := 0x3, b := 0x5, c := 0xff, ty := 2, md := 0x2 }) ∧
    decodeTableWord 64 0x0214dfffe040200f = some (.shl { g := g0, d := 0x1, a := 0x2, b := 0xff, c := 0xff, ty := 6, md := 0x85 }) ∧
    decodeTableWord 64 0xfffffff83090801f = some (.iaddi { g := g0, d := 0x84, a := 0x84, md := 1, imm := 0xfffffff8 }) ∧
    decodeTableWord 64 0x0111bfffe0206080 = some (.cvtf { g := g0, d := 0x3, a := 0x1, b := 0xff, c := 0xff, ty := 13, md := 0x44 }) ∧
    decodeTableWord 64 0x0000dff04080a0c7 = some (.shflx { g := g0, d := 0x5, a := 0x4, b := 0x82, c := 0xff, ty := 6, md := 0x0 }) ∧
    decodeTableWord 64 0x000000031fe04181 = some (.brq { g := g0, cond := 0x2, a := 0xff, off := 0x3 }) ∧
    decodeTableWord 64 0x000000ff1fffe187 = some (.regang { g := g0, d := 0xff, a := 0xff, md := 0, imm := 0xff }) := by decide

/-- Words the spec works out, for warp clauses (chapters 6, 7, 8, 9). -/
theorem test_spec_words_warp1 :
    decodeTableWord 64 0x0000000c55142024 = some (.icmpi { g := g0, d := 0xa1, a := 0xa8, md := 2, imm := 0xc }) ∧
    decodeTableWord 64 0x00001fffffffe189 = some (.nop { g := g0, d := 0xff, a := 0xff, b := 0xff, c := 0xff, ty := 0, md := 0x0 }) ∧
    decodeTableWord 64 0x000000021fe00180 = some (.bra { g := g0, cond := 0x0, a := 0xff, off := 0x2 }) ∧
    decodeTableWord 64 0x00001fffffffe194 = some (.trig { g := g0, d := 0xff, a := 0xff, b := 0xff, c := 0xff, ty := 0, md := 0x0 }) ∧
    decodeTableWord 64 0x00001ffffffa218a = some (.bara { g := g0, d := 0xd1, a := 0xff, b := 0xff, c := 0xff, ty := 0, md := 0x0 }) ∧
    decodeTableWord 64 0x000c1ffffffa218b = some (.barinit { g := g0, d := 0xd1, a := 0xff, b := 0xff, c := 0xff, ty := 0, md := 0x3 }) ∧
    decodeTableWord 64 0x00001ffffa30818c = some (.barst { g := g0, d := 0x84, a := 0xd1, b := 0xff, c := 0xff, ty := 0, md := 0x0 }) ∧
    decodeTableWord 64 0x0002007ff0508102 = some (.ldsb { g := g0, data := 0x84, base := 0x82, index := 0xff, sz := 3, ord := 0, sco := 0, off := 0x8 }) ∧
    decodeTableWord 64 0x00005fe161406103 = some (.atomsAdd { g := g0, d := 0x3, a := 0xa, b := 0xb, c := 0xff, ty := 2, md := 0x0 }) ∧
    decodeTableWord 64 0x00041ffff830c10c = some (.scrflg { g := g0, d := 0x86, a := 0xc1, b := 0xff, c := 0xff, ty := 0, md := 0x1 }) := by decide

/-- Words the spec works out, for warp clauses (chapters 10, 12, 13, 14). -/
theorem test_spec_words_warp2 :
    decodeTableWord 64 0x30001b5fe080c141 = some (.stg { g := g0, data := 0x6, base := 0x4, index := 0xff, sz := 2, ord := 3, sco := 3, off := 0xc000 }) ∧
    decodeTableWord 64 0x10041a5ff0410140 = some (.ldg { g := g0, data := 0x8, base := 0x82, index := 0xff, sz := 2, ord := 2, sco := 3, off := 0x4010 }) ∧
    decodeTableWord 64 0x00445fe181406142 = some (.atomgAdd { g := g0, d := 0x3, a := 0xa, b := 0xc, c := 0xff, ty := 2, md := 0x11 }) ∧
    decodeTableWord 64 0x00001c1fffffe14b = some (.fence { g := g0, data := 0xff, base := 0xff, index := 0xff, sz := 0, ord := 4, sco := 3, off := 0x0 }) ∧
    decodeTableWord 64 0x0809401fffe581c0 = some (.mma { g := g0, abase := 4, bbase := 5, rl := 0, sk := 0xff, sd := 0xff, bsel := 0, z39 := 0, tol := 0, chk := 0, ty := 10, kc := 2, bar := 0, ben := 0, tile := 1, bscr := 0, za := 0, pri := 0 }) ∧
    decodeTableWord 64 0x2485a010b08a01c1 = some (.mloop { g := g0, abase := 0, bbase := 2, rl := 1, sk := 0x84, sd := 0x85, bsel := 0, z39 := 0, tol := 0, chk := 0, ty := 13, kc := 1, bar := 2, ben := 1, tile := 0, bscr := 0, za := 1, pri := 0 }) ∧
    decodeTableWord 64 0x000000000070c1c4 = some (.mstat { g := g0, d := 0x86, k := 3, sel := 0 }) ∧
    decodeTableWord 64 0x000800a01ff0c1c6 = some (.dpload { g := g0, src := 0x86, nul := 0xff, cnt := 0, first := 5, tab := 0, kc := 2, bar := 0, ben := 0 }) ∧
    decodeTableWord 64 0x00001ff84140c1c8 = some (.probe { g := g0, d := 0x6, a := 0xa, b := 0xc2, c := 0xff, ty := 0, md := 0x0 }) ∧
    decodeTableWord 64 0x00001ff0b09861c9 = some (.tinv { g := g0, d := 0xc3, a := 0x84, b := 0x85, c := 0xff, ty := 0, md := 0x0 }) := by decide

/-- Words the spec works out, for warp clauses (chapters 15, 18, 19). -/
theorem test_spec_words_warp3 :
    decodeTableWord 64 0x0000002a1fffe1ca = some (.trap { g := g0, d := 0xff, a := 0xff, md := 0, imm := 0x2a }) ∧
    decodeTableWord 64 0x000000001fffe1cb = some (.bkpt { g := g0, d := 0xff, a := 0xff, md := 0, imm := 0x0 }) ∧
    decodeTableWord 64 0x000000041830c1cc = some (.sysrd { g := g0, d := 0x86, a := 0xc1, md := 0, imm := 0x4 }) ∧
    decodeTableWord 64 0x00000405105861cd = some (.syswr { g := g0, d := 0xc3, a := 0x82, md := 0, imm := 0x405 }) ∧
    decodeTableWord 64 0x00001ffff8508191 = some (.time { g := g0, d := 0x84, a := 0xc2, b := 0xff, c := 0xff, ty := 0, md := 0x0 }) ∧
    decodeTableWord 64 0x00041ffff0d86192 = some (.waitt { g := g0, d := 0xc3, a := 0x86, b := 0xff, c := 0xff, ty := 0, md := 0x1 }) ∧
    decodeTableWord 64 0x000000031fffe193 = some (.phase { g := g0, d := 0xff, a := 0xff, md := 0, imm := 0x3 }) ∧
    decodeTableWord 64 0x200223605060c14d = some (.rst { g := g0, data := 0x6, base := 0x83, index := 0x2, sz := 3, ord := 3, sco := 4, off := 0x8008 }) ∧
    decodeTableWord 64 0x100222604181014c = some (.rld { g := g0, data := 0x8, base := 0xc, index := 0x2, sz := 3, ord := 2, sco := 4, off := 0x4008 }) ∧
    decodeTableWord 64 0x07fc41815060614e = some (.ratomAdd { g := g0, d := 3, p := 0x83, a := 10, b := 12, ty := 2, c := 0xff, ord := 1 }) := by decide

/-- Words the spec works out, for warp clauses (chapters 22, 23, 24, 25). -/
theorem test_spec_words_warp4 :
    decodeTableWord 64 0x00007ff0c181a213 = some (.bfe { g := { prd := 1, png := 0 }, d := 0xd, a := 0xc, b := 0x86, c := 0xff, ty := 3, md := 0x0 }) ∧
    decodeTableWord 64 0x00001fffe1c1e2cb = some (.lpopc { g := { prd := 1, png := 0 }, d := 0xf, a := 0xe, b := 0xff, c := 0xff, ty := 0, md := 0x0 }) ∧
    decodeTableWord 64 0x2008001ff010210d = some (.copy { g := g0, src := 0x81, dst := 0x80, seq := 0xff, shape := 0, ch := 0, ty := 0, k := 2, bar := 0, ben := 0, sched := 0, skind := 0, kind := 1 }) ∧
    decodeTableWord 64 0x0400008810000100 = some (.lds { g := g0, data := 0x0, base := 0x80, index := 0x40, sz := 4, ord := 0, sco := 0, off := 0x1000 }) ∧
    decodeTableWord 64 0xfffffffa12e04183 = some (.brs { g := g0, cond := 0x2, a := 0x97, off := 0xfffffffa }) ∧
    decodeTableWord 64 0x1040125ff0214140 = some (.ldg { g := g0, data := 0xa, base := 0x81, index := 0xff, sz := 2, ord := 2, sco := 2, off := 0x4100 }) := by decide

/-- Words the spec works out, for lead clauses (chapters 11, 17, 26). -/
theorem test_spec_words_lead0 :
    decodeTableWord 64 0x24c8081fe080c10d = some (.copy { g := g0, src := 6, dst := 4, seq := 0xff, shape := 0, ch := 1, ty := 0, k := 2, bar := 3, ben := 1, sched := 0, skind := 0, kind := 1 }) ∧
    decodeTableWord 64 0x000c681fe101210f = some (.cpyst { g := g0, val := 9, addr := 8, nul := 0xff, ch := 1, sco := 3, k := 3, bar := 0, ben := 0 }) ∧
    decodeTableWord 64 0x000420a0604081c7 = some (.launch { g := g0, d := 4, a := 2, t := 3, q := 5, ser := 1, kc := 1 }) ∧
    decodeTableWord 64 0x00007fe077834001 = some (.isub { g := g0, d := 0x1a, a := 0xbc, b := 0x3, c := 0xff, ty := 3, md := 0x0 }) ∧
    decodeTableWord 64 0x020c1ffffffa618b = some (.barinit { g := g0, d := 0xd3, a := 0xff, b := 0xff, c := 0xff, ty := 0, md := 0x83 }) ∧
    decodeTableWord 64 0x0009001fe202450e = some (.copyr { g := { prd := 2, png := 0 }, src := 0x12, dst := 0x10, seq := 0xff, shape := 0, ch := 0, ty := 8, k := 2, bar := 0, ben := 0, sched := 0, skind := 0, kind := 0 }) := by decide

/-! ### States for the witnesses: one running kernel of one group of two warps on die 0, core 0, in context 0 -/

/-- Two units of 4 bytes, from consecutive source words to consecutive destination words. -/
def shp : Shape := { ext := [2], sstr := [4], dstr := [4], esz := 2, sdoff := 0, ddoff := 0, good := true }
/-- The kernel. -/
def ker : Kernel := { placedKernel 1 with shapes := [shp], lpb := { Lpb.blank with pagectl := true, lanes := 63 } }
/-- Its group. -/
def grp : Group := { (newGroup ker 3 2 0 0 0 0 [0, 1] none) with state := .running, before := .running }
/-- Warp 0. -/
def wu : UnitId := { die := 0, core := 0, lead := false, slot := 0 }
/-- The lead stream. -/
def lu : UnitId := { die := 0, core := 0, lead := true, slot := 0 }
/-- A clause of one instruction that issues at cycle 0. -/
def run0 (lead : Bool) : ClauseRun :=
  { w0 := 0, pc := 0, hdr := placedHeader lead, quads := if lead then 1 else 0xFF, xfer := .fall, reqs := 0 }
/-- Warp `n` between clauses. -/
def wUnit (n : Nat) : ExecUnit := newUnit State.reset grp (warpId grp n) n [n] 0 0xFFFFFFFF#32 0xFFFFFFFF#32 0xFF#8
/-- The lead stream between clauses. -/
def lUnit : ExecUnit := newUnit State.reset grp (leadId grp) 0 [2] 0 0 0 1
/-- Nothing is issuing. -/
def idle : State :=
  { State.reset with
    agenda := [], nextId := 4, kernels := [ker], groups := [grp], teams := [{ (newTeam 3 ker 0 0) with state := .running, members := [2] }]
    units := [wUnit 0, wUnit 1, lUnit]
    ctxs := [(0, { Context.reset with state := .running, partition := 1 })], podmask := 2 ^ 128 - 1 }
/-- Warp 0's instruction slot. -/
def wc : Cur := { u := wu, cycle := 0, pc := 8, idx := 0, hdr := placedHeader false, quads := 0xFF }
/-- The lead stream's instruction slot. -/
def lc : Cur := { u := lu, cycle := 0, pc := 8, idx := 0, hdr := placedHeader true, quads := 1 }
/-- Warp 0 is issuing. -/
def warp : State :=
  { idle with cur := some wc, units := [{ wUnit 0 with clause := some (run0 false) }, wUnit 1, lUnit] }
/-- The lead stream is issuing. -/
def lead : State :=
  { idle with cur := some lc, units := [wUnit 0, wUnit 1, { lUnit with clause := some (run0 true) }] }

/-- Every decode check passes. -/
def fine (s : State) (c : Cur) (i : Instr) : Bool := (decodeCheck s c i).isNone

/-- Warp 0 issues an instruction that passes its checks. -/
theorem warp_issues {i : Instr} (h : fine warp wc i = true) : Issuing warp wc i :=
  ⟨rfl, Option.isNone_iff_eq_none.mp h, rfl⟩

/-- The lead stream issues an instruction that passes its checks. -/
theorem lead_issues {i : Instr} (h : fine lead lc i = true) : Issuing lead lc i :=
  ⟨rfl, Option.isNone_iff_eq_none.mp h, rfl⟩

/-- The words that the spec works out pass every decode check in their clause kind. -/
theorem test_spec_words_issue :
    ([0x5fe040208000, 0x11fe0e0c0b642, 0x4005fe1210100, 0x85fe0a0744019, 0x214dfffe040200f, 0xfffffff83090801f,
      0x111bfffe0206080, 0xdff04080a0c7, 0x31fe04181, 0xff1fffe187, 0xc55142024, 0x1fffffffe189, 0x21fe00180,
      0x1fffffffe194, 0x1ffffffa218a, 0xc1ffffffa218b, 0x1ffffa30818c, 0x2007ff0508102, 0x5fe161406103,
      0x41ffff830c10c, 0x30001b5fe080c141, 0x10041a5ff0410140, 0x445fe181406142, 0x1c1fffffe14b,
      0x809401fffe581c0, 0x2485a010b08a01c1, 0x70c1c4, 0x800a01ff0c1c6, 0x1ff84140c1c8, 0x1ff0b09861c9,
      0x2a1fffe1ca, 0x1fffe1cb, 0x41830c1cc, 0x405105861cd, 0x1ffff8508191, 0x41ffff0d86192, 0x31fffe193,
      0x200223605060c14d, 0x100222604181014c, 0x7fc41815060614e, 0x7ff0c181a213, 0x1fffe1c1e2cb,
      0x2008001ff010210d, 0x400008810000100, 0xfffffffa12e04183, 0x1040125ff0214140] : List Nat).all
      (fun w => (decodeTableWord 64 w).any (fine warp wc)) = true ∧
    ([0x24c8081fe080c10d, 0xc681fe101210f, 0x420a0604081c7, 0x7fe077834001, 0x20c1ffffffa618b, 0x9001fe202450e] : List Nat).all
      (fun w => (decodeTableWord 64 w).any (fine lead lc)) = true := by decide


/-! ### Witnesses: encoding, steps and checks -/

/-- O1, O2: well-formed instructions have words; words decode. -/
theorem witness_DecodeOfEncode_EncodeOfDecode :
    (Instr.iadd r0).wf = true ∧ encode (.iadd r0) = some (.inl 0x5FE040206000#64) ∧
    (Instr.drainEnd { xd := 0, sa := 0, sb := 0, rm := 0, imm := 0 }).wf = true ∧
    encode (.drainEnd { xd := 0, sa := 0, sb := 0, rm := 0, imm := 0 }) = some (.inr 0x17#32) ∧
    decode 0x5FE040206000#64 = .ok (.iadd r0) ∧
    decodeUop 0x17#32 = some (.drainEnd { xd := 0, sa := 0, sb := 0, rm := 0, imm := 0 }) := by decide +kernel

/-- A slot of warp 0 is due; the code store holds a NOP at its position, or an unassigned code. -/
def slotDue (w : Nat) : State :=
  { warp with cur := none, code := Mem.writeN [] (codeAddr 1 8) w 8, agenda := [{ at' := 0, phase := 2, due := .slot wu 0 }] }

/-- O4: a slot whose word decodes, one whose word does not, an event, a row in progress, nothing due. -/
theorem witness_StepRunsTheDecodedInstruction :
    ((slotDue 0x00001FFFFFFFE189).halted = none ∧ (slotDue 0x00001FFFFFFFE189).row = none ∧ (slotDue 0x00001FFFFFFFE189).powered = true ∧
      (slotDue 0x00001FFFFFFFE189).unit? wu = some { wUnit 0 with clause := some (run0 false) } ∧
      (slotDue 0x00001FFFFFFFE189).group? 2 = some grp ∧ (wUnit 0).stop = none ∧ (wUnit 0).ended = false ∧
      (run0 false).w0 + hPad (run0 false).hdr + 0 = (slotDue 0x00001FFFFFFFE189).ucyc wu ∧ 0 ≤ hN (run0 false).hdr ∧
      decode (BitVec.ofNat 64 ((slotDue 0x00001FFFFFFFE189).code.readN (codeAddr 1 (0 + 8 * 1)) 8)) =
        .ok (.nop { g := g0, d := 0xFF, a := 0xFF, b := 0xFF, c := 0xFF, ty := 0, md := 0 }) ∧
      decode (BitVec.ofNat 64 ((slotDue 0x26).code.readN (codeAddr 1 (0 + 8 * 1)) 8)) = .error 1) ∧
    (idle.halted = none ∧ idle.row = none ∧ idle.agenda = []) ∧
    (State.reset.halted = none ∧ State.reset.row = none ∧ State.reset.powered = true ∧
      State.reset.agenda.map (·.due) = [ev .powerCheck []]) ∧
    decodeUop 0x17#32 = some (.drainEnd { xd := 0, sa := 0, sb := 0, rm := 0, imm := 0 }) := by decide +kernel

/-- O5: the memories of `warp`, and of a state with a byte that is not 0, are canonical; with one that is 0 they are not. -/
theorem witness_StepKeepsMemoriesCanonical :
    warp.memWf ∧ State.memWf { warp with hbm := [(5, 1#8)] } ∧ ¬State.memWf { warp with hbm := [(5, 0#8)] } ∧
    ∃ t, step warp = .next t := by
  refine ⟨?_, ?_, ?_, _, rfl⟩ <;> (unfold State.memWf; decide)

/-- O6: a state of the shape. -/
theorem witness_StepKeepsDiesAndLaySlots : warp.shaped ∧ ∃ t, step warp = .next t :=
  ⟨by unfold State.shaped; decide, _, rfl⟩

/-- O9: each of the checks 2 to 6 fails for some instruction of warp 0. -/
theorem witness_FailedCheckTrapsAndNothingElse :
    warp.cur = some wc ∧ (warp.unit? wu).isSome = true ∧ (encode (.iadd { r0 with ty := 8 })).isSome = true ∧
    (warp.group? (wUnit 0).gid).isSome = true ∧
    decodeCheck warp wc (.iadd { r0 with g := gBad }) = some (1, 2) ∧
    decodeCheck warp wc (.iadd { r0 with ty := 8 }) = some (1, 3) ∧
    decodeCheck warp wc (.iadd { r0 with c := 0 }) = some (1, 4) ∧
    decodeCheck lead lc (.fadd { r0 with ty := 8, d := 3 }) = some (1, 5) ∧
    decodeCheck { warp with cur := some { wc with hdr := 0xC700000000000000#64 } } { wc with hdr := 0xC700000000000000#64 }
      (.iadd r0) = some (3, 0) := by decide +kernel

/-! ### Witnesses: results of fixed latency -/

/-- B32 form of two sources. -/
def rb : RF := { r0 with ty := 6 }
/-- One source. -/
def r1 (ty : BitVec 5) : RF := { r0 with b := 0xFF, ty := ty }
/-- Three sources. -/
def r3 (ty : BitVec 5) : RF := { r0 with c := 4, ty := ty }
/-- Uniform, 64-bit: S4 from S2 and S6. -/
def ru (ty : BitVec 5) : RF := { r0 with d := 0x84, a := 0x82, b := 0x86, ty := ty }

/-- O10: lane-wise, uniform and lead forms, with and without SAT. -/
theorem witness_IntegerArithmeticResults :
    ([.iadd r0, .iadd { r0 with md := 1 }, .isub r0, .imul r0, .imulh r0, .imin r0, .imax r0, .imad (r3 2), .iabs (r1 2), .ineg (r1 2),
      .iadd (ru 4), .isub (ru 5), .iabs { (ru 4) with b := 0xFF }] : List Instr).all (fine warp wc) = true ∧
    ([.iadd r0, .imul r0, .ineg (r1 2)] : List Instr).all (fine lead lc) = true ∧
    (∃ w : RF, w.md ≠ 0) := ⟨by decide +kernel, by decide +kernel, { r0 with md := 1 }, by decide +kernel⟩

/-- O11. -/
theorem witness_LogicResults :
    ([.and rb, .or rb, .xor rb, .andn rb, .not (r1 6), .and (ru 7)] : List Instr).all (fine warp wc) = true ∧
    ([.and rb, .or rb, .xor rb, .andn rb, .not (r1 6)] : List Instr).all (fine lead lc) = true := by decide +kernel

/-- O12: amounts from a register and from MOD. -/
theorem witness_ShiftResults :
    ([.shl rb, .shr rb, .sar rb, .rotl rb, .shl { (r1 6) with md := 0x9F }, .shr { (r1 6) with md := 0xBF }, .sar { (r1 6) with md := 0xA0 },
      .rotl { (r1 6) with md := 0x80 }] : List Instr).all (fine warp wc) = true := by decide +kernel

/-- O13: with and without a carry predicate. -/
theorem witness_CarryAddResults :
    ([.iaddc { r0 with c := 0xA1, ty := 3, md := 2 }, .iaddc { r0 with c := 0xE0, ty := 3 }] : List Instr).all (fine warp wc) = true ∧
    fine lead lc (.iaddc { r0 with c := 0xA0, ty := 3, md := 7 }) = true ∧
    fine lead lc (.iaddc { r0 with g := { prd := 1, png := 0 }, c := 0xA0, ty := 3, md := 7 }) = true ∧
    guardLead lead lu { prd := 1, png := 0 } = false := by decide +kernel

/-- O14. -/
theorem witness_CountResults :
    ([.popc (r1 6), .clz (r1 6), .ffs (r1 6), .brev (r1 6), .popc { (ru 7) with b := 0xFF }] : List Instr).all (fine warp wc) = true := by
  decide

/-- O15. -/
theorem witness_BitFieldResults : ([.bfe r0, .bfe { r0 with ty := 3 }, .bfi (r3 6)] : List Instr).all (fine warp wc) = true := by
  decide

/-- O16. -/
theorem witness_CompareSelectMoveResults :
    ([.icmp { r0 with d := 0xA2, md := 5 }, .icmp { r0 with d := 0xA2, c := 0xA1, md := 0x1A }, .sel (r3 6), .mov (r1 6),
      .plop { r0 with d := 0xA1, a := 0xA2, b := 0xA3, c := 0xA4, ty := 16, md := 0x96 }, .lea { (ru 5) with md := 0xB }] :
      List Instr).all (fine warp wc) = true := by decide +kernel

/-- O17. -/
theorem witness_ImmediateResults :
    ([.movi { i0 with a := 0xFF }, .movi { i0 with d := 0x84, a := 0xFF, md := 1 }, .movhi { i0 with d := 0x84, a := 0x84 }, .iaddi i0,
      .iaddi { i0 with d := 0x84, a := 0x84, md := 3 }, .imuli i0, .andi i0, .ori i0, .xori i0, .icmpi { i0 with md := 5 }] :
      List Instr).all (fine warp wc) = true := by decide +kernel

/-- O18, O19: instructions of each fixed latency, in a warp clause, with a lane that computes. -/
theorem witness_FixedLatencyFrame_and_lanes :
    ([.iadd r0, .fadd { r0 with ty := 8 }, .cvtf { (r1 9) with md := 0x40 }, .dqnt { r0 with d := 4, b := 2, ty := 8 },
      .qnt { r0 with a := 4, b := 0xFF, c := 0x84, ty := 8, md := 0 }, .frcp (r1 8), .wscan (r1 2), .wreduce (r1 2),
      .barst { r0 with d := 0x84, a := 0xD1, b := 0xFF, ty := 0 }, .krd { r0 with d := 0x84, a := 0xC1, b := 0xFF, ty := 0 }] :
      List Instr).all (fun i => fine warp wc i && (fixedLatency i).isSome) = true ∧
    isV false 3 = true ∧ laneCompute warp wc g0 31 = true := by decide +kernel

/-- O20: every form, in packed types too, and a uniform form. -/
theorem witness_FloatArithmeticResults :
    ([.fadd { r0 with ty := 11, md := 5 }, .fsub { r0 with ty := 12 }, .fmul { r0 with ty := 9 }, .ffma (r3 10), .fmin { r0 with ty := 8 }, .fmax { r0 with ty := 11 },
      .fabs (r1 8), .fneg (r1 9), .frnd { (r1 8) with md := 3 }, .fclass (r1 8), .fscale { r0 with ty := 8 }, .fcmp { r0 with d := 0xA2, ty := 8, md := 4 },
      .fcmp { r0 with d := 0xA2, c := 0xA1, ty := 9, md := 0xC }, .fdot2 (r3 11), .dot4 (r3 13), .dot4 (r3 0), .fadd { (ru 8) with md := 2 }, .frcp (r1 8), .frsq (r1 8),
      .fsqrt (r1 8), .fexp2 (r1 8), .flog2 (r1 8), .fsin (r1 8), .fcos (r1 8), .ftanh (r1 8)] : List Instr).all (fine warp wc) = true ∧
    activeLanes warp wc g0 ≠ [] := by decide +kernel

/-- O20, O33, O47: operands of each case of the value tables: NaN, the infinities, zeros, a power of two, a negative and an inexact
one, an integer and a fraction. -/
theorem witness_FloatCases :
    F32.value 0x7FC00000 = .nan ∧ F32.value 0x7F800000 = .inf false ∧ F32.value 0xFF800000 = .inf true ∧
    F32.value 0 = .fin false 0 (-149) ∧ F32.value 0x40000000 = .fin false 8388608 (-22) ∧ SameMag 8388608 (-22) 1 1 ∧
    F32.value 0xBFC00000 = .fin true 12582912 (-23) ∧ Integral 8388608 (-22) ∧ ¬Integral 12582912 (-23) ∧
    RoundsInt 0 true 12582912 (-23) 2 ∧ RoundsInt 1 true 12582912 (-23) 1 ∧ RoundsInt 3 true 12582912 (-23) 2 ∧
    (F32.value 0x40000000).mul (.fin false 0 0) = (.fin false 0 (-22), false) := by
  unfold SameMag Integral RoundsInt; decide +kernel

/-- O21, O22. -/
theorem witness_QuadExchangeResults_ShuffleResults :
    ([.qswph (r1 6), .qswpv (r1 6), .qswpd (r1 6), .qbc { (r1 6) with md := 3 }, .shfl rb, .shflu { rb with md := 1 }, .shfld { rb with md := 4 },
      .shflx { rb with md := 2 }] : List Instr).all (fine warp wc) = true ∧ laneCompute warp wc g0 0 = true := by decide +kernel

/-- O23, O24: S and lane-wise destinations. -/
theorem witness_VoteAndBallotResults_MatchAndCountResults :
    ([.vote { (r1 0) with d := 0x84, a := 0xA1 }, .vote { (r1 0) with d := 0xA2, a := 0xA1, md := 2 }, .ballot { (r1 0) with a := 0xA1 },
      .ballot { (r1 0) with d := 0x84, a := 0xA1 }, .matchLanes (r1 6), .lpopc (r1 0)] : List Instr).all (fine warp wc) = true := by decide +kernel

/-- Warp 0 with no lane in EXEC. -/
def noLanes : State :=
  { idle with cur := some wc, units := [{ wUnit 0 with clause := some (run0 false), exec := 0 }, wUnit 1, lUnit] }

/-- Such a warp issues. -/
theorem noLanes_issues {i : Instr} (h : fine noLanes wc i = true) : Issuing noLanes wc i :=
  ⟨rfl, Option.isNone_iff_eq_none.mp h, rfl⟩

/-- No lane is active in it. -/
theorem noLanes_none (g : Guard) (l : Nat) : laneActive noLanes wc g l = false := by
  have h : execMask noLanes wc = 0 := by decide +kernel
  simp [laneActive, h]

/-- O25: I32, and F32 with no active lane. -/
theorem witness_ReduceAndScanIntegers :
    ([.wreduce (r1 2), .wreduce { (r1 2) with d := 0x84 }, .wscan (r1 2)] : List Instr).all (fine warp wc) = true ∧
    Issuing noLanes wc (.wreduce (r1 8)) ∧ activeLanes noLanes wc (r1 8).g = [] :=
  ⟨by decide +kernel, noLanes_issues (by decide +kernel), by decide +kernel⟩

/-- O26: also XMOV of an S register and between the two warps. -/
theorem witness_LaneAndWarpMoves :
    ([.rdlane { rb with d := 0x84, b := 0x86 }, .wrlane { rb with a := 0x84, b := 0x86 }, .xmov { (r1 0) with md := 1 },
      .xmov { (r1 0) with d := 0x84, a := 0x85 }] : List Instr).all (fine warp wc) = true ∧ warp.groupOf wu = some grp := by decide +kernel

/-- LPUSH of G4 to warp `n`. -/
def lp (md : BitVec 8) : RF := { r0 with d := 0xFF, a := 4, b := 0xFF, ty := 0, md := md }

/-- O27: one warp, every warp, and a warp that is not named. -/
theorem witness_DecisionQueuePush :
    ([.lpush (lp 0), .lpush (lp 1), .lpush (lp 4)] : List Instr).all (fine lead lc) = true ∧
    lead.groupOf lu = some grp ∧ lead.unit? lu = some { lUnit with clause := some (run0 true) } ∧ lc.u.lead = true ∧
    1 < grp.slots.length ∧ 1 < lUnit.push.length ∧ grp.slots.Nodup ∧ lead.unit? (warpId grp 1) = some (wUnit 1) := by decide +kernel

/-- O28: with an entry and with none. -/
theorem witness_DecisionQueuePop :
    ([.dqpop { r0 with d := 0x84, a := 0xFF, b := 0xFF, ty := 0 }, .brd b0, .brd { b0 with cond := 1 }] : List Instr).all (fine warp wc) = true ∧
    warp.unit? wu = some { wUnit 0 with clause := some (run0 false) } ∧
    ([((0 : Nat), (0 : Nat), 7#64)].find? fun e => e.1 == (wUnit 0).pp && decide (e.2.1 ≤ wc.cycle)) = some (0, 0, 7#64) ∧
    ((wUnit 0).dq.find? fun e => e.1 == (wUnit 0).pp && decide (e.2.1 ≤ wc.cycle)) = none := by decide +kernel

/-- O29, O30: the F32 instructions, and a NaN in lane 0 of V1. -/
theorem witness_FloatSigns_NanOperandsGiveTheCanonicalNan :
    ([.fabs (r1 8), .fneg (r1 8), .fadd { r0 with ty := 8 }, .fsub { r0 with ty := 8 }, .fmul { r0 with ty := 8 }, .ffma (r3 8), .fscale { r0 with ty := 8 },
      .fmin { r0 with ty := 8 }, .fmax { r0 with ty := 8 }, .frnd (r1 8), .frcp (r1 8), .frsq (r1 8), .fsqrt (r1 8), .fexp2 (r1 8),
      .flog2 (r1 8), .fsin (r1 8), .fcos (r1 8), .ftanh (r1 8)] : List Instr).all (fine warp wc) = true ∧
    readField { warp with vreg := [(vKey wu 1 0, 0xFF800001#32)] } wc 1 0 false = 0xFF800001#64 := by decide +kernel

/-! ### Witnesses: accesses -/

/-- A load or store of S0 with no index: every lane at address 0. -/
def ms : MF := { m0 with base := 0x80 }

/-- Every lane of `warp` is at address 0, so aligned. -/
theorem warp_aligned (g : Guard) (ad : Nat → Nat) (n : Nat) (h : ∀ l, l < 32 → ad l % n = 0) : Aligned warp wc g ad n :=
  fun l _ hl => h l hl

/-- O31. -/
theorem witness_ScratchLoads :
    (Issuing warp wc (.lds ms) ∧ ms.sco ≠ 1 ∧ Aligned warp wc g0 (lineAddr warp wc ms ms.off.toInt) 4 ∧
      ∀ l, warp.scrPoisoned 0 0 (lineAddr warp wc ms ms.off.toInt l % 2 ^ 19) 4 = false) ∧
    (fine warp wc (.ldsb { ms with data := 0x84 }) = true ∧ lineAddr warp wc ms ms.off.toInt 0 % 4 = 0) :=
  ⟨⟨warp_issues (by decide +kernel), by decide +kernel, warp_aligned _ _ _ (by decide +kernel), fun _ => rfl⟩, by decide +kernel, by decide +kernel⟩

/-- ATOMS and ATOMG of V4 on the address in S0 or S2. -/
def at' (ty : BitVec 5) (c : BitVec 8) : RF := { g := g0, d := 6, a := 0x82, b := 8, c := c, ty := ty, md := 0 }
/-- The nine scratch atomics. -/
def atomsAll : List Instr :=
  [.atomsAdd (at' 2 0xFF), .atomsSub (at' 3 0xFF), .atomsMin (at' 2 0xFF), .atomsMax (at' 3 0xFF), .atomsAnd (at' 6 0xFF), .atomsOr (at' 6 0xFF),
   .atomsXor (at' 6 0xFF), .atomsExch (at' 7 0xFF), .atomsCas (at' 7 10)]
/-- The nine global atomics. -/
def atomgAll : List Instr :=
  [.atomgAdd (at' 2 0xFF), .atomgSub (at' 3 0xFF), .atomgMin (at' 2 0xFF), .atomgMax (at' 3 0xFF), .atomgAnd (at' 6 0xFF), .atomgOr (at' 6 0xFF),
   .atomgXor (at' 6 0xFF), .atomgExch (at' 7 0xFF), .atomgCas (at' 7 10)]
/-- RATOM of V8 on the address in S2, at the peer in S3. -/
def rat (ty : BitVec 5) (c : BitVec 8) : RatomF := { g := g0, d := 6, p := 0x83, a := 0x82, b := 8, ty := ty, c := c, ord := 0 }
/-- The nine remote atomics. -/
def ratomAll : List Instr :=
  [.ratomAdd (rat 2 0xFF), .ratomSub (rat 2 0xFF), .ratomMin (rat 2 0xFF), .ratomMax (rat 2 0xFF), .ratomAnd (rat 6 0xFF), .ratomOr (rat 6 0xFF),
   .ratomXor (rat 6 0xFF), .ratomExch (rat 7 0xFF), .ratomCas (rat 7 10)]

/-- O32: lanes that store, in range; each atomic, its types, aligned and not poisoned, one lane alone at its location. -/
theorem witness_ScratchStoresAndAtomics :
    (warp.memWf ∧ Issuing warp wc (.sts ms) ∧ ms.sco ≠ 1 ∧ Aligned warp wc g0 (lineAddr warp wc ms ms.off.toInt) 4 ∧
      31 ∈ realLanes warp wc g0 ∧ laneInRange warp wc true 4 (lineAddr warp wc ms ms.off.toInt 31) = true) ∧
    ((atomsAll ++ ([.atomsAdd (at' 8 0xFF), .atomsAdd (at' 11 0xFF), .atomsMin (at' 8 0xFF), .atomsMax (at' 8 0xFF)] : List Instr)).all (fine warp wc) = true ∧
      Aligned warp wc g0 (fun l => (readField warp wc 0x82 l false).toNat) 8 ∧
      (∀ l, warp.scrPoisoned 0 0 ((readField warp wc 0x82 l false).toNat % 2 ^ 19) 8 = false) ∧
      realLanes { warp with preg := [(pKey wu 1 5, 1)] } wc { prd := 1, png := 0 } = [5] ∧ laneInRange warp wc true 8 0 = true) :=
  ⟨⟨by unfold State.memWf; decide, warp_issues (by decide +kernel), by decide +kernel, warp_aligned _ _ _ (by decide +kernel), by decide +kernel,
      by decide +kernel⟩,
    by decide +kernel, warp_aligned _ _ _ (by decide +kernel), fun _ => rfl, by decide +kernel, by decide +kernel⟩

/-- O33: a tie, a sum above the largest value, one below the smallest normal, in a mode each; which of them is too big. -/
theorem witness_RoundingIsCorrect :
    (roundTo F32 0 false false 16777217 0 false = (0x4B800000, flInexact) ∧
      Dy.lt (16777217, 0) (2 * 16777215 + 1, 103) = true) ∧
    (roundTo F32 0 false true 33554431 103 false = (0xFF800000, flOverflow + flInexact) ∧
      Dy.lt (33554431, 103) (2 * 16777215 + 1, 103) = false) ∧
    (roundTo E4M3 3 true false 3 (-11) false = (0, flUnderflow + flInexact) ∧ Dy.lt (3, -11) (1, -6) = true) ∧
    ((E4M3.maxPat, E4M3.sbit, F32.maxPat % 2 ^ 23) = (126, 128, 8388607)) := by decide +kernel

/-- S2 holds an odd address and S3 names peer 1. -/
def odd : State := { warp with sreg := [(sKey wu 2, 1#64), (sKey wu 3, 1#64)] }
/-- It issues. -/
theorem odd_issues {i : Instr} (h : fine odd wc i = true) : Issuing odd wc i :=
  ⟨rfl, Option.isNone_iff_eq_none.mp h, rfl⟩

/-- RLD and RST with the address in S2 and the peer in S3. -/
def rem : MF := { m0 with data := 4, base := 0x83, index := 0x82, sz := 3 }

/-- O34: each form with a lane whose address is no multiple of its size. -/
theorem witness_MisalignedAccessTraps :
    ((([.lds { ms with base := 0x82 }, .sts { ms with base := 0x82 }, .lds { ms with base := 0x82, ord := 1, sco := 1 }, .ldg { ms with base := 0x82 }, .stg { ms with base := 0x82 },
      .rld rem, .rst rem, .ldsb { ms with data := 0x84, base := 0x82 }, .cpyst cs0] : List Instr) ++ atomsAll ++ atomgAll ++ ratomAll).all (fine odd wc)) = true ∧
    laneActive odd wc g0 0 = true ∧ lineAddr odd wc { ms with base := 0x82 } 0 0 % 4 ≠ 0 ∧
    globAddr odd wc { ms with base := 0x82 } 0 % 4 ≠ 0 ∧ (readField odd wc 0x82 0 true).toNat % 4 ≠ 0 ∧
    (readField odd wc 0x82 0 false).toNat % 4 ≠ 0 ∧ (readU odd wc cs0.addr.toNat).toNat % 8 ≠ 0 := by decide +kernel

/-- O35: each form with no active lane. -/
theorem witness_NoActiveLaneNoAccess :
    ((([.ldg ms, .stg ms, .rld rem, .rst rem, .lds { ms with ord := 1, sco := 1 }, .sts { ms with ord := 1, sco := 1 },
      .probe { r0 with d := 6, a := 10, b := 0xC2, ty := 0 }] : List Instr) ++ atomgAll ++ ratomAll).all (fine noLanes wc)) = true ∧
    isS false 10 = false ∧ ∀ g l, l < 32 → laneActive noLanes wc g l = false :=
  ⟨by decide +kernel, by decide +kernel, fun g l _ => noLanes_none g l⟩

/-- O36: active aligned lanes, no lane faulted at its probe, a new entry. -/
theorem witness_GlobalAccesses :
    ((([.ldg ms, .stg ms] : List Instr) ++ atomgAll).all (fine warp wc)) = true ∧ activeLanes warp wc g0 ≠ [] ∧
    Aligned warp wc g0 (globAddr warp wc ms) 4 ∧ Aligned warp wc g0 (fun l => (readField warp wc 0x82 l true).toNat) 8 ∧
    (∀ l ∈ realLanes warp wc g0, ∀ n ∈ [0, 1, 2], (probeLane warp 0 0 l 0 false n (laneReq l 0 0 0)).st ≠ .faulted) ∧ NewEntry warp wc :=
  ⟨by decide +kernel, by decide +kernel, warp_aligned _ _ _ (by decide +kernel), warp_aligned _ _ _ (by decide +kernel), by decide +kernel, _, rfl, by decide +kernel⟩

/-- S2 holds 2^56, above every address. -/
def far : State := { warp with sreg := [(sKey wu 2, 0x100000000000000#64), (sKey wu 3, 1#64)] }
/-- S3 names peer 1. -/
def peer1 : State := { warp with sreg := [(sKey wu 3, 1#64)] }

/-- O37: an address too high; a peer that is this module; a peer of the pod. -/
theorem witness_RemoteAccesses :
    ((([.rld rem, .rst rem] : List Instr) ++ ratomAll).all (fun i => fine far wc i && fine warp wc i && fine peer1 wc i)) = true ∧
    (laneActive far wc g0 0 = true ∧ 2 ^ 56 ≤ (readField far wc 0x82 0 true).toNat) ∧
    (peerOf warp wc 0x83 0 = warp.modl ∧ (readField warp wc 0x82 0 true).toNat < 2 ^ 56) ∧
    (∀ l, l < 32 → peerOf peer1 wc 0x83 l < 128 ∧ peerOf peer1 wc 0x83 l ≠ peer1.modl ∧
      peer1.podmask.testBit (peerOf peer1 wc 0x83 l) = true) ∧ NewEntry peer1 wc :=
  ⟨by decide +kernel, by decide +kernel, by decide +kernel, by decide +kernel, _, rfl, by decide +kernel⟩

/-- O38: an active lane in range of the team. -/
theorem witness_TeamScratchForms :
    ([.lds { ms with ord := 1, sco := 1 }, .sts { ms with ord := 1, sco := 1 }] : List Instr).all (fine warp wc) = true ∧
    Aligned warp wc g0 (lineAddr warp wc { ms with ord := 1, sco := 1 } 0) 4 ∧
    (∃ l ∈ realLanes warp wc g0, laneInRange warp wc false 4 (lineAddr warp wc { ms with ord := 1, sco := 1 } 0 l) = true) ∧
    activeLanes warp wc g0 ≠ [] ∧ NewEntry warp wc :=
  ⟨by decide +kernel, warp_aligned _ _ _ (by decide +kernel), ⟨0, by decide +kernel, by decide +kernel⟩, by decide +kernel, _, rfl, by decide +kernel⟩

/-- A warp instruction always acts. -/
theorem warp_acts (s : State) (g : Guard) : Acts s wc g := fun h => absurd h (by decide +kernel)

/-- A lead instruction acts under P0 and not under a predicate that is 0. -/
theorem lead_acts : Acts lead lc g0 ∧ ¬Acts lead lc { prd := 1, png := 0 } :=
  ⟨fun _ => by decide +kernel, fun h => absurd (h rfl) (by decide +kernel)⟩

/-- O39: copies that act with aligned bases, one that is misaligned, one whose lead guard is false. -/
theorem witness_CopyCommands :
    ([.copy cp0, .copyr { cp0 with ty := 8, kind := 0 }, .cpyst cs0, .cpycan cc0] : List Instr).all (fine warp wc) = true ∧
    fine odd wc (.copy { cp0 with src := 0x82 }) = true ∧ fine lead lc (.copy { cp0 with g := { prd := 1, png := 0 }, src := 6, dst := 4 }) = true ∧
    shapeOf warp wc 0 = some shp ∧ Acts warp wc g0 ∧ ¬Acts lead lc { prd := 1, png := 0 } ∧
    ((readU warp wc 0x81).toNat % shp.unit = 0 ∧ (readU warp wc 0x80).toNat % shp.unit = 0 ∧ (readU odd wc 0x82).toNat % shp.unit ≠ 0 ∧
      (readU warp wc 0x82).toNat % 8 = 0) ∧ NewEntry warp wc :=
  ⟨by decide +kernel, by decide +kernel, by decide +kernel, by decide +kernel, warp_acts _ _, lead_acts.2, by decide +kernel, _, rfl, by decide +kernel⟩

/-- O40: entries, an index below 0x400, a false lead guard. -/
theorem witness_LaunchTriggerAndDoorbellEntries :
    ([.launch la0, .launch { la0 with t := 0x84, ser := 1 }, .trig { r0 with d := 0xFF, a := 0xFF, b := 0xFF, ty := 0 },
      .tbar { r0 with d := 0xD1, a := 0xFF, b := 0xFF, ty := 0 }, .syswr { i0 with d := 0xC3, a := 0x82, imm := 0x400 },
      .syswr { i0 with d := 0xC3, a := 0x82, imm := 0xFF }] : List Instr).all (fine warp wc) = true ∧
    fine lead lc (.launch { la0 with g := { prd := 1, png := 0 }, d := 4, a := 2 }) = true ∧ Acts warp wc g0 ∧
    ¬Acts lead lc { prd := 1, png := 0 } ∧ NewEntry warp wc :=
  ⟨by decide +kernel, by decide +kernel, warp_acts _ _, lead_acts.2, _, rfl, by decide +kernel⟩

/-- O41: with and without the page-control privilege, readable and other system registers, V and S probes. -/
theorem witness_CountedOperationsStart :
    ([.fence { m0 with data := 0xFF, base := 0xFF, sz := 0, ord := 4, sco := 3 }, .probe { r0 with d := 6, a := 10, b := 0xC2, ty := 0 },
      .probe { r0 with d := 0x84, a := 0x82, b := 0xC2, ty := 0 }, .tinv { r0 with d := 0xC3, a := 0x84, b := 0x85, ty := 0 },
      .scrflg { r0 with d := 0x86, a := 0xC1, b := 0xFF, ty := 0, md := 1 }, .sysrd { i0 with d := 0x86, a := 0xC1, imm := 4 },
      .sysrd { i0 with d := 0x86, a := 0xC1, imm := 2 }, .waitt { r0 with d := 0xC3, a := 0x86, b := 0xFF, ty := 0, md := 1 }] : List Instr).all (fine warp wc) = true ∧
    fine lead lc (.waitt { r0 with g := { prd := 1, png := 0 }, d := 0xC3, a := 6, b := 0xFF, ty := 0 }) = true ∧
    isS false 0x82 = true ∧ realLanes warp wc g0 ≠ [] ∧ (kernelOfCur warp wc).map (·.lpb.pagectl) = some true ∧
    (kernelOfCur { warp with kernels := [placedKernel 1] } wc).map (·.lpb.pagectl) = some false ∧
    fine { warp with kernels := [placedKernel 1] } wc (.tinv { r0 with d := 0xC3, a := 0x84, b := 0x85, ty := 0 }) = true := by decide +kernel

/-! ### Witnesses: control, synchronisation, requests, traps, micro-operations -/

/-- O42: taken and not taken; S and V targets; a false lead guard. -/
theorem witness_TransferTargets :
    ([.bra b0, .brs { b0 with a := 0x82 }, .brs { b0 with cond := 1, a := 0x82 }, .call { b0 with a := 4 }, .brq { b0 with cond := 2 }, .brq { b0 with cond := 0x18 },
      .jmpx { r0 with d := 0xFF, a := 0x82, b := 0xFF, ty := 0 }, .jmpx { r0 with d := 0xFF, a := 4, b := 0xFF, ty := 0 },
      .ret { r0 with d := 0xFF, a := 4, b := 0xFF, ty := 0 }] : List Instr).all (fine warp wc) = true ∧
    ([.bra { b0 with g := { prd := 1, png := 0 } }, .brq b0, .brq { b0 with cond := 8 }, .call { b0 with a := 4 }] : List Instr).all (fine lead lc) = true ∧
    Acts warp wc g0 ∧ ¬Acts lead lc { prd := 1, png := 0 } ∧ (readField warp wc 0x82 0 true).toInt = 0 ∧ (warp.unit? wu).isSome = true :=
  ⟨by decide +kernel, by decide +kernel, warp_acts _ _, lead_acts.2, by decide +kernel, by decide +kernel⟩

/-- O43: in warp and lead clauses, with lanes left and without. -/
theorem witness_ExitRegangAndNop :
    ([.exit { r0 with d := 0xFF, a := 0xFF, b := 0xFF, ty := 0 }, .regang { i0 with d := 0xFF, a := 0xFF, imm := 0xFF },
      .nop { r0 with d := 0xFF, a := 0xFF, b := 0xFF, ty := 0 }] : List Instr).all (fun i => fine warp wc i && fine lead lc i) = true ∧
    fine warp wc (.exit { r0 with g := { prd := 1, png := 0 }, d := 0xFF, a := 0xFF, b := 0xFF, ty := 0 }) = true ∧
    (warp.unit? wu).isSome = true ∧ (lead.unit? lu).isSome = true := by decide +kernel

/-- O44: immediate and register operands, an arrival of count 0, team barriers, a replay. -/
theorem witness_BarrierAndCounterChanges :
    ([.kset { r0 with d := 0xC1, a := 0xFF, b := 0xFF, ty := 0, md := 9 }, .kinc { r0 with d := 0xC1, a := 0xFF, b := 0xFF, ty := 0, md := 0xFF },
      .kset { r0 with d := 0xC1, a := 0x82, b := 0xFF, ty := 0 }, .bara { r0 with d := 0xD1, a := 0xFF, b := 0xFF, ty := 0 }, .bara { r0 with d := 0xD1, a := 0x82, b := 0xFF, ty := 0 },
      .barinit { r0 with d := 0xD1, a := 0xFF, b := 0xFF, ty := 0, md := 127 }, .barinit { r0 with d := 0xD1, a := 0xFF, b := 0xFF, ty := 0, md := 128 }] :
      List Instr).all (fine warp wc) = true ∧
    Acts warp wc g0 ∧ ¬Acts lead lc { prd := 1, png := 0 } ∧ fine lead lc (.kinc { r0 with g := { prd := 1, png := 0 }, d := 0xC1, a := 0xFF, b := 0xFF, ty := 0 }) = true ∧
    (wUnit 0).keepBar < (wUnit 0).nBar + 1 ∧ warp.group? 2 = some grp ∧ (readField warp wc 0x82 0 true).toNat % 65536 = 0 :=
  ⟨by decide +kernel, warp_acts _ _, lead_acts.2, by decide +kernel, by decide +kernel, by decide +kernel, by decide +kernel⟩

/-- Barrier 1 in its error phase. -/
def errGrp : Group := { grp with bLog := [{ cyc := 0, rank := 0, bar := 1, ev := .fault 7, u := wu, issue := 0, instr := true }] }
/-- The warp after a lay restart that kept two changes: the next BARINIT is a replay. -/
def rerun : State := { warp with groups := [errGrp], units := [{ wUnit 0 with clause := some (run0 false), keepBar := 2, rerun := some 0 }, wUnit 1, lUnit] }

/-- O44: a replay that is made again, of the barrier in error, and one that is not, of another. -/
theorem witness_BarrierAndCounterChanges_rerun :
    fine rerun wc (.barinit { r0 with d := 0xD1, a := 0xFF, b := 0xFF, ty := 0, md := 2 }) = true ∧ Acts rerun wc g0 ∧
    (bBefore errGrp 1 (wc.cycle + 4) wc.u.rank).mode = 3 ∧ (bBefore errGrp 2 (wc.cycle + 4) wc.u.rank).mode = 0 ∧
    (rerun.unit? wu).map (fun x => (x.rerun.isSome, decide (x.keepBar < x.nBar + 1))) = some (true, false) :=
  ⟨by decide +kernel, warp_acts _ _, by decide +kernel, by decide +kernel, by decide +kernel⟩

/-- A change of K1 at cycle 4. -/
def kch (set : Option Nat) (d : Int) : KChange := { cyc := 4, k := 1, set := set, delta := d, u := wu, issue := 0, instr := true }

/-- O45: a value set and an increment, after an earlier change. -/
theorem witness_CounterRule :
    ({ grp with kLog := [{ (kch none 1) with cyc := 3 }, kch (some 65535) 0] }).kLog = [{ (kch none 1) with cyc := 3 }] ++ [kch (some 65535) 0] ∧
    (∀ y ∈ [{ (kch none 1) with cyc := 3 }], y.k = 1 → y.cyc < 4) ∧ (kch (some 65535) 0).delta = 0 ∧ (kch none (-1)).set = none := by decide +kernel

/-- O46: each form; each request, with and without a barrier, a drain and B from scratch; under a false lead guard. -/
theorem witness_StatusReadsTimePhaseAndEngineRequests :
    (([.barst { r0 with d := 0x84, a := 0xD1, b := 0xFF, ty := 0 }, .krd { r0 with d := 0x84, a := 0xC1, b := 0xFF, ty := 0 },
      .time { r0 with d := 0x84, a := 0xC1, b := 0xFF, ty := 0 }, .phase { i0 with d := 0xFF, a := 0xFF, imm := 15 },
      .mma q0, .mma { q0 with ben := 1, bar := 2 }, .mloop { q0 with sk := 0x84, sd := 0x85, rl := 1 }, .mloop { q0 with bbase := 0, sk := 0x84, sd := 0x85, bscr := 1, za := 1, chk := 1 },
      .mzero { q0 with abase := 0, bbase := 0, ty := 0 }, .mdrain { q0 with abase := 0, bbase := 0, ty := 0, sd := 0x85 }, .dpload dp0,
      .dpload { dp0 with tab := 1, first := 0, cnt := 255 }, .mstat ms0, .mchk { ms0 with sel := 1 }] : List Instr).all (fine warp wc) = true) ∧
    fine lead lc (.phase { i0 with g := { prd := 1, png := 0 }, d := 0xFF, a := 0xFF, imm := 1 }) = true ∧ warp.groupOf wu = some grp ∧
    Acts warp wc g0 ∧ ¬Acts lead lc { prd := 1, png := 0 } :=
  ⟨by decide +kernel, by decide +kernel, by decide +kernel, warp_acts _ _, lead_acts.2⟩

/-- O47: each form, in its types; a lead of no active lane; S and V destinations; a value within the codes' range and one above. -/
theorem witness_ConversionAndReductionResults :
    ([.cvtf { (r1 9) with md := 0x40 }, .cvtf { (r1 8) with md := 0x6C }, .cvti { (r1 8) with md := 0x10 }, .cvti { (ru 9) with d := 0x84, b := 0xFF, md := 0x20 },
      .cvtfi { (r1 2) with md := 0x40 }, .pack2 { r0 with ty := 11 }, .pack4 { r0 with a := 2, b := 4, ty := 13 }, .pack4 { r0 with a := 2, b := 4, ty := 0 },
      .unpk { (r1 11) with d := 4 }, .qdesc { r0 with ty := 6, md := 3 }, .qnt { r0 with a := 4, b := 0xFF, c := 0x84, ty := 8, md := 0 },
      .qnt { r0 with a := 4, b := 0xFF, c := 9, ty := 9, md := 0x40 }, .dqnt { r0 with d := 4, b := 2, ty := 8 }, .dqnt { r0 with d := 4, b := 2, ty := 9, md := 0x44 },
      .wreduce (r1 8), .wreduce { (r1 8) with d := 0x84 }, .wreduce { (r1 8) with d := 0xE0 }, .wscan (r1 8)] : List Instr).all (fine warp wc) = true ∧
    activeLanes warp wc g0 ≠ [] ∧ fine noLanes wc (.qnt { r0 with a := 4, b := 0xFF, c := 0x84, ty := 8, md := 0 }) = true ∧
    activeLanes noLanes wc g0 = [] ∧
    (Dy.lt (56, 0) (1, 0) = false ∧ codeOf 0 43 (.fin false 1 0) = (0, flInexact) ∧ Dy.lt (56, 0) (57, 0) = true ∧
      codeOf 0 43 (.fin false 57 0) = (7, flOverflow + flInexact)) := by decide +kernel

/-- O48: with an active lane, under a guard that leaves none, with DEBUG[0] set and clear. -/
theorem witness_SoftwareTrapEntry :
    ([.trap { i0 with d := 0xFF, a := 0xFF }, .bkpt { i0 with d := 0xFF, a := 0xFF }, .trap { i0 with g := { prd := 1, png := 0 }, d := 0xFF, a := 0xFF }] :
      List Instr).all (fine warp wc) = true ∧
    (∀ l, l < 32 → laneActive warp wc { prd := 1, png := 0 } l = false) ∧ laneActive warp wc g0 0 = true ∧
    (warp.ctx (curGroup warp wc).2).debug % 2 = 0 ∧
    (State.ctx { warp with ctxs := [(0, { Context.reset with state := .running, debug := 1 })] } 0).debug % 2 = 1 := by decide +kernel

/-- A drain row in progress: X1 = 1.0 in element 0; element 1 skips two. -/
def rowRun : RowRun :=
  { die := 0, q := 0, row := 0, w := 0, last := 15, x := [(1, 0x3F800000#32)], skip := [(1, 2)], span := [], spanCfg := none, chk := none,
    stores := [], flags := 0, word := 0, bad := false }
/-- The state of it. -/
def inRow : State := { State.reset with row := some rowRun }

/-- A row whose element 0 holds a NaN, element 2 an infinity and element 3 the fraction -1.5 in X0. -/
def rowCases : RowRun := { rowRun with x := [(0, 0x7F800001#32), (16, 0x7F800000#32), (24, 0xBFC00000#32)] }
/-- O50: an element of each case of a source. -/
theorem witness_MicroOperationResults :
    State.row { inRow with row := some rowCases } = some rowCases ∧
    F32.value (rowCases.src 0 0) = .nan ∧ F32.value (rowCases.src 2 0) = .inf false ∧ F32.value (rowCases.src 3 0) = .fin true 12582912 (-23) ∧
    ([0, 2, 3].all fun n => Tab.get (0 : Nat) rowCases.skip n == 0) = true ∧
    (∃ w : UF, w.imm.toNat % 8 ≠ 7 ∧ 5 ≤ w.imm.toNat % 8) ∧ ∃ w : UF, w.imm.toNat % 8 = 0 :=
  ⟨rfl, by decide +kernel, by decide +kernel, by decide +kernel, by decide +kernel,
    ⟨{ xd := 1, sa := 0, sb := 0, rm := 0, imm := 5 }, by decide +kernel⟩, { xd := 1, sa := 0, sb := 0, rm := 0, imm := 0 }, by decide +kernel⟩

/-- O49, O50: a row in progress, an element that skips and one that does not. -/
theorem witness_MicroOperationFrame_MicroOperationResults :
    inRow.row = some rowRun ∧ rowRun.bad = false ∧ inRow.poison = [] ∧ Tab.get (0 : Nat) rowRun.skip 1 ≠ 0 ∧ Tab.get (0 : Nat) rowRun.skip 0 = 0 ∧
    (∃ w : UF, w.sa.toNat < 8 ∧ w.sb.toNat < 8 ∧ uopZeros 21 w = true) :=
  ⟨rfl, rfl, rfl, by decide +kernel, by decide +kernel, { xd := 1, sa := 1, sb := 7, rm := 0, imm := 0x7A }, by decide +kernel⟩

/-! ### Witnesses: events. `at_` gives a state the operands of its event -/

/-- The state with an event's unit and numbers. -/
def on (s : State) (u : UnitId) (n : List Nat) : State := { s with arg := { Arg.none with u := u, n := n } }
/-- A sub-gang of every quad at the start of the image, with its header or without. -/
def gang (h : Option (BitVec 64)) (lead : Bool) : SubGang :=
  { pc := 0, quads := if lead then 1 else 0xFF, wait := false, wmask := 0, hdr := h }
/-- The code image: a header of one NOP; without it the marker byte is wrong. -/
def img (lead : Bool) : Mem := Mem.writeN (Mem.writeN [] (codeAddr 1 0) (placedHeader lead).toNat 8) (codeAddr 1 8) 0x00001FFFFFFFE189 8
/-- A header whose clause waits until K1 is 0. -/
def hWait : BitVec 64 := 0xC700000000006FF0#64
/-- Warp 0 about to issue the clause of header `h`. -/
def aboutTo (h : BitVec 64) (gr : Group) : State :=
  { idle with
    now := 64 * 1449, groups := [gr], units := [{ wUnit 0 with gangs := [gang (some h) false] }, wUnit 1, lUnit], code := img false }
/-- The lead stream about to issue, at cycle 32 of its core. -/
def leadAbout (h : BitVec 64) (gr : Group) : State :=
  { idle with
    now := 32 * 1449, groups := [gr], units := [wUnit 0, wUnit 1, { lUnit with gangs := [gang (some h) true] }], code := img true }
/-- The group with K1 at 1. -/
def grpK : Group := { grp with kLog := [{ cyc := 0, k := 1, set := some 1, delta := 0, u := wu, issue := 0, instr := true }] }
/-- The group with B2 on team barrier 0. -/
def grpB : Group := { grp with bLog := [{ cyc := 0, rank := 0, bar := 2, ev := .initTeam 0, u := wu, issue := 0, instr := true }] }
/-- An operation of warp 0. -/
def op (kind : OpKind) (stage : Stage) : Op := { (opBase warp wc kind) with id := 9, stage := stage }
/-- `idle` with an operation. -/
def withOp (o : Op) : State := { idle with ops := [o] }
/-- Two writes of V3, lane 0, that have fallen due, the later one last, and one of S4. -/
def due2 : State :=
  { on idle wu [] with
    pend := [{ u := wu, file := .v, reg := 3, lane := 0, val := 1, land := 0, issue := 0, op := 0 },
             { u := wu, file := .v, reg := 3, lane := 0, val := 2, land := 0, issue := 0, op := 0 },
             { u := wu, file := .s, reg := 4, lane := 0, val := 3, land := 0, issue := 0, op := 0 }] }
/-- A kernel of which no team has been placed. -/
def fresh1 : State :=
  { idle with kernels := [{ ker with nextTeam := [], lpb := { ker.lpb with scrkb := 512 } }], groups := [], teams := [], units := [] }
/-- The group placed and not started. -/
def placed1 : State := { idle with groups := [{ grp with state := .placed, slots := [] }], units := [] }
/-- The group draining for D cycles. -/
def drain1 : State := { idle with now := 384 * 1449, groups := [{ grp with state := .draining }] }
/-- The team killed; `relim` relaunches allowed. -/
def killed1 (relim : Nat) : State :=
  { idle with
    kernels := [{ ker with lpb := { ker.lpb with relim := relim } }]
    teams := [{ (newTeam 3 ker 0 0) with state := .killed, members := [2] }] }
/-- Warp 0 with its header fetched. -/
def xHdr (h : BitVec 64) : ExecUnit := { wUnit 0 with gangs := [gang (some h) false] }
/-- The lead stream with its header fetched. -/
def lHdr (h : BitVec 64) : ExecUnit := { lUnit with gangs := [gang (some h) true] }
/-- The kernel of `fresh1`. -/
def kerFresh : Kernel := { ker with nextTeam := [], lpb := { ker.lpb with scrkb := 512 } }
/-- Its first member planned. -/
def plan1 : List Planned := [(0, 0, 0, [])]
/-- The group of `placed1`. -/
def grpPlaced : Group := { grp with state := .placed, slots := [] }
/-- The group of `drain1`. -/
def grpDrain : Group := { grp with state := .draining }
/-- The team. -/
def team1 : Team := { (newTeam 3 ker 0 0) with state := .running, members := [2] }
/-- The team of `killed1`. -/
def teamKilled : Team := { team1 with state := .killed }
/-- The kernel of `killed1`. -/
def kerRelim (n : Nat) : Kernel := { ker with lpb := { ker.lpb with relim := n } }
/-- A TBAR on B2. -/
def tbar2 : Op := { op .tbar .inflight with bar := some 2 }
/-- CLAUSE_FETCH of a good header, and of a bad one. -/
def sFetch : State := on { idle with code := img false } wu [0]
/-- See `sFetch`. -/
def sFetchBad : State := on idle wu [0]
/-- CLAUSE_ISSUE, eligible, and waiting for K1. -/
def sIssue : State := on (aboutTo (placedHeader false) grp) wu []
/-- See `sIssue`. -/
def sIssueWait : State := on (aboutTo hWait grpK) wu []
/-- LEAD_CLAUSE_ISSUE, eligible, and waiting for K1. -/
def sLead : State := on (leadAbout (placedHeader true) grp) lu []
/-- See `sLead`. -/
def sLeadWait : State := on (leadAbout (hWait ||| 0x800000000000#64) grpK) lu []
/-- TEAM_BARRIER_APPLY. -/
def sTbar : State := on { idle with ops := [tbar2], groups := [grpB] } wu [9]
/-- A team of two members. -/
def team2 : Team := { team1 with members := [2, 5] }
/-- TEAM_BARRIER_APPLY of its first member. -/
def sTbar2 : State := { sTbar with groups := [grpB, { grp with gid := 5, tmbr := 1 }], teams := [team2] }
/-- TEAM_BARRIER_NOTIFY. -/
def sNotify : State := on idle wu [3, 0]
/-- TEAM_PLACE. -/
def sPlace : State := on fresh1 wu [0]
/-- GROUP_START. -/
def sStart : State := on placed1 wu [2]
/-- GROUP_RETIRE. -/
def sRetire : State := on drain1 wu [2]
/-- TEAM_RELAUNCH at the limit and below it. -/
def sRelaunch (n : Nat) : State := on (killed1 n) wu [3]
/-- A TRIG under way. -/
def trigOp : Op := op .trig .inflight
/-- TRIG_SIGNAL. -/
def sTrig : State := on (withOp trigOp) wu [9]
/-- The sub-gang of warp 0. -/
def gW (h : BitVec 64) : SubGang := gang (some h) false
/-- The sub-gang of the lead stream. -/
def gL (h : BitVec 64) : SubGang := gang (some h) true
/-- The warp header of one instruction. -/
def hW : BitVec 64 := placedHeader false
/-- The lead header of one instruction. -/
def hL : BitVec 64 := placedHeader true
/-- The lead header that waits for K1. -/
def hLWait : BitVec 64 := hWait ||| 0x800000000000#64

/-- A translation of the first page to die 0. -/
def xl0 : Xlat :=
  { ctx := 0, page := 0, psize := 12, r := true, w := true, at' := true, pin := false, tgt := 0, tid := 0, preg := 0, frame := 4096, key := 0,
    dirty := true }
/-- Lane 0 at address 8 with data 7, translated. -/
def ln (st : LaneSt) : LaneReq := { (laneReq 0 8 7 0) with xl := some xl0, st := st }
/-- An operation of 4 bytes with that lane; it counts on K1. -/
def acc (kind : OpKind) (stage : Stage) (st : LaneSt) : Op :=
  { (op kind stage) with lanes := [ln st], size := 4, k := some 1, dest := 6, ordinal := 1 }
/-- A copy from address 0 to address 64 of global memory. -/
def cpr : CopyRec :=
  { ch := 0, src := 0, dst := 64, shape := shp, srcScr := false, dstScr := false, sched := false, red := false, rop := 0, ty := 0,
    seq := none, value := none, units := 0, bytes := 0, paused := false, pauseVa := 0, slotTick := none, faulted := false, order := 0, marker := 0 }
/-- A copy command at a stage. -/
def cpo (stage : Stage) (r : CopyRec) : Op := { (op .copy stage) with copy := some r, k := some 1, ordinal := 1 }
/-- `idle` with one operation, at an event of it. -/
def opSt (o : Op) (n : List Nat) : State := on (withOp o) wu n
/-- A released command of a kind that the channel or the queues take. -/
def rel (kind : OpKind) : Op := { (op kind .released) with k := some 1, ordinal := 1, args := [4096, 5, 0] }
/-- A store lane acknowledged and one applied. -/
def acc2 : Op := { (acc .store .inflight .acked) with lanes := [ln .acked, { ln .applied with lane := 1 }] }
/-- A store with one lane applied at home 0 and one at home 1. -/
def acc3 : Op :=
  { (acc .store .inflight .applied) with lanes := [ln .applied, { ln .applied with lane := 1, xl := some { xl0 with tid := 1 } }] }
/-- A team access: lane 0 at offset 8 of core 0. -/
def tacc (kind : OpKind) : Op := { (acc kind .inflight .sent) with lanes := [{ (ln .sent) with xl := none }] }
/-- A probe or an access whose lane walks. -/
def walker (kind : OpKind) (stage : Stage) : Op := { (acc kind stage .walking) with lanes := [{ (laneReq 0 8 7 0) with st := .walking }] }
/-- The walker of a region of one level of 4 KiB pages that translates nothing. -/
def sd0 : ShootDown := { id := 5, ctx := 0, kind := 0, lo := 0, hi := 8192, op := 0, dies := [0], waiting := [(0, 9), (1, 9)] }
/-- A shoot-down in progress with a held translation it covers. -/
def sSd (n : List Nat) : State := on { idle with sds := [sd0], xlb := [{ die := 0, core := 0, idx := 0, x := xl0 }] } wu n
/-- A request to peer 1 that is parked there. -/
def parkOp : Op := { (acc .rst .inflight .parked) with lanes := [{ (laneReq 0 8 7 0) with peer := 1, st := .parked }] }
/-- SYSRD of FLAGS under way. -/
def sysOp (kind : OpKind) : Op := { (op kind .inflight) with args := [4], k := some 1, dest := 0x86, fn := 1 }
/-- An entry whose hold has ended. -/
def heldOp (kind : OpKind) : Op := { (acc kind .held .ready) with leave := 0 }
/-- Region 0: pages of 256 MiB, two levels of 12 bits, the root at 0; its first leaf names frame 2^28 of die 0, readable and writable
(R289, R290). -/
def mapped (s : State) : State :=
  { s with
    dies := { Die.reset with rafCopy := [(0, [(0, 2 ^ 63 + 3 * 2 ^ 61 + 2 ^ 59 + 12 * 2 ^ 37 + 12 * 2 ^ 33), (1, 0)])] } :: List.replicate 15 Die.reset
    hbm := Mem.writeN (Mem.writeN [] 0 (2 ^ 63 + 2 ^ 16) 8) (2 ^ 16) (2 ^ 63 + 2 ^ 62 + 2 ^ 61 + 2 ^ 60 + 2 ^ 21) 8 }
/-- The end of a walk that translates. -/
def sWalk : State := mapped (opSt (walker .load .probing) [9, 0])

/-- A copy within the core's scratch, from 0 to 64. -/
def scp : CopyRec := { cpr with srcScr := true, dstScr := true }
/-- Its command at a stage. -/
def sco (stage : Stage) : Op := cpo stage scp
/-- A source beyond the scratch address range. -/
def cpFar : CopyRec := { cpr with srcScr := true, src := 2 ^ 32 }
/-- A scheduled copy. -/
def cpSched : CopyRec := { scp with sched := true }
/-- All units delivered. -/
def cpEnd : CopyRec := { scp with units := 2, bytes := 8 }
/-- A copy to global memory that is delivered. -/
def cpDone : CopyRec := { cpr with units := 2, bytes := 8 }
/-- Global to global, translated. -/
def sClaim : State := mapped (opSt (cpo .inflight cpr) [9])
/-- A scheduled copy streaming in a lay that runs. -/
def sBeat : State :=
  { opSt (cpo .streaming cpSched) [9, 0] with
    kernels := [{ ker with lay := some 0, lpb := { ker.lpb with sched := true } }], lays := { Lay.reset with state := .running } :: List.replicate 3 Lay.reset }
/-- The end of its slot, with no beat that waits. -/
def sBeatEnd : State := opSt (cpo .streaming cpSched) [9]
/-- A copy behind an earlier one of its channel that has not entered its claims. -/
def sBehind : State :=
  on { idle with ops := [{ (sco .inflight) with id := 8 }, cpo .inflight { scp with order := 1 }] } wu [9]
/-- CPYCAN of channel 0 and the copy it meets. -/
def canOp : Op := { (op .cpycan .inflight) with id := 10, k := some 2, ordinal := 2, args := [1] }
/-- The state of `canOp`. -/
def sCan : State := on { idle with ops := [sco .streaming, canOp] } wu [10]
/-- A copy of which a unit is under way, and a CPYCAN of its channel. -/
def copyMid : Op :=
  { (sco .streaming) with lanes := [{ (laneReq 0 0 64 4) with st := .applied }, { (laneReq 1 4 68 4) with st := .answered }] }
/-- See `copyMid`. -/
def sCanMid : State := on { idle with ops := [copyMid, canOp] } wu [10]
/-- A LAUNCH at queue 5. -/
def lauOp : Op := { (op .launch .inflight) with args := [4096, 5, 0], k := some 1, dest := 0x86 }
/-- An enabled queue of context 0 with 16 slots. -/
def q5 : Queue := { Queue.reset with en := true, size := 4, tail := 1, base := 0 }
/-- `idle` with queue 5. -/
def qSt (x : Queue) (u : List Nat) : State := on { idle with queues := [(5, x)], mgmtOwner := 1 } wu u
/-- The value that enables queue 5 for context 0 with 16 slots. -/
def vOn : Nat := 2 ^ 15 + 4 * 2 ^ 6
/-- `q5` in error. -/
def qErr (n : Nat) : Queue := { q5 with err := n }
/-- `q5` fetching its head record. -/
def qFetch : Queue := { q5 with fetching := true }
/-- A NOP record at the base, or a malformed one; the page tables stay below 2^28 + 2^16. -/
def sFetchRec (w : Nat) : State := let s := mapped (qSt qFetch [5])
  { s with hbm := Mem.writeN s.hbm (2 ^ 28) w 8 }
/-- `q5` with a NOP record at its head. -/
def qNop : Queue := { q5 with headRec := some [0, 0, 0, 0] }
/-- The kernel in a state. -/
def kerIn (st : KState) : Kernel := { ker with state := st, recNo := 1, q := 5 }
/-- `idle` with it. -/
def kSt (st : KState) : State := on { idle with kernels := [kerIn st], code := img false } wu [1]

/-- A request of warp 0 in row 0, of a kind and a state. -/
def rq (kind st : Nat) : PassRow := { (reqRow warp wc kind 0 0 0) with row := 0, st := st, post := 0, n := 1, ty := 9, den := kind == 3 }
/-- `idle` with requests in the engine of die 0, quartet 0. -/
def engSt (rs : List PassRow) (n : List Nat) : State :=
  on { idle with engines := [{ (Engine.reset 0 0) with rows := rs }] } wu n
/-- A request that is issued and not yet posted. -/
def rqNew : PassRow := { rq 0 1 with row := 16 }
/-- An MSTAT of 8 cycles ago. -/
def statOp : Op := { (op .mstat .inflight) with args := [0], k := some 1, dest := 6 }
/-- The state of `rqNew` and `statOp`. -/
def sPost : State := { engSt [rqNew] [] with ops := [statOp], now := 8 * 1449 }
/-- An MLOOP whose block is misaligned. -/
def rqBad : PassRow := { rq 1 1 with bscr := true, badr := 8 }
/-- A DPLOAD of slot 0 from scratch address 0 that has one word left to fetch. -/
def rqFetch : PassRow := { rq 4 4 with fwords := [(0, 0)] }
/-- A pass of one step that stands after its last step, or that has to do it. -/
def rqStep (step : Nat) (den : Bool) : PassRow := { rq 0 3 with step := step, den := den }
/-- The state of a pass at cycle `c`. -/
def sStep (r : PassRow) (c : Nat) : State := { engSt [r] [0, 0, 0, 0] with now := c * 1449 }
/-- Drain memory with the program END in slot 0. -/
def sProg (rs : List PassRow) (d : Option DrainRun) (n : List Nat) : State :=
  on { idle with engines := [{ (Engine.reset 0 0) with rows := rs, prog := [(0, 0x17#32)], drain := d }] } wu n
/-- A drain that has entered no row. -/
def dr0 : DrainRun := DrainRun.fresh 0 0 0
/-- A word of row 0 that waits for its bank. -/
def dword : DrainWord := { row := 0, ready := 0, addr := 8, bytes := [(0, 7#8), (1, 0#8), (2, 0#8), (3, 0#8)] }
/-- A drain with that word. -/
def dr1 : DrainRun := { dr0 with next := 1, words := [dword], ins := [(0, 24)] }
/-- A lay that runs. -/
def layRun : Lay := { Lay.reset with state := .running }
/-- RESERVATION_START with a pass that steps unreserved. -/
def sResv : State := { engSt [rq 0 3] [0, 0, 0] with lays := layRun :: List.replicate 3 Lay.reset }

/-- `idle` with context 0 changed, port A owning management, at an event of it. -/
def cxSt (c : Context) (n : List Nat) : State := on { idle with ctxs := [(0, c)], mgmtOwner := 1 } wu n
/-- Context 0 in a state, on die 0. -/
def cx (st : CState) : Context := { Context.reset with state := st, partition := 1 }
/-- Its key id is 1. -/
def cxKey : Context := { cx .created with keysel := 1, keys := [(1, 5)] }
/-- Locked through TDISP, or started. -/
def cxTdisp (n : Nat) : Context := { cx .bound with viaTdisp := true, tdisp := n }
/-- Suspended with its group frozen. -/
def sFrozen : State :=
  let s := cxSt { cx .suspended with image := true } [0, 0]
  { s with groups := [{ grp with state := .frozen }], dies := { Die.reset with shadow := some 0 } :: List.replicate 15 Die.reset }
/-- Freezing, the die's units at rest since cycle 0. -/
def sSwap (c : Context) : State := { cxSt c [0, 0] with now := 64 * 1449 }
/-- The second stage of a swap-out. -/
def sSwap2 (c : Context) : State := { sSwap c with arg := { Arg.none with n := [0, 0, 1] } }
/-- A graceful suspension under way; the group has retired. -/
def cxGrace : Context := { cx .running with graceful := true }
/-- See `cxGrace`. -/
def sGrace : State := { cxSt cxGrace [0] with groups := [{ grp with state := .retired }] }

/-- A clause of two instructions that issues at cycle 0. -/
def run2 : ClauseRun := { (run0 false) with hdr := hW ||| 1 }
/-- A stopped unit: a trap of a kind at position `i` of the clause of `run0`. -/
def stp (kind i : Nat) (final : Bool) : Stop :=
  { kind := kind, sub := 0, cycle := 0, time := 0, pc := 8, idx := i, quads := 0xFF, clause := some run2, lanes := 0,
    detail := [], sgpc := [], final := final, byWalk := false, waitOnly := false, waits := [] }
/-- Warp 0 stopped. -/
def xStop (t : Stop) : ExecUnit := { wUnit 0 with stop := some t, ring := [regionRecord (wUnit 0) 0 0 1] }
/-- `idle` with warp 0 stopped. -/
def sStop (t : Stop) : State := on { idle with units := [xStop t, wUnit 1, lUnit], mgmtOwner := 1 } wu [0]
/-- The trap with a disposition written. -/
def disp (how : Nat) (t : Stop) : Stop := { t with disp := some how }
/-- UNITCMD for warp 0 stopped by a trap: the write of the register, or its effect. -/
def sDisp (t : Stop) (step : Nat) : State := { sStop t with arg := { Arg.none with u := wu, n := [0, step] } }
/-- A record. -/
def rec0 : FaultRec := stopRecord idle (xStop (stp 1 0 true)) 0 (stp 1 0 true)
/-- The context with a fault queue of 16 entries at host address 4096 of port A. -/
def cxRing : Context := { cx .running with fqbase := 4096, fqctl := 4 + 2 ^ 17 }
/-- A die that holds `rec0` for it. -/
def sRing : State :=
  { cxSt cxRing [0, 0] with now := 690 * 8192, dies := { Die.reset with hold := [rec0] } :: List.replicate 15 Die.reset }
/-- A flag held since cycle 0. -/
def hf : HeldFlag := { die := 0, q := 0, core := 0, ctx := 0, cycle := 0, flags := 1, oor := 7 }
/-- Its moment. -/
def sFlag : State := { on { idle with heldFlags := [hf] } wu [0, 0] with now := 384 * 1449 }
/-- `idle` with lay slot 0 changed, at an event of it. -/
def laySt (y : Lay) (n : List Nat) : State :=
  on { idle with lays := y :: List.replicate 3 Lay.reset, mgmtOwner := 1, now := 690 * 8192 } wu n
/-- A lay of context 0 on die 0 with a period of 4,096 ticks. -/
def ly (st : LState) : Lay := { Lay.reset with state := st, period := 4096, diemask := 1, modmask := 1, layid := 1 }
/-- A good image of such a lay, pinned at address 0. -/
def sImage : State :=
  let s : State := mapped (laySt Lay.reset [0, 0])
  { s with
    hbm := ([2 ^ 48 + 4096, 1, 1, 0, 0, 64, 1, 0].zipIdx).foldl (fun m x => Mem.writeN m (2 ^ 28 + 8 * x.2) x.1 8)
        (Mem.writeN s.hbm (2 ^ 16) (2 ^ 63 + 2 ^ 62 + 2 ^ 61 + 2 ^ 60 + 2 ^ 59 + 2 ^ 21) 8) }
/-- Its registers name a base far enough away. -/
def lyArm : Lay := { (ly .loaded) with startReg := 2 ^ 20 }
/-- In its last period, or with its fault noticed. -/
def lyLast : Lay := { (ly .running) with nperiod := 2 }
/-- A lay that has noticed a fault. -/
def lyNoticed (st : LState) : Lay := { ly st with noticed := true, accept := 1, stopTick := 4096 }
/-- A lay whose restart tick has been announced, with the fallback in slot 1. -/
def lyBack : Lay := { (lyNoticed .abandoned) with ctl := 2 ^ 10 + 2 ^ 8, fbid := 2 }
/-- See `lyBack`. -/
def sBack : State :=
  { (laySt lyBack [0, 8192]) with lays := [lyBack, { (ly .loaded) with layid := 2 }, Lay.reset, Lay.reset] }
/-- It waits for tick 8192. -/
def lyWait : Lay := { (lyNoticed .resyncing) with announced := true, rst := 8192 }
/-- A standby of this module. -/
def lySb : Lay := { (ly .running) with sben := true }
/-- A module that is not the origin. -/
def sLoss : State := { (laySt lySb [0, 0]) with podOrigin := 1 }
/-- A lay with a slack window of 100 ticks for channel 0 of die 0, open now. -/
def lySlack : Lay := { (ly .running) with
    slots := [{ die := 0, off := 0, len := 100, kind := 6, unit := 0, arg := 0 }], baseTick := 4 }
/-- A refresh that does not fit. -/
def sSlack : State := laySt lySlack [0, 0, 448]
/-- An armed lay at its base while TIME is not synchronised. -/
def sArmLost : State := { (laySt (ly .armed) [0]) with syncLost := true }
/-- An armed lay at its base, of which a killed team waits to be placed again. -/
def sArmLate : State :=
  { (laySt (ly .armed) [0]) with kernels := [{ ker with lay := some 0 }], teams := [{ team1 with state := .relaunching }] }
/-- An abandoned lay with no fallback, whose kernel waits. -/
def sNoBack : State := { (laySt (lyNoticed .abandoned) [0, 8192]) with kernels := [{ ker with lay := some 0 }] }
/-- The standby has sent a notice that no broadcast followed. -/
def sUnheard : State :=
  { (laySt { lySb with noticed := true, state := .faulted } [0, 1]) with podOrigin := 1 }
/-- A correction of the servo. -/
def sServo (off : Nat) (lost : Bool) : State := { (on idle wu [off, 1, 2]) with syncLost := lost, podOrigin := 1 }

/-- `idle` with a link changed, port A owning management, at an event of it. -/
def lkSt (x : LinkRec) (n : List Nat) : State := on { idle with links := [x], mgmtOwner := 1, now := 690 * 8192 } wu n
/-- The link from die 0 to die 1 in a state. -/
def lk (st : Nat) : LinkRec := { (LinkRec.reset 0 1) with st := st }
/-- The port of die 0 in a state with a key slot. -/
def pt (st : Nat) (e : List (Nat × Nat × Nat × Nat × Nat × Nat)) : LinkRec := { (LinkRec.reset 0 16) with st := st, slots := e }
/-- A message of kind 2: 4 bytes to address 8. -/
def msgW : Msg :=
  { kind := 2, peer := 1, ctx := 0, rid := 0, op := 0, ty := 0, sz := 4, ord := 0, sco := 0, lmask := 1, addrs := [8], data := [7],
    cmps := [], cause := 0, seq := none, rop := 0 }
/-- A VC0 frame of lay 0 for die 0, written or combined. -/
def frm (opk : Nat) : Frame := { lay := 0, ddie := 0, dline := 64, key := 0, opk := opk, rty := 0, payload := [1#8, 2#8, 3#8, 4#8], nflit := 0 }
/-- A beat of it, to die 1 or to the module behind the port. -/
def beat (lnk : Nat) : Beat :=
  { die := 0, lnk := lnk, op := 9, lay := 0, ddie := 0, dline := 64, key := 0, opk := 0, rty := 0, bytes := [1#8, 2#8, 3#8, 4#8] }
/-- A lay whose first VC0 slot on the link to die 1, and through the port, is open. -/
def lyVc0 : Lay :=
  { (ly .running) with
    slots := [{ die := 0, off := 0, len := 100, kind := 2, unit := 1, arg := 0 }, { die := 0, off := 0, len := 100, kind := 3, unit := 0, arg := 1 }] }
/-- A gateway that has a beat to send in the slot. -/
def sSend (lnk : Nat) : State :=
  { (lkSt (pt 2 [(0, 2, 5, 0, 0, 0)]) [0, lnk, 0, 8192, 100, 0, 0]) with gates := [beat lnk], lays := lyVc0 :: List.replicate 3 Lay.reset }
/-- A frame arrives for die 0. -/
def sWrite (opk : Nat) : State :=
  let s := laySt (ly .running) []
  { s with arg := { s.arg with frame := some (frm opk) } }
/-- A received frame. -/
def rxF (good : Bool) (m : Option Msg) : RxFrame :=
  { vc := 1, ks := 0, crcGood := good, tagGood := true, resend := false, msg := m, vc0 := some (frm 0) }
/-- A port with an active receive slot of VC 1. -/
def ptRx (run : Nat) : LinkRec := { (pt 2 [(6, 2, 5, 0, 0, 0)]) with run := run }
/-- A frame arrives at it. -/
def sRx (run : Nat) (f : RxFrame) : State := let s := lkSt (ptRx run) [0]; { s with arg := { s.arg with rx := some f } }
/-- A message leaves through a keyed port, or has arrived. -/
def sMsg : State := let s := lkSt (pt 2 [(4, 2, 5, 0, 0, 0)]) [0, 0, 9, 0]; { s with arg := { s.arg with msg := some msgW } }
/-- See `sMsg`. -/
def sMsgIn : State := let s := mapped (lkSt (pt 2 [(8, 2, 5, 0, 0, 0)]) [0, 1]); { s with arg := { s.arg with msg := some msgW } }
/-- A VC3 message leaves through a keyed port. -/
def sMsg3 : State :=
  let s := lkSt (pt 2 [(12, 2, 5, 0, 0, 0)]) []
  { s with arg := { s.arg with n := [0, 4, 9], vc3 := some (.ready 0) } }
/-- A tag. -/
def tag0 : Tag := { seq := 0, key := 0, vc := 1, ks := 0, nflit := 0, opk := 0, rty := 0, ddie := 0, dline := 0, mode := 0 }
/-- Two messages have left under VC 1. -/
def sSent : State := { (lkSt (pt 2 []) [0, 16, 1, 0, 1]) with out := [.dyn 0 1 msgW [tag0], .dyn 0 1 msgW [tag0]] }
/-- A VC3 message has left. -/
def sSent3 : State := { (lkSt (pt 2 []) [0, 16, 3]) with out := [.vc3 0 (.ready 0) tag0] }
/-- A VC0 frame has left; its replay is due now. -/
def sSent0 (st : LState) : State :=
  { (lkSt (pt 2 [(0, 2, 5, 0, 0, 0)]) [0, 16, 0, 1]) with
    out := [.vc0 0 tag0 (frm 0)], lays := ly st :: List.replicate 3 Lay.reset }
/-- The port with a staged key of VC 0 in a direction, due now, and the other slot active. -/
def sKey (dir : Nat) : State := lkSt (pt 2 [(2 * dir, 1, 5, 0, 0, 0), (2 * dir + 1, 2, 5, 0, 0, 0)]) [0, 0, dir, 0]
/-- The port while it waits for a VC0 replay of lay 0. -/
def sMiss : State := { (lkSt { (pt 2 []) with await := [0] } [0, 0, 16, 1]) with lays := ly .running :: List.replicate 3 Lay.reset }
/-- The port at a WKCMD, with a switch tick. -/
def sStage (tick : Nat) : State := lkSt { (pt 2 []) with wktick := tick } [0, 0]

/-- A report for zone 0 with its time, whose groups are in a state. -/
def sReport (st : GState) (n : List Nat) : State := { (on idle wu n) with groups := [{ grp with state := st }], now := 100 * 1449 }
/-- Zone 0 in a rollback that has ended. -/
def z0 : Zone := { zone := 0, rolling := true, cut := 20, fin := 90, zcnt := 0, zlast := 0, heldCut := none }
/-- See `z0`. -/
def sRolled : State := { (sReport .running [0]) with zones := [z0] }
/-- A report for zone 0, whose group lies frozen in the shadow store. -/
def sIce (n : List Nat) : State := { (sReport .frozen n) with units := [{ wUnit 0 with id := { wu with sh := true } }] }
/-- A frozen zone that already holds a cut. -/
def sHeld : State := { (sIce [0, 0, 40]) with zones := [{ z0 with rolling := false, heldCut := some (30, 1) }] }
/-- Warp 0 with a region record of cycle 0 and an issue of cycle 60. -/
def xOld : ExecUnit := { wUnit 0 with ring := [regionRecord (wUnit 0) 0 0 1], issued := [{ cycle := 60, land := 64 }] }
/-- The kernel scheduled in lay 0. -/
def sKer : Kernel := { ker with lay := some 0, lpb := { ker.lpb with sched := true } }
/-- The kernel of a dual run. -/
def kerDual : Kernel := { ker with lpb := { ker.lpb with dual := true } }
/-- A pair of zones of a dual run, each with a unit. -/
def sDual (src : Nat) : State :=
  { sReport .running [0, src, 90] with
    kernels := [kerDual], groups := [grp, { grp with gid := 5, core := 32, twinOf := some 2 }]
    units := [wUnit 0, { wUnit 0 with id := { wu with core := 32 }, gid := 5 }] }
/-- Warp 0 is issuing and lane 3 of its V1 is uncorrectable. -/
def upset : State := { warp with poison := [poisonArr 0 (vKey wu 1 3)] }
/-- IADD V4 = V1 + V2. -/
def readsUpset : Instr := .iadd { r0 with d := 4, a := 1, b := 2 }
/-- Warp 0 marked. -/
def xMark : ExecUnit := { wUnit 0 with mark := some 1 }
/-- Its second mismatch. -/
def sMark : State := on { idle with units := [xMark, wUnit 1, lUnit] } wu [0]
/-- A held store of warp 0 and one of the warp 32 cores away. -/
def opHeld : Op := { (heldOp .store) with gid := 2 }
/-- The twin's group. -/
def grpTwin : Group := { grp with twinOf := some 1, gid := 5, core := 32 }
/-- The twin's entry. -/
def opTwin : Op := { opHeld with id := 10, gid := 5, u := { wu with core := 32 } }
/-- A lone entry, and a pair that is compared at the twin's. -/
def sPair (pair : Bool) : State :=
  if pair then on { idle with ops := [opTwin, opHeld], groups := [grp, grpTwin] } opTwin.u [10] else opSt opHeld [9]
/-- A store that its home replays and fails. -/
def sReplay : State := opSt (acc .store .inflight .sent) [9, 0, 0]
/-- A copy of which a unit is under way. -/
def copyUnit : Op := { (cpo .streaming cpr) with lanes := [{ (laneReq 0 0 64 4) with st := .applied }] }
/-- Its home replays and fails. -/
def sReplayCopy : State := mapped (opSt copyUnit [9, 0, 0])
/-- The home of a peer's request replays and fails. -/
def sReplayMsg : State := let s := mapped (on idle wu [0, 0, 0, 0]); { s with arg := { s.arg with msg := some msgW } }
/-- A corrected error at a pin, counted from 1, or in an array. -/
def sCorr (e : Nat) : State := on idle wu [0, 0, 0, e]
/-- A context whose TDISP interface stops while a copy streams: at the command, or at a later look. -/
def sStopping (n : Nat) : State :=
  { cxSt (if n = 0 then { cxTdisp 2 with state := .running } else { cxTdisp 2 with state := .killed }) [0, 0, n] with ops := [cpo .streaming cpr] }
/-- The owner at the repair registers, with spare lanes left. -/
def sRep (spare : Nat) : State :=
  on { idle with mgmtOwner := 1, chans := [{ die := 0, chan := 0, spare := spare, pins := [(3, 1)], want := some 3 }] } wu [0, 3]
/-- A channel with a repair granted. -/
def sRepair : State := { (sRep 2) with arg := { Arg.none with n := [0, 0, 3] } }

/-- `idle` with die 0 changed, port A owning management, at an event. -/
def dieSt (d : Die) (n : List Nat) : State := on { idle with dies := d :: List.replicate 15 Die.reset, mgmtOwner := 1, groups := [] } wu n
/-- A die of class 3. -/
def die3 : Die := { Die.reset with cls := 3, upc := Config.unitsPerCycle 3 }
/-- It holds a lease that ends at an instant. -/
def dieLease (e : Nat) : Die := { die3 with boost := some e, upc := Config.boostUnits }
/-- A die that is to change to class 1, or to return. -/
def dieChange (st : Nat) : Die := { Die.reset with st := st, reqCls := 1, changing := true }
/-- A die in a state of service. -/
def dieIn (st : Nat) : Die := { Die.reset with st := st }
/-- The die's team is running under a lay. -/
def sQuiesce : State :=
  { idle with arg := { Arg.none with n := [0] }, lays := { (ly .running) with diemask := 1 } :: List.replicate 3 Lay.reset }
/-- A team that waits to be placed again. -/
def teamAgain : Team := { team1 with state := .relaunching }
/-- Readings of the sensors. -/
def sRead (temp : Nat) : State := dieSt Die.reset (6000 :: List.replicate 16 temp ++ List.replicate 16 300)
/-- The comparison of each millisecond with a power, after another excess or not; die 0 draws the most and is the hottest. -/
def sPower (w : Nat) (again : Bool) (temp : Nat) : State :=
  { (dieSt { (dieLease 99) with draw := 400, temp := temp } []) with pmeas := w, overPower := again, reductions := [0] }
/-- POWER_CUTOFF. -/
def sCut (n : List Nat) (t : Option Nat) : State :=
  { (dieSt Die.reset n) with overSince := t, now := 10500000 * Config.unitsPerTick }
/-- The controllers after reset. -/
def ib0 : Ibrum := Ibrum.reset Flash.reset
/-- A heartbeat that did not come, after `n` others. -/
def sTake (n : Nat) : State :=
  { (on idle wu []) with ibrum := { ib0 with standby := true, missed := n }, now := 210000 * Config.unitsPerTick }
/-- A stage of a bring-up. -/
def sUp (n : List Nat) (powered : Bool) : State := { (on idle wu n) with powered := powered }
/-- The controllers in a phase of an update. -/
def sIb (b : Ibrum) (n : List Nat) : State := on { idle with ibrum := b, mgmtOwner := 1 } wu n
/-- An alarm with a policy. -/
def sAlarm (pol : Nat) : State :=
  { (cxSt { (cx .running) with keys := [(1, 5)] } [0]) with
    alarmPol := pol, links := [pt 2 [(0, 2, 5, 0, 0, 0)]], lays := ly .running :: List.replicate 3 Lay.reset }
/-- A register write of the owner. -/
def sReg (off v : Nat) : State := cxSt (cx .created) [0, off, v]

/-! ### Witnesses: the hypotheses of every clause about an event, met together at named states -/

/-- What the clauses about a clause issue ask of a warp or a lead stream, but for its kind and for eligibility. -/
def issues (s : State) (x : ExecUnit) (g : Group) (y : SubGang) (h : BitVec 64) : Bool :=
  s.unit? s.arg.u == some x && s.group? x.gid == some g && g.state != .frozen && !x.ended && x.clause == none && x.resume == none &&
    s.ucyc s.arg.u % 16 == 0 && x.wins.contains (s.ucyc s.arg.u / 16 % 4) && mayIssue s g x (s.ucyc s.arg.u) &&
    served x == some y && y.hdr == some h

/-- O51: a clause fetch, good and bad; an issue of each kind, eligible and not. -/
theorem witness_UnitAndTeamEvents_clauses :
    (let s := sFetch; let y := gang none false
     s.unit? s.arg.u = some (wUnit 0) ∧ s.group? 2 = some grp ∧ s.kernelOf grp = some ker ∧
     (wUnit 0).gangs.find? (fun y => lowQuad y.quads == s.num 0) = some y ∧ (wUnit 0).ended = false ∧ (wUnit 0).stop = none ∧
     y.wait = false ∧ y.hdr = none ∧ headerCause s 1 (8 * ker.lpb.codew) false y.pc = none ∧
     poisonedWord s 1 y.pc (codeWord s 1 y.pc) = none) ∧
    headerCause sFetchBad 1 (8 * ker.lpb.codew) false 0 ≠ none ∧
    (issues sIssue (xHdr hW) grp (gW hW) hW = true ∧
      eligible sIssue grp (xHdr hW) hW (clauseWords sIssue grp.kid 0 hW) (sIssue.ucyc wu) = true) ∧
    (issues sIssueWait (xHdr hWait) grpK (gW hWait) hWait = true ∧
      eligible sIssueWait grpK (xHdr hWait) hWait (clauseWords sIssueWait grpK.kid 0 hWait) (sIssueWait.ucyc wu) = false) ∧
    (issues sLead (lHdr hL) grp (gL hL) hL = true ∧ (lHdr hL).issued.isEmpty = true ∧
      eligible sLead grp (lHdr hL) hL (clauseWords sLead grp.kid 0 hL) (sLead.ucyc lu) = true) ∧
    issues sLeadWait (lHdr hLWait) grpK (gL hLWait) hLWait = true ∧ (lHdr hLWait).issued.isEmpty = true ∧
      eligible sLeadWait grpK (lHdr hLWait) hLWait (clauseWords sLeadWait grpK.kid 0 hLWait) (sLeadWait.ucyc lu) = false := by
  decide +kernel

/-- O51: writes that have fallen due, the later one of V3 last. -/
theorem witness_UnitAndTeamEvents_landings :
    due2.pend.filter (fun w => w.u = due2.arg.u && w.land ≤ due2.ucyc due2.arg.u) = due2.pend ∧
    due2.pend.map (fun w => (w.file, w.reg)) = [(.v, 3), (.v, 3), (.s, 4)] := by decide +kernel

/-- O51: a TBAR of the last member, and of the first of two. -/
theorem witness_UnitAndTeamEvents_members :
    sTbar.aliveMembers team1 = [2] ∧ sTbar.tmbrOf 2 = grpB.tmbr ∧
    let s := sTbar2
    s.op? (s.num 0) = some tbar2 ∧ s.team? grpB.tid = some team2 ∧ s.aliveMembers team2 = [2, 5] ∧ s.tmbrOf 5 ≠ grpB.tmbr ∧
    (team2.bar (bBefore grpB 2 (tbar2.issue + 4) tbar2.u.rank).tidx).bits = [] := by decide +kernel

/-- O51: team barriers, placement and start. -/
theorem witness_UnitAndTeamEvents_teams :
    (let s := sTbar
     let v := bBefore grpB 2 (tbar2.issue + 4) tbar2.u.rank
     s.op? (s.num 0) = some tbar2 ∧ tbar2.live = true ∧ s.group? tbar2.gid = some grpB ∧ tbar2.bar = some 2 ∧
     v.mode = 2 ∧ s.team? grpB.tid = some team1 ∧ (team1.bar v.tidx).err = 0 ∧ v.tidx < team1.tb.length) ∧
    sNotify.team? (sNotify.num 0) = some team1 ∧
    (let s := sPlace
     diePlaces s (s.num 0) = true ∧ headTeam s (s.num 0) = some (kerFresh, 0, none) ∧
     planTeam s (s.num 0) kerFresh.lpb 0 = some plan1 ∧ (∀ m ∈ s.teams, m.tid < s.nextId)) ∧
    (let s := sStart; let g := grpPlaced
     s.group? (s.num 0) = some g ∧ s.kernelOf g = some ker ∧ mayBegin s g ker = true ∧ g.start ≤ s.cyc g.die g.core ∧ g.slots.Nodup ∧
     (s.groups.filter fun x => x.die = g.die && x.core = g.core && x.state == .placed && x.start = g.start) = [g] ∧
     s.partner g = none) := by decide +kernel

/-- O51: retirement, relaunch (at the limit and below it) and TRIG. -/
theorem witness_UnitAndTeamEvents_ends :
    (let s := sRetire; let g := grpDrain
     s.group? (s.num 0) = some g ∧ g.state = .draining ∧ drainHeld s g = false ∧ drainFrom s g + 384 ≤ s.cyc g.die g.core ∧
     g.twinOf = none ∧ s.kernel? g.kid = some ker) ∧
    (∀ n ∈ ([0, 1] : List Nat), let s := sRelaunch n
     s.team? (s.num 0) = some teamKilled ∧ s.kernel? teamKilled.kid = some (kerRelim n) ∧ teamKilled.state = .killed ∧
     (kerRelim n).state = .running ∧ s.ops = [] ∧ decide ((kerRelim n).lpb.relim ≤ teamKilled.relaunches) = (n == 0)) ∧
    (let s := sTrig; let o := trigOp
     s.op? (s.num 0) = some o ∧ o.live = true ∧ s.group? o.gid = some grp ∧
     (s.ops.any fun e => e.gid = o.gid && e.kind.isWrite && e.live && e.issue ≤ o.issue) = false ∧ grp.trig ≠ 2 ∧
     s.kernel? grp.kid = some ker) := by decide +kernel

/-- Operation `o` is the one that the event is about, and lives. -/
def about (s : State) (o : Op) : Bool := s.op? (s.num 0) == some o && o.live

/-- O52: an entry of each kind leaves the stopper. -/
theorem witness_AccessEvents_stopper :
    (∀ o ∈ [heldOp .store, heldOp .atomic, heldOp .tbar, heldOp .trig, { (heldOp .teamStore) with lanes := [{ (ln .idle) with xl := none }] }],
      let s := opSt o [9]
      about s o = true ∧ o.held = true ∧ frozenUnit s o.u = false ∧ o.leave ≤ s.ucyc o.u ∧ s.arrPoisoned 7 o.id 1 = false ∧
      s.group? o.gid = some grp ∧ s.team? grp.tid = some team1) ∧
    (∀ o ∈ [cpo .released cpr, rel .cpycan, rel .launch, rel .doorbell], let s := opSt o []
      s.ops = [o] ∧ s.arg.u = o.u ∧ o.stage = .released ∧ frozenUnit s o.u = false ∧ writeMayGo s o = true ∧
      ((o.kind = .copy ∨ o.kind = .copyr ∨ o.kind = .cpyst) ∧ o.copy ≠ none ∨ o.kind = .cpycan ∨ o.kind = .launch ∨
        o.kind = .doorbell)) ∧
    (let s := { on idle wu [3, 1, 5] with links := [{ (LinkRec.reset 3 1) with st := 0 }] }; s.dies.length = 16 ∧ s.num 1 < 16 ∧ linkHolds s (s.num 0) (s.num 1) = true) ∧
    (let s := on idle wu [1, 1, 5]; s.dies.length = 16 ∧ s.num 1 < 16 ∧ linkHolds s (s.num 0) (s.num 1) = false) := by
  decide +kernel

/-- O52: a request comes to its home, and is served there. -/
theorem witness_AccessEvents_homes :
    (∀ o ∈ [acc .store .inflight .sent, acc .load .inflight .atHome, acc .store .inflight .atHome], let s := opSt o [9, 0]
      about s o = true ∧ lanesAt o 0 ≠ [] ∧ notArrived s o 0 = false ∧ homeGone s 0 = false ∧ yieldsTurn s o 0 = false ∧
      homeWaits (Judged s 0) o 0 = false ∧
      (∀ l ∈ lanesAt o 0, migrating (Judged s 0) o l = false ∧ behindParked (Judged s 0) o l = false)) ∧
    (∃ l ∈ lanesAt (acc .store .inflight .sent) 0, l.st = .sent) ∧ (∀ l ∈ lanesAt (acc .store .inflight .atHome) 0, l.st = .atHome) ∧
    (∀ o ∈ [acc .store .inflight .applied, acc2, acc3, acc .load .inflight .answered], let s := opSt o [9, 0]
      about s o = true ∧ (∀ l ∈ o.lanes, l.poison = false) ∧ linkHolds s o.u.die 0 = false) ∧
    (∀ l ∈ (acc .load .inflight .answered).lanes, linkHolds (opSt (acc .load .inflight .answered) [9]) 0 l.home = false) := by
  decide +kernel

/-- O52: team accesses at a free bank. -/
theorem witness_AccessEvents_team :
    (let o := tacc .teamLoad; let s := opSt o [9, 0]; let l : LaneReq := { (ln .sent) with xl := none }
     about s o = true ∧ s.ops.filter (fun p => p.id == o.id) = [o] ∧ s.num 1 = l.lane ∧ teamCore s o.u l.addr = 0 ∧
     (o.lanes.filter fun k => k.st == .sent && teamCore s o.u k.addr == 0) = [l] ∧ o.lanes.find? (fun k => k.lane == l.lane) = some l ∧
     teamQueue s o.u.die 0 = [] ∧ s.atStart o.u.die 0 = true ∧
     (∀ w ∈ wordsOf l.addr o.size, bankFree s o.u.die 0 w (s.cyc o.u.die 0) = true) ∧ o.u.core = 0) ∧
    (let o := tacc .teamStore; let s := opSt o [9, 0]; let l : LaneReq := { (ln .sent) with xl := none }
     about s o = true ∧ s.ops.filter (fun p => p.id == o.id) = [o] ∧
     (o.lanes.filter fun l => l.st == .sent && teamCore s o.u l.addr == s.num 1) = [l] ∧ teamBehind s o (s.num 1) = false ∧
     teamQueue s o.u.die (s.num 1) = [] ∧ s.atStart o.u.die (s.num 1) = true ∧
     (∀ w ∈ wordsOf l.addr o.size, bankFree s o.u.die (s.num 1) w (s.cyc o.u.die (s.num 1)) = true)) := by decide +kernel

/-- O52: walks, shoot-downs, faults and the ends of system reads and of WAITT. -/
theorem witness_AccessEvents_ends :
    (let o := walker .probe .inflight; about (opSt o [9, 0]) o = true ∧
      o.lanes.find? (fun l => l.lane == 0) = some { (laneReq 0 8 7 0) with st := .walking }) ∧
    (let o := walker .load .probing; let l : LaneReq := { (laneReq 0 8 7 0) with st := .walking }
     about sWalk o = true ∧ o.lanes.find? (fun l => l.lane == 0) = some l ∧
     ((sWalk.endWalk o l).op? o.id).any (fun p => p.live && p.lanes.all fun k => k.st != .walking && k.st != .faulted) = true) ∧
    (let s := sSd [5, 0, 0]
     s.sd? (s.num 0) = some sd0 ∧ (sd0.waiting.any fun w => w.1 = s.num 1 * 256 + s.num 2 &&
       match s.op? w.2 with | some o => underWay s sd0 o | none => false) = false ∧
     (∀ o ∈ s.ops, ∀ l ∈ o.lanes, l.st ≠ .parked) ∧ sd0.op = 0) ∧
    (let o := acc .store .inflight .sent; let s := opSt o [9, 0, 5]
     about s o = true ∧ (s.num 2 = 2 ∨ s.num 2 = 5) ∧ ln .sent ∈ o.lanes ∧ (ln .sent).lane = s.num 1 ∧ (ln .sent).st = .sent) ∧
    (let s := opSt parkOp [9, 0]; let o := parkOp; let l : LaneReq := { (laneReq 0 8 7 0) with peer := 1, st := .parked }
     s.ops = [o] ∧ s.num 0 = o.id ∧ o.live = true ∧ (o.kind = .rld ∨ o.kind = .rst ∨ o.kind = .ratom) ∧
     o.lanes.find? (fun l => l.lane == s.num 1) = some l ∧ (∀ k ∈ o.lanes, k.st = .parked ∧ k.xl = none ∧ k.peer = 1 ∧
       k.addr / 2 ^ regionPage s o.u.die o.ctx l.addr = l.addr / 2 ^ regionPage s o.u.die o.ctx l.addr)) ∧
    about (opSt (sysOp .sysrd) [9]) (sysOp .sysrd) = true ∧
    (let o : Op := { sysOp .waitt with args := [0] }; let s := opSt o [9]
     about s o = true ∧ o.args.getD 0 0 ≤ localTime s o.u.die o.u.core s.now) := by decide +kernel

/-- A copy operand is out of reach. -/
def outOfReach (s : State) (o : Op) (r : CopyRec) : Bool :=
  (r.srcScr && (2 ^ 32 ≤ r.src || !scrReach s o.gid (r.all.map fun p => (p.1, p.2.2)))) ||
    (r.dstScr && (2 ^ 32 ≤ r.dst || !scrReach s o.gid (r.all.map fun p => (p.2.1, p.2.2))))

/-- O53: claims: out of reach, behind an earlier copy, scheduled, to scratch, to global memory; and the start. -/
theorem witness_CopyQueueAndKernelEvents_claims :
    (let o := cpo .inflight cpFar; let s := opSt o [9]; s.op? 9 = some o ∧ outOfReach s o cpFar = true) ∧
    (let r : CopyRec := { scp with order := 1 }; let o := cpo .inflight r; let s := sBehind
     s.op? (s.num 0) = some o ∧ outOfReach s o r = false ∧ channelWaits s o r = true) ∧
    (let o := cpo .inflight cpSched; let s := opSt o [9]
     s.op? 9 = some o ∧ outOfReach s o cpSched = false ∧ channelWaits s o cpSched = false ∧ cpSched.sched = true) ∧
    (let o := sco .inflight; let s := opSt o [9]
     s.op? 9 = some o ∧ outOfReach s o scp = false ∧ channelWaits s o scp = false ∧ scp.sched = false ∧ scp.dstScr = true) ∧
    (let o := cpo .inflight cpr; let s := sClaim
     s.op? 9 = some o ∧ outOfReach s o cpr = false ∧ channelWaits s o cpr = false ∧ cpr.sched = false ∧ cpr.dstScr = false ∧
     regionRefuses s o cpr = false ∧ s.claims = []) ∧
    (let o := sco .claimed; let s := opSt o [9]
     s.op? 9 = some o ∧ o.stage = .claimed ∧ channelClear s o scp = true ∧ o.args.getD 0 0 = 0) := by decide +kernel

/-- The words of the next unit can be read, none of them faults, and they can be written. -/
def unitGoes (s : State) (o : Op) (r : CopyRec) : Bool :=
  let ls := if o.lanes.isEmpty then unitLanes r else o.lanes
  let x := ls.foldl (readWord o r) (s.modOp o.id fun o => { o with lanes := ls }, .ok)
  x.2 == .ok && ls.all (fun l => l.st != .applied) && match x.1.op? o.id with
    | none => false
    | some p =>
      let y := p.lanes.foldl (unitFault o r) (x.1, Unit8.ok)
      p.lanes.all (fun l => l.st == .answered) && y.2 == .ok && match y.1.op? o.id with
        | none => false
        | some q => (q.lanes.foldl (writeWord o r) y).2 == .ok

/-- O53: units within scratch and through memory, the end, a beat of a schedule, acknowledgement and cancellation. -/
theorem witness_CopyQueueAndKernelEvents_units :
    (let o := sco .streaming; let s := opSt o [9, 0]
     s.op? 9 = some o ∧ o.stage = .streaming ∧ scp.paused = false ∧ scp.stopping = false ∧ frozenUnit s o.u = false ∧
     scp.units < scp.shape.count ∧
     unitGoes s o scp = true ∧ regionEntries s o scp = []) ∧
    (let o := cpo .streaming cpr; let s := mapped (opSt o [9, 0])
     s.op? 9 = some o ∧ o.stage = .streaming ∧ cpr.paused = false ∧ frozenUnit s o.u = false ∧ unitGoes s o cpr = true) ∧
    (let o := cpo .streaming cpEnd; let s := opSt o [9, 0]
     s.op? 9 = some o ∧ o.stage = .streaming ∧ cpEnd.paused = false ∧ frozenUnit s o.u = false ∧ cpEnd.shape.count ≤ cpEnd.units) ∧
    (let o := cpo .streaming cpSched; let s := sBeat; let r := cpSched
     s.op? 9 = some o ∧ o.stage = .streaming ∧ s.num 2 ≠ 1 ∧ r.faulted = false ∧ layServes s o.u = true ∧ r.srcScr = true ∧
     s.atStart o.u.die (copyCore s o r.src) = true ∧
     (let per := 64 / r.shape.unit
      let us := (List.range per).filterMap fun j =>
        if s.num 1 * per + j < r.shape.count then some (s.num 1 * per + j) else none
      us ≠ [] ∧
        ((us.flatMap fun n => (r.words n).map fun p => (n, p)).foldl (beatPiece o r) (s.modOp o.id fun o => { o with stage := .streaming }, 0, 0)).2.1 = 0)) ∧
    (let o := cpo .delivered cpDone; let s := opSt o [9]
     about s o = true ∧ o.stage = .delivered ∧ o.args.getD 1 0 = 0 ∧ cpDone.dstScr = false ∧ o.u.sh = false ∧
     cpDone.ch < (s.core o.u.die o.u.core).wptr.length ∧ o.kind ≠ .cpycan) ∧
    (let o := cpo .delivered cpEnd; let s := opSt o [9]; about s o = true ∧ o.stage = .delivered ∧ o.args.getD 1 0 = 0) ∧
    (∀ x ∈ [(sCan, false), (sCanMid, true)], let s := x.1; let o := canOp
     about s o = true ∧ o.kind = .cpycan ∧ o.copy = none ∧ (s.ops.map (·.id)).Nodup ∧ s.ops.any midUnit = x.2 ∧
     s.ops.any (fun e => e.stage == .streaming && e.copy.any fun q => q.ch == o.fn && q.order < o.args.getD 0 0) = true) ∧
    (let s := sBeatEnd; about s (cpo .streaming cpSched) = true ∧ s.agenda = []) := by
  decide +kernel

/-- The head record that a fetch of queue 5 reads. -/
def headWords (s : State) : Option (List Nat) :=
  ((s.modQueue 5 fun x => { x with fetching := false }).vreadWords (s.queue 5).ctx
    ((s.queue 5).base + 32 * ((s.queue 5).head % (s.queue 5).slots)) 4).1

/-- O53: a LAUNCH at its queue and at none, QCFG, SKIP, doorbells, record fetches and a consumption. -/
theorem witness_CopyQueueAndKernelEvents_queues :
    (let s := on { (qSt q5 []) with ops := [lauOp] } wu [9]
     about s lauOp = true ∧ (s.queue (lauOp.args.getD 1 0)).en = true ∧ (s.queue (lauOp.args.getD 1 0)).ctx = lauOp.ctx) ∧
    (let s := opSt lauOp [9]; about s lauOp = true ∧ (s.queue (lauOp.args.getD 1 0)).en = false) ∧
    (∀ x ∈ [(qSt { q5 with en := false } [0, 5, vOn], false), (qSt q5 [0, 5, vOn - 2 ^ 15], true)], let s := x.1; let v := s.num 2
      owns s (s.num 0) = true ∧ v < 2 ^ 27 ∧ 4 ≤ bits v 6 5 ∧ bits v 6 5 ≤ 16 ∧ (s.queue (s.num 1)).en = x.2 ∧
      v.testBit 15 = !x.2 ∧ (s.ctx (v % 64)).state ≠ .free ∧ bits v 6 5 = (s.queue (s.num 1)).size ∧
      v % 64 = (s.queue (s.num 1)).ctx) ∧
    ((qSt (qErr 2) [0, 5]).queue 5).err = 2 ∧
    (∀ v ∈ ([16, 0] : List Nat), let s := qSt q5 [0, 5, v]; let x := s.queue 5
      (∀ a ∈ s.agenda, a.at' ≠ s.now) ∧ x.en = true ∧ x.ctx = s.num 0 ∧ v ≤ x.slots ∧ (v = 16 ↔ x.waiting ≤ v)) ∧
    (∀ s ∈ [qSt qFetch [5], sFetchRec 0, sFetchRec 3], let x := s.queue 5
      s.num 0 = 5 ∧ x.fetching = true ∧ x.en = true ∧ x.err = 0 ∧ x.waiting ≠ 0) ∧
    headWords (qSt qFetch [5]) = none ∧ headWords (sFetchRec 0) = some [0, 0, 0, 0] ∧
    (headWords (sFetchRec 3)).any (malformed (sFetchRec 3) qFetch) = true ∧ malformed (sFetchRec 0) qFetch [0, 0, 0, 0] = false ∧
    (let s := qSt qNop [0]; let x := s.queue 5
     ((List.range 256).filter fun q => (s.queue q).en && (s.queue q).ctx == 0) = [5] ∧ x.pend = [] ∧ x.err = 0 ∧
     x.headRec = some [0, 0, 0, 0] ∧ x.launches = [] ∧ s.ibrum.paused = false ∧ (s.ctx 0).state = .running ∧
     s.now % Config.unitsPerTick = 0 ∧ (s.ctx 0).nextTick ≤ s.now) := by decide +kernel

/-- O53: a kernel that can be armed, started, retired. -/
theorem witness_CopyQueueAndKernelEvents_kernels :
    (let s := kSt .queued; s.kernel? (s.num 0) = some (kerIn .queued) ∧ ctxRuns s 0 = true ∧ armRoom s (kerIn .queued) = true) ∧
    (let s := kSt .armed; let k := kerIn .armed
     s.kernel? (s.num 0) = some k ∧ ctxPlaces s k.ctx = true ∧ classOk s k = true ∧ ∀ d ∈ k.dies, (s.die d).st = 0) ∧
    (let s := kSt .draining; s.kernel? (s.num 0) = some (kerIn .draining) ∧ s.ops = [] ∧ (kerIn .draining).recNo ≠ 0) := by
  decide +kernel

/-- O54: a posting with a status read behind it; grants of a good pass, of a misaligned block and of a DPLOAD; a word fetched. -/
theorem witness_EngineEvents_requests :
    (let s := sPost
     (s.engine s.arg.u.die (quartetOf s.arg.u.core)).rows.find? (fun r => r.row == 16 + passRowNo s.arg.u && r.post ≤ s.ucyc s.arg.u) =
       some rqNew ∧ statOp ∈ s.ops ∧ (s.ops.map (·.id)).Nodup ∧ statOp.u = s.arg.u ∧ statOp.kind = .mstat ∧ statOp.live = true ∧
     statOp.issue + 8 ≤ s.ucyc s.arg.u) ∧
    (∀ r ∈ [rq 0 1, rqBad, rq 4 1], let s := engSt [r] [0, 0]; let e := s.engine 0 0; let c := s.cyc 0 (quartetCore 0)
      ((e.rows.filter fun r => r.st = 1).filter fun r => r.post ≤ s.ucyc r.u && grantOk s e (reservedNow s 0 0) r c) = [r] ∧
      (e.rows.any fun r => r.grant ≠ 0 && cycleAt s 0 (quartetCore 0) (instantOf s 0 r.u.core r.grant) = c) = false ∧
      ∀ x ∈ e.rows, suppressedSlot s e x = none) ∧
    (let s := engSt [rqFetch] [0, 0, 0, 0]; let r := rqFetch; let a := r.wordAddr 0 0; let core := scrCore s r.gid a
     rowAt s 0 0 0 0 = some r ∧ r.row < 32 ∧ r.await = false ∧ r.fwords = [(0, 0)] ∧ r.st = 4 ∧ r.kind = 4 ∧
     bankFree s r.u.die core (a % 2 ^ 19 / 8) (s.cyc r.u.die core) = true ∧ s.scrPoisoned r.u.die core (a % 2 ^ 19) 8 = false) := by
  decide +kernel

/-- Request `r` is the one that the event is about, and runs. -/
def steps (s : State) (r : PassRow) : Bool :=
  rowAt s (s.num 0) (s.num 1) (s.num 2) (s.num 3) == some r && r.row < 32 && !r.await && r.wn == 0 && s.poison.isEmpty

/-- O54: steps before, in and after the last read, MZERO, drains with a program and without, DPLOAD, a request beside its row's
latest, a drain row, a waiting word and a reserved interval. -/
theorem witness_EngineEvents_passes :
    (∀ x ∈ [(sStep (rqStep 1 false) 40, rqStep 1 false), (sStep (rqStep 1 true) 40, rqStep 1 true),
        (sStep (rqStep 0 false) 0, rqStep 0 false), (sStep (rqStep 0 false) 3, rqStep 0 false), (sStep (rq 2 2) 16, rq 2 2)],
      steps x.1 x.2 = true ∧ (x.2.st = 2 ∨ x.2.st = 3) ∧ x.2.stepAt ≤ x.1.ucyc x.2.u) ∧
    ((rqStep 1 false).step = (rqStep 1 false).n ∧ (rqStep 1 true).den = true ∧ (rqStep 0 false).step ≠ (rqStep 0 false).n ∧
      (sStep (rqStep 0 false) 0).ucyc wu < (rqStep 0 false).stepAt + 3 ∧ (rqStep 0 false).fwords = [] ∧
      (sStep (rqStep 0 false) 3).ucyc wu = (rqStep 0 false).stepAt + 3 ∧ (rq 2 2).kind = 2) ∧
    (∀ s ∈ [sStep (rq 3 4) 16, sProg [rq 3 4] none [0, 0, 0, 0]], let r := rq 3 4; let e := s.engine 0 0
      steps s r = true ∧ r.kind ≠ 4 ∧ r.stopped (s.ucyc r.u) = false ∧ drainUsed e = false ∧ e.lastDone = 0) ∧
    ((sStep (rq 3 4) 16).engine 0 0).validProg 0 = none ∧
      ((sProg [rq 3 4] none [0, 0, 0, 0]).engine 0 0).validProg (rq 3 4).slot ≠ none ∧
    steps (sStep (rq 4 4) 16) (rq 4 4) = true ∧
    (let r : PassRow := { rq 0 4 with row := 32 }; rowAt (sStep r 16) 0 0 0 0 = some r ∧ 32 ≤ r.row) ∧
    (let s := sProg [rq 3 4] (some dr0) [0, 0, 0, 0]; let p := rq 3 4
     drainPass s 0 0 = some (dr0, p) ∧ p.st = 4 ∧ p.await = false ∧ p.stopped (s.ucyc p.u) = false ∧ dr0.start = s.num 3 ∧
     dr0.next = s.num 2 ∧ s.poison = []) ∧
    (let s := sProg [rq 3 4] (some dr1) [0, 0, 0]; let p := rq 3 4
     drainPass s 0 0 = some (dr1, p) ∧ dr1.start = s.num 2 ∧ dr1.words = [dword] ∧
     bankFree s p.u.die p.u.core (dword.addr / 8) (s.ucyc p.u) = true) ∧
    (let s := sResv
     (s.lay (s.num 2)).state = .running ∧
     ((s.engine 0 0).rows.any fun r => (r.kind ≤ 1 || r.kind == 3) && !r.resvd && (r.st == 3 || r.st == 4)) = true) := by
  decide +kernel

/-- The owner commands context 0, which is in a state. -/
def commands (s : State) (st : CState) : Bool :=
  owns s (s.num 0) && !s.ibrum.updating && (s.ctx (s.num 1)).state == st && s.num 1 == 0

/-- O55: every command of the owner has a state that permits it. -/
theorem witness_ContextLifeEvents_commands :
    (let s := cxSt Context.reset [0, 0]; commands s .free = true ∧ s.alarmSt.testBit 63 = false) ∧
    (let s := cxSt (cx .created) [0, 0]; commands s .created = true ∧ holders s 0 (s.ctx 0).partition = []) ∧
    (let s := cxSt (cx .bound) [0, 0]; commands s .bound = true ∧ (s.ctx 0).viaTdisp = false) ∧
    (let s := cxSt { cx .running with gdeadline := 4 } [0, 0]
     commands s .running = true ∧ freezeOk s 0 = true ∧ (s.ctx 0).gdeadline ≠ 0 ∧ s.kernel? ker.kid = some ker ∧ ker.ctx = 0) ∧
    (let s := sFrozen
     commands s .suspended = true ∧ resumeOk s 0 = true ∧ s.poison = [] ∧ (∀ k ∈ s.kernels, k.ctx = 0 → k.doomed = false) ∧
     s.group? grp.gid = some { grp with state := .frozen } ∧ grp.ctx = 0) ∧
    (let s := cxSt (cx .killed) [0, 0]; commands s .killed = true ∧ discardsLeft s 0 = false ∧ holders s 0 (s.ctx 0).partition = []) ∧
    (let s := cxSt cxKey [0, 0]
     commands s .created = true ∧ (s.ctx 0).keysel ≠ 0 ∧ s.alarmSt.testBit 63 = false ∧ keysLocked (s.ctx 0) (s.num 0) = false ∧
     ((s.ctx 0).keys.map (·.1)).Nodup) := by decide +kernel

/-- O55: the steps of the TDISP interface, a shoot-down, the two stages of a swap-out, and a graceful suspension. -/
theorem witness_ContextLifeEvents_steps :
    (let s := cxSt (cx .created) [0, 0, 0]
     owns s (s.num 0) = true ∧ (s.ctx 0).state = .created ∧ (s.ctx 0).tdisp = 0 ∧ holders s 0 (s.ctx 0).partition = []) ∧
    (∀ s ∈ [cxSt (cxTdisp 1) [0, 0, 0], cxSt { cxTdisp 2 with state := .running } [0, 0, 0]],
      (s.ctx 0).viaTdisp = true ∧ owns s (s.num 0) = true ∧ discardsLeft (s.killCtx 0) 0 = false ∧
      (s.ctx 0).state.holdsDie = true ∧ (s.ctx 0).tinvBusy = false ∧ s.num 2 % 4 ≠ 3) ∧
    (let s := sStopping 0; (s.ctx 0).viaTdisp = true ∧ owns s (s.num 0) = true ∧ ((s.killCtx 0).ctx 0).state = .killed ∧
      discardsLeft (s.killCtx 0) 0 = true) ∧
    (let s := sStopping 1; s.num 2 = 1 ∧ (s.ctx 0).viaTdisp = true ∧ (s.ctx 0).state = .killed ∧ discardsLeft s 0 = true) ∧
    (∀ s ∈ [sSwap (cx .freezing), sSwap { cx .freezing with partition := 3 }, sSwap2 (cx .freezing),
        sSwap2 { cx .freezing with partition := 3 }],
      (s.ctx 0).state = .freezing ∧ (s.ctx 0).swapped.contains (s.num 1) = false ∧ s.num 1 < s.dies.length ∧
      passRuns s 0 (s.num 1) = false ∧
      ∀ x ∈ s.units, ∀ g ∈ s.groups, g.gid = x.gid → g.ctx = 0 → g.die = s.num 1 → coreBusy s x = false) ∧
    ((sSwap (cx .freezing)).num 2 ≠ 1 ∧ (sSwap2 (cx .freezing)).num 2 = 1 ∧ partitionDies (sSwap2 (cx .freezing)) 0 = [0] ∧
      partitionDies (sSwap2 { cx .freezing with partition := 3 }) 0 = [0, 1]) ∧
    (let s := sGrace
     (s.ctx 0).graceful = true ∧ (s.ctx 0).state = .running ∧
     ∀ g ∈ s.groups, g.ctx = 0 → g.state ≠ .running ∧ g.state ≠ .faulted ∧ g.state ≠ .draining) := by decide +kernel

/-- The unit of the event is `x`, stopped by `t` in group `grp`. -/
def stopped (s : State) (x : ExecUnit) (t : Stop) : Bool :=
  s.unit? s.arg.u == some x && x.stop == some t && s.group? x.gid == some grp && grp.state != .frozen

/-- O56: traps to be made final, dispositions written and refused, the write of a record and what keeps it waiting. -/
theorem witness_TrapRecordAndRegisterEvents_writes :
    (∀ t ∈ [stp 1 0 false, { (stp 1 0 false) with waitOnly := true }], let s := sStop t
      stopped s (xStop t) t = true ∧ t.final = false ∧ t.cycle = s.num 0 ∧ t.due ≤ s.ucyc s.arg.u ∧ s.arg.u.die < s.dies.length) ∧
    (let c := sRing.ctx 0
     (sRing.die 0).hold.find? (recordDue sRing 0) = some rec0 ∧ c.fqctl.testBit 17 = true ∧ ringRoom c = true) ∧
    (sRing.die 1).hold.find? (recordDue sRing 0) = none ∧
    (∀ how < 4, let s := sDisp (stp 10 0 true) 0
      s.num 1 = 0 ∧ unitNamed s 0 s.arg.u = some (xStop (stp 10 0 true), grp) ∧ (stp 10 0 true).final = true ∧
      (stp 10 0 true).disp = none ∧ dispOk (stp 10 0 true) how = true) ∧
    (let s := sDisp (stp 1 0 true) 0
     unitNamed s 0 s.arg.u = some (xStop (stp 1 0 true), grp) ∧ dispOk (stp 1 0 true) 0 = false) := by decide +kernel

/-- O56: dispositions that take effect, in each of their cases. -/
theorem witness_TrapRecordAndRegisterEvents_effects :
    (∀ t ∈ [disp 0 (stp 10 0 true), disp 0 (stp 2 0 true), disp 1 { (stp 1 0 true) with clause := none }, disp 1 (stp 1 0 true),
        disp 1 (stp 1 1 true), disp 2 { (stp 7 0 true) with byWalk := true }, disp 2 (stp 1 0 true), disp 3 (stp 1 0 true)],
      let s := sDisp t 1
      stopped s (xStop t) t = true ∧ s.num 1 ≠ 0 ∧ (s.ctx grp.ctx).state ≠ .freezing ∧ t.disp ≠ none ∧ (xStop t).ring ≠ [] ∧
      (xStop t).ended = false ∧ (xStop t).exec ≠ 0) ∧
    (stp 1 0 true).clause = some run2 ∧ (stp 1 0 true).idx < hN run2.hdr ∧ hN run2.hdr ≤ (stp 1 1 true).idx ∧ run2.xfer = .fall ∧
    (let s := on { idle with units := [{ xStop (disp 2 (stp 1 0 true)) with ring := [] }] } wu [0, 1]
     (s.unit? s.arg.u).any (fun x => x.stop.any (fun t => t.disp == some 2) && x.ring.isEmpty && x.gid == 2) = true) ∧
    (sDisp (disp 3 (stp 1 0 true)) 1).team? grp.tid = some team1 ∧ team1.state = .running := by decide +kernel

/-- O56: flags that are due, registers that a host clears, and the semaphore free, wanted twice, and owned. -/
theorem witness_TrapRecordAndRegisterEvents_registers :
    (let s := sFlag; hf ∈ s.heldFlags ∧ hf.die = s.num 0 ∧ hf.q = s.num 1 ∧ hf.cycle + 384 ≤ s.cyc (s.num 0) hf.core ∧
      hf.oor ≠ 0 ∧ (s.ctx hf.ctx).oor = 0) ∧
    (let s := cxSt (cx .running) [0, 0]
     let k := (s.core 0 0).settle ((s.cyc 0 0 + 15) / 16)
     (s.ctx 0).ibsel = 0 ∧ (k.ib.map (·.1)).Nodup ∧ k.die = 0 ∧ k.core = 0) ∧
    (let s := on idle wu [1]; s.mgmtOwner = 0 ∧ s.agenda = []) ∧
    (let s := { on idle wu [1] with agenda := [{ at' := 0, phase := 20, due := ev .mgmtsemAcquire [0] }] }
     ∃ a ∈ s.agenda, a.at' = s.now ∧ a.due = ev .mgmtsemAcquire [0]) ∧
    (let s := cxSt (cx .running) [0]; s.mgmtOwner = s.num 0 + 1) := by decide +kernel

/-- The owner commands lay slot 0, which is in a state. -/
def layCommands (s : State) (st : LState) : Bool :=
  owns s (s.num 0) && !s.ibrum.updating && (s.lay (s.num 1)).state == st && s.num 1 == 0 && s.lays.length == 4

/-- O57: commands for a lay slot: a load that fails and one that passes, ARM, DISARM, UNLOAD. -/
theorem witness_LayAndTimeEvents_commands :
    (let s := laySt Lay.reset [0, 0]; layCommands s .empty = true ∧ (s.readImage (s.lay 0)).1.cause s (s.lay 0) ≠ 0) ∧
    (layCommands sImage .empty = true ∧ (sImage.readImage (sImage.lay 0)).1.cause sImage (sImage.lay 0) = 0) ∧
    (let s := laySt lyArm [0, 0]; let y := s.lay 0
     layCommands s .loaded = true ∧
     (∀ d ∈ maskDies y.diemask, (s.die d).cls = y.cls ∧ (s.die d).st = 0) ∧
     (∀ d < 16, (s.die d).cls = y.cls → (s.die d).boost = none) ∧ (∀ z ∈ s.lays, z.holds = true → z.origin = y.origin) ∧
     originTime s + 65536 ≤ y.startReg) ∧
    layCommands (laySt (ly .armed) [0, 0]) .armed = true ∧ layCommands (laySt (ly .running) [0, 0]) .running = true ∧
    layCommands (laySt (ly .resyncing) [0, 0]) .resyncing = true := by
  decide +kernel

/-- A running lay stands at a boundary of its periods. -/
def atBoundary (s : State) : Bool :=
  let y := s.lay (s.num 0)
  y.state == .running && y.period != 0 && y.start 0 ≤ originTime s && (originTime s - y.baseTick) % y.period == 0

/-- O57: the events of a lay: its base tick, boundaries, notices, the roll call, restarts, the loss of the origin. -/
theorem witness_LayAndTimeEvents_events :
    (∀ s ∈ [laySt (ly .armed) [0], sArmLost], let y := s.lay 0; y.state = .armed ∧ y.baseTick ≤ originTime s) ∧
    sArmLost.syncLost = true ∧ unplacedAtR sArmLost 0 = [] ∧
    ((sArmLate.lay 0).state = .armed ∧ (sArmLate.lay 0).baseTick ≤ originTime sArmLate ∧ unplacedAtR sArmLate 0 = [teamAgain]) ∧
    (atBoundary (laySt (ly .running) [0]) = true ∧ (ly .running).nperiod = 0) ∧
    (let s := laySt lyLast [0]; atBoundary s = true ∧ lyLast.nperiod ≠ 0 ∧ lyLast.nperiod ≤ lyLast.perAt (originTime s)) ∧
    (∀ n ∈ ([3, 7] : List Nat), let s := laySt (ly .running) [0, 0, n]; let y := s.lay 0
      s.num 1 ≠ 1 ∧ y.serves = true ∧ y.noticed = false ∧ s.num 2 = n) ∧
    (let s := { (laySt (lyNoticed .faulted) [0, 40960]) with now := 690 * 40960 }; let y := s.lay 0
     isOrigin s = true ∧ y.noticed = true ∧ y.announced = false ∧ y.accept ≠ 0 ∧ y.accept + 32768 ≤ originTime s ∧
     y.state ≠ .abandoned ∧ y.serves = true) ∧
    (let s := sNoBack; let y := s.lay 0
     y.noticed = true ∧ y.announced = false ∧ y.state = .abandoned ∧ fallbackOf s y = none ∧
     s.kernels.map (fun k => (k.kid, k.lay)) = [(1, some 0)]) ∧
    (let s := sBack; let y := s.lay 0; y.noticed = true ∧ y.announced = false ∧ y.state = .abandoned ∧ fallbackOf s y = some 1) ∧
    (let s := laySt lyWait [0]; let y := s.lay 0; y.state = .resyncing ∧ y.announced = true ∧ y.rst ≤ originTime s) ∧
    (∀ s ∈ [sLoss, { sLoss with modl := 2 }], let y := s.lay 0
      s.num 1 = 0 ∧ s.announced + 8192 ≤ originTime s ∧ y.sben = true ∧ isOrigin s = false ∧ y.serves = true) ∧
    (let s := sUnheard; let y := s.lay 0
     s.num 1 = 1 ∧ y.noticed = true ∧ y.accept = 0 ∧ y.announced = false ∧ y.sben = true ∧ isOrigin s = false ∧ y.serves = true) ∧
    (sLoss.lay 0).sbmod = sLoss.modl ∧
    (let s := { (laySt (lyNoticed .faulted) [0]) with now := 690 * 2 ^ 20 }; let y := s.lay 0
     y.noticed = true ∧ y.announced = false ∧ y.state = .faulted ∧ y.stopTick + 131072 ≤ originTime s) := by decide +kernel

/-- O57: a slack event that does not fit its window, and corrections of TIME with a lay and without. -/
theorem witness_LayAndTimeEvents_time :
    (let s := sSlack; let y := s.lay 0; let mine (e : SlotEnt) : Bool := e.kind = 6 && (e.die = 0 && e.key % 4096 = 0)
     let at' := timeAt s (unitDist s { die := 0, core := 0, lead := false, slot := 0 } (slackUnit 0))
     s.num 3 = 0 ∧ s.num 2 ≠ 0 ∧ layOfUnit s (s.num 0) (s.num 1) = some 0 ∧ y.slots.any mine = true ∧
     slackBegin y 0 at' (s.num 2) (occurrencesTo y at' (Tab.get (0 : Nat) y.demand 2) mine) = some (8196, 100, 448, 8644)) ∧
    (let s := sServo 9 false
     s.podOrigin ≠ s.modl ∧ (3 : Int) < max (-32767) (min 32767 (sgn 64 (s.num 0))) ∧ s.syncLost = false ∧
     ∀ y ∈ s.lays, y.holds = false) ∧
    (let s := sServo 1 true; let off : Int := max (-32767) (min 32767 (sgn 64 (s.num 0)))
     s.podOrigin ≠ s.modl ∧ -3 ≤ off ∧ off ≤ 3 ∧ s.syncLost = true) ∧
    (let s := { sServo 9 false with lays := [ly .running] }; ∃ y ∈ s.lays, y.holds = true) := by decide +kernel

/-- A link takes its event in a state, at a maintenance window. -/
def linkIn (s : State) (st : Nat) : Bool :=
  (s.link (s.num 0) (s.num 1)).st == st && s.num 1 < 16 && maintenance s (s.num 0) (linkCode (s.num 1)) == some s.now

/-- O58: the life of a link: enabled, trained in each of the three ways, a lane lost with a spare and without, spared, asked again. -/
theorem witness_LinkEvents_life :
    linkIn (lkSt (lk 0) [0, 1]) 0 = true ∧
    (∀ n ∈ ([1, 3, 4] : List Nat), let s := lkSt (lk 1) [0, 1, n]; linkIn s 1 = true ∧ (lk 1).trained = false ∧ s.num 2 = n ∧
      (lk 1).bad = 0 ∧ (lk 1).spareUsed = 0 ∧ spares (s.num 1) = 2) ∧
    (linkIn (lkSt (lk 2) [0, 1]) 2 = true ∧ (lk 2).spareUsed + (lk 2).bad < spares 1) ∧
    (let x : LinkRec := { (lk 2) with spareUsed := 2 }; linkIn (lkSt x [0, 1]) 2 = true ∧ spares 1 ≤ x.spareUsed + x.bad) ∧
    linkIn (lkSt { (lk 4) with bad := 1 } [0, 1]) 4 = true ∧
    (let x : LinkRec := { (lk 2) with bad := 1, wantSpare := true }
     linkIn (lkSt x [0, 1]) 2 = true ∧ x.spareUsed < spares 1 ∧ x.wantSpare = true) ∧
    (let s := lkSt { (lk 2) with run := 15 } [0, 1, 0]; linkIn s 2 = true ∧ 16 ≤ (s.link 0 1).run + 1) ∧
    (16 ≤ sSent.num 1 ∧ sSent.num 2 ≠ 0 ∧ sentFrom sSent 0 1 (sSent.num 4) = ([.dyn 0 1 msgW [tag0], .dyn 0 1 msgW [tag0]], 0)) ∧
    (16 ≤ sSent3.num 1 ∧ sSent3.num 2 ≠ 0 ∧ sentFrom sSent3 0 3 (sSent3.num 4) = ([.vc3 0 (.ready 0) tag0], 0)) ∧
    (∀ x ∈ ([(.running, true), (.armed, false)] : List (LState × Bool)), let s := sSent0 x.1
      16 ≤ s.num 1 ∧ s.num 2 = 0 ∧ s.num 3 = 1 ∧ sentFrom s 0 0 (s.num 4) = ([.vc0 0 tag0 (frm 0)], 0) ∧
      (s.lay (frm 0).lay).serving = x.2 ∧ (s.useKey 0 0 1).1 = some (0, 0)) := by decide +kernel

/-- O58: keys staged too near and in time, refused, activated in both directions, retired; a replay that does not come. -/
theorem witness_LinkEvents_keys :
    (∀ x ∈ ([(0, true), (2 ^ 20, false)] : List (Nat × Bool)), let s := sStage x.1; let l := s.link (s.num 1) 16
      owns s (s.num 0) = true ∧ s.ibrum.updating = false ∧ l.slotState (selSlot l) = 0 ∧ s.alarmSt.testBit 63 = false ∧
      decide (l.wktick < timeAt s (unitDist s ⟨s.num 1, 0, false, 0, false⟩ 3) + 65536) = x.2 ∧ (l.slots.map (·.1)).Nodup) ∧
    (let s := lkSt (pt 2 []) [1, 0]; owns s (s.num 0) = false ∧ s.num 0 ≠ 2) ∧
    (∀ dir < 2, let s := sKey dir; let l := s.link 0 16; let e := Tab.get (0, 0, 0, 0, 0) l.slots (keySlot 0 dir 0)
      e.1 = 1 ∧ s.num 2 = dir ∧ s.num 3 < 2 ∧ e.2.2.2.1 ≤ timeAt s (unitDist s ⟨0, 0, false, 0, false⟩ 3) ∧
      (l.slots.map (·.1)).Nodup ∧ l.slotState (keySlot 0 dir 1) = 2) ∧
    (let s := lkSt (pt 2 [(0, 2, 5, 0, 0, 0)]) [0, 0, 0, 0]; (s.link 0 16).slotState (keySlot 0 0 0) = 2) ∧
    (sMiss.num 3 = 1 ∧ (sMiss.link 0 16).await.contains 0 = true ∧ (sMiss.lay (sMiss.num 0)).serves = true) := by decide +kernel

/-- O58: frames sent over a die link and a port, written and combined, received well and badly; messages out and in. -/
theorem witness_LinkEvents_frames :
    (∀ lnk ∈ ([1, 17] : List Nat), let s := sSend lnk; let st := linkState s 0 lnk
      (s.lay (s.num 2)).serving = true ∧ nextFrame s 0 lnk = some (frm 0, [beat lnk]) ∧
      frameOffset lnk (s.num 5) (st == 4) < s.num 4 ∧ (st = 3 ∨ st = 4)) ∧
    ((sSend 17).useKey 0 0 1).1 = some (0, 0) ∧
    (∀ k < 2, let s := sWrite k; s.arg.frame = some (frm k) ∧ (s.lay (frm k).lay).serving = true ∧ (s.die 0).st ≠ 2) ∧
    (∀ x ∈ [(0, rxF true (some msgW)), (0, rxF true none), (0, rxF false none), (15, rxF false none)], let s := sRx x.1 x.2
      s.arg.rx = some x.2 ∧ (s.link 0 16).st = 2 ∧ (s.link 0 16).await = [] ∧ (s.link 0 16).run = x.1 ∧
      framePasses s 0 x.2 = x.2.crcGood) ∧
    (let s := sMsg
     s.arg.msg = some msgW ∧ s.arg.n = [0, 0, 9, 0] ∧ portReady s 0 = true ∧ sendYields s 0 (msgVc msgW) = false ∧
     sendBehind s 0 9 (msgVc msgW) = false ∧ (s.useKey 0 (msgVc msgW) (msgFrames msgW - 0)).1 = some (0, 0)) ∧
    (let s := sMsg3
     s.arg.msg = none ∧ s.arg.vc3 = some (.ready 0) ∧ s.arg.n = [0, 4, 9] ∧ portReady s 0 = true ∧ sendYields s 0 3 = false ∧
     sendBehind s 0 9 3 = false ∧ (s.useKey 0 3 1).1 = some (0, 0)) ∧
    (let s := sMsgIn
     s.arg.msg = some msgW ∧ s.num 1 = 1 ∧ msgW.kind = 2 ∧ msgW.addrs = [8] ∧ msgBehind s 0 msgW (s.num 1) = false ∧
     seqHeld s msgW = false ∧ (peerLane s 0 msgW 8).1 = 0 ∧ (peerLane s 0 msgW 8).2.isSome = true ∧ s.claims = [] ∧
     s.chans = []) := by
  decide +kernel

/-- O59: reports for a zone that runs, that rolls already, that is frozen, and for a dual-run pair; the end of a rollback. -/
theorem witness_StrikeAndErrorEvents_rollbacks :
    (∀ s ∈ [sReport .running [0, 0, 90], sReport .running [0, 1, 90, 1], sRolled],
      zoneFrozen s 0 = false ∧ zoneUnits s 0 ≠ [] ∧ partnerZone s 0 = none) ∧
    (∀ s ∈ [sIce [0, 0, 90], sHeld], zoneFrozen s 0 = true ∧ zoneUnits s 0 = []) ∧
    (∀ src ∈ ([0, 3] : List Nat), let s := sDual src
      s.num 1 = src ∧ zoneUnits s 0 ≠ [] ∧ partnerZone s 0 = some 8 ∧ zoneUnits s 8 ≠ []) ∧
    (let s := { sReport .running [0, 0, 90] with units := [xOld, wUnit 1, lUnit] }
     xOld ∈ zoneUnits s 0 ∧ s.units.filter (fun y => y.id == xOld.id) = [xOld] ∧
     ((restartFrom s xOld 58).bind (targetRecord xOld)).isSome = true ∧ (restartFrom s (wUnit 1) 58).isNone = true) ∧
    (let s := { sReport .running [0, 0, 90] with ops := [{ opHeld with issue := 60 }] }; let o : Op := { opHeld with issue := 60 }
     s.ops.filter (fun p => p.id == o.id) = [o] ∧ o.held = true ∧ zoneOf o.u.die o.u.core = 0 ∧ o.u.sh = false ∧ 58 ≤ o.issue) ∧
    (let s := { sReport .running [0, 0, 90] with kernels := [sKer], lays := ly .running :: List.replicate 3 Lay.reset }
     (s.lay 0).serves = true ∧ wUnit 0 ∈ zoneUnits s 0 ∧ s.group? (wUnit 0).gid = some grp ∧ s.kernelOf grp = some sKer ∧
     sKer.lpb.sched = true ∧ sKer.lay = some 0) ∧
    (let s := sRolled
     (s.zone 0).rolling = true ∧ (s.zone 0).fin ≤ s.cyc 0 (zoneCore 0) ∧ wUnit 0 ∈ s.units ∧
     s.units.filter (fun y => y.id == wu) = [wUnit 0] ∧ zoneOf 0 0 = 0 ∧ (wUnit 0).ended = false ∧ (wUnit 0).stop = none ∧
     (wUnit 0).laySt = 0) ∧
    (sReport .running [0]).zones = [] := by decide +kernel

/-- O59: mismatches, first and second, of a unit and of entries; an uncorrectable operand; a retransmission and a replay. -/
theorem witness_StrikeAndErrorEvents_errors :
    (let s := upset
     s.cur = some wc ∧ s.unit? wc.u = some { wUnit 0 with clause := some (run0 false) } ∧ s.group? 2 = some grp ∧
     (encode readsUpset).isSome = true ∧ decodeCheck s wc readsUpset = none ∧ sourcePoisoned s wc readsUpset = true ∧
     s.team? grp.tid = some team1) ∧
    (let s := on idle wu [0]; s.unit? s.arg.u = some (wUnit 0) ∧ rolledBack s 0 (s.num 0) = false ∧ (wUnit 0).mark = none) ∧
    (let s := sMark; s.unit? s.arg.u = some xMark ∧ rolledBack s 0 (s.num 0) = false ∧ xMark.mark ≠ none ∧ s.group? xMark.gid = some grp) ∧
    (let s := { on idle wu [0] with zones := [{ z0 with cut := 0 }] }; rolledBack s 0 (s.num 0) = true) ∧
    (let s := sPair false; about s opHeld = true ∧ opHeld.held = true ∧ s.ops = [opHeld] ∧ isMarked s wu = false ∧
      isMarked s (twinUnit wu) = false) ∧
    (let s := { sPair false with units := [xMark] }; about s opHeld = true ∧ isMarked s wu = true ∧ s.group? opHeld.gid = some grp) ∧
    (∀ o ∈ [opTwin, { opTwin with ty := 9 }], let s := { sPair true with ops := [o, opHeld] }
      about s o = true ∧ o.held = true ∧ s.group? o.gid = some grpTwin ∧ grpTwin.twinOf ≠ none ∧
      s.ops.find? (fun e => e.u = twinUnit o.u && e.issue = o.issue && e.ordinal ≠ 0 && e.ordinal < 2 ^ 40 && (e.held || e.fwd = o.id)) =
        some opHeld ∧ opHeld.fwd ≠ o.id ∧ sameEntry o opHeld = (o.ty == opTwin.ty) ∧ s.op? opHeld.id = some opHeld) ∧
    { sSlack with arg := { Arg.none with n := [0, 0, 1] } }.num 2 ≠ 0 ∧
    (let s := sReplay; let o := acc .store .inflight .sent; about s o = true ∧ s.num 1 < 16 ∧ s.num 2 = 0 ∧ 0 < o.size) ∧
    (let s := sReplayCopy; about s copyUnit = true ∧ copyUnit.lanes.map (·.st) = [.applied] ∧
      (walk s 0 0 64).xl.any (fun x => x.home == s.num 1) = true) ∧
    (let s := sReplayMsg; s.arg.msg = some msgW ∧ (peerLane s 0 msgW 8).2.any (fun x => x.home == s.num 1) = true) := by
  decide +kernel

/-- O59: repairs granted, refused and not the writer's to ask for; a channel at its maintenance window. -/
theorem witness_StrikeAndErrorEvents_repairs :
    (∀ n ∈ ([2, 0] : List Nat), let s := sRep n
      owns s (s.num 0) = true ∧ s.ibrum.updating = false ∧ (s.chan (s.hsel % 16) (bits s.hsel 4 5)).spare = n) ∧
    (let s := { sRep 2 with mgmtOwner := 2 }; owns s (s.num 0) = false ∧ s.num 0 ≠ 2) ∧
    (let s := sRepair; let x := s.chan (s.num 0) (s.num 1)
     x.want ≠ none ∧ maintenance s (s.num 0) (s.num 1) = some s.now ∧ Tab.get 0 x.pins (s.num 2) ≠ 0) ∧
    (∀ e ∈ ([4, 257] : List Nat), (sCorr e).num 2 = 0 ∧ (sCorr e).num 3 = e) ∧
    (let s := { sRepair with lays := (ly .armed) :: List.replicate 3 Lay.reset }
     (s.chan 0 0).want ≠ none ∧ maintenance s 0 0 ≠ some s.now) := by decide +kernel

/-- The owner commands die 0, which is in a state of service. -/
def dieCommands (s : State) (st : Nat) : Bool :=
  owns s (s.num 0) && !s.ibrum.updating && (s.die (s.num 1 % 16)).st == st && s.num 1 == 0

/-- O60: classes, leases, and a die that quiesces, goes offline and returns. -/
theorem witness_ModuleEvents_dies :
    (let s := dieSt Die.reset [0, 2]; owns s (s.num 0) = true ∧ s.dies.length = 16) ∧
    (∀ x ∈ ([(0, 0), (3, 1)] : List (Nat × Nat)), let s := dieSt (dieChange x.1) [0, x.2]
      (s.die 0).changing = true ∧ changeWaits s 0 = false ∧ s.num 1 = x.2 ∧ linksTrain s 0 = false) ∧
    (let s := { dieSt (dieChange 0) [0, 0] with groups := [grp] }; (s.die 0).changing = true ∧ changeWaits s 0 = true) ∧
    (let s := dieSt (dieLease 0) [0]; (s.die 0).boost = some 0 ∧ 0 ≤ s.now) ∧
    (let s := sQuiesce
     (s.die 0).st = 0 ∧ 0 < s.dies.length ∧ s.team? team1.tid = some team1 ∧ team1.die = 0 ∧ team1.state = .running ∧
     (s.lay 0).serves = true ∧ (s.lay 0).diemask.testBit 0 = true) ∧
    (let s := { sQuiesce with teams := [teamAgain] }
     s.teams.filter (fun y => y.tid = teamAgain.tid) = [teamAgain] ∧ teamAgain.tid < s.nextId ∧ teamAgain.die = 0 ∧
     teamAgain.state = .relaunching ∧ s.kernel? teamAgain.kid = some ker) ∧
    (let s := dieSt die3 [0, 0]; dieCommands s 0 = true ∧ (s.die 0).cls = 3 ∧ (s.die 0).changing = false ∧ (s.die 0).boost = none ∧
      poolInLay s 3 = false) ∧
    (let s := dieSt (dieLease 99) [0, 0]; dieCommands s 0 = true ∧ (s.die 0).boost ≠ none) ∧
    (∀ n < 3, let s := dieSt (dieIn n) [0, 0]; dieCommands s n = true ∧ (s.die 0).temp + 10 ≤ (s.die 0).thr) := by decide +kernel

/-- O60: readings, comparisons above and below the limit, cut-offs. -/
theorem witness_ModuleEvents_power :
    (∀ t ∈ ([20, 120] : List Nat), let s := sRead t
      s.dies.length = 16 ∧ s.arg.n = 6000 :: (List.replicate 16 t ++ List.replicate 16 300)) ∧
    (∀ x ∈ [(sPower 6000 false 20, true), (sPower 6000 true 110, true), (sPower 60 true 20, false)], let s := x.1
      s.dies.length = 16 ∧ s.arg.n = [] ∧ decide (s.plimit < s.pmeas) = x.2 ∧ s.reductions = [0] ∧ (s.die 0).st = 0 ∧
      (s.die 0).boost = some 99 ∧ ∀ d < 16, (s.die d).draw < (s.die 0).draw ∨ d = 0) ∧
    (let s := sPower 6000 true 110; (s.die 0).thr < (s.die 0).temp ∧ s.overPower = true ∧ (s.die 0).limit ≠ 0 ∧
      ∀ d < 16, (s.die d).temp < (s.die 0).temp ∨ d = 0) ∧
    100 * (sPower 60 true 20).pmeas < 95 * (sPower 60 true 20).plimit ∧
    (∀ s ∈ [sCut [0] none, { sCut [0] none with dies := [{ Die.reset with temp := 120 }] }], s.num 0 = 0) ∧
    (sCut [1] none).num 0 = 1 ∧ (∀ w ∈ ([6000, 6001] : List Nat), (sCut [2, w] none).num 0 = 2 ∧ (sCut [2, w] none).num 1 = w) ∧
    (∀ b ∈ ([0, 1] : List Nat), let s := sCut [3] (some b)
      s.num 0 = 3 ∧ s.overSince = some b ∧ decide (b + 10500000 * Config.unitsPerTick ≤ s.now) = (b == 0)) := by decide +kernel

/-- O60: controllers in each phase of an update, an alarm, and register writes. -/
theorem witness_ModuleEvents_registers :
    (∀ b ∈ [ib0, { ib0 with staged := true }], let s := sIb b [0, 3, 1, 2]
      owns s (s.num 0) = true ∧ b.handover = false ∧ b.updating = false ∧ s.arg.n.drop 1 = [3, 1, 2]) ∧
    (sIb { ib0 with handover := true } [0]).ibrum.handover = true ∧
    (∀ n < 3, let b := (sTake n).ibrum; b.standby = true ∧ b.missed = n ∧ b.lastBeat + 210000 * Config.unitsPerTick ≤ (sTake n).now) ∧
    (∀ p ∈ [true, false], ∀ k < 21, let s := sUp [k, 1, 1] p; s.num 0 = k ∧ s.num 1 ≠ 0 ∧ s.num 2 ≠ 0 ∧ s.powered = p ∧ s.dies.length = 16) ∧
    ((sAlarm 3).lay 0).ctl % 64 = 0 ∧ ((sAlarm 3).lay 0).state ≠ .empty ∧
    ((sAlarm 3).alarmPol.testBit 0 = true ∧ (sAlarm 3).alarmPol.testBit 1 = true ∧ ((sAlarm 3).ctx 0).state ≠ .free) ∧
    (∀ x ∈ ([(0x100, 4), (0xF020, 4), (0xD008, 4), (0x100018, 4), (0x100010, 1), (0x8040, 1), (0x4060, 1)] : List (Nat × Nat)),
      let s := sReg x.1 x.2
      s.num 1 = x.1 ∧ s.num 2 = x.2 ∧ owns s (s.num 0) = true ∧ (s.ctx 0).state = .created ∧ s.lays.length = 4) ∧
    (bits 4 2 2 = 1 ∧ 1 % 16 = 1 ∧ (sReg 0x4060 1).mgmtOwner = 1) := by decide +kernel

end Sys2Proof.Tests
end

section
/-! SUPPORT. The decoder: each format's fields are where its encoder puts them, so that decoding and encoding undo each other
(O1, O2); the words written out from the tables (O3). -/

namespace Sys2Proof.Proofs

open Sys2Proof

/-! ### Fields of a word -/

/-- Two neighbouring fields read together. -/
theorem fld_append_fld (w : Word64) {hi lo m n : Nat} (h : hi = lo + n) : fld w hi m ++ fld w lo n = fld w lo (m + n) :=
  BitVec.extractLsb'_append_extractLsb'_eq_extractLsb' h

theorem fld_all (w : Word64) : fld w 0 64 = w := BitVec.extractLsb'_eq_self

theorem opOf_append (x : BitVec 55) (op : BitVec 9) : opOf (x ++ op) = op := BitVec.extractLsb'_append_eq_right

/-! ### Formats -/

/-- A format's reader and writer agree on where its fields lie: they undo each other, and OP stands apart from the fields. -/
structure Places {α : Type} (dec : Word64 → Option α) (enc : BitVec 9 → α → Word64) : Prop where
  opOf_enc : ∀ op f, opOf (enc op f) = op
  dec_enc : ∀ op f, dec (enc op f) = some f
  enc_dec : ∀ w f, dec w = some f → enc (opOf w) f = w

theorem rfOf_places : Places rfOf encRF where
  opOf_enc op _ := opOf_append _ op
  dec_enc op f := by
    simp (disch := omega) only [encRF, rfOf, guardOf, fld, BitVec.extractLsb'_append_eq_of_add_le,
      BitVec.extractLsb'_append_eq_of_le, BitVec.extractLsb'_eq_self, Nat.reduceSub, if_true]
  enc_dec w f h := by
    simp only [rfOf, Option.ite_none_right_eq_some, Option.some.injEq] at h
    obtain ⟨h0, rfl⟩ := h
    simp only [encRF, guardOf, opOf, ← h0]
    simp (disch := decide) only [fld_append_fld]
    exact fld_all w

theorem ifOf_places : Places ifOf encIF where
  opOf_enc op _ := opOf_append _ op
  dec_enc op f := by
    simp (disch := omega) only [encIF, ifOf, guardOf, fld, BitVec.extractLsb'_append_eq_of_add_le,
      BitVec.extractLsb'_append_eq_of_le, BitVec.extractLsb'_eq_self, Nat.reduceSub]
  enc_dec w f h := by
    obtain rfl := Option.some.inj h
    simp only [encIF, guardOf, opOf]
    simp (disch := decide) only [fld_append_fld]
    exact fld_all w

theorem mfOf_places : Places mfOf encMF where
  opOf_enc op _ := opOf_append _ op
  dec_enc op f := by
    simp (disch := omega) only [encMF, mfOf, guardOf, fld, BitVec.extractLsb'_append_eq_of_add_le,
      BitVec.extractLsb'_append_eq_of_le, BitVec.extractLsb'_eq_self, Nat.reduceSub]
  enc_dec w f h := by
    obtain rfl := Option.some.inj h
    simp only [encMF, guardOf, opOf]
    simp (disch := decide) only [fld_append_fld]
    exact fld_all w

theorem bfOf_places : Places bfOf encBF where
  opOf_enc op _ := opOf_append _ op
  dec_enc op f := by
    simp (disch := omega) only [encBF, bfOf, guardOf, fld, BitVec.extractLsb'_append_eq_of_add_le,
      BitVec.extractLsb'_append_eq_of_le, BitVec.extractLsb'_eq_self, Nat.reduceSub, if_true]
  enc_dec w f h := by
    simp only [bfOf, Option.ite_none_right_eq_some, Option.some.injEq] at h
    obtain ⟨h0, rfl⟩ := h
    simp only [encBF, guardOf, opOf, ← h0]
    simp (disch := decide) only [fld_append_fld]
    exact fld_all w

theorem copyOf_places : Places copyOf encCopyF where
  opOf_enc op _ := opOf_append _ op
  dec_enc op f := by
    simp (disch := omega) only [encCopyF, copyOf, guardOf, fld, BitVec.extractLsb'_append_eq_of_add_le,
      BitVec.extractLsb'_append_eq_of_le, BitVec.extractLsb'_eq_self, Nat.reduceSub, if_true]
  enc_dec w f h := by
    simp only [copyOf, Option.ite_none_right_eq_some, Option.some.injEq] at h
    obtain ⟨h0, rfl⟩ := h
    simp only [encCopyF, guardOf, opOf, ← h0]
    simp (disch := decide) only [fld_append_fld]
    exact fld_all w

theorem cpystOf_places : Places cpystOf encCpystF where
  opOf_enc op _ := opOf_append _ op
  dec_enc op f := by
    simp (disch := omega) only [encCpystF, cpystOf, guardOf, fld, BitVec.extractLsb'_append_eq_of_add_le,
      BitVec.extractLsb'_append_eq_of_le, BitVec.extractLsb'_eq_self, Nat.reduceSub, and_self, if_true]
  enc_dec w f h := by
    simp only [cpystOf, Option.ite_none_right_eq_some, Option.some.injEq] at h
    obtain ⟨h0, rfl⟩ := h
    simp only [encCpystF, guardOf, opOf, ← h0]
    simp (disch := decide) only [fld_append_fld]
    exact fld_all w

theorem cpycanOf_places : Places cpycanOf encCpycanF where
  opOf_enc op _ := opOf_append _ op
  dec_enc op f := by
    simp (disch := omega) only [encCpycanF, cpycanOf, guardOf, fld, BitVec.extractLsb'_append_eq_of_add_le,
      BitVec.extractLsb'_append_eq_of_le, BitVec.extractLsb'_eq_self, Nat.reduceSub, and_self, if_true]
  enc_dec w f h := by
    simp only [cpycanOf, Option.ite_none_right_eq_some, Option.some.injEq] at h
    obtain ⟨h0, rfl⟩ := h
    simp only [encCpycanF, guardOf, opOf, ← h0]
    simp (disch := decide) only [fld_append_fld]
    exact fld_all w

theorem reqOf_places : Places reqOf encReqF where
  opOf_enc op _ := opOf_append _ op
  dec_enc op f := by
    simp (disch := omega) only [encReqF, reqOf, guardOf, fld, BitVec.extractLsb'_append_eq_of_add_le,
      BitVec.extractLsb'_append_eq_of_le, BitVec.extractLsb'_eq_self, Nat.reduceSub]
  enc_dec w f h := by
    obtain rfl := Option.some.inj h
    simp only [encReqF, guardOf, opOf]
    simp (disch := decide) only [fld_append_fld]
    exact fld_all w

theorem mstatOf_places : Places mstatOf encMstatF where
  opOf_enc op _ := opOf_append _ op
  dec_enc op f := by
    simp (disch := omega) only [encMstatF, mstatOf, guardOf, fld, BitVec.extractLsb'_append_eq_of_add_le,
      BitVec.extractLsb'_append_eq_of_le, BitVec.extractLsb'_eq_self, Nat.reduceSub, if_true]
  enc_dec w f h := by
    simp only [mstatOf, Option.ite_none_right_eq_some, Option.some.injEq] at h
    obtain ⟨h0, rfl⟩ := h
    simp only [encMstatF, guardOf, opOf, ← h0]
    simp (disch := decide) only [fld_append_fld]
    exact fld_all w

theorem dploadOf_places : Places dploadOf encDploadF where
  opOf_enc op _ := opOf_append _ op
  dec_enc op f := by
    simp (disch := omega) only [encDploadF, dploadOf, guardOf, fld, BitVec.extractLsb'_append_eq_of_add_le,
      BitVec.extractLsb'_append_eq_of_le, BitVec.extractLsb'_eq_self, Nat.reduceSub, and_self, if_true]
  enc_dec w f h := by
    simp only [dploadOf, Option.ite_none_right_eq_some, Option.some.injEq] at h
    obtain ⟨h0, rfl⟩ := h
    simp only [encDploadF, guardOf, opOf, ← h0]
    simp (disch := decide) only [fld_append_fld]
    exact fld_all w

theorem launchOf_places : Places launchOf encLaunchF where
  opOf_enc op _ := opOf_append _ op
  dec_enc op f := by
    simp (disch := omega) only [encLaunchF, launchOf, guardOf, fld, BitVec.extractLsb'_append_eq_of_add_le,
      BitVec.extractLsb'_append_eq_of_le, BitVec.extractLsb'_eq_self, Nat.reduceSub, and_self, if_true]
  enc_dec w f h := by
    simp only [launchOf, Option.ite_none_right_eq_some, Option.some.injEq] at h
    obtain ⟨h0, rfl⟩ := h
    simp only [encLaunchF, guardOf, opOf, ← h0]
    simp (disch := decide) only [fld_append_fld]
    exact fld_all w

theorem ratomOf_places : Places ratomOf encRatomF where
  opOf_enc op _ := opOf_append _ op
  dec_enc op f := by
    simp (disch := omega) only [encRatomF, ratomOf, guardOf, fld, BitVec.extractLsb'_append_eq_of_add_le,
      BitVec.extractLsb'_append_eq_of_le, BitVec.extractLsb'_eq_self, Nat.reduceSub, if_true]
  enc_dec w f h := by
    simp only [ratomOf, Option.ite_none_right_eq_some, Option.some.injEq] at h
    obtain ⟨h0, rfl⟩ := h
    simp only [encRatomF, guardOf, opOf, ← h0]
    simp (disch := decide) only [fld_append_fld]
    exact fld_all w

/-- What a format's row of the opcode map decodes: the words of its instructions. -/
theorem fields_eq_ok {α : Type} {dec : Word64 → Option α} {enc : BitVec 9 → α → Word64} (p : Places dec enc)
    (mk : α → Instr) (w : Word64) (i : Instr) : fields mk (dec w) = .ok i ↔ ∃ f, enc (opOf w) f = w ∧ mk f = i := by
  constructor
  · intro h
    cases hf : dec w with
    | none => simp [hf, fields] at h
    | some f =>
      simp only [hf, fields, Except.ok.injEq] at h
      exact ⟨f, p.enc_dec w f hf, h⟩
  · rintro ⟨f, hw, rfl⟩
    rw [← hw, p.dec_enc, fields]

/-! ### The opcode map -/

/-- The row of the opcode map of code `op` (Table 2.8). -/
def decodeRow (op : BitVec 9) (w : Word64) : Decoded :=
  let k := op.toNat % 64
  match op.toNat / 64 with
  | 0 => decodeGroup0 w k
  | 1 => decodeGroup1 w k
  | 2 => decodeGroup2 w k
  | 3 => decodeGroup3 w k
  | 4 => decodeGroup4 w k
  | 5 => decodeGroup5 w k
  | 6 => decodeGroup6 w k
  | 7 => decodeGroup7 w k
  | _ => .error 1

theorem decode_eq_decodeRow (w : Word64) : decode w = decodeRow (opOf w) w := rfl

/-- The word of an instruction decodes to it when its code's row of the opcode map reads its format. -/
theorem decode_enc {α : Type} {dec : Word64 → Option α} {enc : BitVec 9 → α → Word64} (p : Places dec enc) {op : BitVec 9}
    {mk : α → Instr} {w : Word64} {f : α} (hrow : ∀ w, decodeRow op w = fields mk (dec w))
    (hw : (some (.inl (enc op f)) : Option Code) = some (.inl w)) : decode w = .ok (mk f) := by
  cases hw
  rw [decode_eq_decodeRow, p.opOf_enc, hrow, fields_eq_ok p]
  exact ⟨f, by rw [p.opOf_enc], rfl⟩

/-- A machine instruction's word decodes to it, whatever its fields. -/
theorem decode_encode {i : Instr} {w : Word64} (h : encode i = some (.inl w)) : decode w = .ok i := by
  cases i with
  | iadd _ | isub _ | imul _ | imulh _ | imad _ | imin _ | imax _ | iaddc _ | iabs _ | ineg _ | and _ | or _ | xor _
  | andn _ | not _ | shl _ | shr _ | sar _ | rotl _ | bfe _ | bfi _ | popc _ | clz _ | ffs _ | brev _ | icmp _ | sel _
  | mov _ | lea _ | plop _ | fadd _ | fsub _ | fmul _ | ffma _ | fmin _ | fmax _ | fabs _ | fneg _ | fcmp _ | frnd _
  | fclass _ | fscale _ | fdot2 _ | dot4 _ | cvtf _ | cvti _ | cvtfi _ | pack2 _ | pack4 _ | unpk _ | qnt _ | dqnt _
  | qdesc _ | frcp _ | frsq _ | fsqrt _ | fexp2 _ | flog2 _ | fsin _ | fcos _ | ftanh _ | qswph _ | qswpv _ | qswpd _
  | qbc _ | shfl _ | shflu _ | shfld _ | shflx _ | vote _ | ballot _ | matchLanes _ | lpopc _ | rdlane _ | wrlane _
  | wreduce _ | wscan _ | xmov _ | dqpop _ | lpush _ | atomsAdd _ | atomsSub _ | atomsMin _ | atomsMax _ | atomsAnd _
  | atomsOr _ | atomsXor _ | atomsExch _ | atomsCas _ | scrflg _ | atomgAdd _ | atomgSub _ | atomgMin _ | atomgMax _
  | atomgAnd _ | atomgOr _ | atomgXor _ | atomgExch _ | atomgCas _ | ret _ | jmpx _ | exit _ | nop _ | bara _
  | barinit _ | barst _ | tbar _ | kinc _ | kset _ | krd _ | time _ | waitt _ | trig _ | probe _ | tinv _ =>
    exact decode_enc rfOf_places (fun _ => rfl) h
  | movi _ | movhi _ | iaddi _ | imuli _ | andi _ | ori _ | xori _ | icmpi _ | regang _ | phase _ | trap _ | bkpt _
  | sysrd _ | syswr _ =>
    exact decode_enc ifOf_places (fun _ => rfl) h
  | lds _ | sts _ | ldsb _ | ldg _ | stg _ | fence _ | rld _ | rst _ =>
    exact decode_enc mfOf_places (fun _ => rfl) h
  | bra _ | brq _ | brd _ | brs _ | call _ =>
    exact decode_enc bfOf_places (fun _ => rfl) h
  | copy _ | copyr _ =>
    exact decode_enc copyOf_places (fun _ => rfl) h
  | cpyst _ =>
    exact decode_enc cpystOf_places (fun _ => rfl) h
  | cpycan _ =>
    exact decode_enc cpycanOf_places (fun _ => rfl) h
  | mma _ | mloop _ | mzero _ | mdrain _ =>
    exact decode_enc reqOf_places (fun _ => rfl) h
  | mstat _ | mchk _ =>
    exact decode_enc mstatOf_places (fun _ => rfl) h
  | dpload _ =>
    exact decode_enc dploadOf_places (fun _ => rfl) h
  | launch _ =>
    exact decode_enc launchOf_places (fun _ => rfl) h
  | ratomAdd _ | ratomSub _ | ratomMin _ | ratomMax _ | ratomAnd _ | ratomOr _ | ratomXor _ | ratomExch _ | ratomCas _ =>
    exact decode_enc ratomOf_places (fun _ => rfl) h
  | _ => cases h

/-- A word that decodes is the word of what it decodes to: arm by arm of the opcode map, the code of the arm and the fields that its
format reads make up the word. -/
theorem encode_of_decode {w : Word64} {i : Instr} (h : decode w = .ok i) : encode i = some (.inl w) := by
  have hop : opOf w = BitVec.ofNat 9 (64 * ((opOf w).toNat / 64) + (opOf w).toNat % 64) := by
    rw [Nat.div_add_mod, BitVec.ofNat_toNat, BitVec.setWidth_eq]
  unfold decode at h
  generalize (opOf w).toNat / 64 = g at h hop
  generalize (opOf w).toNat % 64 = k at h hop
  dsimp only at h
  split at h
  case h_9 => cases h
  all_goals
    simp only [decodeGroup0.eq_def, decodeGroup1.eq_def, decodeGroup2.eq_def, decodeGroup3.eq_def, decodeGroup4.eq_def,
      decodeGroup5.eq_def, decodeGroup6.eq_def, decodeGroup7.eq_def] at h
    split at h
  all_goals
    simp only [fields_eq_ok rfOf_places, fields_eq_ok ifOf_places, fields_eq_ok mfOf_places, fields_eq_ok bfOf_places,
      fields_eq_ok copyOf_places, fields_eq_ok cpystOf_places, fields_eq_ok cpycanOf_places, fields_eq_ok reqOf_places,
      fields_eq_ok mstatOf_places, fields_eq_ok dploadOf_places, fields_eq_ok launchOf_places, fields_eq_ok ratomOf_places,
      reduceCtorEq] at h
  all_goals
    obtain ⟨f, hw, rfl⟩ := h
    rw [encode, ← hw, hop]
    rfl

/-! ### Micro-operations -/

theorem ufOf_encUF (opc : BitVec 5) (f : UF) : ufOf (encUF opc f) = f := by
  simp (disch := omega) only [ufOf, encUF, BitVec.extractLsb'_append_eq_of_add_le, BitVec.extractLsb'_append_eq_of_le,
    BitVec.extractLsb'_eq_self, Nat.reduceSub]

theorem opc_encUF (opc : BitVec 5) (f : UF) : (encUF opc f).extractLsb' 0 5 = opc :=
  BitVec.extractLsb'_append_eq_right

theorem encUF_ufOf (w : Word32) : encUF (w.extractLsb' 0 5) (ufOf w) = w := by
  simp only [encUF, ufOf]
  simp (disch := decide) only [BitVec.extractLsb'_append_extractLsb'_eq_extractLsb']
  exact BitVec.extractLsb'_eq_self

/-- The word of a micro-operation that uses no field but its own decodes as its code says. -/
theorem decodeUop_encUF (opc : BitVec 5) (f : UF) (h : uopZeros opc.toNat f = true) :
    decodeUop (encUF opc f) = uopOf f opc.toNat := by
  simp only [decodeUop, ufOf_encUF, opc_encUF, h, if_true]

theorem decodeUop_of_enc {opc : BitVec 5} {f : UF} {w : Word32}
    (hw : (some (.inr (encUF opc f)) : Option Code) = some (.inr w)) (h : uopZeros opc.toNat f = true) :
    decodeUop w = uopOf f opc.toNat := by
  cases hw
  exact decodeUop_encUF opc f h

/-- A well-formed micro-operation's word decodes to it. -/
theorem decodeUop_encode {i : Instr} {w : Word32} (hwf : i.wf = true) (h : encode i = some (.inr w)) :
    decodeUop w = some i := by
  cases i with
  | drainAdd _ | drainSub _ | drainMul _ | drainFma _ | drainMin _ | drainMax _ | drainAbs _ | drainNeg _ | drainMovi _
  | drainLdc _ | drainLdr _ | drainTab _ | drainExp2 _ | drainRcp _ | drainClamp _ | drainRnd _ | drainCvt _ | drainQspan _
  | drainSt _ | drainChk _ | drainSkip _ | drainSel _ | drainNop _ | drainEnd _ => exact decodeUop_of_enc h hwf
  | _ => cases h

/-- The micro-operation of a code has the code and its fields as its word. -/
theorem encode_of_uopOf {f : UF} {opc : BitVec 5} {i : Instr} (h : uopOf f opc.toNat = some i) :
    encode i = some (.inr (encUF opc f)) := by
  obtain ⟨k, hk, rfl⟩ : ∃ k, k < 32 ∧ opc = BitVec.ofNat 5 k := ⟨opc.toNat, opc.isLt, by simp⟩
  rw [BitVec.toNat_ofNat, Nat.mod_eq_of_lt hk] at h
  unfold uopOf at h
  split at h
  case h_25 => cases h
  all_goals
    obtain rfl := Option.some.inj h
    rfl

theorem encode_of_decodeUop {w : Word32} {i : Instr} (h : decodeUop w = some i) : encode i = some (.inr w) := by
  simp only [decodeUop, Option.ite_none_right_eq_some] at h
  rw [encode_of_uopOf h.2, encUF_ufOf]

/-! ### The obligations -/

/-- Settles O1: format by format, the fields that the encoder places are those that the decoder reads. -/
theorem decodeOfEncode : Obligations.DecodeOfEncode :=
  ⟨fun _ _ _ h => decode_encode h, fun _ _ hwf h => decodeUop_encode hwf h⟩

/-- Settles O2: a word is made up of its code and of the fields that its format reads. -/
theorem encodeOfDecode : Obligations.EncodeOfDecode :=
  ⟨fun _ _ h => encode_of_decode h, fun _ _ h => encode_of_decodeUop h⟩

/-- Settles O3: each word is decoded by computation. -/
theorem wordsDecodeAsPrinted : Obligations.WordsDecodeAsPrinted := by
  unfold Obligations.WordsDecodeAsPrinted
  and_intros <;> rfl

end Sys2Proof.Proofs
end

section
/-! SUPPORT. Records by number and the agenda: what a lookup answers after a change, and what scheduling adds. -/

namespace Sys2Proof.Proofs

open Sys2Proof Sys2Proof.Machine Sys2Proof.Laws

/-! ### Records by number -/

/-- A lookup by key after the records of one key have been changed, each into one of that key. -/
theorem find?_map_update {α κ : Type} [DecidableEq κ] (key : α → κ) (k j : κ) (f : α → α)
    (hf : ∀ x, key x = k → key (f x) = k)
    (l : List α) : ((l.map fun x => if key x = k then f x else x).find? fun x => key x = j) =
      (l.find? fun x => key x = j).map fun x => if j = k then f x else x := by
  induction l with
  | nil => rfl
  | cons x l ih =>
    have hkey : key (if key x = k then f x else x) = key x := by
      split
      · next h => rw [hf x h, h]
      · rfl
    simp only [List.map_cons, List.find?_cons, hkey, ih]
    by_cases hx : key x = j
    · simp [hx]
    · simp [hx]

theorem unit?_modUnit (s : State) (u v : UnitId) (f : ExecUnit → ExecUnit) (hf : ∀ x, x.id = u → (f x).id = u) :
    (s.modUnit u f).unit? v = (s.unit? v).map fun x => if v = u then f x else x :=
  find?_map_update ExecUnit.id u v f hf s.units

theorem group?_modGroup (s : State) (g n : Nat) (f : Group → Group) (hf : ∀ x, x.gid = g → (f x).gid = g) :
    (s.modGroup g f).group? n = (s.group? n).map fun x => if n = g then f x else x :=
  find?_map_update Group.gid g n f hf s.groups

theorem team?_modTeam (s : State) (t n : Nat) (f : Team → Team) (hf : ∀ x, x.tid = t → (f x).tid = t) :
    (s.modTeam t f).team? n = (s.team? n).map fun x => if n = t then f x else x :=
  find?_map_update Team.tid t n f hf s.teams

theorem kernel?_modKernel (s : State) (k n : Nat) (f : Kernel → Kernel) (hf : ∀ x, x.kid = k → (f x).kid = k) :
    (s.modKernel k f).kernel? n = (s.kernel? n).map fun x => if n = k then f x else x :=
  find?_map_update Kernel.kid k n f hf s.kernels

theorem op?_modOp (s : State) (o n : Nat) (f : Op → Op) (hf : ∀ x, x.id = o → (f x).id = o) :
    (s.modOp o f).op? n = (s.op? n).map fun x => if n = o then f x else x :=
  find?_map_update Op.id o n f hf s.ops

theorem id_of_unit? {s : State} {u : UnitId} {x : ExecUnit} (h : s.unit? u = some x) : x.id = u := by
  simpa using List.find?_some h

theorem gid_of_group? {s : State} {n : Nat} {g : Group} (h : s.group? n = some g) : g.gid = n := by
  simpa using List.find?_some h

theorem tid_of_team? {s : State} {n : Nat} {m : Team} (h : s.team? n = some m) : m.tid = n := by
  simpa using List.find?_some h

theorem kid_of_kernel? {s : State} {n : Nat} {k : Kernel} (h : s.kernel? n = some k) : k.kid = n := by
  simpa using List.find?_some h

theorem id_of_op? {s : State} {n : Nat} {o : Op} (h : s.op? n = some o) : o.id = n := by
  simpa using List.find?_some h

/-! ### The agenda -/

theorem mem_insertAgenda (e a : Agenda) (l : List Agenda) : a ∈ insertAgenda e l ↔ a = e ∨ a ∈ l := by
  induction l with
  | nil => simp [insertAgenda]
  | cons x l ih =>
    simp only [insertAgenda]
    split
    · simp
    · simp only [List.mem_cons, ih]
      tauto

theorem mem_sched (s : State) (at' phase : Nat) (d : Due) (e : Agenda) :
    e ∈ (s.sched at' phase d).agenda ↔ e = { at' := at', phase := phase, due := d } ∨ e ∈ s.agenda :=
  mem_insertAgenda _ _ _

theorem mem_schedEv_of_mem {s : State} {e : Agenda} (h : e ∈ s.agenda) (at' phase : Nat) (d : Due) :
    e ∈ (s.schedEv at' phase d).agenda := by
  simp only [State.schedEv]
  split
  · exact h
  · exact (mem_insertAgenda _ _ _).mpr (.inr h)

theorem mem_of_mem_schedEv {s : State} {at' phase : Nat} {d : Due} {e : Agenda} (h : e ∈ (s.schedEv at' phase d).agenda) :
    e ∈ s.agenda ∨ e.due = d := by
  simp only [State.schedEv] at h
  split at h
  · exact .inl h
  · rcases (mem_insertAgenda _ _ _).mp h with rfl | h
    · exact .inr rfl
    · exact .inl h

/-- An event that is scheduled is due at its instant, by this entry or by an earlier one. -/
theorem exists_mem_schedEv (s : State) (at' phase : Nat) (d : Due) :
    ∃ e ∈ (s.schedEv at' phase d).agenda, e.due = d ∧ e.at' = at' := by
  simp only [State.schedEv]
  split
  · next h =>
    obtain ⟨e, he, heq⟩ := List.any_eq_true.mp h
    simp only [Bool.and_eq_true, beq_iff_eq] at heq
    exact ⟨e, he, heq.2, heq.1⟩
  · exact ⟨_, (mem_insertAgenda _ _ _).mpr (.inl rfl), rfl, rfl⟩

end Sys2Proof.Proofs
end

section
/-! SUPPORT. Decode checks and traps: what taking a trap does to each record, and the first failed check (O9). -/

namespace Sys2Proof.Proofs

open Sys2Proof Sys2Proof.Machine Sys2Proof.Laws

/-! ### Taking a trap -/

/-- The unit that takes a trap stops with it, its clause taken aside. -/
def stopUnit (t : Stop) (x : ExecUnit) : ExecUnit :=
  { x with stop := some { t with clause := x.clause, due := t.cycle + Config.hold }, clause := none }

/-- A running group whose unit traps becomes faulted. -/
def faultGroup (g : Group) : Group := if g.state = .running then { g with state := .faulted } else g

theorem gid_faultGroup (g : Group) : (faultGroup g).gid = g.gid := by
  unfold faultGroup
  split <;> rfl

/-- A trap but for a page fault, in the order of R310: the unit stops, its group becomes faulted, and the trap is to become final. -/
theorem takeTrap_of_unit {s : State} {u : UnitId} {x : ExecUnit} (t : Stop) (h : s.unit? u = some x) (h7 : t.kind ≠ 7) :
    s.takeTrap u t = ((s.modUnit u (stopUnit t)).modGroup x.gid faultGroup).schedCyc u.die u.core (t.cycle + Config.hold) 20
      (evU .trapFinal u [t.cycle]) := by
  have hx : (s.modUnit u (stopUnit t)).unit? u = some (stopUnit t x) := by
    rw [unit?_modUnit s u u (stopUnit t) fun _ h => h, h]
    simp
  change State.schedCyc (match (s.modUnit u (stopUnit t)).unit? u with
    | none => s.modUnit u (stopUnit t)
    | some x => if t.kind = 7 then s.modUnit u (stopUnit t) else (s.modUnit u (stopUnit t)).modGroup x.gid faultGroup) _ _ _ _ _ = _
  rw [hx]
  simp only [h7, if_false]
  rfl

theorem takeTrap_unit? {s : State} {u : UnitId} {x : ExecUnit} {t : Stop} (h : s.unit? u = some x) (h7 : t.kind ≠ 7) (v : UnitId) :
    (s.takeTrap u t).unit? v = if v = u then some (stopUnit t x) else s.unit? v := by
  rw [takeTrap_of_unit t h h7]
  change (s.modUnit u (stopUnit t)).unit? v = _
  rw [unit?_modUnit s u v (stopUnit t) fun _ h => h]
  by_cases hv : v = u
  · simp [hv, h]
  · simp [hv]

theorem takeTrap_group? {s : State} {u : UnitId} {x : ExecUnit} {t : Stop} (h : s.unit? u = some x) (h7 : t.kind ≠ 7) (n : Nat) :
    (s.takeTrap u t).group? n = (s.group? n).map fun g => if n = x.gid then faultGroup g else g := by
  rw [takeTrap_of_unit t h h7]
  exact group?_modGroup s x.gid n faultGroup fun g hg => (gid_faultGroup g).trans hg

/-- The agenda after a trap: its becoming final is due D cycles later, and nothing else is new. -/
theorem takeTrap_agenda {s : State} {u : UnitId} {x : ExecUnit} {t : Stop} (h : s.unit? u = some x) (h7 : t.kind ≠ 7) :
    (∃ e ∈ (s.takeTrap u t).agenda, e.due = evU .trapFinal u [t.cycle] ∧
      e.at' = max s.now (instantOf s u.die u.core (t.cycle + Config.hold))) ∧
    (∀ e ∈ s.agenda, e ∈ (s.takeTrap u t).agenda) ∧
    ∀ e ∈ (s.takeTrap u t).agenda, e ∈ s.agenda ∨ e.due = evU .trapFinal u [t.cycle] := by
  rw [takeTrap_of_unit t h h7]
  exact ⟨exists_mem_schedEv _ _ _ _, fun _ he => mem_schedEv_of_mem he _ _ _, fun _ he => mem_of_mem_schedEv he⟩

/-! ### Decode checks -/

/-- A decode check fails with an illegal instruction, or with an opcode outside the clause's class (Table 2.9). -/
theorem kind_of_decodeCheck {s : State} {c : Cur} {i : Instr} {k : Nat × Nat} (h : decodeCheck s c i = some k) :
    k.1 = 1 ∨ k.1 = 3 := by
  unfold decodeCheck at h
  extract_lets lead op l q at h
  clear_value l
  split at h
  · exact .inl (congrArg Prod.fst (Option.some.inj h)).symm
  split at h
  · exact .inl (congrArg Prod.fst (Option.some.inj h)).symm
  split at h
  · exact .inl (congrArg Prod.fst (Option.some.inj h)).symm
  split at h
  · exact .inl (congrArg Prod.fst (Option.some.inj h)).symm
  split at h
  · exact .inr (congrArg Prod.fst (Option.some.inj h)).symm
  · cases h

/-- What runs an instruction that has a word is its issue with its own effect. -/
theorem exec_eq_issue {i : Instr} {w : Word64} (h : encode i = some (.inl w)) :
    ∃ f : State → Cur → State, ∀ s, exec i s = issue i s (f s) := by
  cases i <;> cases h
  all_goals exact ⟨_, fun _ => rfl⟩

/-- Settles O9: the issue of every machine instruction takes the trap of the first failed check, and a trap changes its unit, its
group and the agenda. -/
theorem failedCheckTrapsAndNothingElse : Obligations.FailedCheckTrapsAndNothingElse := by
  intro i w s c x k hw hc hx hk
  obtain ⟨f, hf⟩ := exec_eq_issue hw
  refine ⟨_, (hf s).trans (issue_trap (f s) hc hk), takeTrap_eq .., ?_⟩
  have h7 : (curStop s c k.1 k.2 (trapLanes s c (instrUni s c i) (guardOfInstr i)) []).kind ≠ 7 := by
    rcases kind_of_decodeCheck hk with h | h <;> simp [curStop, h]
  obtain ⟨hdue, hold, hnew⟩ := takeTrap_agenda hx h7
  simp only [trapCur, takeTrap_unit? hx h7, takeTrap_group? hx h7]
  refine ⟨⟨_, if_pos trivial, rfl, rfl, rfl, rfl, rfl, rfl, rfl⟩, fun v hv => if_neg hv, fun n hn => ?_,
    fun g hg => ?_, hdue, hold, hnew⟩
  · simp [hn]
  · simp only [hg, Option.map_some, if_true, faultGroup]
    split <;> rfl

end Sys2Proof.Proofs
end

section
/-! SUPPORT. One step: what a slot reads and runs, an event, a drain row, and an idle tick (O4). -/

namespace Sys2Proof.Proofs

open Sys2Proof Sys2Proof.Machine Sys2Proof.Laws

/-- The slot that a unit's clause has reached: its word of the staged image, with the slot as the one being issued. -/
theorem slotWord_reached {s : State} {x : ExecUnit} {r : ClauseRun} {g : Group} {idx : Nat} (hx : s.unit? x.id = some x)
    (hr : x.clause = some r) (hg : s.group? x.gid = some g) (hstop : x.stop = none) (hend : x.ended = false)
    (hcyc : r.w0 + hPad r.hdr + idx = s.ucyc x.id) (hidx : idx ≤ hN r.hdr) :
    slotWord s x.id idx = some (codeWord s g.kid (r.pc + 8 * (idx + 1)),
      { s with cur := some { u := x.id, cycle := s.ucyc x.id, pc := r.pc + 8 * (idx + 1), idx := idx, hdr := r.hdr,
                             quads := r.quads } }) := by
  simp [slotWord, hx, hr, hg, hstop, hend, hcyc, Nat.not_lt.mpr hidx]

/-- A step takes the earliest entry of the agenda. -/
theorem step_agenda {s : State} {a : Agenda} {rest : List Agenda} (hh : s.halted = none) (hrow : s.row = none)
    (ha : s.agenda = a :: rest) : step s = stepDue { s with agenda := rest, now := max s.now a.at' } a.due := by
  simp only [step, hh, hrow, stepAgenda, ha]

theorem stepDue_slot {s : State} {u : UnitId} {idx : Nat} (hp : s.powered = true) :
    stepDue s (.slot u idx) = stepSlot s u idx := by simp [stepDue, hp]

theorem stepDue_ev {s : State} {i : Instr} {b : Arg} (h : s.powered = true ∨ i = .powerOn) :
    stepDue s (.ev i b) = exec i { s with arg := b } := by
  rcases h with hp | rfl
  · simp [stepDue, hp]
  · simp [stepDue, Due.bringsUp]

theorem stepSlot_of_slotWord {s s1 : State} {u : UnitId} {idx : Nat} {w : Word64} (h : slotWord s u idx = some (w, s1)) :
    (∀ i, decode w = .ok i → stepSlot s u idx = andThen (exec i s1) slotDone) ∧
      ∀ sub, decode w = .error sub → stepSlot s u idx = .next (slotDone (slotIllegal s1 sub w)) := by
  constructor <;> intro r hr <;> simp only [stepSlot, h, hr]

/-- Settles O4: the step function's branches, one by one. -/
theorem stepRunsTheDecodedInstruction : Obligations.StepRunsTheDecodedInstruction := by
  refine ⟨?_, ?_, ?_, ?_⟩
  · intro s a rest x r g idx hh hrow hp ha hdue s0 hx hr hg hstop hend hcyc hidx pc w s1
    have hstep : step s = stepSlot s0 x.id idx := by
      rw [step_agenda hh hrow ha, hdue]
      exact stepDue_slot hp
    rw [hstep]
    exact stepSlot_of_slotWord (slotWord_reached hx hr hg hstop hend hcyc hidx)
  · intro s a rest i b hh hrow hp ha hdue
    rw [step_agenda hh hrow ha, hdue]
    exact stepDue_ev hp
  · intro s r i hh hrow hi
    simp only [step, hh, hrow, stepRow, hi]
  · intro s hh hrow ha
    simp only [step, hh, hrow, stepAgenda, ha]

end Sys2Proof.Proofs
end

section
/-! SUPPORT. Transfers of control: where branches send a sub-gang, its quads or a lead stream (O42). -/

namespace Sys2Proof.Proofs

open Sys2Proof Sys2Proof.Machine Sys2Proof.Laws

/-! ### Targets -/

theorem hN_eq (h : Word64) : hN h = (h &&& 15#64).toNat := by
  simp only [hN, fld, BitVec.extractLsb'_toNat, BitVec.toNat_and, Nat.shiftRight_zero]
  exact (Nat.and_two_pow_sub_one_eq_mod h.toNat 4).symm

theorem nextOf_eq (c : Cur) : nextOf c = c.pc - 8 * (c.idx + 1) + 8 * ((c.hdr &&& 15#64).toNat + 2) := by
  rw [nextOf, nextHeader, hN_eq]

theorem branchTarget_eq (c : Cur) (off : BitVec 32) :
    branchTarget c off = (((nextOf c : Int) + 8 * off.toInt) % 2 ^ 64).toNat := rfl

theorem xferOk_iff (s : State) (c : Cur) (g : Guard) : xferOk s c g = true ↔ Acts s c g := by
  cases hl : c.u.lead <;> simp [xferOk, Acts, guardLead, hl]

/-- BRS's relation of a value to zero (Table 3.6). -/
theorem intCond_zero_iff (k : Nat) (a : Int) :
    intCond k a 0 = true ↔ (k = 0 ∧ a = 0) ∨ (k = 1 ∧ a ≠ 0) ∨ (k = 2 ∧ a < 0) ∨
    (k = 3 ∧ a ≤ 0) ∨ (k = 4 ∧ a > 0) ∨ (k ≥ 5 ∧ a ≥ 0) := by
  match k with
  | 0 | 1 | 2 | 3 | 4 => simp [intCond]
  | k + 5 => simp [intCond]

/-! ### What a transfer leaves -/

/-- Memory, registers and system registers are as they were, and the issuing unit's clause has the transfer `x` to make. -/
def Goes (s t : State) (c : Cur) (x : Xfer) : Prop :=
  SameMemory s t ∧ SameRegisters s t ∧ SameSystem s t ∧
    ∀ y, s.unit? c.u = some y → ∃ z, t.unit? c.u = some z ∧ z = { y with clause := y.clause.map fun r => { r with xfer := x } }

/-- The transfer of the clause that a unit issues. -/
def withXfer (x : Xfer) (y : ExecUnit) : ExecUnit := { y with clause := y.clause.map fun r => { r with xfer := x } }

theorem setXfer_unit? {t : State} {u : UnitId} {y : ExecUnit} (h : t.unit? u = some y) (x : Xfer) :
    (setXfer t u x).unit? u = some (withXfer x y) := by
  change (t.modUnit u (withXfer x)).unit? u = _
  rw [unit?_modUnit t u u (withXfer x) fun _ h => h, h]
  simp

/-- A transfer chosen after results have been set to land. -/
theorem goes_setXfer {s t : State} (h : OnlyPending s t) (c : Cur) (x : Xfer) : Goes s (setXfer t c.u x) c x := by
  refine ⟨(sameMemory_of_onlyPending h :), (sameRegisters_of_onlyPending h :), ?_, fun y hy => ⟨_, setXfer_unit? ?_ x, rfl⟩⟩
  · rw [h]
    exact ⟨rfl, rfl, rfl, rfl, rfl, rfl, rfl, rfl, rfl, rfl, rfl⟩
  · rw [h]
    exact hy

theorem lands_setXfer {t : State} {c : Cur} {d l : Nat} {wide : Bool} {v : Word64} {lat : Nat} (h : Lands t c d l wide v lat)
    (u : UnitId) (x : Xfer) : Lands (setXfer t u x) c d l wide v lat :=
  lands_of_grows h fun _ hw => hw

theorem goes_goto (s : State) (c : Cur) (pc : Nat) : Goes s (setXfer s c.u (.goto pc)) c (.goto pc) :=
  goes_setXfer (onlyPending_refl s) c _

/-- A branch under a condition: the transfer when it holds, nothing when it fails. -/
theorem goIf_cases {s : State} {c : Cur} {b : Bool} {P : Prop} (hb : b = true ↔ P) (pc : Nat) :
    (P → Goes s (goIf s c b pc) c (.goto pc) ∧ (goIf s c b pc).pend = s.pend) ∧ (¬P → goIf s c b pc = s) := by
  constructor
  · intro h
    rw [goIf, if_pos (hb.mpr h)]
    exact ⟨goes_goto s c pc, rfl⟩
  · intro h
    rw [goIf, if_neg (mt hb.mp h)]

theorem indirect_goes (s : State) (c : Cur) (a : Nat) : (indirect s c a).pend = s.pend ∧
    if isS c.u.lead a then Goes s (indirect s c a) c (.goto (readU s c a).toNat)
    else Goes s (indirect s c a) c (.quads ((curQuads c).map fun q => (q, (readField s c a (quadLane s c q) true).toNat))) := by
  unfold indirect
  split
  · exact ⟨rfl, goes_goto ..⟩
  · exact ⟨rfl, goes_setXfer (onlyPending_refl s) c _⟩

/-! ### Lanes of quads -/

/-- Lane `l` is in the part of quad `q` that votes and accesses memory: visible lanes, primaries only in protected mode. -/
def inQuad (s : State) (c : Cur) (q l : Nat) : Bool := if protOf s c.u then l / 8 == q && l % 2 == 0 else l / 4 == q

theorem mem_quadAll (s : State) (c : Cur) (q l : Nat) :
    l ∈ quadAll s c q ↔ (if protOf s c.u then l / 8 else l / 4) = q := by
  simp only [quadAll, quadLane, List.mem_map, List.mem_range]
  split
  · constructor
    · rintro ⟨i, hi, rfl⟩; omega
    · rintro rfl; exact ⟨l % 8, by omega, by omega⟩
  · constructor
    · rintro ⟨i, hi, rfl⟩; omega
    · rintro rfl; exact ⟨l % 4, by omega, by omega⟩

theorem mem_curQuads (c : Cur) (q : Nat) : q ∈ curQuads c ↔ q < 8 ∧ c.quads.getLsbD q = true := by
  simp [curQuads]

/-- The lanes of a quad that vote in BRQ. -/
theorem mem_quad_realLanes (s : State) (c : Cur) (g : Guard) (q l : Nat) :
    l ∈ (quadAll s c q).filter (fun l => (realLanes s c g).contains l) ↔
      l ∈ (List.range 32).filter fun l => laneActive s c g l && inQuad s c q l := by
  simp only [List.mem_filter, mem_quadAll, List.contains_iff_mem, realLanes, activeLanes, List.mem_range, inQuad]
  cases protOf s c.u
  · simp; tauto
  · simp; tauto

/-- Whether a quad's lanes are there and all, or any, of them vote depends on which lanes they are, not on their order. -/
theorem vote_congr {ls ks : List Nat} (h : ∀ l, l ∈ ls ↔ l ∈ ks) (v : Nat → Bool) (b : Bool) :
    (!ls.isEmpty && (if b then (ls.map v).all id else (ls.map v).any id)) = (!ks.isEmpty && (if b then ks.all v else ks.any v)) := by
  have hempty : ls.isEmpty = ks.isEmpty := by
    rw [Bool.eq_iff_iff, List.isEmpty_iff, List.isEmpty_iff, List.eq_nil_iff_forall_not_mem, List.eq_nil_iff_forall_not_mem]
    simp only [h]
  have hall : (ls.map v).all id = ks.all v := by
    rw [Bool.eq_iff_iff]
    simp [h]
  have hany : (ls.map v).any id = ks.any v := by
    rw [Bool.eq_iff_iff]
    simp [h]
  rw [hempty, hall, hany]

/-- CALL lands the return address in every lane of the sub-gang's quads. -/
theorem mem_callLanes (s : State) (c : Cur) (l : Nat) (h : if c.u.lead then l = 0
    else l < 32 ∧ c.quads.getLsbD (if protOf s c.u then l / 8 else l / 4) = true) :
    l ∈ if c.u.lead then [0] else (curQuads c).flatMap (quadAll s c) := by
  split at h
  · next hl => simp [hl, h]
  · next hl =>
    rw [if_neg hl, List.mem_flatMap]
    exact ⟨_, (mem_curQuads c _).mpr ⟨by split <;> omega, h.2⟩, (mem_quadAll s c _ l).mpr rfl⟩

/-! ### The obligation -/

/-- CALL: the branch, and the return address in every lane of the quads. -/
theorem call_completes (w : BF) : Completes (.call w) fun s c t => (¬Acts s c w.g → t = s) ∧
    (Acts s c w.g → Goes s t c (.goto (branchTarget c w.off)) ∧
      ∀ l, (if c.u.lead then l = 0 else l < 32 ∧ c.quads.getLsbD (if protOf s c.u then l / 8 else l / 4) = true) →
        Lands t c w.a.toNat l true (BitVec.ofNat 64 (nextOf c)) 4) := by
  intro s c h
  refine ⟨_, issue_ok _ h, fun hn => ?_, fun ha => ?_⟩
  · simp [mt (xferOk_iff s c w.g).mp hn]
  · simp only [(xferOk_iff s c w.g).mpr ha, Bool.not_true, Bool.false_eq_true, if_false]
    refine ⟨goes_setXfer (onlyPending_foldl _ (fun _ _ => onlyPending_landField ..) _ _) c _, fun l hl => ?_⟩
    refine lands_setXfer ?_ _ _
    exact lands_foldl (fun t l => landField t c w.a.toNat l true (BitVec.ofNat 64 (nextOf c)) (c.cycle + 4) 0)
      (fun _ _ => grows_landField _ _ _ _ _ _ _ _) (fun _ => lands_landField ..) s _ (mem_callLanes s c l hl)

/-- BRQ: a lead stream by its one vote, a warp quad by quad. -/
theorem brq_completes (w : BF) : Completes (.brq w) fun s c t =>
    let vote (l : Nat) : Bool := s.p c.u (w.cond.toNat % 8) l != w.cond.getLsbD 3
    if c.u.lead then
      (Acts s c w.g ∧ vote 0 = true → Goes s t c (.goto (branchTarget c w.off))) ∧ (¬(Acts s c w.g ∧ vote 0 = true) → t = s)
    else t.pend = s.pend ∧
      let votes (q : Nat) : List Nat := (List.range 32).filter fun l => laneActive s c w.g l && inQuad s c q l
      let taken (q : Nat) : Bool := !(votes q).isEmpty &&
        (if w.cond.getLsbD 4 then (votes q).all vote else (votes q).any vote)
      Goes s t c (.quads ((curQuads c).map fun q => (q, if taken q then branchTarget c w.off else nextOf c))) := by
  intro s c h
  refine ⟨_, issue_ok _ h, ?_⟩
  beta_reduce
  intro vote
  split
  · have hb : (xferOk s c w.g && vote 0) = true ↔ Acts s c w.g ∧ vote 0 = true := by
      rw [Bool.and_eq_true, xferOk_iff]
    exact ⟨fun hp => ((goIf_cases hb _).1 hp).1, (goIf_cases hb _).2⟩
  · have htaken (q : Nat) : brqTaken s c w q = _ := vote_congr (mem_quad_realLanes s c w.g q) vote (w.cond.getLsbD 4)
    simp only [htaken]
    exact ⟨rfl, goes_setXfer (onlyPending_refl s) c _⟩

/-- JMPX and RET: to the addresses read, per quad or for the whole sub-gang or stream. -/
theorem indirect_completes {i : Instr} {w : RF}
    (hi : ∀ s, exec i s = issue i s fun c => if xferOk s c w.g then indirect s c w.a.toNat else s) :
    Completes i fun s c t => (¬Acts s c w.g → t = s) ∧ (Acts s c w.g → t.pend = s.pend ∧
      if isS c.u.lead w.a.toNat then Goes s t c (.goto (readU s c w.a.toNat).toNat)
      else Goes s t c (.quads ((curQuads c).map fun q => (q, (readField s c w.a.toNat (quadLane s c q) true).toNat)))) := by
  intro s c h
  refine ⟨_, (hi s).trans (issue_ok _ h), fun hn => ?_, fun ha => ?_⟩
  · rw [if_neg (mt (xferOk_iff s c w.g).mp hn)]
  · rw [if_pos ((xferOk_iff s c w.g).mpr ha)]
    exact indirect_goes s c w.a.toNat

/-- Settles O42: each transfer's effect is set on the clause being issued, at the target that the model computes as R33 says. -/
theorem transferTargets : Obligations.TransferTargets := by
  unfold Obligations.TransferTargets
  intro hdrAt next target goes lane quads
  have hnext : next = nextOf := funext fun c => (nextOf_eq c).symm
  have htarget : target = branchTarget := by
    funext c off
    rw [branchTarget_eq, ← hnext]
  clear_value next target
  subst hnext htarget
  refine ⟨fun w s c h => ?_, fun w s c h => ?_, call_completes, brq_completes, ?_⟩
  · exact ⟨_, issue_ok _ h, goIf_cases (xferOk_iff s c w.g) _⟩
  · refine ⟨_, issue_ok _ h, goIf_cases ?_ _⟩
    rw [Bool.and_eq_true, xferOk_iff, intCond_zero_iff]
    rfl
  · rintro w i (rfl | rfl)
    · exact indirect_completes fun _ => rfl
    · exact indirect_completes fun _ => rfl

end Sys2Proof.Proofs
end

section
/-! SUPPORT. Clause fetch and clause issue (O51, R26, R27, R30). -/

namespace Sys2Proof.Proofs

open Sys2Proof Sys2Proof.Machine Sys2Proof.Laws

/-! ### Clause fetch -/

section
variable {s : State} {x : ExecUnit} {g : Group} {k : Kernel} {y : SubGang}

/-- A fetched header that passes its checks, in clean words, joins its sub-gang. -/
theorem clauseFetch_joins (hx : s.unit? s.arg.u = some x) (hg : s.group? x.gid = some g) (hk : s.kernelOf g = some k)
    (hy : x.gangs.find? (fun y => lowQuad y.quads == s.num 0) = some y) (hend : x.ended = false) (hstop : x.stop = none)
    (hwait : y.wait = false) (hhdr : y.hdr = none) (hcause : headerCause s k.kid (8 * k.lpb.codew) s.arg.u.lead y.pc = none)
    (hclean : poisonedWord s k.kid y.pc (codeWord s k.kid y.pc) = none) :
    Does .clauseFetch s fun t => Has (t.unit? s.arg.u) fun z => z = { x with gangs := x.gangs.map fun a =>
      if a.quads = y.quads then { a with hdr := some (codeWord s k.kid y.pc) } else a } := by
  refine ⟨s.modUnit s.arg.u fun x => { x with gangs := x.gangs.map fun z =>
    if z.quads = y.quads then { z with hdr := some (codeWord s k.kid y.pc) } else z }, ?_, _, ?_, rfl⟩
  · change execClauseFetch s = _
    simp [execClauseFetch, hx, hg, hk, hy, hend, hstop, hwait, hhdr, hcause, hclean]
  · simp [unit?_modUnit, hx]

/-- The misframe trap of a header that fails check `n` (R30). -/
def misframe (s : State) (x : ExecUnit) (y : SubGang) (n : Nat) : Stop :=
  let u := s.arg.u
  { kind := 2, sub := n, cycle := s.ucyc u, time := localTime s u.die u.core s.now, pc := y.pc, idx := 0, quads := y.quads
    clause := none, lanes := gangExec s x y, detail := [], sgpc := [], final := false, byWalk := false, waitOnly := false
    waits := [] }

/-- A header that fails a check stops the unit with the check's number (R30). -/
theorem clauseFetch_traps (hx : s.unit? s.arg.u = some x) (hg : s.group? x.gid = some g) (hk : s.kernelOf g = some k)
    (hy : x.gangs.find? (fun y => lowQuad y.quads == s.num 0) = some y) (hend : x.ended = false) (hstop : x.stop = none)
    (hwait : y.wait = false) (hhdr : y.hdr = none) {n : Nat}
    (hcause : headerCause s k.kid (8 * k.lpb.codew) s.arg.u.lead y.pc = some n) :
    Does .clauseFetch s fun t => Has (t.unit? s.arg.u) fun z => Has z.stop fun p =>
      p.kind = 2 ∧ p.sub = n ∧ p.pc = y.pc ∧ p.quads = y.quads := by
  refine ⟨s.takeTrap s.arg.u (misframe s x y n), ?_, stopUnit (misframe s x y n) x, ?_, _, rfl, rfl, rfl, rfl, rfl⟩
  · change execClauseFetch s = _
    simp [execClauseFetch, misframe, hx, hg, hk, hy, hend, hstop, hwait, hhdr, hcause]
  · rw [takeTrap_unit? hx (by simp [misframe]), if_pos rfl]

end

/-! ### Clause issue -/

/-- What was due still is. -/
def AgendaGrows (s t : State) : Prop := ∀ e ∈ s.agenda, e ∈ t.agenda

theorem agendaGrows_foldl {α : Type} {f : State → α → State} (h : ∀ s a, AgendaGrows s (f s a)) (s : State) (l : List α) :
    AgendaGrows s (l.foldl f s) :=
  List.foldlRecOn l f (fun _ he => he) fun t ht a _ e he => h t a e (ht e he)

/-- The cycles of a core begin when they did: the clocks of the dies and the origin are as they were. -/
theorem instantOf_congr {s t : State} (hd : t.dies = s.dies) (ho : t.originDie = s.originDie) (die core cyc : Nat) :
    instantOf t die core cyc = instantOf s die core cyc := by
  simp only [instantOf, State.die, coreDist, hd, ho]

/-- Requests that wake change engines and the agenda only. -/
theorem wakePasses_units (s : State) (u : UnitId) (wr : Nat) : (s.wakePasses u wr).units = s.units := by
  refine List.foldlRecOn (motive := fun t : State => t.units = s.units) _ _ rfl fun t ht r _ => ?_
  dsimp only
  split
  · exact ht
  · split <;> exact ht

theorem wakePasses_agenda (s : State) (u : UnitId) (wr : Nat) : AgendaGrows s (s.wakePasses u wr) := by
  refine agendaGrows_foldl (fun t r => ?_) _ _
  dsimp only
  split
  · exact fun _ he => mem_schedEv_of_mem he _ _ _
  · split <;> exact fun _ he => mem_schedEv_of_mem he _ _ _

/-- A clause that begins: the unit holds it, and its position 0 is due PAD cycles after the window's start (R27). -/
def Begins (s t : State) (u : UnitId) (y : SubGang) (h : Word64) (w0 : Nat) : Prop :=
  Has (t.unit? u) (fun z => z.clause = some { w0 := w0, pc := y.pc, hdr := h, quads := y.quads, xfer := .fall, reqs := 0 }) ∧
    ∃ a ∈ t.agenda, a.due = .slot u 0 ∧ a.at' = max s.now (instantOf s u.die u.core (w0 + hPad h))

/-- A window that passes its sub-gang over: no clause, and service goes on behind it. -/
def Passes (t : State) (u : UnitId) (y : SubGang) : Prop :=
  Has (t.unit? u) fun z => z.clause = none ∧ z.pi = lowQuad y.quads ∧ z.split = false

theorem periodRecord_id (s : State) (g : Group) (x : ExecUnit) (c : Nat) : (s.periodRecord g x c).id = x.id := by
  unfold State.periodRecord
  split
  · dsimp only
    split <;> rfl
  · rfl

theorem enter_id (x : ExecUnit) (pc c : Nat) : (x.enter pc c).id = x.id := by
  unfold ExecUnit.enter
  dsimp only
  split <;> rfl

theorem beginClause_begins {s : State} {x : ExecUnit} (hx : s.unit? x.id = some x) (g : Group) (y : SubGang) (h : Word64)
    (w0 : Nat) : Begins s (beginClause s g x y h w0) x.id y h w0 := by
  unfold beginClause
  extract_lets c0 entry x2 x3 s1 s2 s3
  have hid : x3.id = x.id := by
    change (if entry then _ else _ : ExecUnit).id = x.id
    split
    · exact (periodRecord_id ..).trans (enter_id x y.pc c0)
    · rfl
  have hs2 : s2.units = s1.units ∧ s2.now = s.now ∧ s2.dies = s.dies ∧ s2.originDie = s.originDie := by
    simp only [s2]
    split <;> exact ⟨rfl, rfl, rfl, rfl⟩
  have hs3 : s3.units = s1.units ∧ s3.now = s.now ∧ s3.dies = s.dies ∧ s3.originDie = s.originDie := by
    simp only [s3]
    split <;> exact hs2
  obtain ⟨hunits, hnow, hdies, horigin⟩ := hs3
  have hs1 : s1.unit? x.id = some x3 := by
    simp only [s1]
    rw [unit?_modUnit s x.id x.id (fun _ => x3) fun _ _ => hid, hx]
    simp
  refine ⟨⟨x3, ?_, rfl⟩, _, (mem_sched ..).mpr (.inl rfl), rfl, ?_⟩
  · change s3.units.find? _ = _
    rw [hunits]
    exact hs1
  · rw [hnow, instantOf_congr hdies horigin]

/-- The window of a unit that may issue and serves a fetched sub-gang: its clause begins when it is eligible, and else it is passed
over (R26, R120). -/
theorem window_of_served {s : State} {x : ExecUnit} {g : Group} {y : SubGang} {h : Word64} {w0 : Nat}
    (hx : s.unit? x.id = some x) (hg : s.group? x.gid = some g) (hclause : x.clause = none) (hres : x.resume = none)
    (hmay : mayIssue s g x w0 = true) (hy : served x = some y) (hh : y.hdr = some h)
    (hlead : x.id.lead = true → x.issued.isEmpty = true ∨ x.lastIssue + 48 ≤ w0) :
    (eligible s g x h (clauseWords s g.kid y.pc h) w0 = true → Begins s (window s x w0).2 x.id y h w0) ∧
      (¬eligible s g x h (clauseWords s g.kid y.pc h) w0 = true → Passes (window s x w0).2 x.id y) := by
  have hspace : (!x.id.lead || x.issued.isEmpty || x.lastIssue + 48 ≤ w0) = true := by
    cases hl : x.id.lead
    · rfl
    · simpa using hlead hl
  have hw : window s x w0 = if eligible s g x h (clauseWords s g.kid y.pc h) w0 then (true, beginClause s g x y h w0)
      else (false, (s.modUnit x.id fun x => { x with pi := lowQuad y.quads, split := false }).schedWindow x (w0 + 1)) := by
    simp only [window, hg, hclause, hres, hmay, hy, hh, hspace, Option.isSome_none, Option.isNone_none, Bool.false_and,
      Bool.not_true, Bool.true_and, Bool.false_eq_true, if_false]
  rw [hw]
  constructor <;> intro he
  · rw [if_pos he]
    exact beginClause_begins hx g y h w0
  · rw [if_neg he]
    refine ⟨{ x with pi := lowQuad y.quads, split := false }, ?_, hclause, rfl, rfl⟩
    have hu : (s.modUnit x.id fun x => { x with pi := lowQuad y.quads, split := false }).unit? x.id =
        some { x with pi := lowQuad y.quads, split := false } := by simp [unit?_modUnit, hx]
    unfold State.schedWindow
    dsimp only
    split <;> exact hu

theorem begins_of_grows {s t t' : State} {u : UnitId} {y : SubGang} {h : Word64} {w0 : Nat} (hb : Begins s t u y h w0)
    (hu : t'.units = t.units) (ha : AgendaGrows t t') : Begins s t' u y h w0 := by
  obtain ⟨⟨z, hz, hc⟩, a, ha', hdue⟩ := hb
  exact ⟨⟨z, by rw [State.unit?, hu]; exact hz, hc⟩, a, ha a ha', hdue⟩

theorem passes_of_units {t t' : State} {u : UnitId} {y : SubGang} (hp : Passes t u y) (hu : t'.units = t.units) :
    Passes t' u y := by
  obtain ⟨z, hz, h⟩ := hp
  exact ⟨z, by rw [State.unit?, hu]; exact hz, h⟩

section
variable {s : State} {x : ExecUnit} {g : Group} {y : SubGang} {h : Word64}

/-- A window event of a unit that may issue: `window` decides, for a warp as for a lead stream (R27, R136). -/
theorem clauseIssue_window (hx : s.unit? s.arg.u = some x) (hg : s.group? x.gid = some g) (hfroz : g.state ≠ .frozen)
    (hend : x.ended = false) (h16 : s.ucyc s.arg.u % 16 = 0) (hwin : x.wins.contains (s.ucyc s.arg.u / 16 % 4) = true) :
    (∃ t, exec .clauseIssue s = .next t ∧ t.units = (window s x (s.ucyc s.arg.u)).2.units ∧
      AgendaGrows (window s x (s.ucyc s.arg.u)).2 t) ∧
    exec .leadClauseIssue s = .next (window s x (s.ucyc s.arg.u)).2 := by
  have hfz : unitFrozen s x = false := by simp [unitFrozen, hg, hfroz]
  constructor
  · let w0 := s.ucyc s.arg.u
    let r := window s x w0
    refine ⟨(if r.1 || waitsOwn s x w0 then r.2.wakePasses s.arg.u w0 else r.2).modCore s.arg.u.die s.arg.u.core fun c =>
      c.credit (w0 / 16) r.1, ?_, ?_⟩
    · change execClauseIssue s = _
      simp only [execClauseIssue, hx, hend, h16, hwin, hfz, ne_eq, not_true_eq_false, decide_false, Bool.not_true,
        Bool.or_self, Bool.false_eq_true, if_false, w0, r]
    · split
      · exact ⟨wakePasses_units .., wakePasses_agenda _ _ _⟩
      · exact ⟨rfl, fun _ he => he⟩
  · change execLeadClauseIssue s = _
    simp only [execLeadClauseIssue, hx, hend, h16, hwin, hfz, ne_eq, not_true_eq_false, decide_false, Bool.not_true,
      Bool.or_self, Bool.false_eq_true, if_false]

/-- A clause issue at a window of the unit: the eligible sub-gang starts, another is passed over. -/
theorem clauseIssue_of_served (hx : s.unit? s.arg.u = some x) (hg : s.group? x.gid = some g) (hfroz : g.state ≠ .frozen)
    (hend : x.ended = false) (hclause : x.clause = none) (hres : x.resume = none) (h16 : s.ucyc s.arg.u % 16 = 0)
    (hwin : x.wins.contains (s.ucyc s.arg.u / 16 % 4) = true) (hmay : mayIssue s g x (s.ucyc s.arg.u) = true)
    (hy : served x = some y) (hh : y.hdr = some h) :
    let w0 := s.ucyc s.arg.u
    let ok : Prop := eligible s g x h (clauseWords s g.kid y.pc h) w0 = true
    (s.arg.u.lead = false → Does .clauseIssue s fun t =>
      (ok → Begins s t s.arg.u y h w0) ∧ (¬ok → Passes t s.arg.u y)) ∧
    (s.arg.u.lead = true → x.issued.isEmpty = true ∨ x.lastIssue + 48 ≤ w0 → Does .leadClauseIssue s fun t =>
      (ok → Begins s t s.arg.u y h w0) ∧ (¬ok → Passes t s.arg.u y)) := by
  intro w0 ok
  obtain ⟨⟨t, ht, hu, ha⟩, hleadExec⟩ := clauseIssue_window hx hg hfroz hend h16 hwin
  have hid : x.id = s.arg.u := id_of_unit? hx
  rw [← hid] at hx ⊢
  constructor <;> intro hl
  · obtain ⟨hbegin, hpass⟩ := window_of_served hx hg hclause hres hmay hy hh fun h => by simp [hl] at h
    exact ⟨t, ht, fun hok => begins_of_grows (hbegin hok) hu ha, fun hok => passes_of_units (hpass hok) hu⟩
  · intro hspace
    exact ⟨_, hleadExec, window_of_served hx hg hclause hres hmay hy hh fun _ => hspace⟩

end

end Sys2Proof.Proofs
end

section
/-! SUPPORT. Landing: the due writes of a unit in order, the last one to a place prevailing (O51, R54, R55). -/

namespace Sys2Proof.Proofs

open Sys2Proof Sys2Proof.Machine Sys2Proof.Laws

/-! ### One landing value -/

/-- What a landing value leaves: memory, and what waits to land. -/
theorem landValue_frame (s : State) (w : PendW) : (s.landValue w).pend = s.pend ∧ (s.landValue w).hbm = s.hbm ∧
    (s.landValue w).hostMem = s.hostMem ∧ (s.landValue w).scratch = s.scratch ∧ (s.landValue w).code = s.code := by
  unfold State.landValue
  split
  case h_4 => split <;> exact ⟨rfl, rfl, rfl, rfl, rfl⟩
  case h_5 => split <;> exact ⟨rfl, rfl, rfl, rfl, rfl⟩
  all_goals exact ⟨rfl, rfl, rfl, rfl, rfl⟩

/-- What a landing value does to the register files: a put into its own; P0 takes no write (R40). -/
theorem landValue_files (s : State) (w : PendW) :
    (s.landValue w).vreg = (if w.file = .v then s.vreg.put (vKey w.u w.reg w.lane) (w.val.setWidth 32) else s.vreg) ∧
    (s.landValue w).sreg = (if w.file = .s then s.sreg.put (sKey w.u w.reg) w.val else s.sreg) ∧
    (s.landValue w).greg = (if w.file = .g then s.greg.put (gKey w.u w.reg) w.val else s.greg) ∧
    (s.landValue w).preg = (if w.file = .p ∧ w.reg ≠ 0 then s.preg.put (pKey w.u w.reg w.lane) (w.val.toNat % 2) else s.preg) := by
  unfold State.landValue
  split
  case h_4 hf =>
    split
    · next h0 => simp [hf, h0]
    · next h0 => simp [hf, h0, State.healArr]
  case h_5 hf =>
    simp only [hf, reduceCtorEq, false_and, if_false]
    split <;> exact ⟨rfl, rfl, rfl, rfl⟩
  all_goals next hf => simp [hf, State.healArr]

/-! ### A place that due writes fill -/

/-- Landing fills a place: a write that hits it is read from then on, another leaves it. -/
def Fills {β : Type} (read : State → β) (hits : PendW → Prop) (val : PendW → β) : Prop :=
  ∀ s w, (hits w → read (s.landValue w) = val w) ∧ (¬hits w → read (s.landValue w) = read s)

theorem fills_v (u : UnitId) (r l : Nat) : Fills (fun s => s.v u r l)
    (fun w => w.file = .v ∧ vKey w.u w.reg w.lane = vKey u r l) (fun w => w.val.setWidth 32) := by
  intro s w
  simp only [State.v, (landValue_files s w).1]
  by_cases hf : w.file = .v <;> simp +contextual [hf, eq_comm]

theorem fills_sr (u : UnitId) (r : Nat) : Fills (fun s => s.sr u r)
    (fun w => w.file = .s ∧ sKey w.u w.reg = sKey u r) (fun w => w.val) := by
  intro s w
  simp only [State.sr, (landValue_files s w).2.1]
  by_cases hf : w.file = .s <;> simp +contextual [hf, eq_comm]

theorem fills_gr (u : UnitId) (r : Nat) : Fills (fun s => s.gr u r)
    (fun w => w.file = .g ∧ gKey w.u w.reg = gKey u r) (fun w => w.val) := by
  intro s w
  simp only [State.gr, (landValue_files s w).2.2.1]
  by_cases hf : w.file = .g <;> simp +contextual [hf, eq_comm]

theorem mod_two_bne_zero (x : Word64) : (x.toNat % 2 != 0) = x.getLsbD 0 := by
  rw [← BitVec.testBit_toNat, Nat.testBit_zero]
  rcases Nat.mod_two_eq_zero_or_one x.toNat with h | h <;> simp [h]

theorem fills_p (u : UnitId) {r : Nat} (hr : r ≠ 0) (l : Nat) : Fills (fun s => s.p u r l)
    (fun w => (w.file = .p ∧ w.reg ≠ 0) ∧ pKey w.u w.reg w.lane = pKey u r l) (fun w => w.val.getLsbD 0) := by
  intro s w
  have h0 : (r == 0) = false := by simpa using hr
  simp only [State.p, (landValue_files s w).2.2.2, h0, Bool.false_or]
  by_cases hf : w.file = .p ∧ w.reg ≠ 0
  · refine ⟨fun h => ?_, fun h => ?_⟩
    · rw [if_pos hf, tab_get_put, if_pos h.2.symm, mod_two_bne_zero]
    · rw [if_pos hf, tab_get_put, if_neg fun hk => h ⟨hf, hk.symm⟩]
  · simp [hf]

section
variable {β : Type} {read : State → β} {hits : PendW → Prop} {val : PendW → β}

theorem Fills.foldl_none (h : Fills read hits val) (s : State) {l : List PendW} (hl : ∀ a ∈ l, ¬hits a) :
    read (l.foldl State.landValue s) = read s :=
  List.foldlRecOn (motive := fun t => read t = read s) l _ rfl fun t ht a ha => ((h t a).2 (hl a ha)).trans ht

/-- Of the writes to a place the last one prevails (R55). -/
theorem Fills.foldl_last (h : Fills read hits val) (s : State) (a : List PendW) {w : PendW} (hw : hits w) {b : List PendW}
    (hb : ∀ x ∈ b, ¬hits x) : read ((a ++ w :: b).foldl State.landValue s) = val w := by
  rw [List.foldl_append, List.foldl_cons, h.foldl_none _ hb, (h _ _).1 hw]

end

/-! ### The event -/

theorem sKey_inj {u : UnitId} {a b : Nat} (h : sKey u a = sKey u b) : a = b := by
  unfold sKey at h
  omega

theorem gKey_inj {u : UnitId} {a b : Nat} (h : gKey u a = gKey u b) : a = b := by
  unfold gKey at h
  omega

/-- The writes of a unit that are due at a cycle. -/
def dueWrites (s : State) (u : UnitId) (c : Nat) : List PendW := s.pend.filter fun w => w.u = u && w.land ≤ c

theorem unit_of_mem_dueWrites {s : State} {u : UnitId} {c : Nat} {w : PendW} (h : w ∈ dueWrites s u c) : w.u = u := by
  simp only [dueWrites, List.mem_filter, Bool.and_eq_true, decide_eq_true_eq] at h
  exact h.2.1

theorem landDue_frame (s : State) (u : UnitId) (c : Nat) :
    (s.landDue u c).pend = s.pend.filter (fun w => !(w.u = u && w.land ≤ c)) ∧ SameMemory s (s.landDue u c) := by
  refine List.foldlRecOn (motive := fun t : State => t.pend = s.pend.filter (fun w => !(w.u = u && w.land ≤ c)) ∧ SameMemory s t)
    _ _ ⟨rfl, fun _ => ⟨rfl, rfl, rfl, rfl⟩⟩ fun t ht w _ => ?_
  obtain ⟨hp, hm⟩ := ht
  obtain ⟨h0, h1, h2, h3, h4⟩ := landValue_frame t w
  exact ⟨h0.trans hp, fun a => by rw [h1, h2, h3, h4]; exact hm a⟩

section
variable {s : State} {u : UnitId} {c : Nat} {a b : List PendW} {w : PendW}

theorem landDue_of_last {β : Type} {read : State → β} {hits : PendW → Prop} {val : PendW → β} (h : Fills read hits val)
    (hws : dueWrites s u c = a ++ w :: b) (hw : hits w) (hb : ∀ x ∈ b, x.u = u → ¬hits x) : read (s.landDue u c) = val w := by
  change read ((dueWrites s u c).foldl State.landValue _) = _
  have hmem : ∀ x ∈ b, x ∈ dueWrites s u c := fun x hx => by simp [hws, hx]
  rw [hws]
  exact h.foldl_last _ a hw fun x hx => hb x hx (unit_of_mem_dueWrites (hmem x hx))

theorem unit_of_split (hws : dueWrites s u c = a ++ w :: b) : w.u = u := 
  unit_of_mem_dueWrites (c := c) (hws ▸ List.mem_append_right a List.mem_cons_self)

/-- Due writes land in order, and the last one to a place prevails, in every register file. -/
theorem landDue_last (hws : dueWrites s u c = a ++ w :: b) :
    (w.file = .v → (∀ x ∈ b, x.file = .v → vKey u x.reg x.lane ≠ vKey u w.reg w.lane) →
      (s.landDue u c).v u w.reg w.lane = w.val.setWidth 32) ∧
    (w.file = .s → (∀ x ∈ b, x.file = .s → x.reg ≠ w.reg) → (s.landDue u c).sr u w.reg = w.val) ∧
    (w.file = .g → (∀ x ∈ b, x.file = .g → x.reg ≠ w.reg) → (s.landDue u c).gr u w.reg = w.val) ∧
    (w.file = .p → w.reg ≠ 0 → (∀ x ∈ b, x.file = .p → pKey u x.reg x.lane ≠ pKey u w.reg w.lane) →
      (s.landDue u c).p u w.reg w.lane = w.val.getLsbD 0) := by
  have hu : w.u = u := unit_of_split hws
  refine ⟨fun hf hb => ?_, fun hf hb => ?_, fun hf hb => ?_, fun hf h0 hb => ?_⟩
  · refine landDue_of_last (fills_v u w.reg w.lane) hws ⟨hf, by rw [hu]⟩ fun x hx hxu hhit => ?_
    exact hb x hx hhit.1 (by rw [← hhit.2, hxu])
  · refine landDue_of_last (fills_sr u w.reg) hws ⟨hf, by rw [hu]⟩ fun x hx hxu hhit => ?_
    exact hb x hx hhit.1 (sKey_inj (u := u) (by rw [← hhit.2, hxu]))
  · refine landDue_of_last (fills_gr u w.reg) hws ⟨hf, by rw [hu]⟩ fun x hx hxu hhit => ?_
    exact hb x hx hhit.1 (gKey_inj (u := u) (by rw [← hhit.2, hxu]))
  · refine landDue_of_last (fills_p u h0 w.lane) hws ⟨⟨hf, h0⟩, by rw [hu]⟩ fun x hx hxu hhit => ?_
    exact hb x hx hhit.1.1 (by rw [← hhit.2, hxu])

/-- A V register that no due write names keeps its value. -/
theorem landDue_v_other {v : UnitId} {r l : Nat}
    (hws : ∀ w ∈ dueWrites s u c, w.file = .v → vKey u w.reg w.lane ≠ vKey v r l) : (s.landDue u c).v v r l = s.v v r l :=
  (fills_v v r l).foldl_none _ fun w hw hhit => hws w hw hhit.1 (by rw [← hhit.2, unit_of_mem_dueWrites hw])

end

end Sys2Proof.Proofs
end

section
/-! SUPPORT. The end of an operation, team barriers and TRIG (O51, R160, R167, R169, R170). -/

namespace Sys2Proof.Proofs

open Sys2Proof Sys2Proof.Machine Sys2Proof.Laws

/-! ### What the end of an operation leaves -/

/-- A group but for the logs of its counters and barriers. -/
def groupCore (g : Group) : Group := { g with kLog := [], bLog := [] }

/-- The groups are those that were, but for the logs of their counters and barriers. -/
def GroupsAgree (s t : State) : Prop := ∀ n, (t.group? n).map groupCore = (s.group? n).map groupCore

/-- What landing and counting leave: teams, kernels, what was due, every operation and, but for its logs, every group. -/
structure EndFrame (s t : State) : Prop where
  teams : t.teams = s.teams
  kernels : t.kernels = s.kernels
  groups : GroupsAgree s t
  agenda : AgendaGrows s t
  ops : t.ops.map Op.id = s.ops.map Op.id

theorem EndFrame.refl (s : State) : EndFrame s s := ⟨rfl, rfl, fun _ => rfl, fun _ he => he, rfl⟩

theorem EndFrame.trans {s t r : State} (h : EndFrame s t) (k : EndFrame t r) : EndFrame s r :=
  ⟨k.teams.trans h.teams, k.kernels.trans h.kernels, fun n => (k.groups n).trans (h.groups n),
    fun e he => k.agenda e (h.agenda e he), k.ops.trans h.ops⟩

theorem endFrame_foldl {α : Type} {f : State → α → State} (h : ∀ s a, EndFrame s (f s a)) (s : State) (l : List α) :
    EndFrame s (l.foldl f s) :=
  List.foldlRecOn (motive := EndFrame s) l f (.refl s) fun _ ht a _ => ht.trans (h _ a)

theorem endFrame_land (s : State) (w : PendW) : EndFrame s (s.land w) :=
  ⟨rfl, rfl, fun _ => rfl, fun _ he => mem_schedEv_of_mem he _ _ _, rfl⟩

theorem endFrame_landField (s : State) (c : Cur) (r l : Nat) (w : Bool) (v : Word64) (cyc op : Nat) :
    EndFrame s (landField s c r l w v cyc op) := by
  unfold landField
  dsimp only
  split
  · split
    · exact (endFrame_land _ _).trans (endFrame_land _ _)
    · exact endFrame_land _ _
  · split
    · split <;> exact endFrame_land _ _
    · split
      · exact endFrame_land _ _
      · exact .refl s

theorem endFrame_landBytes (s : State) (c : Cur) (d l n v cyc op : Nat) : EndFrame s (landBytes s c d l n v cyc op) := by
  unfold landBytes
  split
  · exact endFrame_landField ..
  · refine endFrame_foldl (fun s j => ?_) _ _
    split
    · exact endFrame_landField ..
    · exact .refl s

theorem endFrame_landOp (s : State) (o : Op) (u : UnitId) (iss cyc : Nat) : EndFrame s (s.landOp o u iss cyc) := by
  unfold State.landOp
  split
  · exact .refl s
  · exact .trans (endFrame_foldl (fun _ _ => endFrame_foldl (fun _ _ => endFrame_landBytes ..) _ _) _ _)
      (endFrame_foldl (fun _ _ => endFrame_landBytes ..) _ _)

/-- A change of a group's logs. -/
theorem endFrame_modGroup (s : State) (n : Nat) (f : Group → Group) (hf : ∀ g, groupCore (f g) = groupCore g) :
    EndFrame s (s.modGroup n f) := by
  have hgid (g : Group) : (f g).gid = g.gid := by simpa only [groupCore] using congrArg Group.gid (hf g)
  refine ⟨rfl, rfl, fun m => ?_, fun _ he => he, rfl⟩
  rw [group?_modGroup s n m f fun g hg => (hgid g).trans hg, Option.map_map]
  refine congrFun (congrArg Option.map (funext fun g => ?_)) _
  simp only [Function.comp]
  split
  · exact hf g
  · rfl

theorem endFrame_kAdd (s : State) (u : UnitId) (k : Nat) (d : Int) (cyc : Nat) : EndFrame s (s.kAdd u k d cyc) := by
  unfold State.kAdd
  split
  · exact .refl s
  · exact endFrame_modGroup _ _ _ fun _ => rfl

theorem endFrame_bEvent (s : State) (u : UnitId) (bar : Option Nat) (e : BEv) (cyc : Nat) :
    EndFrame s (s.bEvent u bar e cyc) := by
  unfold State.bEvent
  split
  · exact endFrame_modGroup _ _ _ fun _ => rfl
  · exact .refl s

theorem endFrame_modOp (s : State) (n : Nat) (f : Op → Op) (hf : ∀ o, (f o).id = o.id) : EndFrame s (s.modOp n f) := by
  refine ⟨rfl, rfl, fun _ => rfl, fun _ he => he, ?_⟩
  simp only [State.modOp, List.map_map]
  refine List.map_congr_left fun o _ => ?_
  simp only [Function.comp]
  split
  · exact hf o
  · rfl

theorem endFrame_opUncount (s : State) (o : Op) (cyc : Nat) : EndFrame s (s.opUncount o cyc) := by
  unfold State.opUncount
  split
  · exact .refl s
  · have h : EndFrame s (s.modOp o.id fun o => { o with kdone := true }) := endFrame_modOp _ _ _ fun _ => rfl
    dsimp only
    split
    · exact h.trans (endFrame_kAdd ..)
    · exact h

theorem endFrame_endBinds (s : State) (o : Op) (cyc : Nat) : EndFrame s (s.endBinds o cyc) := by
  refine endFrame_foldl (fun s b => ?_) _ _
  dsimp only
  split
  · exact (endFrame_landOp ..).trans (endFrame_kAdd ..)
  · exact endFrame_landOp ..

theorem op?_isSome_congr {s t : State} (h : t.ops.map Op.id = s.ops.map Op.id) (n : Nat) :
    (t.op? n).isSome = (s.op? n).isSome := by
  have key (l : List Op) : (l.find? fun o => o.id = n).isSome = (l.map Op.id).contains n := by
    induction l with
    | nil => rfl
    | cons o l ih =>
      simp only [List.find?_cons, List.map_cons, List.contains_cons]
      by_cases ho : o.id = n
      · simp [ho]
      · simp [ho, ih, Ne.symm ho]
  simp only [State.op?, key, h]

/-- A live operation that completes is done; teams, kernels and groups but for their logs are as they were. -/
theorem completeAt_of_live {s : State} {n : Nat} {o : Op} (ho : s.op? n = some o) (hl : o.live = true) (cyc : Nat) :
    EndFrame s (s.completeAt n cyc) ∧ Has ((s.completeAt n cyc).op? n) fun z => z.stage = .done := by
  unfold State.completeAt
  simp only [ho, hl, Bool.not_true, Bool.false_eq_true, if_false]
  generalize hs1 : (if o.kdone = true then s else s.landOp o o.u o.issue cyc) = s1
  have h1 : EndFrame s s1 := by
    rw [← hs1]
    split
    · exact .refl s
    · exact endFrame_landOp ..
  have h2 : EndFrame s ((s1.opUncount o cyc).endBinds o cyc) :=
    (h1.trans (endFrame_opUncount ..)).trans (endFrame_endBinds ..)
  refine ⟨h2.trans (endFrame_modOp _ _ _ fun _ => rfl), ?_⟩
  have hsome := op?_isSome_congr h2.ops n
  rw [ho, Option.isSome_some, Option.isSome_iff_exists] at hsome
  obtain ⟨z, hz⟩ := hsome
  rw [op?_modOp _ n n (fun o => { o with stage := .done, binds := [], doneAt := cyc }) fun _ h => h, hz]
  exact ⟨_, rfl, by simp⟩

/-! ### The members of a team -/

theorem groupsAgree_some {s t : State} (h : GroupsAgree s t) {n : Nat} {g : Group} (hg : s.group? n = some g) :
    ∃ k, t.group? n = some k ∧ groupCore k = groupCore g := by
  have hn := h n
  rw [hg] at hn
  exact Option.map_eq_some_iff.mp hn

theorem tmbrOf_congr {s t : State} (h : GroupsAgree s t) (n : Nat) : t.tmbrOf n = s.tmbrOf n := by
  have key (r : State) : r.tmbrOf n = (((r.group? n).map groupCore).map Group.tmbr).getD 0 := by
    unfold State.tmbrOf
    split <;> simp [*, groupCore]
  rw [key, key, h n]

/-- Is the group there, and not retired? -/
def isAlive : Option Group → Bool
  | some g => g.state != .retired
  | none => false

theorem isAlive_core (g : Option Group) : isAlive (g.map groupCore) = isAlive g := by cases g <;> rfl

theorem aliveMembers_eq (s : State) (m : Team) : s.aliveMembers m = m.members.filter fun n => isAlive (s.group? n) :=
  List.filter_congr fun n _ => by cases s.group? n <;> rfl

theorem aliveMembers_congr {s t : State} (h : GroupsAgree s t) {m m' : Team} (hm : m'.members = m.members) :
    t.aliveMembers m' = s.aliveMembers m := by
  simp only [aliveMembers_eq, hm, ← isAlive_core (t.group? _), h _, isAlive_core]

/-! ### Team barriers -/

theorem team?_modTeamBar {s : State} {tid j : Nat} {f : TeamBar → TeamBar} {m : Team} (hm : s.team? tid = some m)
    (hj : j < m.tb.length) : ∃ n, (s.modTeamBar tid j f).team? tid = some n ∧ n.bar j = f (m.bar j) ∧
      n.members = m.members ∧ n.tid = m.tid ∧ n.tb.length = m.tb.length := by
  refine ⟨{ m with tb := m.tb.mapIdx fun i b => if i = j then f b else b }, ?_, ?_, rfl, rfl, by simp⟩
  · unfold State.modTeamBar
    rw [team?_modTeam _ _ _ (fun t => { t with tb := t.tb.mapIdx fun i b => if i = j then f b else b }) fun _ h => h, hm]
    simp
  · simp [Team.bar, List.getD_eq_getElem?_getD, hj]

/-- The last member has arrived: no remaining member's bit is missing (R167). -/
def AllArrived (s : State) (m : Team) (j : Nat) : Prop :=
  s.aliveMembers m ≠ [] ∧ ∀ n ∈ s.aliveMembers m, s.tmbrOf n ∈ (m.bar j).bits

theorem testTeamBar_of_team {s : State} {tid j : Nat} {m : Team} (hm : s.team? tid = some m) (herr : (m.bar j).err = 0) :
    (¬AllArrived s m j → s.testTeamBar tid j = s) ∧
    (AllArrived s m j → s.testTeamBar tid j =
      (s.modTeamBar tid j fun b => { b with bits := [], phases := (b.phases + 1) % 65536 }).notifyTeam m j 0) := by
  have hcond : ((m.bar j).err = 0 ∧ (!((s.aliveMembers m).map s.tmbrOf).isEmpty) = true ∧
      (((s.aliveMembers m).map s.tmbrOf).all fun n => (m.bar j).bits.contains n) = true) ↔ AllArrived s m j := by
    simp [herr, AllArrived]
  unfold State.testTeamBar
  simp only [hm]
  exact ⟨fun h => if_neg (mt hcond.mp h), fun h => if_pos (hcond.mpr h)⟩

theorem notifyTeam_teams (s : State) (m : Team) (j code : Nat) : (s.notifyTeam m j code).teams = s.teams := by
  unfold State.notifyTeam
  split <;> rfl

theorem notifyTeam_due {s : State} {m : Team} (j code : Nat) (h : ∃ n ∈ m.members, ∃ g, s.group? n = some g) :
    Due' (s.notifyTeam m j code) (ev .teamBarrierNotify [m.tid, j, code]) := by
  obtain ⟨n, hn, g, hg⟩ := h
  unfold State.notifyTeam
  split
  · obtain ⟨e, he, hdue, -⟩ := exists_mem_schedEv s _ 20 (ev .teamBarrierNotify [m.tid, j, code])
    exact ⟨e, he, hdue⟩
  · next hnone => simp [List.findSome?_eq_none_iff.mp hnone n hn] at hg

/-! ### TEAM_BARRIER_APPLY -/

/-- A member's arrival at a team barrier: its bit is set once, and not in the error phase (R167). -/
def arriveTeam (k : Nat) (b : TeamBar) : TeamBar := if b.err ≠ 0 ∨ b.bits.contains k then b else { b with bits := k :: b.bits }

theorem arriveTeam_of_clear {k : Nat} {b : TeamBar} (h : b.err = 0) :
    (arriveTeam k b).phases = b.phases ∧ (arriveTeam k b).err = 0 ∧
      ∀ n, n ∈ (arriveTeam k b).bits ↔ n = k ∨ n ∈ b.bits := by
  unfold arriveTeam
  split
  · next hc =>
    refine ⟨rfl, h, fun n => ⟨.inr, ?_⟩⟩
    rintro (rfl | hn)
    · simpa [h] using hc
    · exact hn
  · exact ⟨rfl, h, fun n => List.mem_cons⟩

/-- What a TBAR of a TEAM barrier does before it completes: it arrives, and the wait targets of its unit and of those bound are set. -/
def tbarArrive (s : State) (o : Op) (g : Group) (bar j : Nat) : State :=
  o.binds.foldl (fun t b => t.bEvent b.u (some bar) (.tbarTarget j) (s.ucyc o.u))
    ((s.modTeamBar g.tid j (arriveTeam g.tmbr)).bEvent o.u (some bar) (.tbarTarget j) (s.ucyc o.u))

/-- It changes the team barrier, and the groups' logs. -/
theorem endFrame_tbarArrive (s : State) (o : Op) (g : Group) (bar j : Nat) :
    EndFrame (s.modTeamBar g.tid j (arriveTeam g.tmbr)) (tbarArrive s o g bar j) :=
  (endFrame_bEvent ..).trans (endFrame_foldl (fun _ _ => endFrame_bEvent ..) _ _)

theorem bEvent_ops (s : State) (u : UnitId) (bar : Option Nat) (e : BEv) (cyc : Nat) : (s.bEvent u bar e cyc).ops = s.ops := by
  unfold State.bEvent
  split <;> rfl

theorem tbarArrive_ops (s : State) (o : Op) (g : Group) (bar j : Nat) : (tbarArrive s o g bar j).ops = s.ops :=
  List.foldlRecOn (motive := fun t : State => t.ops = s.ops) _ _ (bEvent_ops ..) fun t ht _ _ => (bEvent_ops t ..).trans ht

theorem testTeamBar_ops (s : State) (tid j : Nat) : (s.testTeamBar tid j).ops = s.ops := by
  unfold State.testTeamBar
  split
  · rfl
  · dsimp only
    split
    · unfold State.notifyTeam
      split <;> rfl
    · rfl

section
variable {s : State} {o : Op} {g : Group} {b : Nat}

theorem exec_teamBarrierApply (ho : s.op? (s.num 0) = some o) (hl : o.live = true) (hg : s.group? o.gid = some g)
    (hb : o.bar = some b) :
    let v := bBefore g b (o.issue + 4) o.u.rank
    exec .teamBarrierApply s = .next (if v.mode ≠ 2 then s.completeAt o.id (s.ucyc o.u)
      else ((tbarArrive s o g b v.tidx).testTeamBar g.tid v.tidx).completeAt o.id (s.ucyc o.u)) := by
  change execTeamBarrierApply s = _
  simp only [execTeamBarrierApply, ho, hl, hg, hb, Bool.not_true, Bool.false_eq_true, if_false]
  split <;> rfl

/-- The team barrier that a TBAR has reached: the member's bit is set, or, when it was the last, the phase has completed and every
member is to be told (R167, R169). -/
theorem testTeamBar_tbarArrive {j : Nat} {m : Team} (hm : s.team? g.tid = some m) (herr : (m.bar j).err = 0)
    (hj : j < m.tb.length) (bar : Nat) :
    let t := (tbarArrive s o g bar j).testTeamBar g.tid j
    let last : Prop := s.aliveMembers m ≠ [] ∧ ∀ n ∈ s.aliveMembers m, s.tmbrOf n = g.tmbr ∨ s.tmbrOf n ∈ (m.bar j).bits
    Has (t.team? g.tid) fun n =>
      (¬last → (n.bar j).phases = (m.bar j).phases ∧ ∀ k, k ∈ (n.bar j).bits ↔ k = g.tmbr ∨ k ∈ (m.bar j).bits) ∧
      (last → (n.bar j).phases = ((m.bar j).phases + 1) % 65536 ∧ (n.bar j).bits = [] ∧
        ((∃ x ∈ m.members, ∃ h, s.group? x = some h) → Due' t (ev .teamBarrierNotify [m.tid, j, 0]))) := by
  intro t last
  obtain ⟨n, hn, hnbar, hmem, htid, hlen⟩ := team?_modTeamBar (f := arriveTeam g.tmbr) hm hj
  have hframe := endFrame_tbarArrive s o g bar j
  have hgroups : GroupsAgree s (tbarArrive s o g bar j) := hframe.groups
  obtain ⟨hphases, herr', hbits⟩ := arriveTeam_of_clear (k := g.tmbr) herr
  have hn' : (tbarArrive s o g bar j).team? g.tid = some n := by rw [State.team?, hframe.teams]; exact hn
  have hlast : AllArrived (tbarArrive s o g bar j) n j ↔ last := by
    simp only [AllArrived, aliveMembers_congr hgroups hmem, tmbrOf_congr hgroups, hnbar, hbits, last]
  obtain ⟨hno, hyes⟩ := testTeamBar_of_team hn' (by rw [hnbar]; exact herr')
  rw [hlast] at hno hyes
  by_cases h : last
  · obtain ⟨p, hp, hpbar, -⟩ := team?_modTeamBar hn' (hlen ▸ hj)
      (f := fun b => { b with bits := [], phases := (b.phases + 1) % 65536 })
    have ht : t = _ := hyes h
    refine ⟨p, ?_, fun hn => absurd h hn, fun _ => ⟨?_, ?_, fun ⟨x, hx, k, hk⟩ => ?_⟩⟩
    · rw [ht, State.team?, notifyTeam_teams]
      exact hp
    · rw [hpbar, hnbar, hphases]
    · rw [hpbar]
    · obtain ⟨k', hk', -⟩ := groupsAgree_some hgroups hk
      rw [ht, ← htid]
      exact notifyTeam_due j 0 ⟨x, hmem ▸ hx, k', hk'⟩
  · refine ⟨n, ?_, fun _ => ?_, fun hy => absurd hy h⟩
    · rw [show t = _ from hno h]
      exact hn'
    · rw [hnbar]
      exact ⟨hphases, hbits⟩

/-- A TBAR reaches its team barrier, and is done (R169). -/
theorem teamBarrierApply_of_live (ho : s.op? (s.num 0) = some o) (hl : o.live = true) (hg : s.group? o.gid = some g)
    (hb : o.bar = some b) :
    Does .teamBarrierApply s fun t => Has (t.op? o.id) (fun z => z.stage = .done) ∧
      let v := bBefore g b (o.issue + 4) o.u.rank
      (v.mode = 2 → ∀ m, s.team? g.tid = some m → (m.bar v.tidx).err = 0 → v.tidx < m.tb.length →
        let b := m.bar v.tidx
        let last : Prop := s.aliveMembers m ≠ [] ∧ ∀ n ∈ s.aliveMembers m, s.tmbrOf n = g.tmbr ∨ s.tmbrOf n ∈ b.bits
        Has (t.team? g.tid) fun n =>
          (¬last → (n.bar v.tidx).phases = b.phases ∧ ∀ k, k ∈ (n.bar v.tidx).bits ↔ k = g.tmbr ∨ k ∈ b.bits) ∧
          (last → (n.bar v.tidx).phases = (b.phases + 1) % 65536 ∧ (n.bar v.tidx).bits = [] ∧
            ((∃ x ∈ m.members, ∃ h, s.group? x = some h) → Due' t (ev .teamBarrierNotify [m.tid, v.tidx, 0])))) := by
  have hid : o.id = s.num 0 := id_of_op? ho
  have hexec := exec_teamBarrierApply ho hl hg hb
  dsimp only at hexec ⊢
  generalize bBefore g b (o.issue + 4) o.u.rank = v at hexec ⊢
  by_cases hmode : v.mode = 2
  · rw [if_neg (not_not.mpr hmode)] at hexec
    have hop : ((tbarArrive s o g b v.tidx).testTeamBar g.tid v.tidx).op? o.id = some o := by
      rw [State.op?, testTeamBar_ops, tbarArrive_ops, hid]
      exact ho
    obtain ⟨hend, hdone⟩ := completeAt_of_live hop hl (s.ucyc o.u)
    refine ⟨_, hexec, hdone, fun _ m hm herr hj => ?_⟩
    obtain ⟨n, hn, hmore, hlast⟩ := testTeamBar_tbarArrive (o := o) hm herr hj b
    refine ⟨n, by rw [State.team?, hend.teams]; exact hn, hmore, fun h => ?_⟩
    obtain ⟨hphases, hbits, hdue⟩ := hlast h
    refine ⟨hphases, hbits, fun hx => ?_⟩
    obtain ⟨e, he, hd⟩ := hdue hx
    exact ⟨e, hend.agenda e he, hd⟩
  · rw [if_pos hmode] at hexec
    exact ⟨_, hexec, (completeAt_of_live (hid ▸ ho) hl _).2, fun h => absurd h hmode⟩

end

/-! ### TEAM_BARRIER_NOTIFY -/

/-- Every group keeps its core and what its barriers have taken, and every core its cycle. -/
structure LogsGrow (s t : State) : Prop where
  cyc : ∀ d c, t.cyc d c = s.cyc d c
  groups : ∀ n g, s.group? n = some g →
    ∃ h, t.group? n = some h ∧ h.die = g.die ∧ h.core = g.core ∧ ∀ c ∈ g.bLog, c ∈ h.bLog

theorem LogsGrow.refl (s : State) : LogsGrow s s := ⟨fun _ _ => rfl, fun _ g hg => ⟨g, hg, rfl, rfl, fun _ hc => hc⟩⟩

theorem LogsGrow.trans {s t r : State} (h : LogsGrow s t) (k : LogsGrow t r) : LogsGrow s r := by
  refine ⟨fun d c => (k.cyc d c).trans (h.cyc d c), fun n g hg => ?_⟩
  obtain ⟨g1, hg1, hd1, hc1, hb1⟩ := h.groups n g hg
  obtain ⟨g2, hg2, hd2, hc2, hb2⟩ := k.groups n g1 hg1
  exact ⟨g2, hg2, hd2.trans hd1, hc2.trans hc1, fun c hc => hb2 c (hb1 c hc)⟩

theorem mem_insertB (c x : BChange) (l : List BChange) : x ∈ insertB c l ↔ x = c ∨ x ∈ l := by
  induction l with
  | nil => simp [insertB]
  | cons y l ih =>
    simp only [insertB]
    split
    · simp
    · simp only [List.mem_cons, ih]
      tauto

theorem bChange_group? (s : State) (n m : Nat) (c : BChange) :
    (s.bChange n c).group? m = (s.group? m).map fun g => if m = n then { g with bLog := insertB c g.bLog } else g :=
  group?_modGroup s n m (fun g => { g with bLog := insertB c g.bLog }) fun _ h => h

theorem logsGrow_bChange (s : State) (n : Nat) (c : BChange) : LogsGrow s (s.bChange n c) := by
  refine ⟨fun _ _ => rfl, fun m g hg => ⟨_, by rw [bChange_group?, hg]; rfl, ?_⟩⟩
  split
  · exact ⟨rfl, rfl, fun x hx => (mem_insertB _ _ _).mpr (.inr hx)⟩
  · exact ⟨rfl, rfl, fun _ hx => hx⟩

theorem logsGrow_foldl {α : Type} {f : State → α → State} (h : ∀ s a, LogsGrow s (f s a)) (s : State) (l : List α) :
    LogsGrow s (l.foldl f s) :=
  List.foldlRecOn (motive := LogsGrow s) l f (.refl s) fun _ ht a _ => ht.trans (h _ a)

/-- Barrier `b` of the group has taken change `e` at cycle `c`. -/
def Took (g : Group) (b : Nat) (e : BEv) (cyc : Nat) : Prop := ∃ c ∈ g.bLog, c.bar = b ∧ c.ev = e ∧ c.cyc = cyc

/-- What a notification does at one member: each of its 16 barriers takes the change (R169). -/
def notifyMember (e : BEv) (s : State) (m : Nat) : State :=
  match s.group? m with
  | some g =>
    (List.range 16).foldl (fun t b => t.bChange m
      { cyc := s.cyc g.die g.core, rank := 8, bar := b, ev := e, u := leadId g, issue := s.cyc g.die g.core, instr := false }) s
  | none => s

theorem logsGrow_notifyMember (e : BEv) (s : State) (m : Nat) : LogsGrow s (notifyMember e s m) := by
  unfold notifyMember
  split
  · exact logsGrow_foldl (fun _ _ => logsGrow_bChange ..) _ _
  · exact .refl s

/-- Of a fold whose steps keep what the logs hold, the step of one element shows at the end. -/
theorem logsGrow_foldl_of_mem {α : Type} {f : State → α → State} (h : ∀ s a, LogsGrow s (f s a)) {a : α} {l : List α}
    (ha : a ∈ l) (s : State) : ∃ t, LogsGrow s t ∧ LogsGrow (f t a) (l.foldl f s) := by
  obtain ⟨l1, l2, rfl⟩ := List.append_of_mem ha
  refine ⟨l1.foldl f s, logsGrow_foldl h _ _, ?_⟩
  rw [List.foldl_append, List.foldl_cons]
  exact logsGrow_foldl h _ _

theorem notifyMember_took {s : State} {m : Nat} {g : Group} (hg : s.group? m = some g) (e : BEv) {b : Nat} (hb : b < 16) :
    Has ((notifyMember e s m).group? m) fun h => Took h b e (s.cyc g.die g.core) := by
  unfold notifyMember
  simp only [hg]
  obtain ⟨t, hst, hgrow⟩ := logsGrow_foldl_of_mem (f := fun t b => t.bChange m
    { cyc := s.cyc g.die g.core, rank := 8, bar := b, ev := e, u := leadId g, issue := s.cyc g.die g.core, instr := false })
    (fun _ _ => logsGrow_bChange ..) (List.mem_range.mpr hb) s
  obtain ⟨g1, hg1, -⟩ := hst.groups m g hg
  obtain ⟨g2, hg2, -, -, hlog⟩ := hgrow.groups m _ (by rw [bChange_group?, hg1, Option.map_some, if_pos rfl])
  exact ⟨g2, hg2, _, hlog _ ((mem_insertB _ _ _).mpr (.inl rfl)), rfl, rfl, rfl⟩

/-- A notification reaches the 16 barriers of every member at its core's cycle (R169). -/
theorem teamBarrierNotify_of_team {s : State} {m : Team} (hm : s.team? (s.num 0) = some m) :
    Does .teamBarrierNotify s fun t => ∀ n ∈ m.members ++ m.twins, ∀ g, s.group? n = some g → ∀ b, b < 16 →
      Has (t.group? n) fun h =>
        Took h b (if s.num 2 = 0 then .teamDone (s.num 1) else .teamErr (s.num 1) (s.num 2)) (s.cyc g.die g.core) := by
  let e : BEv := if s.num 2 = 0 then .teamDone (s.num 1) else .teamErr (s.num 1) (s.num 2)
  refine ⟨(m.members ++ m.twins).foldl (notifyMember e) s, ?_, fun n hn g hg b hb => ?_⟩
  · change execTeamBarrierNotify s = _
    unfold execTeamBarrierNotify
    rw [hm]
    rfl
  · obtain ⟨t, hst, hgrow⟩ := logsGrow_foldl_of_mem (logsGrow_notifyMember e) hn s
    obtain ⟨g1, hg1, hd, hc, -⟩ := hst.groups n g hg
    obtain ⟨g2, hg2, x, hx, htook⟩ := notifyMember_took hg1 e hb
    obtain ⟨g3, hg3, -, -, hlog⟩ := hgrow.groups n g2 hg2
    refine ⟨g3, hg3, x, hlog x hx, ?_⟩
    rwa [hd, hc, hst.cyc] at htook

/-! ### TRIG_SIGNAL -/

/-- The first TRIG of a group signals the dispatcher (R160). -/
def signalTrig (g : Group) (k : Kernel) : Kernel :=
  { k with trig := if k.trig.contains (g.tid * 256 + g.tmbr) then k.trig else (g.tid * 256 + g.tmbr) :: k.trig }

theorem mem_signalTrig (g : Group) (k : Kernel) : g.tid * 256 + g.tmbr ∈ (signalTrig g k).trig := by
  simp only [signalTrig]
  split
  · next hc => simpa using hc
  · simp

/-- A TRIG behind no write of its group is done; the first of its group signals (R160). -/
theorem trigSignal_of_idle {s : State} {o : Op} {g : Group} (ho : s.op? (s.num 0) = some o) (hl : o.live = true)
    (hg : s.group? o.gid = some g)
    (hidle : (s.ops.any fun e => e.gid = o.gid && e.kind.isWrite && e.live && e.issue ≤ o.issue) = false) :
    Does .trigSignal s fun t => Has (t.op? o.id) (fun z => z.stage = .done) ∧ Has (t.group? g.gid) (fun h => h.trig = 2) ∧
      (g.trig ≠ 2 → ∀ k, s.kernel? g.kid = some k → Has (t.kernel? g.kid) fun k => (g.tid * 256 + g.tmbr) ∈ k.trig) := by
  obtain ⟨hend, hdone⟩ := completeAt_of_live (id_of_op? ho ▸ ho) hl (s.ucyc o.u)
  have hgid : g.gid = o.gid := gid_of_group? hg
  obtain ⟨h, hh, hcore⟩ := groupsAgree_some hend.groups (hgid ▸ hg)
  by_cases ht : g.trig = 2
  · refine ⟨s.completeAt o.id (s.ucyc o.u), ?_, hdone, ⟨h, hh, ?_⟩, fun h => absurd ht h⟩
    · change execTrigSignal s = _
      simp only [execTrigSignal, ho, hl, hidle, hg, ht, Bool.not_true, Bool.false_eq_true, if_false, if_true]
    · have := congrArg Group.trig hcore
      simpa only [groupCore, ht] using this
  · refine ⟨((s.completeAt o.id (s.ucyc o.u)).modGroup g.gid fun g => { g with trig := 2 }).modKernel g.kid (signalTrig g),
      ?_, hdone, ⟨{ h with trig := 2 }, ?_, rfl⟩, fun _ k hk => ⟨signalTrig g k, ?_, ?_⟩⟩
    · change execTrigSignal s = _
      simp only [execTrigSignal, ho, hl, hidle, hg, ht, Bool.not_true, Bool.false_eq_true, if_false]
      rfl
    · change ((s.completeAt o.id (s.ucyc o.u)).modGroup g.gid fun g => { g with trig := 2 }).group? g.gid = _
      rw [group?_modGroup _ _ _ (fun g => { g with trig := 2 }) fun _ h => h, hh]
      simp
    · rw [kernel?_modKernel _ _ _ (signalTrig g) fun _ h => h]
      change ((s.completeAt o.id (s.ucyc o.u)).kernel? g.kid).map _ = _
      rw [State.kernel?, hend.kernels]
      rw [State.kernel?] at hk
      simp [hk]
    · exact mem_signalTrig g k

end Sys2Proof.Proofs
end

section
/-! SUPPORT. Killed teams: what a kill leaves of the kernels, relaunch and abort (O51, R153, R342). -/

namespace Sys2Proof.Proofs

open Sys2Proof Sys2Proof.Machine Sys2Proof.Laws

/-! ### What a kill leaves of the kernels -/

/-- A fold of operations each of which leaves a part of the state leaves that part. -/
theorem foldl_keeps {α β : Type} (read : State → β) {f : State → α → State} (h : ∀ s a, read (f s a) = read s) (s : State)
    (l : List α) : read (l.foldl f s) = read s :=
  List.foldlRecOn (motive := fun t => read t = read s) l f rfl fun t ht a _ => (h t a).trans ht

/-- Nothing changes but register files, marks and what waits to land. -/
def OnlyRegs (s t : State) : Prop :=
  t = { s with vreg := t.vreg, sreg := t.sreg, preg := t.preg, greg := t.greg, poison := t.poison, pend := t.pend }

theorem onlyRegs_trans {s t r : State} (h : OnlyRegs s t) (k : OnlyRegs t r) : OnlyRegs s r := by
  unfold OnlyRegs at *
  rw [k, h]

theorem onlyRegs_clearRegs (s : State) (u : UnitId) : OnlyRegs s (s.clearRegs u) := by
  unfold OnlyRegs State.clearRegs
  cases u.lead <;> rfl

/-- The registers of several units are cleared. -/
theorem onlyRegs_clearAll (s : State) (us : List UnitId) : OnlyRegs s (us.foldl State.clearRegs s) :=
  List.foldlRecOn (motive := OnlyRegs s) us _ rfl fun t ht u _ => onlyRegs_trans ht (onlyRegs_clearRegs t u)

theorem kAdd_kernels (s : State) (u : UnitId) (k : Nat) (d : Int) (cyc : Nat) : (s.kAdd u k d cyc).kernels = s.kernels :=
  (endFrame_kAdd s u k d cyc).kernels

theorem opUncount_kernels (s : State) (o : Op) (cyc : Nat) : (s.opUncount o cyc).kernels = s.kernels :=
  (endFrame_opUncount s o cyc).kernels

theorem cancelOp_kernels (s : State) (o : Op) (cyc : Nat) : (s.cancelOp o cyc).kernels = s.kernels := by
  refine (foldl_keeps State.kernels (fun s b => ?_) _ _).trans (opUncount_kernels s o cyc)
  split
  · exact kAdd_kernels ..
  · rfl

theorem discardHeld_kernels (s : State) (cyc : Nat) (p : Op → Bool) : (s.discardHeld cyc p).kernels = s.kernels := by
  refine foldl_keeps State.kernels (fun s o => ?_) _ _
  dsimp only
  split <;> exact cancelOp_kernels s o cyc

theorem passFlags_kernels (s : State) (r : PassRow) (cyc : Nat) : (s.passFlags r cyc).kernels = s.kernels := by
  unfold State.passFlags
  split
  · rfl
  · split <;> rfl

theorem abortPasses_kernels (s : State) (die q cyc : Nat) (p : PassRow → Bool) :
    (s.abortPasses die q cyc p).kernels = s.kernels := by
  unfold State.abortPasses
  extract_lets e gone s1 s2 keys
  have h1 : s1.kernels = s.kernels := by
    refine foldl_keeps State.kernels (fun t r => ?_) _ _
    exact (kAdd_kernels ..).trans (passFlags_kernels t r cyc)
  have h2 : s2.kernels = s1.kernels := by
    refine foldl_keeps State.kernels (fun t r => ?_) _ _
    rfl
  split <;> exact h2.trans h1

theorem discardGroup_kernels (s : State) (gid : Nat) : (s.discardGroup gid).kernels = s.kernels := by
  unfold State.discardGroup
  split
  · rfl
  · split
    · rfl
    · extract_lets cyc us s1 s2 s3 s4 s5
      have h2 : s2.kernels = s.kernels := (discardHeld_kernels ..).trans (abortPasses_kernels ..)
      have h3 : s3.kernels = s2.kernels := by
        refine foldl_keeps State.kernels (fun s o => ?_) _ _
        split
        · exact cancelOp_kernels ..
        · split
          · rfl
          · exact opUncount_kernels ..
      have h4 : s4.kernels = s3.kernels := by
        refine foldl_keeps State.kernels (fun s x => ?_) _ _
        split <;> rfl
      have h5 : s5.kernels = s4.kernels := by
        refine foldl_keeps State.kernels (fun s x => ?_) _ _
        exact (congrArg State.kernels (onlyRegs_clearRegs s x.id) :)
      exact h5.trans (h4.trans (h3.trans h2))

theorem discardTeam_kernels (s : State) (m : Team) : (s.discardTeam m).kernels = s.kernels :=
  foldl_keeps State.kernels discardGroup_kernels _ _

theorem endLease_kernels (s : State) (d : Nat) : (s.endLease d).kernels = s.kernels := by
  unfold State.endLease
  split <;> rfl

theorem unfaultCtx_kernels (s : State) (c : Nat) : (s.unfaultCtx c).kernels = s.kernels := by
  unfold State.unfaultCtx
  dsimp only
  split <;> rfl

/-- A kill without relaunch changes no kernel. -/
theorem killTeam_kernels (s : State) (tid : Nat) : (s.killTeam tid true).kernels = s.kernels := by
  unfold State.killTeam
  split
  · rfl
  · next m _ =>
    split
    · rfl
    · extract_lets on s1 s2 s3 s4
      have h1 : s1.kernels = s.kernels := by
        refine (discardTeam_kernels ..).trans ?_
        split
        · exact endLease_kernels ..
        · rfl
      have h2 : s2.kernels = s1.kernels := by
        simp only [s2]
        split
        · exact unfaultCtx_kernels ..
        · rfl
      have h4 : s4.kernels = s3.kernels := by
        simp only [s4, Bool.not_true, Bool.and_false, Bool.false_eq_true, if_false]
        split <;> rfl
      exact h4.trans (h2.trans h1)

/-- A kernel that runs is aborted. -/
theorem abortKernel_kernel? {s : State} {n : Nat} {k : Kernel} (hk : s.kernel? n = some k) (hrun : k.state = .running) :
    Has ((s.abortKernel n).kernel? n) fun z => z.state = .aborted := by
  unfold State.abortKernel
  split
  · next h => cases hk.symm.trans h
  next h =>
  cases hk.symm.trans h
  rw [if_neg (by simp [hrun])]
  extract_lets s1 s2 s3 s4 s5
  have h1 : s1.kernel? n = some { k with state := .aborted, shapes := [] } := by
    simp only [s1]
    rw [kernel?_modKernel s n n (fun k => { k with state := .aborted, shapes := [] }) fun _ h => h, hk]
    simp
  have h2 : s2.kernels = s1.kernels := by
    refine foldl_keeps State.kernels (fun s t => ?_) _ _
    exact killTeam_kernels s t.tid
  have h4 : s4.kernels = s2.kernels := by
    simp only [s4]
    split <;> rfl
  have h5 : s5.kernels = s4.kernels := by
    refine foldl_keeps State.kernels (fun s d => ?_) _ _
    rfl
  have hend : (if k.recNo = 0 then s5 else s5.queueErr k.q 5).kernels = s1.kernels := by
    split <;> exact h5.trans (h4.trans h2)
  refine ⟨{ k with state := .aborted, shapes := [] }, ?_, rfl⟩
  rw [State.kernel?, hend]
  exact h1

/-! ### TEAM_RELAUNCH -/

/-- A killed team once it waits to be placed again on a die (R342). -/
def relaunching (now die : Nat) (m : Team) : Team :=
  { m with state := .relaunching, relaunches := m.relaunches + 1, die := die, killAt := now }

/-- A killed team whose discards have ended relaunches, or at its limit aborts its kernel (R153, R342). -/
theorem teamRelaunch_of_killed {s : State} {m : Team} {k : Kernel} (hm : s.team? (s.num 0) = some m)
    (hk : s.kernel? m.kid = some k) (hkilled : m.state = .killed) (hrun : k.state = .running)
    (hidle : (s.ops.any fun o => (m.members ++ m.twins).contains o.gid && o.live && (o.held || o.copy.isSome)) = false) :
    Does .teamRelaunch s fun t =>
      (k.lpb.relim ≤ m.relaunches → Has (t.kernel? k.kid) fun z => z.state = .aborted) ∧
      (m.relaunches < k.lpb.relim → Has (t.team? m.tid) fun z => z =
        { m with state := .relaunching, relaunches := m.relaunches + 1, die := relaunchDie s k m.idx, killAt := s.now }) := by
  have hexec : exec .teamRelaunch s = .next (if k.lpb.relim ≤ m.relaunches then s.abortKernel k.kid
      else (s.modTeam m.tid (relaunching s.now (relaunchDie s k m.idx))).kickDie (relaunchDie s k m.idx)) := by
    change execTeamRelaunch s = _
    simp only [execTeamRelaunch, hm, hk, hkilled, hrun, hidle, bne_self_eq_false, Bool.or_self, Bool.false_eq_true, if_false]
    split <;> rfl
  refine ⟨_, hexec, fun h => ?_, fun h => ?_⟩
  · rw [if_pos h]
    have hkid : k.kid = m.kid := kid_of_kernel? hk
    exact abortKernel_kernel? (hkid ▸ hk) hrun
  · rw [if_neg (by omega)]
    have htid : m.tid = s.num 0 := tid_of_team? hm
    refine ⟨relaunching s.now (relaunchDie s k m.idx) m, ?_, rfl⟩
    change (s.modTeam m.tid _).team? m.tid = _
    rw [team?_modTeam s m.tid m.tid (relaunching s.now (relaunchDie s k m.idx)) fun _ h => h, htid, hm]
    simp

end Sys2Proof.Proofs
end

section
/-! SUPPORT. Retirement of a group (O51, R152-R155, R160). -/

namespace Sys2Proof.Proofs

open Sys2Proof Sys2Proof.Machine Sys2Proof.Laws

/-! ### What the team of a retired group leaves -/

/-- Units and groups are those that were, and each kernel keeps its triggered groups. -/
structure RetireFrame (s t : State) : Prop where
  units : t.units = s.units
  groups : t.groups = s.groups
  trig : ∀ n, (t.kernel? n).map Kernel.trig = (s.kernel? n).map Kernel.trig

theorem RetireFrame.refl (s : State) : RetireFrame s s := ⟨rfl, rfl, fun _ => rfl⟩

theorem RetireFrame.trans {s t r : State} (h : RetireFrame s t) (k : RetireFrame t r) : RetireFrame s r :=
  ⟨k.units.trans h.units, k.groups.trans h.groups, fun n => (k.trig n).trans (h.trig n)⟩

theorem retireFrame_testTeamBar (s : State) (tid j : Nat) : RetireFrame s (s.testTeamBar tid j) := by
  unfold State.testTeamBar
  split
  · exact .refl s
  · dsimp only
    split
    · unfold State.notifyTeam
      split <;> exact ⟨rfl, rfl, fun _ => rfl⟩
    · exact .refl s

theorem retireFrame_testTeamErr (s : State) (tid j : Nat) : RetireFrame s (s.testTeamErr tid j) := by
  unfold State.testTeamErr
  split
  · exact .refl s
  · dsimp only
    split
    · exact ⟨rfl, rfl, fun _ => rfl⟩
    · exact .refl s

theorem retireFrame_retireMember (s : State) (tid : Nat) : RetireFrame s (s.retireMember tid) :=
  List.foldlRecOn (motive := RetireFrame s) _ _ (.refl s) fun t ht j _ =>
    ht.trans ((retireFrame_testTeamBar t tid j).trans (retireFrame_testTeamErr _ tid j))

/-- A change of a kernel that leaves its triggered groups. -/
theorem retireFrame_modKernel (s : State) (n : Nat) (f : Kernel → Kernel) (hkid : ∀ k, (f k).kid = k.kid)
    (htrig : ∀ k, (f k).trig = k.trig) : RetireFrame s (s.modKernel n f) := by
  refine ⟨rfl, rfl, fun m => ?_⟩
  rw [kernel?_modKernel s n m f fun k hk => (hkid k).trans hk, Option.map_map]
  refine congrFun (congrArg Option.map (funext fun k => ?_)) _
  simp only [Function.comp]
  split
  · exact htrig k
  · rfl

/-- A group of a retired team gives its scratch back. -/
def freeScratch (tid : Nat) (g : Group) : Group := if g.tid = tid then { g with ssize := 0 } else g

theorem retireTeam_frame (s : State) (m : Team) :
    RetireFrame { s with groups := s.groups.map (freeScratch m.tid) } (s.retireTeam m) := by
  unfold State.retireTeam
  extract_lets s1 s2
  have h2 : RetireFrame { s with groups := s.groups.map (freeScratch m.tid) } s2 := ⟨rfl, rfl, fun _ => rfl⟩
  split
  · exact h2
  · next k _ =>
    have h3 := h2.trans (retireFrame_modKernel s2 k.kid (fun k => { k with retired := k.retired + 1 }) (fun _ => rfl) fun _ => rfl)
    dsimp only
    split
    · have h4 := h3.trans (retireFrame_modKernel _ k.kid (fun k => { k with state := .draining }) (fun _ => rfl) fun _ => rfl)
      exact ⟨h4.units, h4.groups, h4.trig⟩
    · exact h3

theorem freeScratch_cases (tid : Nat) (g : Group) : freeScratch tid g = g ∨ freeScratch tid g = { g with ssize := 0 } := by
  unfold freeScratch
  split
  · exact .inr rfl
  · exact .inl rfl

theorem group?_map (s : State) {f : Group → Group} (hf : ∀ g, (f g).gid = g.gid) (n : Nat) :
    ({ s with groups := s.groups.map f } : State).group? n = (s.group? n).map f := by
  simp only [State.group?, List.find?_map]
  congr 2
  funext g
  simp [hf]

/-! ### GROUP_RETIRE -/

/-- A group as it is once it has retired: its slots, counters and barriers are free (R152). -/
def retiredGroup (g : Group) : Group := { g with state := .retired, slots := [], kLog := [], bLog := [] }

/-- The retirement of a group but for what follows in its team: its units go, its slots are free, and it counts as triggered. -/
def leaveGroup (s : State) (g : Group) : State :=
  let us := (s.unitsOf g.gid).map fun x => x.id
  let s := us.foldl State.clearRegs (s.parkOld us)
  let s : State := { s with units := s.units.filter fun x => x.gid ≠ g.gid }
  let s := (s.unfaultCtx g.ctx).modGroup g.gid retiredGroup
  if g.twinOf.isSome then s else s.modKernel g.kid (signalTrig g)

/-- Units, groups and kernels after the clearing of registers and the release of the context. -/
theorem leaveGroup_frame (s : State) (g : Group) :
    (leaveGroup s g).units = s.units.filter (fun x => x.gid ≠ g.gid) ∧
    (leaveGroup s g).groups = (s.modGroup g.gid retiredGroup).groups ∧
    (leaveGroup s g).kernels = if g.twinOf.isSome then s.kernels else (s.modKernel g.kid (signalTrig g)).kernels := by
  unfold leaveGroup
  extract_lets us s1 s2 s3
  have h1 : OnlyRegs (s.parkOld us) s1 := onlyRegs_clearAll _ us
  have h3 : s3.units = s2.units ∧ s3.groups = (s2.modGroup g.gid retiredGroup).groups ∧ s3.kernels = s2.kernels := by
    simp only [s3]
    unfold State.unfaultCtx
    dsimp only
    split <;> exact ⟨rfl, rfl, rfl⟩
  obtain ⟨hu, hg, hk⟩ := h3
  have hu2 : s2.units = s.units.filter fun x => x.gid ≠ g.gid := by
    simp only [s2]
    rw [h1]
    rfl
  have hg2 : s2.groups = s.groups := (congrArg State.groups h1 :)
  have hk2 : s2.kernels = s.kernels := (congrArg State.kernels h1 :)
  have hg3 : s3.groups = (s.modGroup g.gid retiredGroup).groups := by
    rw [hg]
    simp only [State.modGroup, hg2]
  split
  · exact ⟨hu.trans hu2, hg3, hk.trans hk2⟩
  · refine ⟨hu.trans hu2, hg3, ?_⟩
    simp only [State.modKernel, hk, hk2]

/-- What follows in the team of a retired group: it retires with its last member (R153). -/
def closeTeam (r : State) (g : Group) : State :=
  match r.team? g.tid with
  | some m => if teamLeft r m then r.kickDie g.die else (r.retireTeam m).kickDie g.die
  | none => r

/-- Each group stays as it is, or gives its scratch back. -/
theorem closeTeam_frame (r : State) (g : Group) : ∃ f : Group → Group, (∀ g, f g = g ∨ f g = { g with ssize := 0 }) ∧
    RetireFrame { r with groups := r.groups.map f } (closeTeam r g) := by
  have hid : RetireFrame { r with groups := r.groups.map id } r := ⟨rfl, (List.map_id _).symm, fun _ => rfl⟩
  unfold closeTeam
  split
  · next m _ =>
    split
    · exact ⟨id, fun _ => .inl rfl, hid.units, hid.groups, hid.trig⟩
    · have h := retireTeam_frame r m
      exact ⟨freeScratch m.tid, freeScratch_cases m.tid, h.units, h.groups, h.trig⟩
  · exact ⟨id, fun _ => .inl rfl, hid⟩

section
variable {s : State} {g : Group}

theorem exec_groupRetire (hg : s.group? (s.num 0) = some g) (hdrain : g.state = .draining) (hheld : drainHeld s g = false)
    (hdue : drainFrom s g + 384 ≤ s.cyc g.die g.core) :
    exec .groupRetire s = .next (closeTeam ((leaveGroup s g).retireMember g.tid) g) := by
  change execGroupRetire s = _
  have hcyc : ¬s.cyc g.die g.core < drainFrom s g + Config.hold := by
    simp only [Config.hold]
    omega
  simp only [execGroupRetire, hg]
  rw [if_neg (by simp [hdrain]), if_neg (by simp [hheld, hcyc])]
  change (match ((leaveGroup s g).retireMember g.tid).team? g.tid with
    | some m => Host.Outcome.next (if teamLeft ((leaveGroup s g).retireMember g.tid) m
        then ((leaveGroup s g).retireMember g.tid).kickDie g.die
        else (((leaveGroup s g).retireMember g.tid).retireTeam m).kickDie g.die)
    | none => .next ((leaveGroup s g).retireMember g.tid)) = _
  unfold closeTeam
  split <;> rfl

/-- A draining group that nothing holds retires after D cycles: its units are gone, its slots, counters and barriers are free, and it
counts as triggered (R152, R154, R160). -/
theorem groupRetire_of_draining (hg : s.group? (s.num 0) = some g) (hdrain : g.state = .draining) (hheld : drainHeld s g = false)
    (hdue : drainFrom s g + 384 ≤ s.cyc g.die g.core) :
    Does .groupRetire s fun t => (∀ x ∈ t.units, x.gid ≠ g.gid) ∧
      Has (t.group? g.gid) (fun h => h.state = .retired ∧ h.slots = [] ∧ h.kLog = [] ∧ h.bLog = []) ∧
      (g.twinOf = none → ∀ k, s.kernel? g.kid = some k → Has (t.kernel? g.kid) fun k => (g.tid * 256 + g.tmbr) ∈ k.trig) := by
  have hexec := exec_groupRetire hg hdrain hheld hdue
  obtain ⟨hlu, hlg, hlk⟩ := leaveGroup_frame s g
  have hr := retireFrame_retireMember (leaveGroup s g) g.tid
  generalize (leaveGroup s g).retireMember g.tid = r at hexec hr
  have hgid : g.gid = s.num 0 := gid_of_group? hg
  have hgroup : r.group? g.gid = some (retiredGroup g) := by
    rw [State.group?, hr.groups, hlg]
    change (s.modGroup g.gid retiredGroup).group? g.gid = _
    rw [group?_modGroup s g.gid g.gid retiredGroup fun _ h => h, hgid, hg]
    simp
  have htrig (htwin : g.twinOf = none) {k : Kernel} (hk : s.kernel? g.kid = some k) :
      Has (r.kernel? g.kid) fun k => (g.tid * 256 + g.tmbr) ∈ k.trig := by
    have hk1 : (leaveGroup s g).kernel? g.kid = some (signalTrig g k) := by
      rw [State.kernel?, hlk, htwin]
      change (s.modKernel g.kid (signalTrig g)).kernel? g.kid = _
      rw [kernel?_modKernel s _ _ (signalTrig g) fun _ h => h, hk]
      simp
    have ht := hr.trig g.kid
    rw [hk1, Option.map_some] at ht
    obtain ⟨z, hz, hzt⟩ := Option.map_eq_some_iff.mp ht
    refine ⟨z, hz, ?_⟩
    change _ ∈ z.trig
    rw [hzt]
    exact mem_signalTrig g k
  obtain ⟨f, hf, hclose⟩ := closeTeam_frame r g
  have hfgid (x : Group) : (f x).gid = x.gid := by rcases hf x with h | h <;> rw [h]
  refine ⟨closeTeam r g, hexec, fun x hx => ?_, ⟨f (retiredGroup g), ?_, ?_⟩, fun htwin k hk => ?_⟩
  · rw [hclose.units] at hx
    change x ∈ r.units at hx
    rw [hr.units, hlu] at hx
    simpa using (List.mem_filter.mp hx).2
  · rw [State.group?, hclose.groups]
    exact (group?_map r hfgid g.gid).trans (by rw [hgroup, Option.map_some])
  · rcases hf (retiredGroup g) with h | h <;> rw [h] <;> exact ⟨rfl, rfl, rfl, rfl⟩
  · obtain ⟨z, hz, hmem⟩ := htrig htwin hk
    have ht : ((closeTeam r g).kernel? g.kid).map Kernel.trig = some z.trig := (hclose.trig g.kid).trans (by
      change (r.kernel? g.kid).map Kernel.trig = _
      rw [hz, Option.map_some])
    obtain ⟨y, hy, hyt⟩ := Option.map_eq_some_iff.mp ht
    refine ⟨y, hy, ?_⟩
    change _ ∈ y.trig
    rw [hyt]
    exact hmem

end

end Sys2Proof.Proofs
end

section
/-! SUPPORT. Placement of teams (O51, R147-R150). -/

namespace Sys2Proof.Proofs

open Sys2Proof Sys2Proof.Machine Sys2Proof.Laws

/-! ### What leaves teams and groups -/

/-- The teams, the groups and the next free number. -/
def roster (s : State) : List Team × List Group × Nat := (s.teams, s.groups, s.nextId)

theorem roster_hbmWrite (s : State) (ctx die key a : Nat) (bs : List Byte) : roster (s.hbmWrite ctx die key a bs) = roster s := by
  have hframe : roster (s.needFrame a bs.length) = roster s := by
    unfold State.needFrame
    split <;> rfl
  refine Eq.trans ?_ hframe
  change roster (List.foldl _ (s.needFrame a bs.length) bs.zipIdx) = _
  refine foldl_keeps roster (fun s x => ?_) _ _
  rfl

theorem roster_writePlace (s : State) (x : Xlat) (va : Nat) (bs : List Byte) : roster (s.writePlace x va bs) = roster s := by
  unfold State.writePlace
  split
  · exact roster_hbmWrite ..
  · rfl

theorem roster_saveByte (s : State) (die ctx off : Nat) (b : Byte) : roster (s.saveByte die ctx off b) = roster s := by
  have hcomp (w : WalkEnd) : roster (s.setCompanion ctx die true w) = roster s := by
    unfold State.setCompanion
    split
    · exact roster_hbmWrite ..
    · rfl
  unfold State.saveByte
  dsimp only
  split
  · next x _ =>
    split
    · rfl
    · exact (roster_writePlace ..).trans (hcomp _)
  · rfl

theorem roster_saveGroup (s : State) (g : Group) : roster (s.saveGroup g) = roster s :=
  foldl_keeps roster (fun s _ => roster_saveByte s ..) _ _

/-- A claim of a core saves what it held, and changes no team and no group. -/
theorem roster_claimCore (s : State) (die core : Nat) : roster (s.claimCore die core) = roster s := by
  unfold State.claimCore
  split
  · rfl
  · split
    · rfl
    · extract_lets s1 s2
      have h1 : roster s1 = roster s := by
        refine foldl_keeps roster (fun s x => ?_) _ _
        exact roster_saveByte ..
      have h2 : roster s2 = roster s1 := foldl_keeps roster roster_saveGroup _ _
      exact h2.trans h1

theorem roster_schedFault (s : State) (l cause : Nat) (u : UnitId) (pc : Nat) (detail : List Nat) :
    roster (s.schedFault l cause u pc detail) = roster s := by
  unfold State.schedFault
  dsimp only
  split <;> rfl

/-! ### Placement adds -/

/-- A team record that has changed by placement: its name is the same, and it still runs if it ran. -/
structure TeamKept (m n : Team) : Prop where
  tid : n.tid = m.tid
  kid : n.kid = m.kid
  idx : n.idx = m.idx
  die : n.die = m.die
  running : m.state = .running → n.state = .running

/-- Placement adds teams under new numbers and groups; of what was there only members, twins and start cycles change, and teams
that come to run. -/
structure PlaceGrows (s t : State) : Prop where
  nextId : s.nextId ≤ t.nextId
  teams : ∀ n ∈ t.teams, (∃ m ∈ s.teams, TeamKept m n) ∨ s.nextId ≤ n.tid
  kept : ∀ m ∈ s.teams, ∃ n ∈ t.teams, TeamKept m n
  groups : ∀ g ∈ s.groups, ∃ c, { g with start := c } ∈ t.groups

theorem TeamKept.refl (m : Team) : TeamKept m m := ⟨rfl, rfl, rfl, rfl, id⟩

theorem TeamKept.trans {a b c : Team} (h : TeamKept a b) (k : TeamKept b c) : TeamKept a c :=
  ⟨k.tid.trans h.tid, k.kid.trans h.kid, k.idx.trans h.idx, k.die.trans h.die, fun hr => k.running (h.running hr)⟩

theorem PlaceGrows.trans {s t r : State} (h : PlaceGrows s t) (k : PlaceGrows t r) : PlaceGrows s r := by
  refine ⟨h.nextId.trans k.nextId, fun n hn => ?_, fun m hm => ?_, fun g hg => ?_⟩
  · rcases k.teams n hn with ⟨m, hm, hk⟩ | hnew
    · rcases h.teams m hm with ⟨m0, hm0, hk0⟩ | hnew
      · exact .inl ⟨m0, hm0, hk0.trans hk⟩
      · exact .inr (hk.tid ▸ hnew)
    · exact .inr (h.nextId.trans hnew)
  · obtain ⟨n, hn, hk⟩ := h.kept m hm
    obtain ⟨p, hp, hk'⟩ := k.kept n hn
    exact ⟨p, hp, hk.trans hk'⟩
  · obtain ⟨c, hc⟩ := h.groups g hg
    obtain ⟨c', hc'⟩ := k.groups _ hc
    exact ⟨c', hc'⟩

/-- What changes neither teams nor groups, and uses numbers up. -/
theorem placeGrows_of_eq {s t : State} (hid : s.nextId ≤ t.nextId) (ht : t.teams = s.teams) (hg : t.groups = s.groups) :
    PlaceGrows s t :=
  ⟨hid, fun n hn => .inl ⟨n, ht ▸ hn, .refl n⟩, fun m hm => ⟨m, ht ▸ hm, .refl m⟩, fun g h => ⟨g.start, hg ▸ h⟩⟩

theorem placeGrows_of_roster {s t : State} (h : roster t = roster s) : PlaceGrows s t :=
  placeGrows_of_eq (le_of_eq (congrArg (·.2.2) h).symm) (congrArg (·.1) h) (congrArg (·.2.1) h)

theorem PlaceGrows.refl (s : State) : PlaceGrows s s := placeGrows_of_roster rfl

theorem placeGrows_foldl {α : Type} {f : State → α → State} (h : ∀ s a, PlaceGrows s (f s a)) (s : State) (l : List α) :
    PlaceGrows s (l.foldl f s) :=
  List.foldlRecOn (motive := PlaceGrows s) l f (.refl s) fun _ ht a _ => ht.trans (h _ a)

theorem placeGrows_modTeam (s : State) (tid : Nat) {f : Team → Team} (hf : ∀ m, TeamKept m (f m)) :
    PlaceGrows s (s.modTeam tid f) := by
  have hone (m : Team) : TeamKept m (if m.tid = tid then f m else m) := by
    split
    · exact hf m
    · exact .refl m
  refine ⟨le_refl _, fun n hn => ?_, fun m hm => ⟨_, List.mem_map_of_mem hm, hone m⟩, fun g hg => ⟨g.start, hg⟩⟩
  obtain ⟨m, hm, rfl⟩ := List.mem_map.mp hn
  exact .inl ⟨m, hm, hone m⟩

theorem placeGrows_startTeam (s : State) (tid : Nat) : PlaceGrows s (s.startTeam tid) := by
  unfold State.startTeam
  split
  · exact .refl s
  · split
    · exact .refl s
    · refine placeGrows_foldl (fun s g => ?_) _ _
      refine ⟨le_refl _, fun n hn => .inl ⟨n, hn, .refl n⟩, fun m hm => ⟨m, hm, .refl m⟩, fun h hh => ?_⟩
      by_cases hgid : h.gid = g.gid
      · refine ⟨_, List.mem_map.mpr ⟨h, hh, if_pos hgid⟩⟩
      · refine ⟨h.start, List.mem_map.mpr ⟨h, hh, if_neg hgid⟩⟩

/-- One more group on a core. -/
theorem putGroup_grows (s : State) (g : Group) : PlaceGrows s (s.putGroup g) ∧ g ∈ (s.putGroup g).groups := by
  have hr := roster_claimCore s g.die g.core
  have hg : (s.putGroup g).groups = s.groups ++ [g] := by
    change (s.claimCore g.die g.core).groups ++ [g] = _
    rw [show (s.claimCore g.die g.core).groups = s.groups from congrArg (·.2.1) hr]
  refine ⟨⟨?_, fun n hn => ?_, fun m hm => ?_, fun h hh => ⟨h.start, ?_⟩⟩, by rw [hg]; simp⟩
  · exact (placeGrows_of_roster hr).nextId
  · exact (placeGrows_of_roster hr).teams n hn
  · exact (placeGrows_of_roster hr).kept m hm
  · rw [hg]
    exact List.mem_append_left _ hh

/-- The group of a planned member is placed where the plan says. -/
def Hosts (s : State) (tid die : Nat) (p : Planned) : Prop :=
  ∃ g ∈ s.groups, g.tid = tid ∧ g.g = p.1 ∧ g.core = p.2.1 ∧ g.die = die ∧ g.state = .placed

theorem hosts_of_grows {s t : State} {tid die : Nat} {p : Planned} (h : Hosts s tid die p) (k : PlaceGrows s t) :
    Hosts t tid die p := by
  obtain ⟨g, hg, hplace⟩ := h
  obtain ⟨c, hc⟩ := k.groups g hg
  exact ⟨_, hc, hplace⟩

/-- One group of a team that takes a fresh number, and joins the team's record. -/
def joinTeam (s : State) (tid : Nat) (g : Nat → Group) (f : Nat → Team → Team) : State :=
  (s.fresh.2.putGroup (g s.fresh.1)).modTeam tid (f s.fresh.1)

theorem joinTeam_grows (s : State) (tid : Nat) (g : Nat → Group) {f : Nat → Team → Team} (hf : ∀ n m, TeamKept m (f n m)) :
    PlaceGrows s (joinTeam s tid g f) ∧ g s.nextId ∈ (joinTeam s tid g f).groups := by
  obtain ⟨hput, hmem⟩ := putGroup_grows s.fresh.2 (g s.fresh.1)
  have hfresh : PlaceGrows s s.fresh.2 := placeGrows_of_eq (Nat.le_succ _) rfl rfl
  exact ⟨(hfresh.trans hput).trans (placeGrows_modTeam _ _ (hf _)), hmem⟩

/-- One member of a plan, with its twin (R150, R389). -/
def placeOne (die : Nat) (k : Kernel) (tid : Nat) (s : State) (p : Planned) : State :=
  let t := joinTeam s tid (fun n => newGroup k tid n die p.1 p.2.1 p.2.2.1 p.2.2.2 none) fun n m =>
    { m with members := m.members ++ [n] }
  if k.lpb.dual then
    joinTeam t tid (fun n => newGroup k tid n die p.1 (p.2.1 ^^^ 32) p.2.2.1 p.2.2.2 (some s.nextId)) fun n m =>
      { m with twins := m.twins ++ [n] }
  else t

section
variable (s : State) (die : Nat) (k : Kernel) (tid : Nat)

theorem placeOne_grows (p : Planned) : PlaceGrows s (placeOne die k tid s p) ∧ Hosts (placeOne die k tid s p) tid die p := by
  obtain ⟨hgrow, hmem⟩ := joinTeam_grows s tid (fun n => newGroup k tid n die p.1 p.2.1 p.2.2.1 p.2.2.2 none)
    (f := fun n m => { m with members := m.members ++ [n] }) fun _ _ => ⟨rfl, rfl, rfl, rfl, id⟩
  have hhost : Hosts (joinTeam s tid (fun n => newGroup k tid n die p.1 p.2.1 p.2.2.1 p.2.2.2 none) fun n m =>
      { m with members := m.members ++ [n] }) tid die p := ⟨_, hmem, rfl, rfl, rfl, rfl, rfl⟩
  unfold placeOne
  dsimp only
  split
  · have htwin := (joinTeam_grows (joinTeam s tid (fun n => newGroup k tid n die p.1 p.2.1 p.2.2.1 p.2.2.2 none) fun n m =>
      { m with members := m.members ++ [n] }) tid (fun n => newGroup k tid n die p.1 (p.2.1 ^^^ 32) p.2.2.1 p.2.2.2 (some s.nextId))
      (f := fun n m => { m with twins := m.twins ++ [n] }) fun _ _ => ⟨rfl, rfl, rfl, rfl, id⟩).1
    exact ⟨hgrow.trans htwin, hosts_of_grows hhost htwin⟩
  · exact ⟨hgrow, hhost⟩

theorem placeAll_hosts (ps : List Planned) : ∀ p ∈ ps, Hosts (ps.foldl (placeOne die k tid) s) tid die p := by
  intro p hp
  obtain ⟨l1, l2, rfl⟩ := List.append_of_mem hp
  rw [List.foldl_append, List.foldl_cons]
  exact hosts_of_grows (placeOne_grows _ die k tid p).2 (placeGrows_foldl (fun s p => (placeOne_grows s die k tid p).1) _ _)

/-- A team's record as its placement begins: it runs, with no members and clear barriers. -/
def emptyTeam (m : Team) : Team :=
  { m with members := [], twins := [], state := .running, committed := false
           tb := List.replicate 4 { bits := [], phases := 0, err := 0, reinit := [] } }

theorem placePlan_eq (ps : List Planned) : s.placePlan die k tid ps =
    (ps.foldl (placeOne die k tid) (State.modTeam { s with freeCtr := s.freeCtr + 1 } tid emptyTeam)).startTeam tid := rfl

/-- A plan carried out: every planned member is placed, and the team runs (R148, R150). -/
theorem placePlan_places (ps : List Planned) : PlaceGrows s (s.placePlan die k tid ps) ∧
    (∀ p ∈ ps, Hosts (s.placePlan die k tid ps) tid die p) ∧
    (tid < s.nextId → ∀ m ∈ (s.placePlan die k tid ps).teams, m.tid = tid → m.state = .running) := by
  rw [placePlan_eq]
  have hempty : PlaceGrows s (State.modTeam { s with freeCtr := s.freeCtr + 1 } tid emptyTeam) := by
    have hfree : PlaceGrows s { s with freeCtr := s.freeCtr + 1 } := placeGrows_of_eq le_rfl rfl rfl
    exact hfree.trans (placeGrows_modTeam _ tid fun _ => ⟨rfl, rfl, rfl, rfl, fun _ => rfl⟩)
  generalize hs1 : State.modTeam { s with freeCtr := s.freeCtr + 1 } tid emptyTeam = s1 at *
  have hall : PlaceGrows s1 (ps.foldl (placeOne die k tid) s1) :=
    placeGrows_foldl (fun s p => (placeOne_grows s die k tid p).1) _ _
  have hstart := placeGrows_startTeam (ps.foldl (placeOne die k tid) s1) tid
  refine ⟨hempty.trans (hall.trans hstart), fun p hp => hosts_of_grows (placeAll_hosts s1 die k tid ps p hp) hstart, ?_⟩
  intro htid n hn hntid
  rcases (hall.trans hstart).teams n hn with ⟨m, hm, hk⟩ | hnew
  · refine hk.running ?_
    have hmtid : m.tid = tid := hk.tid ▸ hntid
    rw [← hs1] at hm
    obtain ⟨m0, -, rfl⟩ := List.mem_map.mp hm
    by_cases h0 : m0.tid = tid
    · rw [if_pos h0]
      rfl
    · rw [if_neg h0] at hmtid
      exact absurd hmtid h0
  · have := hempty.nextId
    omega

end

/-- A team that is placed for the first time takes a record under a fresh number (R147). -/
def recordTeam (s : State) (die : Nat) (k : Kernel) (idx : Nat) : State :=
  State.modKernel { s.fresh.2 with teams := s.fresh.2.teams ++ [newTeam s.fresh.1 k idx die] } k.kid fun k =>
    { k with nextTeam := k.nextTeam.put die (Tab.get (0 : Nat) k.nextTeam die + 1) }

theorem mem_recordTeam {s : State} {die : Nat} {k : Kernel} {idx : Nat} {m : Team} :
    m ∈ (recordTeam s die k idx).teams ↔ m ∈ s.teams ∨ m = newTeam s.nextId k idx die :=
  List.mem_append.trans (or_congr Iff.rfl List.mem_singleton)

theorem recordTeam_grows (s : State) (die : Nat) (k : Kernel) (idx : Nat) : PlaceGrows s (recordTeam s die k idx) := by
  refine ⟨Nat.le_succ _, fun n hn => ?_, fun m hm => ⟨m, mem_recordTeam.mpr (.inl hm), .refl m⟩, fun g hg => ⟨g.start, hg⟩⟩
  rcases mem_recordTeam.mp hn with hn | rfl
  · exact .inl ⟨n, hn, .refl n⟩
  · exact .inr (le_refl _)

theorem placeTeams_grows (die : Nat) (n : Nat) (s : State) : PlaceGrows s (s.placeTeams die n) := by
  induction n generalizing s with
  | zero => exact .refl s
  | succ n ih =>
    unfold State.placeTeams
    split
    · exact .refl s
    · split
      · exact .refl s
      · split
        · exact (placePlan_places ..).1.trans (ih _)
        · exact (recordTeam_grows ..).trans ((placePlan_places ..).1.trans (ih _))

/-! ### TEAM_PLACE -/

section
variable {s : State} {die idx : Nat} {k : Kernel} {ps : List Planned}

/-- The first team in a dispatcher's order, not placed before, is placed when it fits; then the next ones are. -/
theorem placeTeams_of_plan (hhead : headTeam s die = some (k, idx, none)) (hplan : planTeam s die k.lpb idx = some ps) (n : Nat) :
    s.placeTeams die (n + 1) = ((recordTeam s die k idx).placePlan die k s.nextId ps).placeTeams die n := by
  have hready : headReady s k none = true := rfl
  rw [State.placeTeams, hhead]
  simp only [hready, if_true, hplan]
  rfl

/-- A head team that fits is placed as planned, and runs. -/
theorem placeTeams_head (hhead : headTeam s die = some (k, idx, none)) (hplan : planTeam s die k.lpb idx = some ps)
    (hfresh : ∀ m ∈ s.teams, m.tid < s.nextId) (n : Nat) :
    Has ((s.placeTeams die (n + 1)).team? s.nextId) (fun m => m.kid = k.kid ∧ m.idx = idx ∧ m.die = die ∧ m.state = .running) ∧
      ∀ p ∈ ps, Hosts (s.placeTeams die (n + 1)) s.nextId die p := by
  rw [placeTeams_of_plan hhead hplan]
  have hnext : s.nextId < (recordTeam s die k idx).nextId := Nat.lt_succ_self _
  obtain ⟨hgrow, hhosts, hrun⟩ := placePlan_places (recordTeam s die k idx) die k s.nextId ps
  have hmore := placeTeams_grows die n ((recordTeam s die k idx).placePlan die k s.nextId ps)
  generalize hr : (recordTeam s die k idx).placePlan die k s.nextId ps = r at *
  generalize r.placeTeams die n = t at *
  refine ⟨?_, fun p hp => hosts_of_grows (hhosts p hp) hmore⟩
  have hteam (m : Team) (hm : m ∈ t.teams) (htid : m.tid = s.nextId) :
      m.kid = k.kid ∧ m.idx = idx ∧ m.die = die ∧ m.state = .running := by
    rcases hmore.teams m hm with ⟨m1, hm1, hk1⟩ | hnew
    · have htid1 : m1.tid = s.nextId := hk1.tid ▸ htid
      rcases hgrow.teams m1 hm1 with ⟨m0, hm0, hk0⟩ | hnew
      · rcases mem_recordTeam.mp hm0 with hold | rfl
        · have := hfresh m0 hold
          have := hk0.tid
          omega
        · exact ⟨hk1.kid.trans hk0.kid, hk1.idx.trans hk0.idx, hk1.die.trans hk0.die, hk1.running (hrun hnext m1 hm1 htid1)⟩
      · omega
    · have := hgrow.nextId
      omega
  obtain ⟨m, hm, hk⟩ := (hgrow.trans hmore).kept _ (mem_recordTeam.mpr (.inr rfl))
  have hsome : (t.team? s.nextId).isSome := List.find?_isSome.mpr ⟨m, hm, by simpa [newTeam] using hk.tid⟩
  obtain ⟨z, hz⟩ := Option.isSome_iff_exists.mp hsome
  exact ⟨z, hz, hteam z (List.mem_of_find?_eq_some hz) (tid_of_team? hz)⟩

/-- The fault of a scheduled kernel that has a team unplaced after its START, raised once (R338). -/
def lateFault (die : Nat) (s : State) (k : Kernel) : State :=
  (s.modKernel k.kid fun k => { k with late := true }).schedFault (k.lay.getD 0) 5
    { die := die, core := 0, lead := false, slot := 0 } 0 [6]

theorem roster_lateFault (die : Nat) (s : State) (k : Kernel) : roster (lateFault die s k) = roster s := by
  unfold lateFault
  rw [roster_schedFault]
  rfl

/-- A dispatcher that places its teams: what it does afterwards, for teams that are late, changes no team and no group (R338). -/
theorem exec_teamPlace (hplaces : diePlaces s (s.num 0) = true) :
    Does .teamPlace s fun t => roster t = roster (s.placeTeams (s.num 0) (s.teams.length + 4097)) := by
  obtain ⟨r, hr⟩ : ∃ r, s.placeTeams (s.num 0) (s.teams.length + 4097) = r := ⟨_, rfl⟩
  have hlate : roster ((lateKernels r (s.num 0)).foldl (lateFault (s.num 0)) r) = roster r :=
    foldl_keeps roster (roster_lateFault _) _ _
  have hexec : exec .teamPlace s = .next (if (headTeam ((lateKernels r (s.num 0)).foldl (lateFault (s.num 0)) r) (s.num 0)).isSome
      then ((lateKernels r (s.num 0)).foldl (lateFault (s.num 0)) r).schedIn 1 20 (ev .teamPlace [s.num 0])
      else (lateKernels r (s.num 0)).foldl (lateFault (s.num 0)) r) := by
    change execTeamPlace s = _
    simp only [execTeamPlace, hplaces, if_true, hr]
    rfl
  refine ⟨_, hexec, ?_⟩
  rw [hr]
  split <;> exact hlate

/-- A head team that fits is placed and runs (R148). -/
theorem teamPlace_of_plan (hplaces : diePlaces s (s.num 0) = true) (hhead : headTeam s (s.num 0) = some (k, idx, none))
    (hplan : planTeam s (s.num 0) k.lpb idx = some ps) (hfresh : ∀ m ∈ s.teams, m.tid < s.nextId) :
    Does .teamPlace s fun t =>
      Has (t.team? s.nextId) (fun m => m.kid = k.kid ∧ m.idx = idx ∧ m.die = s.num 0 ∧ m.state = .running) ∧
      ∀ p ∈ ps, Hosts t s.nextId (s.num 0) p := by
  obtain ⟨t, ht, hroster⟩ := exec_teamPlace hplaces
  have hteams : t.teams = _ := congrArg (·.1) hroster
  have hgroups : t.groups = _ := congrArg (·.2.1) hroster
  obtain ⟨hteam, hhosts⟩ := placeTeams_head hhead hplan hfresh (s.teams.length + 4096)
  refine ⟨t, ht, ?_, fun p hp => ?_⟩
  · rw [State.team?, hteams]
    exact hteam
  · rw [Hosts, hgroups]
    exact hhosts p hp

end

end Sys2Proof.Proofs
end

section
/-! SUPPORT. The start of placed groups (O51, R136, R150, R230, R337). -/

namespace Sys2Proof.Proofs

open Sys2Proof Sys2Proof.Machine Sys2Proof.Laws

/-! ### The steps of a start -/

/-- A group as it starts. -/
def startedGroup (s : State) (g : Group) (k : Kernel) : Group :=
  { g with slots := startSlots s g k.lpb.warps, state := .running, before := .running }

/-- The channels of the slots taken start at 0, and what was fresh of them no longer is (R230). -/
def zeroChannels (slots : List Nat) (c : CoreRec) : CoreRec :=
  { c with wptr := onChannels slots c.wptr fun _ _ => 0, fresh := c.fresh.filter fun e => !slots.contains e.1 }

/-- The group takes its slots, its partner the same, and the write pointers of its channels start at 0. -/
def claimSlots (s : State) (g : Group) (k : Kernel) : State :=
  let h := startedGroup s g k
  let t := match s.partner g with | some p => s.modGroup p.gid fun p => { p with slots := h.slots } | none => s
  (t.modGroup g.gid fun _ => h).modCore g.die g.core (zeroChannels h.slots)

/-- The units of a started group: its lead stream and its warps. -/
def unitIds (h : Group) : List UnitId := leadId h :: (List.range h.slots.length).map (warpId h)

/-- What earlier owners of the units left goes. -/
def clearUnits (s : State) (h : Group) : State := (unitIds h).foldl State.clearRegs (s.parkOld (unitIds h))

/-- The lead stream of a group at its start. -/
def startLead (s : State) (h : Group) (k : Kernel) : ExecUnit :=
  newUnit s h (leadId h) 0 h.slots (8 * k.lpb.leadent) 0 0 1

/-- Warp `n` of a group at its start. -/
def startWarp (s : State) (h : Group) (k : Kernel) (n : Nat) : ExecUnit :=
  let m := warpLanes h.prot h.lanes n
  newUnit s h (warpId h n) n [h.slots.getD n 0] (8 * k.lpb.warpent) m.1 m.2
    (BitVec.ofFnLE fun q : Fin 8 => (m.1 &&& quadLanes h.prot (1#8 <<< q.val)) != 0)

/-- The units of a group at its start. -/
def startUnits (s : State) (h : Group) (k : Kernel) : List ExecUnit :=
  (List.range h.slots.length).map (startWarp s h k) ++ [startLead s h k]

/-- The units take the place of those that had their names. -/
def addUnits (s : State) (h : Group) (k : Kernel) : State :=
  { s with units := (s.units.filter fun x => !(unitIds h).contains x.id) ++ startUnits s h k }

/-- The first fetches and windows of a unit. -/
def schedUnit (c : Nat) (s : State) (x : ExecUnit) : State := (s.schedFetches x c).schedWindow x c

/-- The state in which the units of a group come to be. -/
def clearedState (s : State) (g : Group) (k : Kernel) : State := clearUnits (claimSlots s g k) (startedGroup s g k)

theorem beginGroup_eq (s : State) (g : Group) (k : Kernel) :
    s.beginGroup g k = (startUnits (clearedState s g k) (startedGroup s g k) k).foldl (schedUnit g.start)
      ((addUnits (clearedState s g k) (startedGroup s g k) k).preload k (startedGroup s g k)) := by
  unfold State.beginGroup addUnits startUnits
  simp only [List.append_assoc]
  rfl

/-! ### What each step leaves -/

/-- Nothing changes but units, operations, registers, marks, what waits to land and what is due. -/
def OnlyUnits (s t : State) : Prop :=
  t = { s with units := t.units, ops := t.ops, agenda := t.agenda, vreg := t.vreg, sreg := t.sreg, preg := t.preg
               greg := t.greg, poison := t.poison, pend := t.pend }

theorem onlyUnits_trans {s t r : State} (h : OnlyUnits s t) (k : OnlyUnits t r) : OnlyUnits s r := by
  unfold OnlyUnits at *
  rw [k, h]

theorem onlyUnits_of_onlyRegs {s t : State} (h : OnlyRegs s t) : OnlyUnits s t := by
  unfold OnlyRegs OnlyUnits at *
  rw [h]

/-- Nothing changes but what is due. -/
def OnlyAgenda (s t : State) : Prop := t = { s with agenda := t.agenda }

theorem onlyAgenda_trans {s t r : State} (h : OnlyAgenda s t) (k : OnlyAgenda t r) : OnlyAgenda s r := by
  unfold OnlyAgenda at *
  rw [k, h]

theorem onlyAgenda_foldl {α : Type} {f : State → α → State} (h : ∀ s a, OnlyAgenda s (f s a)) (s : State) (l : List α) :
    OnlyAgenda s (l.foldl f s) :=
  List.foldlRecOn (motive := OnlyAgenda s) l f rfl fun t ht a _ => onlyAgenda_trans ht (h t a)

theorem onlyAgenda_schedUnit (c : Nat) (s : State) (x : ExecUnit) : OnlyAgenda s (schedUnit c s x) := by
  have hfetch : OnlyAgenda s (s.schedFetches x c) := by
    refine onlyAgenda_foldl (fun s g => ?_) _ _
    split <;> rfl
  refine onlyAgenda_trans hfetch ?_
  unfold schedUnit State.schedWindow
  dsimp only
  split <;> rfl

theorem onlyUnits_clearUnits (s : State) (h : Group) : OnlyUnits s (clearUnits s h) :=
  onlyUnits_trans (t := s.parkOld (unitIds h)) rfl (onlyUnits_of_onlyRegs (onlyRegs_clearAll _ _))

/-- The preloads of a warp: the scratch base and the arguments (R337). -/
def preloadWarp (h : Group) (scr args : BitVec 64) (s : State) (n : Nat) : State :=
  { s with sreg := (s.sreg.put (sKey (warpId h n) 0) scr).put (sKey (warpId h n) 1) args }

/-- The preloads of a lead stream: the scratch base, the arguments, the launch parameter block and the start tick (R337). -/
def preloadLead (h : Group) (scr args addr tick : BitVec 64) (s : State) : State :=
  let t := (s.greg.put (gKey (leadId h) 0) scr).put (gKey (leadId h) 1) args
  { s with greg := (t.put (gKey (leadId h) 2) addr).put (gKey (leadId h) 3) tick }

theorem preload_eq (s : State) (k : Kernel) (h : Group) : ∃ scr addr tick,
    s.preload k h = (List.range h.slots.length).foldl (preloadWarp h scr (BitVec.ofNat 64 k.lpb.args))
      (preloadLead h scr (BitVec.ofNat 64 k.lpb.args) addr tick s) :=
  ⟨_, _, _, rfl⟩

/-- Preloads write G and S registers only. -/
theorem preloadWarps_only (h : Group) (scr args : BitVec 64) (s : State) (l : List Nat) :
    l.foldl (preloadWarp h scr args) s = { s with sreg := (l.foldl (preloadWarp h scr args) s).sreg } :=
  List.foldlRecOn (motive := fun t : State => t = { s with sreg := t.sreg }) l _ rfl fun t ht n _ => by
    unfold preloadWarp
    rw [ht]

theorem preload_only (s : State) (k : Kernel) (h : Group) :
    s.preload k h = { s with sreg := (s.preload k h).sreg, greg := (s.preload k h).greg } := by
  obtain ⟨scr, addr, tick, hpre⟩ := preload_eq s k h
  rw [hpre, preloadWarps_only]
  rfl

theorem onlyUnits_addUnits (s : State) (h : Group) (k : Kernel) : OnlyUnits s ((addUnits s h k).preload k h) := by
  unfold OnlyUnits
  rw [preload_only]
  rfl

theorem onlyUnits_of_onlyAgenda {s t : State} (h : OnlyAgenda s t) : OnlyUnits s t := by
  unfold OnlyAgenda OnlyUnits at *
  rw [h]

/-- What a start does after the slots are taken leaves all but the group's units and registers. -/
theorem onlyUnits_beginGroup (s : State) (g : Group) (k : Kernel) : OnlyUnits (claimSlots s g k) (s.beginGroup g k) := by
  rw [beginGroup_eq]
  have hclear : OnlyUnits (claimSlots s g k) (clearedState s g k) := onlyUnits_clearUnits _ _
  generalize clearedState s g k = c at *
  exact onlyUnits_trans hclear (onlyUnits_trans (onlyUnits_addUnits ..)
    (onlyUnits_of_onlyAgenda (onlyAgenda_foldl (onlyAgenda_schedUnit g.start) _ _)))

theorem claimSlots_group? (s : State) (g : Group) (k : Kernel) (n : Nat) : ∃ f : Group → Group,
    (∀ h, f h = { h with slots := (f h).slots }) ∧
    (claimSlots s g k).group? n = (s.group? n).map fun h => if n = g.gid then startedGroup s g k else f h := by
  have hgid : ∀ x : Group, x.gid = g.gid → ((fun _ => startedGroup s g k) x).gid = g.gid := fun _ _ => rfl
  unfold claimSlots
  cases s.partner g with
  | none =>
    refine ⟨id, fun _ => rfl, ?_⟩
    exact group?_modGroup s g.gid n (fun _ => startedGroup s g k) hgid
  | some p =>
    refine ⟨fun h => if n = p.gid then { h with slots := startSlots s g k.lpb.warps } else h, fun h => ?_, ?_⟩
    · split <;> rfl
    · refine (group?_modGroup (s.modGroup p.gid fun p => { p with slots := startSlots s g k.lpb.warps }) g.gid n
        (fun _ => startedGroup s g k) hgid).trans ?_
      rw [group?_modGroup s p.gid n (fun p => { p with slots := startSlots s g k.lpb.warps }) fun _ h => h, Option.map_map]
      rfl

/-! ### The groups of a core that start together -/

/-- What a start of other groups leaves for one that is to start: clocks, lays, contexts and kernels, and of each group all but
its slots, unless it runs. -/
structure StartFrame (s t : State) : Prop where
  dies : t.dies = s.dies
  lays : t.lays = s.lays
  now : t.now = s.now
  timeAdj : t.timeAdj = s.timeAdj
  originDie : t.originDie = s.originDie
  ctxs : t.ctxs = s.ctxs
  kernels : t.kernels = s.kernels
  groups : ∀ n h, s.group? n = some h →
    ∃ h', t.group? n = some h' ∧ (h' = { h with slots := h'.slots } ∨ h'.state = .running)

theorem StartFrame.refl (s : State) : StartFrame s s := ⟨rfl, rfl, rfl, rfl, rfl, rfl, rfl, fun _ h hh => ⟨h, hh, .inl rfl⟩⟩

theorem StartFrame.trans {s t r : State} (h : StartFrame s t) (k : StartFrame t r) : StartFrame s r := by
  refine ⟨k.dies.trans h.dies, k.lays.trans h.lays, k.now.trans h.now, k.timeAdj.trans h.timeAdj,
    k.originDie.trans h.originDie, k.ctxs.trans h.ctxs, k.kernels.trans h.kernels, fun n g hg => ?_⟩
  obtain ⟨g1, hg1, h1⟩ := h.groups n g hg
  obtain ⟨g2, hg2, h2⟩ := k.groups n g1 hg1
  refine ⟨g2, hg2, ?_⟩
  rcases h2 with h2 | h2
  · rcases h1 with h1 | h1
    · left
      rw [h1] at h2
      exact h2
    · right
      rw [h2]
      exact h1
  · exact .inr h2

theorem startFrame_claimSlots (s : State) (g : Group) (k : Kernel) : StartFrame s (claimSlots s g k) := by
  have hgroups (n : Nat) (h : Group) (hh : s.group? n = some h) :
      ∃ h', (claimSlots s g k).group? n = some h' ∧ (h' = { h with slots := h'.slots } ∨ h'.state = .running) := by
    obtain ⟨f, hf, heq⟩ := claimSlots_group? s g k n
    refine ⟨_, by rw [heq, hh, Option.map_some], ?_⟩
    split
    · exact .inr rfl
    · exact .inl (hf h)
  unfold claimSlots at hgroups ⊢
  cases hp : s.partner g <;> rw [hp] at hgroups <;> exact ⟨rfl, rfl, rfl, rfl, rfl, rfl, rfl, hgroups⟩

theorem startFrame_of_onlyUnits {s t : State} (h : OnlyUnits s t) : StartFrame s t := by
  unfold OnlyUnits at h
  rw [h]
  exact ⟨rfl, rfl, rfl, rfl, rfl, rfl, rfl, fun _ g hg => ⟨g, hg, .inl rfl⟩⟩

theorem startFrame_beginGroup (s : State) (g : Group) (k : Kernel) : StartFrame s (s.beginGroup g k) :=
  (startFrame_claimSlots s g k).trans (startFrame_of_onlyUnits (onlyUnits_beginGroup s g k))

/-- A started group runs in its slots. -/
theorem beginGroup_group? {s : State} {g g0 : Group} (hg : s.group? g.gid = some g0) (k : Kernel) :
    (s.beginGroup g k).group? g.gid = some (startedGroup s g k) := by
  obtain ⟨f, -, heq⟩ := claimSlots_group? s g k g.gid
  rw [State.group?, (congrArg State.groups (onlyUnits_beginGroup s g k) :)]
  exact heq.trans (by rw [hg, Option.map_some, if_pos rfl])

theorem coreDist_congr {s t : State} (hf : StartFrame s t) (die core : Nat) : coreDist t die core = coreDist s die core := by
  simp only [coreDist, hf.originDie]

theorem localTime_congr {s t : State} (hf : StartFrame s t) (die core now : Nat) :
    localTime t die core now = localTime s die core now := by
  simp only [localTime, coreDist_congr hf, hf.timeAdj]

theorem layStops_congr {s t : State} (hf : StartFrame s t) (g : Group) (slots : List Nat) (c : Nat) :
    layStops t { g with slots := slots } c = layStops s g c := by
  have hk : t.kernelOf { g with slots := slots } = s.kernelOf g := by
    simp only [State.kernelOf, State.kernel?, hf.kernels]
  unfold layStops
  rw [hk]
  cases (s.kernelOf g).bind fun k => k.lay with
  | none => rfl
  | some l => 
    simp only [State.lay, coreDist_congr hf, localTime_congr hf, instantOf_congr hf.dies hf.originDie, hf.lays]
    rfl

/-- Whether a group may start does not depend on its slots, nor on the start of others. -/
theorem mayBegin_congr {s t : State} (hf : StartFrame s t) (g : Group) (slots : List Nat) (k : Kernel) :
    mayBegin t { g with slots := slots } k = mayBegin s g k := by
  simp only [mayBegin, ctxPlaces, startShifted, layStops_congr hf, localTime_congr hf, instantOf_congr hf.dies hf.originDie,
    State.ctx, State.die, State.lay, hf.dies, hf.lays, hf.ctxs]
  rfl

theorem cyc_congr {s t : State} (hf : StartFrame s t) (die core : Nat) : t.cyc die core = s.cyc die core := by
  simp only [State.cyc, cycleAt, coreDist, State.die, hf.dies, hf.now, hf.originDie]

theorem beginDue_of_due {s : State} {g : Group} {k : Kernel} (hg : s.group? g.gid = some g) (hk : s.kernelOf g = some k)
    (hmay : mayBegin s g k = true) (hstart : g.start ≤ s.cyc g.die g.core) : s.beginDue g.gid = s.beginGroup g k := by
  simp only [State.beginDue, hg, hk, hmay, hstart, decide_true, Bool.and_self, if_true]

theorem startFrame_beginDue (s : State) (n : Nat) : StartFrame s (s.beginDue n) := by
  unfold State.beginDue
  split
  · exact .refl s
  · split
    · split
      · exact startFrame_beginGroup ..
      · exact .refl s
    · exact .refl s

theorem startFrame_foldl (s : State) (l : List Nat) : StartFrame s (l.foldl State.beginDue s) :=
  List.foldlRecOn (motive := StartFrame s) l _ (.refl s) fun t ht n _ => ht.trans (startFrame_beginDue t n)

/-- A group that runs goes on running while others start. -/
theorem running_of_frame {s t : State} (hf : StartFrame s t) {n : Nat} (h : Has (s.group? n) fun g => g.state = .running) :
    Has (t.group? n) fun g => g.state = .running := by
  obtain ⟨g, hg, hrun⟩ := h
  obtain ⟨g', hg', heq | hrun'⟩ := hf.groups n g hg
  · exact ⟨g', hg', by rw [heq]; exact hrun⟩
  · exact ⟨g', hg', hrun'⟩

/-- A group that is due runs once its turn among those that start has come. -/
theorem beginDue_running {s t : State} (hf : StartFrame s t) {x : Group} {j : Kernel} (hx : s.group? x.gid = some x)
    (hj : s.kernelOf x = some j) (hmay : mayBegin s x j = true) (hstart : x.start ≤ s.cyc x.die x.core) :
    Has ((t.beginDue x.gid).group? x.gid) fun h => h.state = .running := by
  obtain ⟨x', hx', heq | hrun⟩ := hf.groups _ x hx
  · generalize x'.slots = slots at heq
    subst heq
    have hj' : t.kernelOf { x with slots := slots } = some j := by
      rw [State.kernelOf, State.kernel?, hf.kernels]
      exact hj
    have hdue := beginDue_of_due (g := { x with slots := slots }) hx' hj' ((mayBegin_congr hf x slots j).trans hmay)
      (by rw [cyc_congr hf]; exact hstart)
    rw [show t.beginDue x.gid = _ from hdue]
    exact ⟨_, beginGroup_group? (g := { x with slots := slots }) hx' j, rfl⟩
  · exact running_of_frame (startFrame_beginDue t _) ⟨x', hx', hrun⟩

/-- The groups of a core that have one start cycle and wait for it. -/
def startingWith (s : State) (g : Group) : List Group :=
  s.groups.filter fun x => x.die = g.die && x.core = g.core && x.state == .placed && x.start = g.start

section
variable {s : State} {g : Group} {k : Kernel}

theorem exec_groupStart (hg : s.group? (s.num 0) = some g) (hk : s.kernelOf g = some k) (hmay : mayBegin s g k = true)
    (hstart : g.start ≤ s.cyc g.die g.core) : exec .groupStart s =
      .next (((sortBy (fun a b => a.g ≤ b.g) (startingWith s g)).map fun x => x.gid).foldl State.beginDue s) := by
  change execGroupStart s = _
  simp only [execGroupStart, hg, hk, hmay, not_lt.mpr hstart, Bool.not_true, Bool.false_eq_true, if_false]
  rfl

/-- Every group of the core that is due with the started one runs (R150). -/
theorem groupStart_together (hg : s.group? (s.num 0) = some g) (hk : s.kernelOf g = some k) (hmay : mayBegin s g k = true)
    (hstart : g.start ≤ s.cyc g.die g.core) :
    Does .groupStart s fun t => ∀ x j, x ∈ s.groups → s.group? x.gid = some x → x.die = g.die → x.core = g.core →
      x.start = g.start → s.kernelOf x = some j → mayBegin s x j = true → Has (t.group? x.gid) fun h => h.state = .running := by
  refine ⟨_, exec_groupStart hg hk hmay hstart, fun x j hmem hx hd hc hs hj hmx => ?_⟩
  have hplaced : x.state = .placed := by
    simp only [mayBegin, Bool.and_eq_true, beq_iff_eq] at hmx
    exact hmx.1.1.1
  have hin : x.gid ∈ (sortBy (fun a b => a.g ≤ b.g) (startingWith s g)).map fun x => x.gid := by
    refine List.mem_map_of_mem ((mem_sortBy ..).mpr (List.mem_filter.mpr ⟨hmem, ?_⟩))
    simp [hd, hc, hs, hplaced]
  obtain ⟨l1, l2, hl⟩ := List.append_of_mem hin
  rw [hl, List.foldl_append, List.foldl_cons]
  refine running_of_frame (startFrame_foldl _ l2) (beginDue_running (startFrame_foldl s l1) hx hj hmx ?_)
  rw [hs, hd, hc]
  exact hstart

end

end Sys2Proof.Proofs
end

section
/-! SUPPORT. What a started group finds: slots, write pointers, units and registers (O51, R118, R150, R230, R337). -/

namespace Sys2Proof.Proofs

open Sys2Proof Sys2Proof.Machine Sys2Proof.Laws

/-! ### Slots and write pointers -/

theorem startSlots_nodup {s : State} {g : Group} (hg : g.slots.Nodup) (w : Nat) : (startSlots s g w).Nodup := by
  have htake (p : Nat → Bool) : (((List.range 4).filter p).take w).Nodup :=
    (List.nodup_range.filter p).sublist (List.take_sublist w _)
  unfold startSlots
  dsimp only
  split
  · exact htake _
  · split
    · exact hg
    · exact htake _

theorem startSlots_of_single {s : State} {g : Group} (hp : s.partner g = none) (w : Nat) :
    startSlots s g w = ((List.range 4).filter fun n => !(coreSlots s g.die g.core).contains n).take w := by
  simp only [startSlots, hp]

theorem core_place (s : State) (die core : Nat) : (s.core die core).die = die ∧ (s.core die core).core = core := by
  unfold State.core
  cases h : s.cores.find? fun x => x.die = die && x.core = core with
  | none => exact ⟨rfl, rfl⟩
  | some x => simpa using List.find?_some h

theorem core_modCore (s : State) (die core : Nat) {f : CoreRec → CoreRec} (hf : ∀ c, (f c).die = c.die ∧ (f c).core = c.core) :
    (s.modCore die core f).core die core = f (s.core die core) := by
  obtain ⟨hd, hc⟩ := core_place s die core
  obtain ⟨hd', hc'⟩ := hf (s.core die core)
  have hhead : ((f (s.core die core)).die = die && (f (s.core die core)).core = core : Bool) = true := by
    simp [hd', hd, hc', hc]
  exact congrArg (fun x : Option CoreRec => x.getD _)
    (List.find?_cons_of_pos (p := fun x : CoreRec => x.die = die && x.core = core) hhead)

theorem onChannels_zero {slots : List Nat} {n : Nat} (hn : n ∈ slots) (xs : List Nat) :
    (onChannels slots xs fun _ _ => 0).getD n 0 = 0 := by
  simp only [onChannels, List.getD_eq_getElem?_getD, List.getElem?_mapIdx]
  cases xs[n]? <;> simp [hn]

/-! ### Registers -/

theorem tab_get_delRange {β : Type} (d : β) (t : Tab β) (lo hi i : Nat) :
    Tab.get d (t.delRange lo hi) i = if lo ≤ i ∧ i < hi then d else Tab.get d t i := by
  induction t with
  | nil => simp [Tab.delRange]
  | cons e t ih =>
    obtain ⟨k, v⟩ := e
    simp only [Tab.delRange] at ih ⊢
    simp only [List.filter_cons]
    by_cases hk : i = k
    · subst hk
      by_cases hin : lo ≤ i ∧ i < hi
      · have hout : ¬(i < lo ∨ hi ≤ i) := by omega
        simp [hout, ih, hin]
      · have hout : i < lo ∨ hi ≤ i := by omega
        simp [hout, hin, Tab.get]
    · split
      · simp [Tab.get, hk, ih]
      · simp [ih, Tab.get, hk]

theorem vreg_clearRegs (s : State) (u : UnitId) (i : Nat) : Tab.get 0 (s.clearRegs u).vreg i =
    if u.lead = false ∧ vKey u 0 0 ≤ i ∧ i < vKey u 128 0 then 0 else Tab.get 0 s.vreg i := by
  unfold State.clearRegs
  cases hl : u.lead
  · simp [tab_get_delRange]
  · simp

/-- A V register reads 0 once its unit has been cleared, and later clears leave it so. -/
theorem v_clearAll {s : State} {u : UnitId} {us : List UnitId} (hu : u ∈ us) (hl : u.lead = false) {r l : Nat} (hr : r < 128)
    (hl32 : l < 32) : (us.foldl State.clearRegs s).v u r l = 0 := by
  obtain ⟨l1, l2, rfl⟩ := List.append_of_mem hu
  rw [List.foldl_append, List.foldl_cons]
  refine List.foldlRecOn (motive := fun t : State => t.v u r l = 0) l2 _ ?_ fun t ht w _ => ?_
  · rw [State.v, vreg_clearRegs, if_pos]
    refine ⟨hl, ?_, ?_⟩ <;> simp only [vKey] <;> omega
  · rw [State.v, vreg_clearRegs]
    split
    · rfl
    · exact ht

theorem gr_preload (s : State) (k : Kernel) (h : Group) : (s.preload k h).gr (leadId h) 1 = BitVec.ofNat 64 k.lpb.args := by
  obtain ⟨scr, addr, tick, hpre⟩ := preload_eq s k h
  rw [hpre, preloadWarps_only]
  simp [State.gr, preloadLead, gKey]

theorem sr_preload {s : State} {k : Kernel} {h : Group} {n : Nat} (hn : n < h.slots.length) :
    (s.preload k h).sr (warpId h n) 1 = BitVec.ofNat 64 k.lpb.args := by
  obtain ⟨scr, addr, tick, hpre⟩ := preload_eq s k h
  obtain ⟨l1, l2, hl⟩ := List.append_of_mem (List.mem_range.mpr hn)
  rw [hpre, hl, List.foldl_append, List.foldl_cons]
  refine List.foldlRecOn (motive := fun t : State => t.sr (warpId h n) 1 = BitVec.ofNat 64 k.lpb.args) l2 _ ?_ fun t ht m _ => ?_
  · simp [State.sr, preloadWarp]
  · have hkey : sKey (warpId h n) 1 ≠ sKey (warpId h m) 0 := by
      have hsh : shKey (warpId h n) = shKey (warpId h m) := rfl
      unfold sKey
      rw [hsh]
      omega
    simp only [State.sr, preloadWarp, tab_get_put, hkey, if_false] at ht ⊢
    split
    · rfl
    · exact ht

/-! ### Units -/

/-- Two warps of a group are in different slots. -/
theorem warpId_ne {h : Group} (hnodup : h.slots.Nodup) {j n : Nat} (hj : j < n) (hn : n < h.slots.length) :
    warpId h j ≠ warpId h n := by
  intro heq
  have hslot : h.slots.getD j 0 = h.slots.getD n 0 := congrArg UnitId.slot heq
  rw [List.getD_eq_getElem _ _ (hj.trans hn), List.getD_eq_getElem _ _ hn, hnodup.getElem_inj_iff] at hslot
  omega

section
variable (s : State) (h : Group) (k : Kernel)

theorem find?_oldUnits {u : UnitId} (hu : u ∈ unitIds h) :
    ((s.units.filter fun x => !(unitIds h).contains x.id).find? fun x => x.id = u) = none := by
  rw [List.find?_eq_none]
  intro x hx heq
  have hid : x.id = u := by simpa using heq
  have := (List.mem_filter.mp hx).2
  simp [hid, hu] at this

theorem unit?_addUnits_lead : (addUnits s h k).unit? (leadId h) = some (startLead s h k) := by
  have hwarps : (((List.range h.slots.length).map (startWarp s h k)).find? fun x => x.id = leadId h) = none := by
    rw [List.find?_eq_none]
    intro x hx heq
    obtain ⟨n, -, rfl⟩ := List.mem_map.mp hx
    have hid : warpId h n = leadId h := by simpa [startWarp, newUnit] using heq
    exact absurd (congrArg UnitId.lead hid) (by simp [warpId, leadId])
  unfold State.unit? addUnits startUnits
  rw [List.find?_append, find?_oldUnits s h List.mem_cons_self, Option.none_or, List.find?_append, hwarps, Option.none_or]
  simp [startLead, newUnit]

theorem unit?_addUnits_warp (hnodup : h.slots.Nodup) {n : Nat} (hn : n < h.slots.length) :
    (addUnits s h k).unit? (warpId h n) = some (startWarp s h k n) := by
  have hmem : warpId h n ∈ unitIds h := List.mem_cons_of_mem _ (List.mem_map_of_mem (List.mem_range.mpr hn))
  have hfirst : (List.range h.slots.length).find? ((fun x : ExecUnit => decide (x.id = warpId h n)) ∘ startWarp s h k) = some n := by
    refine List.find?_range_eq_some.mpr ⟨by simp [startWarp, newUnit], List.mem_range.mpr hn, fun j hj => ?_⟩
    simp [startWarp, newUnit, warpId_ne hnodup hj hn]
  unfold State.unit? addUnits startUnits
  rw [List.find?_append, find?_oldUnits s h hmem, Option.none_or, List.find?_append, List.find?_map, hfirst]
  rfl

end

/-! ### GROUP_START -/

theorem fields_of_onlyAgenda {s t : State} (h : OnlyAgenda s t) :
    t.units = s.units ∧ t.vreg = s.vreg ∧ t.sreg = s.sreg ∧ t.greg = s.greg := by
  unfold OnlyAgenda at h
  rw [h]
  exact ⟨rfl, rfl, rfl, rfl⟩

theorem cores_of_onlyUnits {s t : State} (h : OnlyUnits s t) : t.cores = s.cores := by
  unfold OnlyUnits at h
  rw [h]

theorem preload_addUnits (s : State) (h : Group) (k : Kernel) :
    ((addUnits s h k).preload k h).units = (addUnits s h k).units ∧ ((addUnits s h k).preload k h).vreg = s.vreg := by
  rw [preload_only]
  exact ⟨rfl, rfl⟩

section
variable (s : State) (g : Group) (k : Kernel)

/-- Units and registers of a started group: what becomes due with it changes none of them. -/
theorem beginGroup_fields :
    let p := (addUnits (clearedState s g k) (startedGroup s g k) k).preload k (startedGroup s g k)
    (s.beginGroup g k).units = p.units ∧ (s.beginGroup g k).vreg = p.vreg ∧ (s.beginGroup g k).sreg = p.sreg ∧
      (s.beginGroup g k).greg = p.greg := by
  rw [beginGroup_eq]
  exact fields_of_onlyAgenda (onlyAgenda_foldl (onlyAgenda_schedUnit g.start) _ _)

theorem beginGroup_unit? (u : UnitId) :
    (s.beginGroup g k).unit? u = (addUnits (clearedState s g k) (startedGroup s g k) k).unit? u := by
  obtain ⟨hunits, -⟩ := beginGroup_fields s g k
  rw [State.unit?, hunits, (preload_addUnits _ _ _).1, State.unit?]

theorem beginGroup_v {n : Nat} (hn : n < (startSlots s g k.lpb.warps).length) {r l : Nat} (hr : r < 128) (hl : l < 32) :
    (s.beginGroup g k).v (warpId (startedGroup s g k) n) r l = 0 := by
  have hmem : warpId (startedGroup s g k) n ∈ unitIds (startedGroup s g k) :=
    List.mem_cons_of_mem _ (List.mem_map_of_mem (List.mem_range.mpr hn))
  obtain ⟨-, hv, -⟩ := beginGroup_fields s g k
  rw [State.v, hv, (preload_addUnits _ _ _).2]
  exact v_clearAll hmem rfl hr hl

/-- The channels of the slots that a started group takes write from 0 on (R230). -/
theorem beginGroup_wptr {n : Nat} (hn : n ∈ startSlots s g k.lpb.warps) :
    ((s.beginGroup g k).core g.die g.core).wptr.getD n 0 = 0 := by
  have hcores : (s.beginGroup g k).cores = (claimSlots s g k).cores := cores_of_onlyUnits (onlyUnits_beginGroup s g k)
  have hcore : (s.beginGroup g k).core g.die g.core = (claimSlots s g k).core g.die g.core := by
    rw [State.core, hcores, State.core]
  rw [hcore, claimSlots]
  rw [core_modCore _ _ _ (f := zeroChannels _) fun _ => ⟨rfl, rfl⟩]
  exact onChannels_zero hn _

end

/-- A group that starts alone on its core runs in the lowest slots free, with its lead stream and its warps at their entries, their
registers cleared and their arguments there (R150, R230, R337). -/
theorem groupStart_alone {s : State} {g : Group} {k : Kernel} (hg : s.group? (s.num 0) = some g) (hk : s.kernelOf g = some k)
    (hmay : mayBegin s g k = true) (hstart : g.start ≤ s.cyc g.die g.core) (hnodup : g.slots.Nodup)
    (halone : startingWith s g = [g]) :
    Does .groupStart s fun t => Has (t.group? g.gid) fun h => h.state = .running ∧
      h.slots = startSlots s g k.lpb.warps ∧
      (s.partner g = none → h.slots = ((List.range 4).filter fun w => !(coreSlots s g.die g.core).contains w).take k.lpb.warps) ∧
      (∀ n ∈ h.slots, (t.core g.die g.core).wptr.getD n 0 = 0) ∧
      Has (t.unit? (leadId h)) (fun x => x.gid = g.gid ∧ x.gangs.map (·.pc) = [8 * k.lpb.leadent]) ∧
      t.gr (leadId h) 1 = BitVec.ofNat 64 k.lpb.args ∧
      ∀ n, n < h.slots.length →
        Has (t.unit? (warpId h n)) (fun x => x.gid = g.gid ∧ x.gangs.map (·.pc) = [8 * k.lpb.warpent] ∧
          x.exec = (warpLanes g.prot g.lanes n).1) ∧
        t.sr (warpId h n) 1 = BitVec.ofNat 64 k.lpb.args ∧ ∀ r l, r < 128 → l < 32 → t.v (warpId h n) r l = 0 := by
  have hgid : g.gid = s.num 0 := gid_of_group? hg
  have hexec := exec_groupStart hg hk hmay hstart
  rw [halone, sortBy_single, List.map_singleton, List.foldl_cons, List.foldl_nil,
    beginDue_of_due (hgid ▸ hg) hk hmay hstart] at hexec
  have hslots : (startedGroup s g k).slots.Nodup := startSlots_nodup hnodup _
  obtain ⟨-, -, hsreg, hgreg⟩ := beginGroup_fields s g k
  refine ⟨_, hexec, startedGroup s g k, beginGroup_group? (hgid ▸ hg) k, rfl, rfl, fun hp => startSlots_of_single hp _,
    fun n hn => beginGroup_wptr s g k hn, ⟨startLead (clearedState s g k) (startedGroup s g k) k, ?_, rfl, rfl⟩, ?_, fun n hn =>
      ⟨⟨startWarp (clearedState s g k) (startedGroup s g k) k n, ?_, rfl, rfl, rfl⟩, ?_,
        fun r l hr hl => beginGroup_v s g k hn hr hl⟩⟩
  · rw [beginGroup_unit?, unit?_addUnits_lead]
  · rw [State.gr, hgreg]
    exact gr_preload _ _ _
  · rw [beginGroup_unit?, unit?_addUnits_warp _ _ _ hslots hn]
  · rw [State.sr, hsreg]
    exact sr_preload hn

end Sys2Proof.Proofs
end

section
/-! SUPPORT. The events of units and teams together (O51). -/

namespace Sys2Proof.Proofs

open Sys2Proof Sys2Proof.Machine Sys2Proof.Laws

/-- Settles O51, event by event: for each a lemma about the state that its effect leaves. -/
theorem unitAndTeamEvents : Obligations.UnitAndTeamEvents := by
  refine ⟨?fetch, ?issue, ?land, ?apply, ?notify, ?place, ?together, ?start, ?retire, ?relaunch, ?trig⟩
  case fetch =>
    exact fun s x g k y hx hg hk hy hend hstop hwait hhdr =>
      ⟨fun hcause hclean => clauseFetch_joins hx hg hk hy hend hstop hwait hhdr hcause hclean,
        fun n hcause => clauseFetch_traps hx hg hk hy hend hstop hwait hhdr hcause⟩
  case issue =>
    exact fun s x g y h hx hg hfroz hend hclause hres h16 hwin hmay hy hh =>
      clauseIssue_of_served hx hg hfroz hend hclause hres h16 hwin hmay hy hh
  case land =>
    exact fun s => ⟨_, rfl, (landDue_frame ..).1, (landDue_frame ..).2, fun a b w hws => landDue_last hws,
      fun v r l hws => landDue_v_other hws⟩
  case apply => exact fun s o g b ho hl hg hb => teamBarrierApply_of_live ho hl hg hb
  case notify => exact fun s m hm => teamBarrierNotify_of_team hm
  case place => exact fun s k idx ps hplaces hhead hplan hfresh => teamPlace_of_plan hplaces hhead hplan hfresh
  case together => exact fun s g k hg hk hmay hstart => groupStart_together hg hk hmay hstart
  case start => exact fun s g k hg hk hmay hstart hnodup halone => groupStart_alone hg hk hmay hstart hnodup halone
  case retire => exact fun s g hg hdrain hheld hdue => groupRetire_of_draining hg hdrain hheld hdue
  case relaunch => exact fun s m k hm hk hkilled hrun hidle => teamRelaunch_of_killed hm hk hkilled hrun hidle
  case trig => exact fun s o g ho hl hg hidle => trigSignal_of_idle ho hl hg hidle

end Sys2Proof.Proofs
end

section
/-! SUPPORT. Group 0: operands and results of the integer instructions as the statements say them (R64, R66). -/

namespace Sys2Proof.Proofs

open Sys2Proof Sys2Proof.Machine Sys2Proof.Laws

/-! ### Operands -/

theorem and_mask32_toNat (x : Word64) : (x &&& 0xFFFFFFFF#64).toNat = x.toNat % 2 ^ 32 := by
  rw [BitVec.toNat_and]
  exact Nat.and_two_pow_sub_one_eq_mod x.toNat 32

theorem trunc_toNat (ty : Nat) (x : Word64) : (trunc ty x).toNat = x.toNat % 2 ^ tyBits ty := by
  unfold trunc tyBits
  split
  · exact (Nat.mod_eq_of_lt x.isLt).symm
  · exact and_mask32_toNat x

theorem readField_lt (s : State) (c : Cur) (r l : Nat) : (readField s c r l false).toNat < 2 ^ 32 := by
  simp only [readField, Bool.false_eq_true, if_false, and_mask32_toNat]
  exact Nat.mod_lt _ (by decide)

theorem rd_lt (s : State) (c : Cur) (ty r l : Nat) : (rd s c ty r l).toNat < 2 ^ tyBits ty := by
  unfold rd tyBits
  cases isWide ty
  · exact readField_lt s c r l
  · exact BitVec.isLt _

/-- The sign of a word of any width. -/
theorem sgn_eq_toInt {k : Nat} (hk : 0 < k) (y : BitVec k) : sgn k y.toNat = y.toInt := by
  obtain ⟨n, rfl⟩ : ∃ n, k = n + 1 := ⟨k - 1, by omega⟩
  have h2 : 2 ^ (n + 1) = 2 * 2 ^ n := by rw [Nat.pow_succ, Nat.mul_comm]
  have hlt := y.isLt
  rw [BitVec.toInt_eq_toNat_cond, sgn, Nat.add_sub_cancel, Nat.mod_eq_of_lt hlt]
  simp only [h2]
  split <;> split <;> omega

theorem sgn_toNat {w : Nat} (hw : 0 < w) (x : Word64) : sgn w x.toNat = (x.setWidth w).toInt := by
  rw [← sgn_eq_toInt hw, BitVec.toNat_setWidth]
  simp only [sgn, Nat.mod_mod]

/-- An operand is read as its type says (R64). -/
theorem intOf_eq_asInt (ty : Nat) (x : Word64) : intOf ty x = asInt ty x := by
  unfold intOf asInt
  split
  · exact sgn_toNat (by decide) x
  split
  · rw [sgn_toNat (by decide), BitVec.setWidth_eq]
  unfold tyBits
  split
  · rw [Nat.mod_eq_of_lt x.isLt]
  · rw [BitVec.toNat_setWidth]

/-! ### Results -/

/-- The low bits of an exact integer, at the width of a type. -/
theorem ofNat_wrap (ty : Nat) (x : Int) : BitVec.ofNat 64 (wrap (tyBits ty) x) = trunc ty (BitVec.ofInt 64 x) := by
  apply BitVec.eq_of_toNat_eq
  rw [trunc_toNat, BitVec.toNat_ofNat, BitVec.toNat_ofInt, wrap]
  unfold tyBits
  split <;> omega

theorem intRange_eq (ty : Nat) : intRange ty =
    (if ty = 2 ∨ ty = 4 then -2 ^ (tyBits ty - 1) else 0,
      if ty = 2 ∨ ty = 4 then 2 ^ (tyBits ty - 1) - 1 else 2 ^ tyBits ty - 1) := by
  unfold intRange
  split <;> simp

/-- Saturated, or the low bits (R66). -/
theorem intResult_eq_r66 (ty : Nat) (st : Bool) (x : Int) : intResult ty st x = r66 ty st x := by
  simp only [intResult, ofNat_wrap, intRange_eq, sat, r66, gt_iff_lt]
  rw [← tyBits]
  cases st <;> simp

/-! ### Forms of group 0 -/

theorem resultIn_congr {s t : State} {c : Cur} {g : Guard} {fields : List Nat} {d : Nat} {wide : Bool} {lat : Nat} {f f' : Nat → Word64}
    (h : ResultIn s t c g fields d wide lat f) (hf : ∀ l, f l = f' l) : ResultIn s t c g fields d wide lat f' :=
  funext hf ▸ h

section
variable (s : State) (c : Cur)

theorem resultIn_int1 (w : RF) (dw aw : Bool) (f : Word64 → Word64) :
    ResultIn s (int1 s c w dw aw f) c w.g [w.a.toNat] w.d.toNat dw 4 fun l => f (readField s c w.a.toNat l aw) :=
  resultIn_alu s c w.g w.d.toNat dw [(w.a.toNat, aw)] 4 (fun xs => f (opnd xs 0)) fun _ => 0

theorem resultIn_int2 (w : RF) (dw aw bw : Bool) (f : Word64 → Word64 → Word64) :
    ResultIn s (int2 s c w dw aw bw f) c w.g [w.a.toNat, w.b.toNat] w.d.toNat dw 4 fun l =>
      f (readField s c w.a.toNat l aw) (readField s c w.b.toNat l bw) :=
  resultIn_alu s c w.g w.d.toNat dw [(w.a.toNat, aw), (w.b.toNat, bw)] 4 (fun xs => f (opnd xs 0) (opnd xs 1)) fun _ => 0

/-- A group 0 instruction of three sources. -/
def int3 (w : RF) (dw aw bw cw : Bool) (f : Word64 → Word64 → Word64 → Word64) : State :=
  alu s c w.g [w.d.toNat] [(w.a.toNat, aw), (w.b.toNat, bw), (w.c.toNat, cw)] 4 fun xs =>
    ([(w.d.toNat, dw, f (opnd xs 0) (opnd xs 1) (opnd xs 2))], 0)

theorem resultIn_int3 (w : RF) (dw aw bw cw : Bool) (f : Word64 → Word64 → Word64 → Word64) :
    ResultIn s (int3 s c w dw aw bw cw f) c w.g [w.a.toNat, w.b.toNat, w.c.toNat] w.d.toNat dw 4 fun l =>
      f (readField s c w.a.toNat l aw) (readField s c w.b.toNat l bw) (readField s c w.c.toNat l cw) :=
  resultIn_alu s c w.g w.d.toNat dw [(w.a.toNat, aw), (w.b.toNat, bw), (w.c.toNat, cw)] 4
    (fun xs => f (opnd xs 0) (opnd xs 1) (opnd xs 2)) fun _ => 0

theorem resultIn_immInt (w : IF) (wide : Bool) (f : Word64 → Word64) :
    ResultIn s (immInt s c w wide f) c w.g [w.a.toNat] w.d.toNat wide 4 fun l => f (readField s c w.a.toNat l wide) :=
  resultIn_alu s c w.g w.d.toNat wide [(w.a.toNat, wide)] 4 (fun xs => f (opnd xs 0)) fun _ => 0

/-- One operand and result at the width of TY, as Table 3.5 and R66 say. -/
theorem resultIn_arith1 (w : RF) (f : Int → Int) :
    ResultIn s (arith1 s c w f) c w.g [w.a.toNat] w.d.toNat (isWide w.ty.toNat) 4 fun l =>
      r66 w.ty.toNat (w.md.getLsbD 0) (f (asInt w.ty.toNat (rd s c w.ty.toNat w.a.toNat l))) := by
  simp only [arith1, intResult_eq_r66, intOf_eq_asInt]
  exact resultIn_int1 ..

theorem resultIn_arith2 (w : RF) (f : Int → Int → Int) :
    ResultIn s (arith2 s c w f) c w.g [w.a.toNat, w.b.toNat] w.d.toNat (isWide w.ty.toNat) 4 fun l =>
      r66 w.ty.toNat (w.md.getLsbD 0)
        (f (asInt w.ty.toNat (rd s c w.ty.toNat w.a.toNat l)) (asInt w.ty.toNat (rd s c w.ty.toNat w.b.toNat l))) := by
  simp only [arith2, intResult_eq_r66, intOf_eq_asInt]
  exact resultIn_int2 ..

end

end Sys2Proof.Proofs
end

section
/-! SUPPORT. What an instruction adds to what waits to land: its writes, field by field and lane by lane, and the landings of
its unit (R54, R62, R65). -/

namespace Sys2Proof.Proofs

open Sys2Proof Sys2Proof.Machine Sys2Proof.Laws

/-! ### What is added -/

/-- Nothing changes but what waits to land: the writes added are such that `P` holds of them, and the events added are landings of
unit `u`. -/
structure Adds (u : UnitId) (P : PendW → Prop) (s t : State) : Prop where
  only : OnlyPending s t
  grows : Grows s t
  due : AgendaGrows s t
  events : ∀ a ∈ t.agenda, a ∈ s.agenda ∨ a.due = evU .registerLand u []
  writes : ∀ w ∈ t.pend, w ∈ s.pend ∨ P w

section
variable {u : UnitId} {P Q : PendW → Prop} {s t r : State}

theorem Adds.refl (u : UnitId) (P : PendW → Prop) (s : State) : Adds u P s s :=
  ⟨onlyPending_refl s, grows_refl s, fun _ h => h, fun _ h => .inl h, fun _ h => .inl h⟩

theorem Adds.trans (h : Adds u P s t) (k : Adds u P t r) : Adds u P s r where
  only := onlyPending_trans h.only k.only
  grows := grows_trans h.grows k.grows
  due := fun a ha => k.due a (h.due a ha)
  events := fun a ha => (k.events a ha).elim (h.events a) .inr
  writes := fun w hw => (k.writes w hw).elim (h.writes w) .inr

theorem Adds.mono (h : Adds u P s t) (hPQ : ∀ w, P w → Q w) : Adds u Q s t :=
  { h with writes := fun w hw => (h.writes w hw).imp_right (hPQ w) }

theorem adds_foldl {α : Type} {f : State → α → State} {l : List α} (h : ∀ t, ∀ a ∈ l, Adds u P t (f t a)) :
    Adds u P s (l.foldl f s) :=
  List.foldlRecOn l f (Adds.refl u P s) fun t ht a ha => ht.trans (h t a ha)

theorem adds_land {w : PendW} (hu : w.u = u) (hw : P w) : Adds u P s (s.land w) where
  only := onlyPending_land s w
  grows := grows_land s w
  due := fun _ ha => mem_schedEv_of_mem (s := { s with pend := insertPend w s.pend }) ha _ _ _
  events := fun _ ha => hu ▸ mem_of_mem_schedEv (s := { s with pend := insertPend w s.pend }) ha
  writes := fun x hx => by
    rw [land_pend, mem_insertPend] at hx
    rcases hx with rfl | hx
    · exact .inr hw
    · exact .inl hx

end

/-! ### Destination fields -/

/-- A write that the instruction issued by `c` makes to land result field `r` of lane `l`: to the field's register, or to the
second one of its pair, in that lane where the register file has lanes. -/
structure FieldWrite (c : Cur) (lat r l : Nat) (wide : Bool) (w : PendW) : Prop where
  unit : w.u = c.u
  issue : w.issue = c.cycle
  land : w.land = c.cycle + lat
  file : w.file ≠ .flags
  field : w.inField c.u.lead r = true ∨ (wide = true ∧ isV c.u.lead r = true ∧ w.file = .v ∧ w.reg = r + 1)
  lane : c.u.lead = false → w.file = .v ∨ w.file = .p → (isV c.u.lead r = true ∨ isP r = true) ∧ w.lane = l

theorem adds_landField (s : State) (c : Cur) (r l : Nat) (wide : Bool) (v : Word64) (lat op : Nat) :
    Adds c.u (FieldWrite c lat r l wide) s (landField s c r l wide v (c.cycle + lat) op) := by
  unfold landField
  dsimp only
  split
  case isTrue hv =>
    have hlow : FieldWrite c lat r l wide
        { u := c.u, file := .v, reg := r, lane := l, val := v &&& 0xFFFFFFFF#64, land := c.cycle + lat, issue := c.cycle
          op := op } :=
      ⟨rfl, rfl, rfl, nofun, .inl (by simp [PendW.inField, hv]), fun _ _ => ⟨.inl hv, rfl⟩⟩
    split
    case isTrue hw =>
      exact (adds_land rfl hlow).trans (adds_land rfl (.mk rfl rfl rfl nofun (.inr ⟨hw, hv, rfl, rfl⟩) fun _ _ => ⟨.inl hv, rfl⟩))
    case isFalse => exact adds_land rfl hlow
  case isFalse hv =>
    split
    case isTrue hs =>
      split
      case isTrue hl =>
        refine adds_land rfl (.mk rfl rfl rfl nofun (.inl ?_) fun h => absurd (hl.symm.trans h) (by decide))
        simp only [PendW.inField, if_neg hv, if_pos hs, if_pos hl, beq_self_eq_true, Bool.and_self]
      case isFalse hl =>
        refine adds_land rfl (.mk rfl rfl rfl nofun (.inl ?_) fun _ h => by simp at h)
        simp only [PendW.inField, if_neg hv, if_pos hs, if_neg hl, beq_self_eq_true, Bool.and_self]
    case isFalse hs =>
      split
      case isTrue hp =>
        refine adds_land rfl (.mk rfl rfl rfl nofun (.inl ?_) fun h _ => ⟨.inr hp, by simp [h]⟩)
        simp [PendW.inField, hv, hs, hp]
      case isFalse => exact Adds.refl ..

/-- The raise of the sticky flags that the instruction issued by `c` makes. -/
def flagWrite (c : Cur) (lat fl : Nat) : PendW :=
  { u := c.u, file := .flags, reg := 0, lane := 0, val := BitVec.ofNat 64 fl, land := c.cycle + lat, issue := c.cycle, op := 0 }

theorem adds_raise {P : PendW → Prop} {s : State} {c : Cur} {lat fl : Nat} (h : fl ≠ 0 → P (flagWrite c lat fl)) :
    Adds c.u P s (s.raise c.u fl (c.cycle + lat) c.cycle) := by
  unfold State.raise
  split
  · exact Adds.refl ..
  · next hfl => exact adds_land rfl (h hfl)

/-! ### The loop of R65 -/

theorem adds_landRes {P : PendW → Prop} {s : State} {c : Cur} {l lat : Nat} {rs : List Res}
    (h : ∀ r ∈ rs, ∀ w, FieldWrite c lat r.1 l r.2.1 w → P w) : Adds c.u P s (landRes s c l (c.cycle + lat) rs) :=
  adds_foldl (fun _ r hr => (adds_landField ..).mono (h r hr))

theorem foldl_flOr_zero {α : Type} {f : α → Nat} {l : List α} (h : ∀ a ∈ l, f a = 0) :
    l.foldl (fun a x => flOr a (f x)) 0 = 0 :=
  List.foldlRecOn (motive := fun a => a = 0) l _ rfl fun a ha x hx => by simp [ha, h x hx, flOr]

theorem adds_alu {P : PendW → Prop} {s : State} {c : Cur} {g : Guard} {ds : List Nat} {srcs : List (Nat × Bool)} {lat : Nat}
    {f : List Word64 → List Res × Nat}
    (hres : ∀ xs, ∀ r ∈ (f xs).1, ∀ l, uniform c.u.lead (ds ++ srcs.map (·.1)) = true ∨ laneCompute s c g l = true →
      ∀ w, FieldWrite c lat r.1 l r.2.1 w → P w)
    (hfl : (∀ xs, (f xs).2 = 0) ∨ ∀ fl, P (flagWrite c lat fl)) : Adds c.u P s (alu s c g ds srcs lat f) := by
  unfold alu
  dsimp only
  split
  case isTrue hu =>
    split
    · exact Adds.refl ..
    · refine (adds_landRes (fun r hr => hres _ r hr 0 (.inl hu))).trans (adds_raise fun hne => ?_)
      exact hfl.elim (fun h => absurd (h _) hne) fun h => h _
  case isFalse =>
    refine (adds_foldl fun t x hx => ?_).trans (adds_raise fun hne => ?_)
    · obtain ⟨l, hl, rfl⟩ := List.mem_map.mp hx
      exact adds_landRes (fun r hr => hres _ r hr l (.inr (List.mem_filter.mp hl).2))
    · refine hfl.elim (fun h => absurd (foldl_flOr_zero fun x hx => ?_) hne) fun h => h _
      obtain ⟨l, -, rfl⟩ := List.mem_map.mp (List.mem_filter.mp hx).1
      exact h _

end Sys2Proof.Proofs
end

section
/-! SUPPORT. Instructions of fixed latency: each adds writes to its result fields alone, of lanes that compute, and lands them its
latency after issue (O18, O19). -/

namespace Sys2Proof.Proofs

open Sys2Proof Sys2Proof.Machine Sys2Proof.Laws

/-! ### Guard, opcode and checks of an instruction -/

theorem guardOf_encRF (op : BitVec 9) (f : RF) : guardOf (encRF op f) = f.g := by
  have h := rfOf_places.dec_enc op f
  simp only [rfOf, Option.ite_none_right_eq_some, Option.some.injEq] at h
  exact congrArg RF.g h.2

theorem guardOf_encIF (op : BitVec 9) (f : IF) : guardOf (encIF op f) = f.g :=
  congrArg IF.g (Option.some.inj (ifOf_places.dec_enc op f))

theorem guardOfInstr_rf {i : Instr} {op : BitVec 9} {w : RF} (h : encode i = some (.inl (encRF op w))) : guardOfInstr i = w.g := by
  rw [guardOfInstr, h]
  exact guardOf_encRF op w

theorem guardOfInstr_if {i : Instr} {op : BitVec 9} {w : IF} (h : encode i = some (.inl (encIF op w))) : guardOfInstr i = w.g := by
  rw [guardOfInstr, h]
  exact guardOf_encIF op w

theorem opcodeOf_rf {i : Instr} {op : BitVec 9} {w : RF} (h : encode i = some (.inl (encRF op w))) : opcodeOf i = op.toNat := by
  rw [opcodeOf, h]
  exact congrArg BitVec.toNat (rfOf_places.opOf_enc op w)

theorem opcodeOf_if {i : Instr} {op : BitVec 9} {w : IF} (h : encode i = some (.inl (encIF op w))) : opcodeOf i = op.toNat := by
  rw [opcodeOf, h]
  exact congrArg BitVec.toNat (ifOf_places.opOf_enc op w)

/-- LPUSH alone has the opcode 0xD2. -/
theorem opcodeOf_ne_lpush {i : Instr} {op : BitVec 9} (hi : opcodeOf i = op.toNat) (hop : op ≠ 0xD2) : opcodeOf i ≠ 0xD2 :=
  fun h => hop (BitVec.eq_of_toNat_eq (hi.symm.trans h))

/-- What passes its decode checks, but for LPUSH, passes checks 2 to 4 by the registers of its own clause kind. -/
theorem chk_of_decodeCheck {s : State} {c : Cur} {i : Instr} (h : decodeCheck s c i = none) (hop : opcodeOf i ≠ 0xD2) :
    (chk s c c.u.lead i).c2 = true ∧ (chk s c c.u.lead i).c3 = true ∧ (chk s c c.u.lead i).c4 = true := by
  unfold decodeCheck at h
  extract_lets lead op l k at h
  split at h
  · cases h
  next h2 =>
  split at h
  · cases h
  next h3 =>
  split at h
  · cases h
  next h4 =>
  split at h
  · cases h
  next h5 =>
  have hl : l = c.u.lead := by
    simp only [kindMay, Bool.not_eq_true', Bool.not_eq_false] at h5
    simp only [l, op, if_neg hop, lead]
    cases hlead : c.u.lead
    · rfl
    · simpa [lead, hlead] using h5
  simp only [Bool.not_eq_true', Bool.not_eq_false, Bool.and_eq_true] at h2 h3 h4
  rw [← hl]
  exact ⟨h2.2, h3, h4⟩

/-! ### Result fields -/

/-- A write that an instruction of result fields `fields`, issued by `c`, makes: to one of them, in a lane that `ok` allows where the
register file has lanes, or to the sticky flags. -/
structure ResultWrite (c : Cur) (lat : Nat) (fields : List Nat) (ok : Nat → Prop) (w : PendW) : Prop where
  unit : w.u = c.u
  issue : w.issue = c.cycle
  land : w.land = c.cycle + lat
  field : w.file = .flags ∨ ∃ r ∈ fields, w.inField c.u.lead r = true
  lane : c.u.lead = false → w.file = .v ∨ w.file = .p → ok w.lane

/-- A write that an instruction of guard `g`, issued in state `s`, makes in a lane that computes. -/
abbrev LaneWrite (s : State) (c : Cur) (g : Guard) (lat : Nat) (fields : List Nat) : PendW → Prop :=
  ResultWrite c lat fields fun l => laneCompute s c g l = true

theorem flagWrite_result (c : Cur) (lat : Nat) (fields : List Nat) (ok : Nat → Prop) (fl : Nat) :
    ResultWrite c lat fields ok (flagWrite c lat fl) :=
  ⟨rfl, rfl, rfl, .inl rfl, fun _ h => by rcases h with h | h <;> cases h⟩

/-- Field `r` is a result field, and so is the second register of its pair. -/
def Covers (lead : Bool) (fields : List Nat) (r : Nat) (wide : Bool) : Prop :=
  r ∈ fields ∧ (wide = true → isV lead r = true → r + 1 ∈ fields ∧ isV lead (r + 1) = true)

theorem FieldWrite.result {c : Cur} {lat r l : Nat} {wide : Bool} {w : PendW} {fields : List Nat} {ok : Nat → Prop}
    (h : FieldWrite c lat r l wide w) (hr : Covers c.u.lead fields r wide)
    (hok : c.u.lead = false → isV c.u.lead r = true ∨ isP r = true → ok l) : ResultWrite c lat fields ok w where
  unit := h.unit
  issue := h.issue
  land := h.land
  field := by
    rcases h.field with hin | ⟨hw, hv, hfile, hreg⟩
    · exact .inr ⟨r, hr.1, hin⟩
    · obtain ⟨hmem, hv'⟩ := hr.2 hw hv
      exact .inr ⟨r + 1, hmem, by simp only [PendW.inField, if_pos hv', hfile, hreg, beq_self_eq_true, Bool.and_self]⟩
  lane hl hf := by
    obtain ⟨hcl, rfl⟩ := h.lane hl hf
    exact hok hl hcl

theorem covers_narrow (lead : Bool) {fields : List Nat} {r : Nat} (h : r ∈ fields) : Covers lead fields r false :=
  ⟨h, fun h => by cases h⟩

/-- A pair of V registers begins at an even one (R40), so that its second register is one, too. -/
def PairFits (lead wide : Bool) (d : Nat) : Prop := wide = true → isV lead d = true → isV lead (d + 1) = true

theorem covers_pairOf {lead wide : Bool} {d : Nat} (h : PairFits lead wide d) : Covers lead (pairOf lead d wide) d wide := by
  unfold Covers pairOf
  split
  · next hw =>
    rw [Bool.and_eq_true] at hw
    exact ⟨by simp, fun _ _ => ⟨by simp, h hw.1 hw.2⟩⟩
  · next hw => exact ⟨by simp, fun h1 h2 => absurd (Bool.and_eq_true _ _ ▸ ⟨h1, h2⟩) hw⟩

theorem pairFits_narrow (lead : Bool) (d : Nat) : PairFits lead false d := fun h => by cases h

theorem pairFits_of_even {lead wide : Bool} {d : Nat} (h : wide = true → isV lead d = true → d % 2 = 0) :
    PairFits lead wide d := by
  intro hw hv
  have heven := h hw hv
  simp only [isV, Bool.and_eq_true, decide_eq_true_eq] at hv ⊢
  exact ⟨hv.1, by omega⟩

theorem pairFits_of_dst {lead wide : Bool} {d : Nat} (h : dst lead wide d = true) : PairFits lead wide d := by
  refine pairFits_of_even fun hw hv => ?_
  simp only [dst, vAl, hw, hv, Bool.and_eq_true, Bool.not_true, Bool.false_or, beq_iff_eq] at h
  exact h.2

/-- A uniform field of a warp clause names no V register and no predicate (R59). -/
theorem not_lanes_of_uni {r : Nat} (h : isUni false r = true) : isV false r = false ∧ isP r = false := by
  simp [isUni, isS, isZ, isUSpec, isSpec, isV, isP] at h ⊢
  omega

theorem not_lanes_of_isSZ {r : Nat} {lead : Bool} (h : isSZ lead r = true) : isV lead r = false ∧ isP r = false := by
  cases lead <;> simp [isSZ, isS, isZ, isV, isP] at h ⊢ <;> omega

section
variable {s : State} {c : Cur} {g : Guard} {d lat : Nat} {wide : Bool}

theorem lanes_of_uniform {rs : List Nat} {r : Nat} (h : uniform c.u.lead rs = true) (hr : r ∈ rs) (hl : c.u.lead = false) :
    ¬(isV c.u.lead r = true ∨ isP r = true) := by
  rw [uniform, hl, Bool.false_or, List.all_eq_true] at h
  obtain ⟨hv, hp⟩ := not_lanes_of_uni (h r hr)
  simp [hl, hv, hp]

/-- The loop of R65 writes its destination fields in lanes that compute. -/
theorem adds_alu_result {ds : List Nat} {srcs : List (Nat × Bool)} {f : List Word64 → List Res × Nat} {fields : List Nat}
    (hf : ∀ xs, ∀ r ∈ (f xs).1, r.1 ∈ ds ∧ Covers c.u.lead fields r.1 r.2.1) :
    Adds c.u (LaneWrite s c g lat fields) s (alu s c g ds srcs lat f) := by
  refine adds_alu (fun xs r hr l hl w hw => ?_) (.inr fun fl => flagWrite_result ..)
  obtain ⟨hd, hcov⟩ := hf xs r hr
  refine hw.result hcov fun hlead hlane => ?_
  rcases hl with hu | hl
  · exact absurd hlane (lanes_of_uniform hu (List.mem_append_left _ hd) hlead)
  · exact hl

theorem adds_landField_result {s0 : State} {r l op : Nat} {v : Word64} {fields : List Nat} {ok : Nat → Prop}
    (hr : Covers c.u.lead fields r wide) (hok : c.u.lead = false → isV c.u.lead r = true ∨ isP r = true → ok l) :
    Adds c.u (ResultWrite c lat fields ok) s0 (landField s0 c r l wide v (c.cycle + lat) op) :=
  (adds_landField ..).mono fun _ h => h.result hr hok

/-- A field of an S or G register, or of Z, has no lanes. -/
theorem adds_landField_scalar {s0 : State} {r l op : Nat} {v : Word64} {fields : List Nat} {ok : Nat → Prop}
    (hd : isSZ c.u.lead r = true) (hr : r ∈ fields) :
    Adds c.u (ResultWrite c lat fields ok) s0 (landField s0 c r l wide v (c.cycle + lat) op) := by
  obtain ⟨hv, hp⟩ := not_lanes_of_isSZ hd
  exact adds_landField_result ⟨hr, by simp [hv]⟩ (by simp [hv, hp])

theorem adds_raise_result {s0 : State} {fields : List Nat} {ok : Nat → Prop} {fl : Nat} :
    Adds c.u (ResultWrite c lat fields ok) s0 (s0.raise c.u fl (c.cycle + lat) c.cycle) :=
  adds_raise fun _ => flagWrite_result ..

/-- An exchange between lanes writes its destination in lanes that compute. -/
theorem adds_xLanes {w : RF} {f : Nat → Nat → Word64} :
    Adds c.u (LaneWrite s c w.g lat [w.d.toNat]) s (xLanes s c w lat f) :=
  adds_foldl fun _ _ hl => adds_landField_result (covers_narrow _ (by simp)) fun _ _ => (List.mem_filter.mp hl).2

theorem adds_warpWide {w : RF} {f : Nat → Word64} :
    Adds c.u (LaneWrite s c w.g lat [w.d.toNat]) s (warpWide s c w lat f) := by
  unfold warpWide
  split
  · next hd => exact adds_landField_scalar hd (List.mem_singleton_self _)
  · exact adds_xLanes

end

/-! ### Instructions of fixed latency -/

/-- The lanes whose V registers and predicates an instruction may write: those that compute, but for WRLANE. -/
def MayWrite (s : State) (c : Cur) (i : Instr) (l : Nat) : Prop := laneCompute s c (guardOfInstr i) l = true ∨ ∃ w, i = .wrlane w

/-- Instruction `i` completes, with nothing new but writes to its result fields that land `lat` cycles after issue. -/
def AddsResults (i : Instr) (lat : Nat) : Prop :=
  Completes i fun s c t => Adds c.u (ResultWrite c lat (resultFields c.u.lead i) (MayWrite s c i)) s t

/-- An instruction that passes its decode checks passes the one of its registers. -/
theorem c4_of_opcode {i : Instr} {op : BitVec 9} {s : State} {c : Cur} (hck : decodeCheck s c i = none)
    (hi : opcodeOf i = op.toNat) (hop : op ≠ 0xD2) : (chk s c c.u.lead i).c4 = true :=
  (chk_of_decodeCheck hck (opcodeOf_ne_lpush hi hop)).2.2

theorem addsResults_of_effect {i : Instr} {op : BitVec 9} {lat : Nat} {f : State → Cur → State} {g : Guard} (hg : guardOfInstr i = g)
    (hi : opcodeOf i = op.toNat) (hop : op ≠ 0xD2) (hexec : ∀ s, exec i s = issue i s (f s))
    (h : ∀ s c, (chk s c c.u.lead i).c4 = true → Adds c.u (LaneWrite s c g lat (resultFields c.u.lead i)) s (f s c)) :
    AddsResults i lat := fun s c hs =>
  ⟨_, (hexec s).trans (issue_ok _ hs), (h s c (c4_of_opcode hs.2.1 hi hop)).mono fun _ hw =>
    { hw with lane := fun hl hf => .inl (hg ▸ hw.lane hl hf) }⟩

/-- The effect of an instruction of the R format adds its results. -/
theorem addsResults_rf {i : Instr} {op : BitVec 9} {lat : Nat} {f : State → Cur → State} {w : RF}
    (henc : encode i = some (.inl (encRF op w))) (hop : op ≠ 0xD2) (hexec : ∀ s, exec i s = issue i s (f s))
    (h : ∀ s c, (chk s c c.u.lead i).c4 = true → Adds c.u (LaneWrite s c w.g lat (resultFields c.u.lead i)) s (f s c)) :
    AddsResults i lat :=
  addsResults_of_effect (guardOfInstr_rf henc) (opcodeOf_rf henc) hop hexec h

/-- The effect of an instruction of the I format adds its results. -/
theorem addsResults_if {i : Instr} {op : BitVec 9} {lat : Nat} {f : State → Cur → State} {w : IF}
    (henc : encode i = some (.inl (encIF op w))) (hop : op ≠ 0xD2) (hexec : ∀ s, exec i s = issue i s (f s))
    (h : ∀ s c, (chk s c c.u.lead i).c4 = true → Adds c.u (LaneWrite s c w.g lat (resultFields c.u.lead i)) s (f s c)) :
    AddsResults i lat :=
  addsResults_of_effect (guardOfInstr_if henc) (opcodeOf_if henc) hop hexec h

/-- One result that runs through the loop of R65. -/
theorem adds_alu_single {s : State} {c : Cur} {g : Guard} {d lat : Nat} {wide : Bool} {srcs : List (Nat × Bool)}
    {f : List Word64 → List Res × Nat} (hf : ∀ xs, ∃ v, (f xs).1 = [(d, wide, v)]) (hpair : PairFits c.u.lead wide d) :
    Adds c.u (LaneWrite s c g lat (pairOf c.u.lead d wide)) s (alu s c g [d] srcs lat f) := by
  refine adds_alu_result fun xs r hr => ?_
  obtain ⟨v, hv⟩ := hf xs
  rw [hv, List.mem_singleton] at hr
  subst hr
  exact ⟨List.mem_singleton_self d, covers_pairOf hpair⟩

/-- A result of 32 bits. -/
theorem adds_alu_narrow {s : State} {c : Cur} {g : Guard} {d lat : Nat} {srcs : List (Nat × Bool)}
    {f : List Word64 → List Res × Nat} (hf : ∀ xs, ∃ v, (f xs).1 = [(d, false, v)]) :
    Adds c.u (LaneWrite s c g lat [d]) s (alu s c g [d] srcs lat f) :=
  adds_alu_single hf fun h => by cases h

theorem regs_of_aluChk {lead : Bool} {g : Guard} {d : Nat} {uses : List Nat} {md ty regs : Bool}
    (h : (aluChk lead g d uses md ty regs).c4 = true) : regs = true :=
  (Bool.and_eq_true .. ▸ h).1

/-- The check of the registers begins with the destination's. -/
theorem dst_of_aluChk {lead : Bool} {g : Guard} {d : Nat} {uses : List Nat} {md ty dstOk a b c : Bool}
    (h : (aluChk lead g d uses md ty (dstOk && a && b && c)).c4 = true) : dstOk = true := by
  have hregs := regs_of_aluChk h
  simp only [Bool.and_eq_true] at hregs
  exact hregs.1.1.1

section
variable {s : State} {c : Cur} {lat : Nat}

theorem adds_int1 {w : RF} {dw aw : Bool} {f : Word64 → Word64} (h : PairFits c.u.lead dw w.d.toNat) :
    Adds c.u (LaneWrite s c w.g 4 (pairOf c.u.lead w.d.toNat dw)) s (int1 s c w dw aw f) :=
  adds_alu_single (fun _ => ⟨_, rfl⟩) h

theorem adds_int2 {w : RF} {dw aw bw : Bool} {f : Word64 → Word64 → Word64} (h : PairFits c.u.lead dw w.d.toNat) :
    Adds c.u (LaneWrite s c w.g 4 (pairOf c.u.lead w.d.toNat dw)) s (int2 s c w dw aw bw f) :=
  adds_alu_single (fun _ => ⟨_, rfl⟩) h

/-! An operation that is `int1` or `int2` of the operands at the width of TY. -/

theorem adds_arith1 {w : RF} {f : Int → Int} (h : PairFits c.u.lead (isWide w.ty.toNat) w.d.toNat) :
    Adds c.u (LaneWrite s c w.g 4 (pairOf c.u.lead w.d.toNat (isWide w.ty.toNat))) s (arith1 s c w f) := by
  unfold arith1
  exact adds_int1 h

theorem adds_arith2 {w : RF} {f : Int → Int → Int} (h : PairFits c.u.lead (isWide w.ty.toNat) w.d.toNat) :
    Adds c.u (LaneWrite s c w.g 4 (pairOf c.u.lead w.d.toNat (isWide w.ty.toNat))) s (arith2 s c w f) := by
  unfold arith2
  exact adds_int2 h

theorem adds_logic2 {w : RF} {f : Word64 → Word64 → Word64} (h : PairFits c.u.lead (isWide w.ty.toNat) w.d.toNat) :
    Adds c.u (LaneWrite s c w.g 4 (pairOf c.u.lead w.d.toNat (isWide w.ty.toNat))) s (logic2 s c w f) := by
  unfold logic2
  exact adds_int2 h

theorem adds_shift {w : RF} {op : Nat} (h : PairFits c.u.lead (isWide w.ty.toNat) w.d.toNat) :
    Adds c.u (LaneWrite s c w.g 4 (pairOf c.u.lead w.d.toNat (isWide w.ty.toNat))) s (shift s c w op) := by
  unfold shift
  dsimp only
  split
  · exact adds_int1 h
  · exact adds_int2 h

theorem adds_immInt {w : IF} {wide : Bool} {f : Word64 → Word64} (h : PairFits c.u.lead wide w.d.toNat) :
    Adds c.u (LaneWrite s c w.g 4 (pairOf c.u.lead w.d.toNat wide)) s (immInt s c w wide f) :=
  adds_alu_single (fun _ => ⟨_, rfl⟩) h

theorem adds_fElem {w : RF} {srcs : List (BitVec 8)} {f : Fmt → List Nat → Nat × Nat} :
    Adds c.u (LaneWrite s c w.g lat [w.d.toNat]) s (fElem s c w srcs lat f) := by
  unfold fElem
  exact adds_alu_narrow fun _ => ⟨_, rfl⟩

end

theorem not_isV_of_isP {lead : Bool} {d : Nat} (h : isP d = true) : isV lead d = false := by
  simp [isP, isV] at h ⊢
  omega

theorem addsResults_lea (w : RF) : AddsResults (.lea w) 4 := by
  refine addsResults_rf rfl (by decide) (fun _ => rfl) fun s c h4 => adds_int2 (pairFits_of_dst ?_)
  exact dst_of_aluChk h4

theorem addsResults_movhi (w : IF) : AddsResults (.movhi w) 4 := by
  refine addsResults_if rfl (by decide) (fun _ => rfl) fun s c h4 => adds_immInt (pairFits_of_dst ?_)
  have h := regs_of_aluChk h4
  simp only [Bool.and_eq_true] at h
  exact h.1

theorem addsResults_mov (w : RF) : AddsResults (.mov w) 4 := by
  refine addsResults_rf rfl (by decide) (fun _ => rfl) fun s c h4 => adds_int1 ?_
  have h := dst_of_aluChk h4
  rcases Bool.or_eq_true _ _ ▸ h with hd | hd
  · exact pairFits_of_dst hd
  · intro _ hv
    rw [not_isV_of_isP hd] at hv
    cases hv

theorem isWide_iaddi (b : Bool) : isWide (if b then 4 else 2) = b := by cases b <;> rfl

theorem addsResults_iaddi (w : IF) : AddsResults (.iaddi w) 4 := by
  refine addsResults_if rfl (by decide) (fun _ => rfl) fun s c h4 => ?_
  have h := regs_of_aluChk h4
  simp only [Bool.and_eq_true] at h
  dsimp only [resultFields]
  rw [isWide_iaddi]
  refine adds_immInt fun hw => pairFits_of_dst h.1 (decide_eq_true ?_)
  simpa [BitVec.getLsbD] using hw

theorem addsResults_movi (w : IF) : AddsResults (.movi w) 4 := by
  refine addsResults_if rfl (by decide) (fun _ => rfl) fun s c h4 => adds_alu_result fun xs r hr => ?_
  obtain rfl := List.mem_singleton.mp hr
  refine ⟨by simp, List.mem_singleton_self _, fun hw hv => ?_⟩
  simp [hv] at hw

theorem addsResults_iaddc (w : RF) : AddsResults (.iaddc w) 4 := by
  refine addsResults_rf rfl (by decide) (fun _ => rfl) fun s c h4 => adds_alu_result fun xs r hr => ?_
  have h : (_ && (!isWide w.ty.toNat || vAl c.u.lead 2 w.d.toNat) && _ && _ && _) = true := h4
  simp only [Bool.and_eq_true] at h
  obtain ⟨⟨⟨⟨-, hal⟩, -⟩, -⟩, -⟩ := h
  have hfits : PairFits c.u.lead (isWide w.ty.toNat) w.d.toNat := pairFits_of_even fun hw hv => by
    simpa [vAl, hw, hv] using hal
  rcases List.mem_cons.mp hr with rfl | hr
  · obtain ⟨hmem, hpair⟩ := covers_pairOf hfits
    refine ⟨by split <;> simp, List.mem_append_left _ hmem, fun hw hv => ?_⟩
    exact ⟨List.mem_append_left _ (hpair hw hv).1, (hpair hw hv).2⟩
  · split at hr
    · cases hr
    · next hco =>
      obtain rfl := List.mem_singleton.mp hr
      rw [if_neg hco]
      exact ⟨by simp, covers_narrow _ (List.mem_append_right _ (if_neg hco ▸ List.mem_singleton_self _))⟩

theorem addsResults_rdlane (w : RF) : AddsResults (.rdlane w) 8 := by
  refine addsResults_rf rfl (by decide) (fun _ => rfl) fun s c h4 => ?_
  have h : (isSZ c.u.lead w.d.toNat && _ && _ && _ && _) = true := h4
  simp only [Bool.and_eq_true] at h
  exact adds_landField_scalar h.1.1.1.1 (List.mem_singleton_self _)

/-- A read of the group's own state into `w.d`: nothing without a group, or under a lead stream's false guard. -/
def groupRead (s : State) (c : Cur) (w : RF) (f : Group → Word64) : State :=
  match s.groupOf c.u with
  | some g => if !ctlOk s c w.g then s else landField s c w.d.toNat 0 true (f g) (c.cycle + 4) 0
  | none => s

theorem adds_groupRead {s : State} {c : Cur} {w : RF} {f : Group → Word64} (hd : isSZ c.u.lead w.d.toNat = true) :
    Adds c.u (LaneWrite s c w.g 4 [w.d.toNat]) s (groupRead s c w f) := by
  unfold groupRead
  split
  · split
    · exact Adds.refl ..
    · exact adds_landField_scalar hd (List.mem_singleton_self _)
  · exact Adds.refl ..

theorem addsResults_barst (w : RF) : AddsResults (.barst w) 4 := by
  refine addsResults_rf (f := fun s c => groupRead s c w fun g =>
    BitVec.ofNat 64 ((bValue g (w.a.toNat % 16) c.cycle).word c.cycle)) rfl (by decide) (fun _ => rfl) fun s c h4 => adds_groupRead ?_
  have h : (isSZ c.u.lead w.d.toNat && _ && _ && _) = true := h4
  simp only [Bool.and_eq_true] at h
  exact h.1.1.1

theorem addsResults_krd (w : RF) : AddsResults (.krd w) 4 := by
  refine addsResults_rf (f := fun s c => groupRead s c w fun g =>
    BitVec.ofNat 64 (kValue g (w.a.toNat % 16) c.cycle).word) rfl (by decide) (fun _ => rfl) fun s c h4 => adds_groupRead ?_
  have h : (isSZ c.u.lead w.d.toNat && _ && _ && _) = true := h4
  simp only [Bool.and_eq_true] at h
  exact h.1.1.1

theorem addsResults_xmov (w : RF) : AddsResults (.xmov w) 8 := by
  refine addsResults_rf rfl (by decide) (fun _ => rfl) fun s c h4 => ?_
  have h : ((if isS c.u.lead w.a.toNat then isSZ c.u.lead w.d.toNat else _) && _ && _) = true := h4
  simp only [Bool.and_eq_true] at h
  split
  · exact Adds.refl ..
  · dsimp only
    split
    · next hs =>
      rw [if_pos hs] at h
      exact adds_landField_scalar h.1.1 (List.mem_singleton_self _)
    · exact adds_xLanes

theorem addsResults_wrlane (w : RF) : AddsResults (.wrlane w) 8 := by
  intro s c hi
  refine ⟨_, issue_ok _ hi, ?_⟩
  have h : (_ && (!isWide w.ty.toNat || w.d.toNat % 2 == 0) && _ && _ && _) = true :=
    c4_of_opcode hi.2.1 (opcodeOf_rf rfl) (by decide)
  simp only [Bool.and_eq_true, Bool.or_eq_true, Bool.not_eq_true', beq_iff_eq] at h
  obtain ⟨⟨⟨⟨-, heven⟩, -⟩, -⟩, -⟩ := h
  have hfits : PairFits c.u.lead (isWide w.ty.toNat) w.d.toNat := pairFits_of_even fun hw _ => by
    simpa [hw] using heven
  have hok (l : Nat) : c.u.lead = false → isV c.u.lead w.d.toNat = true ∨ isP w.d.toNat = true → MayWrite s c (.wrlane w) l :=
    fun _ _ => .inr ⟨w, rfl⟩
  have hone (s0 : State) (l : Nat) (v : Word64) :=
    adds_landField_result (s0 := s0) (op := 0) (v := v) (lat := 8) (covers_pairOf hfits) (hok l)
  dsimp only
  split
  · exact Adds.refl ..
  split
  · exact (hone ..).trans (hone ..)
  · exact hone ..

theorem laneWrite_onlyPending {s t : State} (h : OnlyPending s t) : LaneWrite t = LaneWrite s := by
  rw [h]
  rfl

section
variable {s : State} {c : Cur} {w : RF}

/-- One side of a QNT writes the code register and, when it is one, the V register of the scale, in lanes that compute. -/
theorem adds_quantSide {side : Nat} {q : List Nat × Nat × Nat} :
    Adds c.u (LaneWrite s c w.g 12 [w.d.toNat, w.c.toNat]) s (quantSide s c w side q) := by
  refine adds_foldl fun t l hl => ?_
  have hok : laneCompute s c w.g l = true := (Bool.and_eq_true _ _ ▸ (List.mem_filter.mp hl).2).1
  have hland {t : State} {r : Nat} {v : Word64} (hr : r ∈ [w.d.toNat, w.c.toNat]) :
      Adds c.u (LaneWrite s c w.g 12 [w.d.toNat, w.c.toNat]) t
        (landField t c r l false v (c.cycle + 12) 0) :=
    adds_landField_result (covers_narrow _ hr) fun _ _ => hok
  dsimp only
  split
  · exact (hland (by simp)).trans (hland (by simp))
  · exact hland (by simp)

theorem adds_quantSides (p : Bool) (q0 q1 : List Nat × Nat × Nat) :
    Adds c.u (LaneWrite s c w.g 12 [w.d.toNat, w.c.toNat]) s
      (if p then quantSide (quantSide s c w 0 q0) c w 1 q1 else quantSide s c w 0 q0) := by
  have h0 : Adds c.u (LaneWrite s c w.g 12 [w.d.toNat, w.c.toNat]) s (quantSide s c w 0 q0) :=
    adds_quantSide
  split
  · refine h0.trans ?_
    rw [← laneWrite_onlyPending h0.only]
    exact adds_quantSide
  · exact h0

/-- A QNT whose scale goes to an S register writes it once. -/
theorem adds_quantScale {ok : Nat → Prop} (v : Word64) :
    Adds c.u (ResultWrite c 12 [w.d.toNat, w.c.toNat] ok) s
      (if isS c.u.lead w.c.toNat then landField s c w.c.toNat 0 false v (c.cycle + 12) 0 else s) := by
  split
  · next hs => exact adds_landField_scalar (by rw [isSZ, hs, Bool.true_or]) (by simp)
  · exact Adds.refl ..

end

theorem addsResults_qnt (w : RF) : AddsResults (.qnt w) 12 := by
  refine addsResults_rf rfl (by decide) (fun _ => rfl) fun s c h4 => ?_
  dsimp only
  split
  · exact Adds.refl ..
  · exact ((adds_quantSides ..).trans (adds_quantScale _)).trans adds_raise_result

theorem addsResults_dqnt (w : RF) : AddsResults (.dqnt w) 12 := by
  refine addsResults_rf rfl (by decide) (fun _ => rfl) fun s c h4 => (adds_foldl fun t r hr => ?_).trans adds_raise_result
  obtain ⟨l, hl, rfl⟩ := List.mem_map.mp hr
  refine adds_foldl fun t x hx => adds_landField_result (covers_narrow _ ?_) fun _ _ => (List.mem_filter.mp hl).2
  refine List.mem_map.mpr ⟨x.2, List.mem_range.mpr ?_, rfl⟩
  have hlt := List.snd_lt_of_mem_zipIdx hx
  split at hlt <;> simp_all [dqLane]

/-- Every instruction of fixed latency adds its results alone; the cases are the instructions whose effects have one form. -/
theorem addsResults_of_fixedLatency {i : Instr} {lat : Nat} (h : fixedLatency i = some lat) : AddsResults i lat := by
  cases i with
  | iadd w | isub w | imul w | imulh w | imin w | imax w =>
    cases h
    exact addsResults_rf rfl (by decide) (fun _ => rfl) fun s c h4 => adds_arith2 <|
      pairFits_of_dst (dst_of_aluChk h4)
  | and w | or w | xor w | andn w =>
    cases h
    exact addsResults_rf rfl (by decide) (fun _ => rfl) fun s c h4 => adds_logic2 <|
      pairFits_of_dst (dst_of_aluChk h4)
  | iabs w | ineg w =>
    cases h
    exact addsResults_rf rfl (by decide) (fun _ => rfl) fun s c h4 => adds_arith1 <|
      pairFits_of_dst (dst_of_aluChk h4)
  | not w | popc w | clz w | ffs w | brev w =>
    cases h
    exact addsResults_rf rfl (by decide) (fun _ => rfl) fun s c h4 => adds_int1 <|
      pairFits_of_dst (dst_of_aluChk h4)
  | shl w | shr w | sar w | rotl w =>
    cases h
    exact addsResults_rf rfl (by decide) (fun _ => rfl) fun s c h4 => adds_shift <|
      pairFits_of_dst (dst_of_aluChk h4)
  | imad w | sel w | unpk w =>
    cases h
    refine addsResults_rf rfl (by decide) (fun _ => rfl) fun s c h4 => adds_alu_single ?_ <|
      pairFits_of_dst (dst_of_aluChk h4)
    exact fun _ => ⟨_, rfl⟩
  | bfe w | bfi w | icmp w | plop w | fcmp w | fdot2 w | cvtf w | cvti w | cvtfi w | pack2 w | pack4 w | qdesc w =>
    cases h
    refine addsResults_rf rfl (by decide) (fun _ => rfl) fun s c h4 => adds_alu_narrow ?_
    exact (fun _ => ⟨_, rfl⟩)
  | dot4 w =>
    cases h
    refine addsResults_rf rfl (by decide) (fun _ => rfl) fun s c h4 => adds_alu_narrow fun xs => ?_
    dsimp only
    split <;> exact ⟨_, rfl⟩
  | fadd w | fsub w | fmul w | ffma w | fmin w | fmax w | fabs w | fneg w | frnd w | fclass w | fscale w
  | frcp w | frsq w | fsqrt w | fexp2 w | flog2 w | fsin w | fcos w | ftanh w =>
    cases h
    exact addsResults_rf rfl (by decide) (fun _ => rfl) fun s c h4 => adds_fElem
  | qswph w | qswpv w | qswpd w | qbc w | shfl w | shflu w | shfld w | shflx w | matchLanes w | lpopc w =>
    cases h
    exact addsResults_rf rfl (by decide) (fun _ => rfl) fun s c h4 => adds_xLanes
  | vote w | ballot w =>
    cases h
    exact addsResults_rf rfl (by decide) (fun _ => rfl) fun s c h4 => adds_warpWide
  | wreduce w =>
    cases h
    exact addsResults_rf rfl (by decide) (fun _ => rfl) fun s c h4 => adds_warpWide.trans adds_raise_result
  | wscan w =>
    cases h
    exact addsResults_rf rfl (by decide) (fun _ => rfl) fun s c h4 => adds_xLanes.trans adds_raise_result
  | imuli w | andi w | ori w | xori w | icmpi w =>
    cases h
    exact addsResults_if rfl (by decide) (fun _ => rfl) fun s c h4 => adds_immInt (pairFits_narrow _ _)
  | lea w => exact Option.some.inj h ▸ addsResults_lea w
  | mov w => exact Option.some.inj h ▸ addsResults_mov w
  | movhi w => exact Option.some.inj h ▸ addsResults_movhi w
  | iaddi w => exact Option.some.inj h ▸ addsResults_iaddi w
  | movi w => exact Option.some.inj h ▸ addsResults_movi w
  | iaddc w => exact Option.some.inj h ▸ addsResults_iaddc w
  | qnt w => exact Option.some.inj h ▸ addsResults_qnt w
  | dqnt w => exact Option.some.inj h ▸ addsResults_dqnt w
  | rdlane w => exact Option.some.inj h ▸ addsResults_rdlane w
  | wrlane w => exact Option.some.inj h ▸ addsResults_wrlane w
  | xmov w => exact Option.some.inj h ▸ addsResults_xmov w
  | barst w => exact Option.some.inj h ▸ addsResults_barst w
  | krd w => exact Option.some.inj h ▸ addsResults_krd w
  | _ => cases h

/-- Settles O18: what is added is writes to result fields, or raises of flags, and the landings of the unit. -/
theorem fixedLatencyFrame : Obligations.FixedLatencyFrame := by
  intro i lat hi s c hs
  obtain ⟨t, ht, h⟩ := addsResults_of_fixedLatency hi s c hs
  refine ⟨t, ht, h.only, h.grows, h.due, h.events, fun w hw => (h.writes w hw).imp_right fun hr => ?_⟩
  exact ⟨hr.unit, hr.issue, hr.land, hr.field⟩

/-- Settles O19: each write to a V register or a predicate is one of the loop over the lanes that compute, but for WRLANE's. -/
theorem onlyComputingLanesWrite : Obligations.OnlyComputingLanesWrite := by
  intro i lat hi hne s c hs
  obtain ⟨t, ht, h⟩ := addsResults_of_fixedLatency hi s c hs
  refine ⟨t, ht, fun hl w hw => (h.writes w hw).imp_right fun hr => ?_⟩
  by_cases hlane : w.file = .v ∨ w.file = .p
  · exact .inr ((hr.lane hl hlane).resolve_right fun ⟨x, hx⟩ => hne x hx)
  · exact .inl (not_or.mp hlane)

end Sys2Proof.Proofs
end

section
/-! SUPPORT. Integer arithmetic (O10). -/

namespace Sys2Proof.Proofs

open Sys2Proof Sys2Proof.Machine Sys2Proof.Laws

theorem resultIn_imad (s : State) (c : Cur) (w : RF) :
    ResultIn s (int3 s c w (isWide w.ty.toNat) (isWide w.ty.toNat) (isWide w.ty.toNat) (isWide w.ty.toNat) fun a b x =>
        intResult w.ty.toNat (w.md.getLsbD 0) (intOf w.ty.toNat a * intOf w.ty.toNat b + intOf w.ty.toNat x)) c w.g
      [w.a.toNat, w.b.toNat, w.c.toNat] w.d.toNat (isWide w.ty.toNat) 4 fun l =>
        r66 w.ty.toNat (w.md.getLsbD 0)
          (asInt w.ty.toNat (rd s c w.ty.toNat w.a.toNat l) * asInt w.ty.toNat (rd s c w.ty.toNat w.b.toNat l) +
            asInt w.ty.toNat (rd s c w.ty.toNat w.c.toNat l)) := by
  simp only [intResult_eq_r66, intOf_eq_asInt]
  exact resultIn_int3 ..

/-- The upper half of a product. -/
theorem ediv_width (ty : Nat) (x : Int) :
    x / ((2 ^ tyBits ty : Nat) : Int) = x.fdiv (if isWide ty then 2 ^ 64 else 2 ^ 32) := by
  rw [Int.fdiv_eq_ediv_of_nonneg]
  · unfold tyBits
    split <;> rfl
  · split <;> decide

/-- Of what waits, only what waited before raises flags. -/
def NoNewFlags (s t : State) : Prop := ∀ p ∈ t.pend, p ∈ s.pend ∨ p.file ≠ .flags

/-- A result without flags raises none. -/
theorem alu_noNewFlags {s : State} {c : Cur} {g : Guard} {ds : List Nat} {srcs : List (Nat × Bool)} {lat : Nat}
    {f : List Word64 → List Res × Nat} (hf : ∀ xs, (f xs).2 = 0) : NoNewFlags s (alu s c g ds srcs lat f) :=
  (adds_alu (P := fun p => p.file ≠ .flags) (fun _ _ _ _ _ _ hw => hw.file) (.inl hf)).writes

/-- An instruction whose MOD must be zero fails a check with another one. -/
theorem decodeCheck_ne_none_of_md {i : Instr} {op : BitVec 9} {w : RF} {s : State} {c : Cur} (hi : opcodeOf i = op.toNat)
    (hop : op ≠ 0xD2) (hmd : ∀ lead, (chk s c lead i).c2 = true → w.md = 0) (h : w.md ≠ 0) : decodeCheck s c i ≠ none :=
  fun hck => h (hmd _ (chk_of_decodeCheck hck (opcodeOf_ne_lpush hi hop)).1)

theorem md_of_chk2 {lead : Bool} {w : RF} {tys : List Nat} {dw aw bw : Bool} (h : (chk2 lead w tys (w.md == 0) dw aw bw).c2 = true) :
    w.md = 0 :=
  beq_iff_eq.mp (Bool.and_eq_true .. ▸ h).1

/-- Settles O10: the exact value of Table 3.5 of the operands as TY reads them goes through R66, and no flag is formed. -/
theorem integerArithmeticResults : Obligations.IntegerArithmeticResults := by
  refine ⟨fun w s c h => ⟨_, issue_ok _ h, ?add⟩, fun w s c h => ⟨_, issue_ok _ h, ?sub⟩,
    fun w s c h => ⟨_, issue_ok _ h, ?mul⟩, fun w s c h => ⟨_, issue_ok _ h, ?mulh⟩, fun w s c h => ⟨_, issue_ok _ h, ?min⟩,
    fun w s c h => ⟨_, issue_ok _ h, ?max⟩, fun w s c h => ⟨_, issue_ok _ h, ?mad⟩, fun w s c h => ⟨_, issue_ok _ h, ?abs⟩,
    fun w s c h => ⟨_, issue_ok _ h, ?neg⟩, ?flags, ?md⟩
  case add => exact resultIn_arith2 s c w fun a b => a + b
  case sub => exact resultIn_arith2 s c w fun a b => a - b
  case mul => exact resultIn_arith2 s c w fun a b => a * b
  case mulh =>
    refine resultIn_congr (resultIn_arith2 s c w fun a b => a * b / ((2 ^ tyBits w.ty.toNat : Nat) : Int)) fun l => ?_
    rw [ediv_width]
  case min =>
    refine resultIn_congr (resultIn_arith2 s c w fun a b => if b < a then b else a) fun l => ?_
    rw [← min_def_lt, min_comm]
  case max =>
    refine resultIn_congr (resultIn_arith2 s c w fun a b => if a < b then b else a) fun l => ?_
    rw [← max_def_lt]
  case mad => exact resultIn_imad s c w
  case abs => exact resultIn_arith1 s c w fun a => ((a.natAbs : Nat) : Int)
  case neg => exact resultIn_arith1 s c w fun a => -a
  case flags =>
    rintro w i (rfl | rfl | rfl | rfl | rfl | rfl | rfl | rfl | rfl) s c h
    all_goals exact ⟨_, issue_ok _ h, alu_noNewFlags fun _ => rfl⟩
  case md =>
    rintro w s c i (rfl | rfl | rfl) hmd
    all_goals exact decodeCheck_ne_none_of_md (opcodeOf_rf rfl) (by decide) (fun _ => md_of_chk2) hmd

end Sys2Proof.Proofs
end

section
/-! SUPPORT. Logic, compare, select and move instructions, and the I-format ones (O11, O16, O17). -/

namespace Sys2Proof.Proofs

open Sys2Proof Sys2Proof.Machine Sys2Proof.Laws

/-! ### Logic -/

/-- Two operands and a result at the width of TY, bit by bit. -/
theorem resultIn_logic2 (s : State) (c : Cur) (w : RF) (f : Word64 → Word64 → Word64) :
    ResultIn s (logic2 s c w f) c w.g [w.a.toNat, w.b.toNat] w.d.toNat (isWide w.ty.toNat) 4 fun l =>
      f (rd s c w.ty.toNat w.a.toNat l) (rd s c w.ty.toNat w.b.toNat l) :=
  resultIn_int2 s c w _ _ _ f

/-- Settles O11: each is one bitwise operation on the operands as TY reads them. -/
theorem logicResults : Obligations.LogicResults :=
  ⟨fun w s c h => ⟨_, issue_ok _ h, resultIn_logic2 s c w fun a b => a &&& b⟩,
   fun w s c h => ⟨_, issue_ok _ h, resultIn_logic2 s c w fun a b => a ||| b⟩,
   fun w s c h => ⟨_, issue_ok _ h, resultIn_logic2 s c w fun a b => a ^^^ b⟩,
   fun w s c h => ⟨_, issue_ok _ h, resultIn_logic2 s c w fun a b => a &&& ~~~b⟩,
   fun w s c h => ⟨_, issue_ok _ h, resultIn_int1 s c w _ _ fun a => ~~~a⟩⟩

/-! ### Comparisons -/

/-- The relation codes of Table 3.6. -/
theorem intCond_eq (k : Nat) (a b : Int) : intCond k a b = if k = 0 then decide (a = b) else if k = 1 then decide (a ≠ b)
    else if k = 2 then decide (a < b) else if k = 3 then decide (a ≤ b) else if k = 4 then decide (a > b) else decide (a ≥ b) := by
  match k with
  | 0 | 2 | 3 | 4 => rfl
  | 1 => exact (decide_not ..).symm
  | k + 5 => simp [intCond]

theorem intCond_iff (k : Nat) (a b : Int) : intCond k a b = true ↔ if k = 0 then a = b else if k = 1 then a ≠ b
    else if k = 2 then a < b else if k = 3 then a ≤ b else if k = 4 then a > b else a ≥ b := by
  rw [intCond_eq]
  split_ifs <;> exact decide_eq_true_iff

/-- The combine modes of Table 3.6. -/
theorem combine_eq (m : Nat) (t k : Bool) :
    combine m t k = if m = 0 then t else if m = 1 then t && k else if m = 2 then t || k else t ^^ k := by
  match m with
  | 0 | 1 | 2 => rfl
  | m + 3 => simp [combine]

/-- The value that ICMP lands: its relation of two operands, combined with a predicate (R72). -/
def cmpValue (w : RF) (a b x : Word64) : Word64 :=
  bit64 (combine (w.md.toNat / 8 % 4) (intCond (w.md.toNat % 8) (intOf w.ty.toNat a) (intOf w.ty.toNat b)) (x.getLsbD 0))

/-- ICMP reads C only to combine with it. -/
theorem resultIn_cmpValue (s : State) (c : Cur) (w : RF) :
    ResultIn s (alu s c w.g [w.d.toNat] ([(w.a.toNat, isWide w.ty.toNat), (w.b.toNat, isWide w.ty.toNat)] ++
        if w.md.toNat / 8 % 4 = 0 then [] else [(w.c.toNat, false)]) 4 fun xs =>
          ([(w.d.toNat, false, cmpValue w (opnd xs 0) (opnd xs 1) (opnd xs 2))], 0)) c w.g
      ([w.a.toNat, w.b.toNat] ++ if w.md.toNat / 8 % 4 = 0 then [] else [w.c.toNat]) w.d.toNat false 4 fun l =>
        cmpValue w (rd s c w.ty.toNat w.a.toNat l) (rd s c w.ty.toNat w.b.toNat l) (readField s c w.c.toNat l false) := by
  have h (srcs) := resultIn_alu s c w.g w.d.toNat false srcs 4 (fun xs => cmpValue w (opnd xs 0) (opnd xs 1) (opnd xs 2)) fun _ => 0
  by_cases hm : w.md.toNat / 8 % 4 = 0
  · rw [if_pos hm, if_pos hm]
    refine resultIn_congr (h _) fun l => ?_
    simp only [cmpValue, hm, combine]
    rfl
  · rw [if_neg hm, if_neg hm]
    exact h _

/-! ### The obligations -/

/-- Settles O16: each lands one function of its operands; those of ICMP are the tables of its codes. -/
theorem compareSelectMoveResults : Obligations.CompareSelectMoveResults := by
  refine ⟨fun w s c h => ⟨_, issue_ok _ h, ?icmp⟩, fun w s c h => ⟨_, issue_ok _ h, ?sel⟩,
    fun w s c h => ⟨_, issue_ok _ h, ?mov⟩, fun w s c h => ⟨_, issue_ok _ h, ?plop⟩, fun w s c h => ⟨_, issue_ok _ h, ?lea⟩⟩
  case icmp =>
    refine resultIn_congr (resultIn_cmpValue s c w) fun l => ?_
    rw [cmpValue, intCond_eq, combine_eq, intOf_eq_asInt, intOf_eq_asInt]
    rfl
  case sel =>
    refine resultIn_congr (resultIn_int3 s c w _ _ _ false fun a b x => if x = 0 then b else a) fun l => ?_
    exact (ite_not ..).symm
  case mov => exact resultIn_int1 s c w _ _ fun a => a
  case plop =>
    exact resultIn_int3 s c w false false false false fun a b x =>
      bit64 (w.md.getLsbD (4 * a.toNat + 2 * b.toNat + x.toNat))
  case lea =>
    exact resultIn_int2 s c w true true false fun a b =>
      a + ((if w.md.getLsbD 3 then (b.setWidth 32).signExtend 64 else b) <<< (w.md.toNat % 8))

/-- A 32-bit read of a field is the low half of a 64-bit one (R62). -/
theorem readField_narrow (s : State) (c : Cur) (r l : Nat) :
    readField s c r l false = readField s c r l true &&& 0xFFFFFFFF#64 := by
  simp only [readField, Bool.false_eq_true, if_false, if_true]
  split
  · apply BitVec.eq_of_toNat_eq
    rw [and_mask32_toNat, and_mask32_toNat, BitVec.toNat_or, BitVec.toNat_or, Nat.or_mod_two_pow, Nat.or_mod_two_pow,
      BitVec.toNat_shiftLeft, Nat.shiftLeft_eq]
    congr 1
    have h0 : (0 : Word64).toNat % 2 ^ 32 = 0 := rfl
    omega
  · rfl

/-- MOVHI's two halves. -/
theorem append_low (i : BitVec 32) (x : Word64) :
    (i.setWidth 64 <<< 32) ||| (x &&& 0xFFFFFFFF#64) = i ++ (x &&& 0xFFFFFFFF#64).setWidth 32 := by
  apply BitVec.eq_of_toNat_eq
  rw [BitVec.toNat_or, BitVec.toNat_append, BitVec.toNat_setWidth, and_mask32_toNat, Nat.mod_mod, BitVec.toNat_shiftLeft,
    BitVec.toNat_setWidth, Nat.shiftLeft_eq, Nat.shiftLeft_eq]
  congr 1
  omega

theorem bit64_eq_ite {b : Bool} {p : Prop} [Decidable p] (h : b = true ↔ p) : bit64 b = if p then 1#64 else 0#64 :=
  if_congr h rfl rfl

/-- The relation codes in the MOD of ICMPI. -/
theorem intCond_md_iff (md : BitVec 3) (a b : Int) : intCond md.toNat a b = true ↔ if md = 0 then a = b else if md = 1 then a ≠ b
    else if md = 2 then a < b else if md = 3 then a ≤ b else if md = 4 then a > b else a ≥ b := by
  simp only [intCond_iff, ← BitVec.toNat_inj]
  rfl

/-- Settles O17: each lands one function of its operand and its immediate. -/
theorem immediateResults : Obligations.ImmediateResults := by
  refine ⟨fun w s c h => ⟨_, issue_ok _ h, ?movi⟩, fun w s c h => ⟨_, issue_ok _ h, ?movhi⟩,
    fun w s c h => ⟨_, issue_ok _ h, ?iaddi⟩, fun w s c h => ⟨_, issue_ok _ h, ?imuli⟩,
    fun w s c h => ⟨_, issue_ok _ h, ?andi⟩,
    fun w s c h => ⟨_, issue_ok _ h, ?ori⟩, fun w s c h => ⟨_, issue_ok _ h, ?xori⟩,
    fun w s c h => ⟨_, issue_ok _ h, ?icmpi⟩⟩
  case movi =>
    exact resultIn_alu s c w.g w.d.toNat _ [] 4 (fun _ => if w.md.getLsbD 0 then w.imm.signExtend 64 else w.imm.setWidth 64)
      fun _ => 0
  case movhi =>
    refine resultIn_congr (resultIn_immInt s c w true _) fun l => ?_
    rw [readField_narrow, append_low]
  case iaddi =>
    refine resultIn_congr (resultIn_immInt s c w _ fun a =>
      intResult (if w.md.getLsbD 0 then 4 else 2) (w.md.getLsbD 1) (intOf (if w.md.getLsbD 0 then 4 else 2) a + w.imm.toInt)) fun l => ?_
    rw [intResult_eq_r66, intOf_eq_asInt]
    rfl
  case imuli =>
    refine resultIn_congr (resultIn_immInt s c w false fun a => intResult 2 (w.md.getLsbD 0) (intOf 2 a * w.imm.toInt)) fun l => ?_
    rw [intResult_eq_r66, intOf_eq_asInt]
  case andi => exact resultIn_immInt s c w false fun a => a &&& w.imm.setWidth 64
  case ori => exact resultIn_immInt s c w false fun a => a ||| w.imm.setWidth 64
  case xori => exact resultIn_immInt s c w false fun a => a ^^^ w.imm.setWidth 64
  case icmpi =>
    refine resultIn_congr (resultIn_immInt s c w false fun a => bit64 (intCond w.md.toNat (intOf 2 a) w.imm.toInt)) fun l => ?_
    rw [intOf_eq_asInt]
    exact bit64_eq_ite (intCond_md_iff w.md _ _)

end Sys2Proof.Proofs
end

section
/-! SUPPORT. The sum and the carry of IADDC (O13). -/

namespace Sys2Proof.Proofs

open Sys2Proof Sys2Proof.Machine Sys2Proof.Laws

/-- Each of a lane's results lands. -/
theorem lands_landRes {c : Cur} {l lat : Nat} {rs : List Res} {r : Res} (hr : r ∈ rs) (s : State) :
    Lands (landRes s c l (c.cycle + lat) rs) c r.1 l r.2.1 r.2.2 lat :=
  lands_foldl (fun s (r : Res) => landField s c r.1 l r.2.1 r.2.2 (c.cycle + lat) 0) (fun _ _ => grows_landField _ _ _ _ _ _ _ _)
    (fun _ => lands_landField ..) s rs hr

/-- A uniform instruction lands each result once, when its lead stream's guard lets it. -/
theorem alu_of_uniform {s : State} {c : Cur} {g : Guard} {ds : List Nat} {srcs : List (Nat × Bool)} {lat : Nat}
    {f : List Word64 → List Res × Nat} (h : uniform c.u.lead (ds ++ srcs.map (·.1)) = true) :
    if c.u.lead && !guardLead s c.u g then alu s c g ds srcs lat f = s
    else ∀ r ∈ (f (srcs.map fun x => readField s c x.1 0 x.2)).1, Lands (alu s c g ds srcs lat f) c r.1 0 r.2.1 r.2.2 lat := by
  unfold alu
  simp only [h, if_true]
  split
  · rfl
  · exact fun r hr => lands_of_grows (lands_landRes hr s) (grows_raise _ _ _ _ _)

/-- A lane-wise instruction lands each result in every lane that computes. -/
theorem alu_of_lanes {s : State} {c : Cur} {g : Guard} {ds : List Nat} {srcs : List (Nat × Bool)} {lat : Nat}
    {f : List Word64 → List Res × Nat} (h : ¬uniform c.u.lead (ds ++ srcs.map (·.1)) = true) {l : Nat} (hl : l < 32)
    (hc : laneCompute s c g l = true) : ∀ r ∈ (f (srcs.map fun x => readField s c x.1 l x.2)).1,
      Lands (alu s c g ds srcs lat f) c r.1 l r.2.1 r.2.2 lat := by
  intro r hr
  unfold alu
  simp only [h]
  refine lands_of_grows ?_ (grows_raise _ _ _ _ _)
  refine lands_foldl (fun t (x : Nat × List Res × Nat) => landRes t c x.1 (c.cycle + lat) x.2.1) (fun _ _ => grows_landRes _ _ _ _ _)
    (fun t => lands_landRes hr t) _ _ (List.mem_map.mpr ⟨l, List.mem_filter.mpr ⟨List.mem_range.mpr hl, hc⟩, rfl⟩)

/-- The results of an IADDC whose exact sum is `x`: the sum and, unless it names P0, the carry (R67). -/
def carryRes (w : RF) (x : Nat) : List Res :=
  (w.d.toNat, isWide w.ty.toNat, BitVec.ofNat 64 (x % 2 ^ tyBits w.ty.toNat)) ::
    (if w.md.toNat % 8 = 0 then [] else [(0xA0 + w.md.toNat % 8, false, bit64 (2 ^ tyBits w.ty.toNat ≤ x))])

/-- The exact sum of a lane. -/
def carrySum (s : State) (c : Cur) (w : RF) (l : Nat) : Nat :=
  (rd s c w.ty.toNat w.a.toNat l).toNat + (rd s c w.ty.toNat w.b.toNat l).toNat + (readField s c w.c.toNat l false).toNat % 2

/-- The destinations of IADDC. -/
def carryDests (w : RF) : List Nat := if w.md.toNat % 8 = 0 then [w.d.toNat] else [w.d.toNat, 0xA0 + w.md.toNat % 8]

/-- The sources of IADDC. -/
def carrySrcs (w : RF) : List (Nat × Bool) := [(w.a.toNat, isWide w.ty.toNat), (w.b.toNat, isWide w.ty.toNat), (w.c.toNat, false)]

/-- The exact sum of operands as they are read. -/
def sumOf (w : RF) (xs : List Word64) : Nat :=
  low (tyBits w.ty.toNat) (opnd xs 0).toNat + low (tyBits w.ty.toNat) (opnd xs 1).toNat + (opnd xs 2).toNat % 2

/-- The effect of IADDC. -/
def addCarry (s : State) (c : Cur) (w : RF) : State :=
  alu s c w.g (carryDests w) (carrySrcs w) 4 fun xs => (carryRes w (sumOf w xs), 0)

theorem exec_iaddc (w : RF) (s : State) : exec (.iaddc w) s = issue (.iaddc w) s fun c => addCarry s c w := rfl

theorem carryFields_eq (w : RF) : carryDests w ++ (carrySrcs w).map (·.1) =
    [w.d.toNat] ++ (if w.md.toNat % 8 = 0 then [] else [0xA0 + w.md.toNat % 8]) ++ [w.a.toNat, w.b.toNat, w.c.toNat] := by
  unfold carryDests
  split <;> rfl

theorem sumOf_reads (s : State) (c : Cur) (w : RF) (l : Nat) :
    sumOf w ((carrySrcs w).map fun x => readField s c x.1 l x.2) = carrySum s c w l := by
  have h (r : Nat) : low (tyBits w.ty.toNat) (readField s c r l (isWide w.ty.toNat)).toNat = (rd s c w.ty.toNat r l).toNat :=
    Nat.mod_eq_of_lt (rd_lt s c w.ty.toNat r l)
  simp only [sumOf, carrySrcs, List.map_cons, opnd, List.getD_cons_zero, List.getD_cons_succ, h, carrySum]

/-- What lands of the two results. -/
theorem lands_carryRes {t : State} {c : Cur} {w : RF} {x l : Nat} (h : ∀ r ∈ carryRes w x, Lands t c r.1 l r.2.1 r.2.2 4) :
    Lands t c w.d.toNat l (isWide w.ty.toNat) (BitVec.ofNat 64 (x % 2 ^ tyBits w.ty.toNat)) 4 ∧
      (w.md.toNat % 8 ≠ 0 →
        Lands t c (0xA0 + w.md.toNat % 8) l false (if 2 ^ tyBits w.ty.toNat ≤ x then 1 else 0) 4) := by
  refine ⟨h _ List.mem_cons_self, fun hco => ?_⟩
  rw [carryRes, if_neg hco] at h
  have hlast := h _ (List.mem_cons_of_mem _ (List.mem_singleton_self _))
  simpa only [bit64, decide_eq_true_eq] using hlast

/-- Settles O13: the sum and the carry are the two results of one pass of the loop of R65. -/
theorem carryAddResults : Obligations.CarryAddResults := by
  intro w s c h
  refine ⟨addCarry s c w, (exec_iaddc w s).trans (issue_ok _ h), onlyPending_alu .., ?_⟩
  dsimp only
  rw [← carryFields_eq]
  split
  case isTrue hu =>
    have hone := alu_of_uniform (s := s) (g := w.g) (lat := 4) (f := fun xs => (carryRes w (sumOf w xs), 0)) hu
    split
    case isTrue hg => rwa [if_pos hg] at hone
    case isFalse hg =>
      rw [if_neg hg] at hone
      simp only [sumOf_reads] at hone
      exact lands_carryRes hone
  case isFalse hu =>
    intro l hl hc
    have hone := alu_of_lanes (s := s) (g := w.g) (lat := 4) (f := fun xs => (carryRes w (sumOf w xs), 0)) hu hl hc
    simp only [sumOf_reads] at hone
    exact lands_carryRes hone

end Sys2Proof.Proofs
end

section
/-! SUPPORT. Shifts (O12): R69 on words of any width, and on the operands of the instructions. -/

namespace Sys2Proof.Proofs

open Sys2Proof Sys2Proof.Machine Sys2Proof.Laws

/-! ### Words of any width -/

/-- The sign of a field fills a wider word. -/
theorem wrap_sgn {k : Nat} (hk : 0 < k) (v : Nat) (y : BitVec k) : wrap v (sgn k y.toNat) = (y.signExtend v).toNat := by
  rw [sgn_eq_toInt hk, BitVec.signExtend, BitVec.toNat_ofInt, wrap]

theorem shiftBits_shl (w a n : Nat) : shiftBits 0 w a n = a * 2 ^ n % 2 ^ w := by
  unfold shiftBits low
  rw [if_neg (by decide)]
  split
  · next h => simp [Nat.mod_eq_zero_of_dvd ((Nat.pow_dvd_pow 2 h).trans (Nat.dvd_mul_left ..))]
  · rw [if_pos rfl]

theorem shiftBits_shr {w a : Nat} (h : a < 2 ^ w) (n : Nat) : shiftBits 1 w a n = a / 2 ^ n := by
  unfold shiftBits
  rw [if_neg (by decide)]
  split
  · next hn => simp [Nat.div_eq_of_lt (h.trans_le (Nat.pow_le_pow_right (by decide) hn))]
  · rw [if_neg (by decide), if_pos rfl]

theorem msb_iff_div {w : Nat} (x : BitVec w) : x.msb = true ↔ x.toNat / 2 ^ (w - 1) % 2 = 1 := by
  rcases Nat.eq_zero_or_pos w with rfl | hw
  · simp [BitVec.msb, BitVec.of_length_zero]
  · simp [BitVec.msb_eq_getLsbD_last, BitVec.getLsbD, Nat.testBit_eq_decide_div_mod_eq]

theorem sshiftRight_eq_signExtend {w n : Nat} (h : n < w) (x : BitVec w) :
    x.sshiftRight n = (x.extractLsb' n (w - n)).signExtend w := by
  have hmsb : (x.extractLsb' n (w - n)).msb = x.msb := by
    rw [BitVec.msb_eq_getLsbD_last, BitVec.getLsbD_extractLsb', BitVec.msb_eq_getLsbD_last]
    simp only [show w - n - 1 < w - n by omega, decide_true, Bool.true_and]
    congr 1
    omega
  apply BitVec.eq_of_getLsbD_eq
  intro i hi
  simp only [BitVec.getLsbD_sshiftRight, BitVec.getLsbD_signExtend, BitVec.getLsbD_extractLsb', hmsb, hi, decide_true, Bool.true_and,
    Nat.not_le.mpr hi, decide_false, Bool.not_false]
  by_cases hin : i < w - n
  · simp [hin, show n + i < w by omega]
  · simp [hin, show ¬n + i < w by omega]

/-- SAR is the shift of a two's complement word. -/
theorem shiftBits_sar {w : Nat} (x : BitVec w) (n : Nat) : shiftBits 2 w x.toNat n = (x.sshiftRight n).toNat := by
  unfold shiftBits
  rw [if_neg (by decide)]
  split
  case isTrue hn =>
    have hle := Nat.pow_le_pow_right (n := 2) (by decide) hn
    have hlt := x.isLt
    simp only [true_and, ← msb_iff_div, BitVec.toNat_sshiftRight, Nat.shiftRight_eq_div_pow]
    rw [Nat.div_eq_of_lt (by omega), Nat.div_eq_of_lt (by omega), Nat.sub_zero]
  case isFalse hn =>
    have hn : n < w := Nat.not_le.mp hn
    have hfield : x.toNat / 2 ^ n = (x.extractLsb' n (w - n)).toNat := by
      rw [BitVec.extractLsb'_toNat, Nat.shiftRight_eq_div_pow, Nat.mod_eq_of_lt]
      rw [Nat.div_lt_iff_lt_mul (Nat.two_pow_pos _), ← Nat.pow_add, Nat.sub_add_cancel hn.le]
      exact x.isLt
    rw [if_neg (by decide), if_neg (by decide), hfield, wrap_sgn (by omega), sshiftRight_eq_signExtend hn]

/-- ROTL is the rotation of a word. -/
theorem shiftBits_rotl {w : Nat} (hw : 0 < w) (x : BitVec w) (n : Nat) :
    shiftBits 3 w x.toNat n = (x.rotateLeft (n % w)).toNat := by
  have hk : n % w < w := Nat.mod_lt n hw
  have hsplit : 2 ^ w = 2 ^ (n % w) * 2 ^ (w - n % w) := by rw [← Nat.pow_add, Nat.add_sub_cancel' hk.le]
  have hlt : x.toNat / 2 ^ (w - n % w) < 2 ^ (n % w) := by
    rw [Nat.div_lt_iff_lt_mul (Nat.two_pow_pos _), ← hsplit]
    exact x.isLt
  have hadd : (2 ^ (n % w) * x.toNat + x.toNat / 2 ^ (w - n % w)) % 2 ^ w =
      2 ^ (n % w) * (x.toNat % 2 ^ (w - n % w)) + x.toNat / 2 ^ (w - n % w) := by
    rw [hsplit, Nat.mod_mul, Nat.mul_add_mod, Nat.mod_eq_of_lt hlt, Nat.mul_add_div (Nat.two_pow_pos _), Nat.div_eq_of_lt hlt,
      Nat.add_zero, Nat.add_comm]
  rw [BitVec.toNat_rotateLeft, Nat.mod_mod, shiftBits, if_pos rfl, low, Nat.shiftLeft_eq, Nat.shiftRight_eq_div_pow, Nat.mul_comm,
    hadd, Nat.two_pow_add_eq_or_of_lt hlt, ← Nat.mul_mod_mul_left, ← hsplit]

/-! ### The operands of the instructions -/

theorem ofNat_shl (ty : Nat) (x : Word64) (n : Nat) : BitVec.ofNat 64 (shiftBits 0 (tyBits ty) x.toNat n) = trunc ty (x <<< n) := by
  apply BitVec.eq_of_toNat_eq
  rw [trunc_toNat, shiftBits_shl, BitVec.toNat_ofNat, BitVec.toNat_shiftLeft, Nat.shiftLeft_eq]
  unfold tyBits
  split <;> omega

theorem ofNat_shr {ty : Nat} {x : Word64} (h : x.toNat < 2 ^ tyBits ty) (n : Nat) :
    BitVec.ofNat 64 (shiftBits 1 (tyBits ty) x.toNat n) = x >>> n := by
  rw [shiftBits_shr h, ← Nat.shiftRight_eq_div_pow, ← BitVec.toNat_ushiftRight, BitVec.ofNat_toNat, BitVec.setWidth_eq]

section
variable (s : State) (c : Cur)

/-- The amount of a shift (R69). -/
def shiftAmount (w : RF) (l : Nat) : Nat :=
  if w.md.toNat < 128 then (readField s c w.b.toNat l false).toNat else w.md.toNat % 64

theorem resultIn_shift (w : RF) (op : Nat) :
    ResultIn s (shift s c w op) c w.g (if w.md.toNat < 128 then [w.a.toNat, w.b.toNat] else [w.a.toNat]) w.d.toNat
      (isWide w.ty.toNat) 4 fun l =>
        BitVec.ofNat 64 (shiftBits op (tyBits w.ty.toNat) (rd s c w.ty.toNat w.a.toNat l).toNat (shiftAmount s c w l)) := by
  unfold shift shiftAmount
  dsimp only
  by_cases hm : w.md.toNat < 128
  · simp only [hm, if_true, Nat.not_le.mpr hm, if_false]
    exact resultIn_int2 s c w _ _ _ fun a b => BitVec.ofNat 64 (shiftBits op (tyBits w.ty.toNat) a.toNat b.toNat)
  · simp only [hm, if_true, Nat.le_of_not_lt hm, if_false]
    exact resultIn_int1 s c w _ _ fun a => BitVec.ofNat 64 (shiftBits op (tyBits w.ty.toNat) a.toNat (w.md.toNat % 64))

end

/-- A shift of the operand as a word of the width of TY. -/
theorem ofNat_shiftBits {op ty n : Nat} {x : Word64} (hx : x.toNat < 2 ^ tyBits ty) {f : Word64 → Word64}
    {f' : BitVec 32 → BitVec 32} (h : ∀ y : Word64, shiftBits op 64 y.toNat n = (f y).toNat)
    (h' : ∀ y : BitVec 32, shiftBits op 32 y.toNat n = (f' y).toNat) :
    BitVec.ofNat 64 (shiftBits op (tyBits ty) x.toNat n) =
      if isWide ty then f x else (f' (x.setWidth 32)).setWidth 64 := by
  unfold tyBits at *
  split
  · rw [h, BitVec.ofNat_toNat, BitVec.setWidth_eq]
  · next hty =>
    rw [if_neg hty] at hx
    rw [← BitVec.ofNat_toNat, ← h', BitVec.toNat_setWidth, Nat.mod_eq_of_lt hx]

/-- Settles O12: R69 on numbers is the shift or rotation of words of the width of TY. -/
theorem shiftResults : Obligations.ShiftResults := by
  refine ⟨fun w s c h => ⟨_, issue_ok _ h, ?shl⟩, fun w s c h => ⟨_, issue_ok _ h, ?shr⟩,
    fun w s c h => ⟨_, issue_ok _ h, ?sar⟩,
    fun w s c h => ⟨_, issue_ok _ h, ?rotl⟩⟩
  case shl => exact resultIn_congr (resultIn_shift s c w 0) fun l => ofNat_shl ..
  case shr => exact resultIn_congr (resultIn_shift s c w 1) fun l => ofNat_shr (rd_lt ..) _
  case sar =>
    exact resultIn_congr (resultIn_shift s c w 2) fun l =>
      ofNat_shiftBits (rd_lt ..) (fun y => shiftBits_sar y _) fun y => shiftBits_sar y _
  case rotl =>
    exact resultIn_congr (resultIn_shift s c w 3) fun l =>
      ofNat_shiftBits (rd_lt ..) (fun y => shiftBits_rotl (by decide) y _) fun y => shiftBits_rotl (by decide) y _

end Sys2Proof.Proofs
end

section
/-! SUPPORT. Counts and bit fields (O14, O15): each instruction's result, bit by bit. -/

namespace Sys2Proof.Proofs

open Sys2Proof Sys2Proof.Machine Sys2Proof.Laws

/-! ### Counts -/

theorem tyBits_le (ty : Nat) : tyBits ty ≤ 64 := by
  unfold tyBits
  split <;> decide

/-- A number of at most 64, as a word. -/
theorem toNat_ofNat_of_le {k : Nat} (h : k ≤ 64) : (BitVec.ofNat 64 k).toNat = k := by
  rw [BitVec.toNat_ofNat, Nat.mod_eq_of_lt (by omega)]

theorem popCount_le (x n : Nat) : popCount x n ≤ n :=
  (List.length_filter_le ..).trans_eq List.length_range

/-- The zero bits above the highest set bit (R71). -/
def leadingZeros (n : Nat) (a : Word64) : Nat := if a = 0 then n else n - 1 - Nat.log2 a.toNat

section
variable {n : Nat} {a : Word64} (ha : a.toNat < 2 ^ n)
include ha

theorem leadingZeros_above {i : Nat} (hi : n ≤ i + leadingZeros n a) : a.getLsbD i = false := by
  unfold leadingZeros at hi
  split at hi
  · next h0 => simp [h0]
  · next h0 =>
    have hne : a.toNat ≠ 0 := fun h => h0 (BitVec.eq_of_toNat_eq h)
    have hlog : Nat.log2 a.toNat < n := (Nat.log2_lt hne).mpr ha
    exact Nat.testBit_lt_two_pow (Nat.lt_log2_self.trans_le (Nat.pow_le_pow_right (by decide) (by omega)))

theorem leadingZeros_top (h : leadingZeros n a < n) : a.getLsbD (n - 1 - leadingZeros n a) = true := by
  unfold leadingZeros at *
  split at h
  · omega
  · next h0 =>
    have hne : a.toNat ≠ 0 := fun h => h0 (BitVec.eq_of_toNat_eq h)
    have hlog : Nat.log2 a.toNat < n := (Nat.log2_lt hne).mpr ha
    rw [if_neg h0, show n - 1 - (n - 1 - Nat.log2 a.toNat) = Nat.log2 a.toNat by omega]
    exact Nat.testBit_log2 hne

/-- A word that is not zero has a lowest set bit. -/
theorem find?_lowest (h0 : a ≠ 0) : ∃ i < n, (List.range n).find? (fun i => a.getLsbD i) = some i ∧ a.getLsbD i = true ∧
    ∀ j < i, a.getLsbD j = false := by
  cases hf : (List.range n).find? fun i => a.getLsbD i with
  | none =>
    refine absurd (BitVec.eq_of_getLsbD_eq fun i hi => ?_) h0
    rw [List.find?_range_eq_none] at hf
    by_cases hin : i < n
    · simpa using hf i hin
    · exact (Nat.testBit_lt_two_pow (ha.trans_le (Nat.pow_le_pow_right (by decide) (Nat.le_of_not_lt hin)))).trans
        BitVec.getLsbD_zero.symm
  | some i =>
    obtain ⟨hi, hmem, hlow⟩ := List.find?_range_eq_some.mp hf
    exact ⟨i, List.mem_range.mp hmem, rfl, hi, fun j hj => by simpa using hlow j hj⟩

end

theorem leadingZeros_le (n : Nat) (a : Word64) : leadingZeros n a ≤ n := by
  unfold leadingZeros
  split <;> omega

/-- The first `k` bits of a word, the first of them at bit `n - 1` (R71). -/
def reversed (p : Nat → Bool) (n k : Nat) : Nat := ((List.range k).filter p).foldl (fun t i => t + 2 ^ (n - 1 - i)) 0

theorem reversed_succ (p : Nat → Bool) (n k : Nat) : reversed p n (k + 1) = reversed p n k + if p k then 2 ^ (n - 1 - k) else 0 := by
  unfold reversed
  rw [List.range_succ, List.filter_append, List.foldl_append]
  cases hp : p k <;> simp [hp]

theorem two_pow_dvd_reversed (p : Nat → Bool) {n k : Nat} (hk : k ≤ n) : 2 ^ (n - k) ∣ reversed p n k := by
  induction k with
  | zero => exact Nat.dvd_zero _
  | succ k ih =>
    rw [reversed_succ, show n - 1 - k = n - (k + 1) by omega]
    refine Nat.dvd_add ((Nat.pow_dvd_pow 2 (by omega)).trans (ih (by omega))) ?_
    split
    · exact Nat.dvd_refl _
    · exact Nat.dvd_zero _

/-- Bit `e` set in a number whose bits up to it are zero. -/
theorem testBit_add_bit {v e : Nat} (hv : 2 ^ (e + 1) ∣ v) (b : Bool) (j : Nat) :
    (v + if b then 2 ^ e else 0).testBit j = if j = e then b else v.testBit j := by
  obtain ⟨q, rfl⟩ := hv
  have hlt : (if b then 2 ^ e else 0) < 2 ^ (e + 1) := by
    have := Nat.two_pow_pos e
    split <;> omega
  rw [Nat.testBit_two_pow_mul_add _ hlt, Nat.testBit_two_pow_mul]
  by_cases hj : j < e + 1
  · cases b <;> simp [hj, Nat.testBit_two_pow, show ¬e + 1 ≤ j by omega, eq_comm]
  · simp [hj, show j ≠ e by omega, show e + 1 ≤ j by omega]

theorem testBit_reversed (p : Nat → Bool) {n k : Nat} (hk : k ≤ n) (j : Nat) :
    (reversed p n k).testBit j = (decide (n - k ≤ j) && decide (j < n) && p (n - 1 - j)) := by
  induction k with
  | zero => simp [reversed]
  | succ k ih =>
    have hdvd : 2 ^ (n - 1 - k + 1) ∣ reversed p n k := (show n - 1 - k + 1 = n - k by omega) ▸ two_pow_dvd_reversed p (by omega)
    rw [reversed_succ, testBit_add_bit hdvd, ih (by omega)]
    split
    · next hj => simp [hj, show n - (k + 1) ≤ n - 1 - k by omega, show n - 1 - k < n by omega, show n - 1 - (n - 1 - k) = k by omega]
    · next hj =>
      congr 2
      exact decide_eq_decide.mpr (by omega)

theorem ofNat_ones (ty : Nat) : BitVec.ofNat 64 (2 ^ tyBits ty - 1) = trunc ty (BitVec.allOnes 64) := by
  unfold tyBits trunc
  split <;> decide

/-- Settles O14: the four counts are facts about the bits of the operand, which is below the width of TY. -/
theorem countResults : Obligations.CountResults := by
  refine ⟨fun w s c h => ⟨_, issue_ok _ h, _, resultIn_int1 s c w _ _ fun a => BitVec.ofNat 64 (popCount a.toNat (tyBits w.ty.toNat)),
      fun l => ?popc⟩,
    fun w s c h => ⟨_, issue_ok _ h, _, resultIn_int1 s c w _ _ fun a => BitVec.ofNat 64 (leadingZeros (tyBits w.ty.toNat) a),
      fun l => ?clz⟩,
    fun w s c h => ⟨_, issue_ok _ h, _, resultIn_int1 s c w _ _ fun a =>
      BitVec.ofNat 64 (((List.range (tyBits w.ty.toNat)).find? fun i => a.getLsbD i).getD (2 ^ tyBits w.ty.toNat - 1)), fun l => ?ffs⟩,
    fun w s c h => ⟨_, issue_ok _ h, _, resultIn_int1 s c w _ _ fun a =>
      BitVec.ofNat 64 (reversed a.getLsbD (tyBits w.ty.toNat) (tyBits w.ty.toNat)), fun l i => ?brev⟩⟩
  case popc => exact toNat_ofNat_of_le ((popCount_le _ _).trans (tyBits_le _))
  case clz =>
    have ha := rd_lt s c w.ty.toNat w.a.toNat l
    rw [toNat_ofNat_of_le ((leadingZeros_le _ _).trans (tyBits_le _))]
    exact ⟨leadingZeros_le _ _, fun i => leadingZeros_above ha, leadingZeros_top ha⟩
  case ffs =>
    refine ⟨fun h0 => ?_, fun h0 => ?_⟩
    · have hnone : (List.range (tyBits w.ty.toNat)).find? (fun i => (0 : Word64).getLsbD i) = none := by simp
      rw [← ofNat_ones, ← rd, h0, hnone, Option.getD_none]
    · obtain ⟨i, hi, hfind, hset, hlow⟩ := find?_lowest (rd_lt s c w.ty.toNat w.a.toNat l) h0
      rw [← rd, hfind, Option.getD_some, toNat_ofNat_of_le (hi.le.trans (tyBits_le _))]
      exact ⟨hset, hlow⟩
  case brev =>
    have hbit := testBit_reversed (rd s c w.ty.toNat w.a.toNat l).getLsbD (Nat.le_refl (tyBits w.ty.toNat)) i
    have hle := tyBits_le w.ty.toNat
    rw [← tyBits, ← rd, BitVec.getLsbD_ofNat, hbit]
    by_cases hi : i < tyBits w.ty.toNat
    · simp [hi, show i < 64 by omega]
    · simp [hi]

end Sys2Proof.Proofs
end

section
/-! SUPPORT. Bit fields (O15): R70 bit by bit. -/

namespace Sys2Proof.Proofs

open Sys2Proof Sys2Proof.Machine Sys2Proof.Laws

/-- The length of the field that `b` names (R70). -/
def fieldLen (b : Nat) : Nat := min (b / 256 % 256) (32 - b % 256)

theorem fieldLen_eq_zero {b : Nat} : fieldLen b = 0 ↔ b / 256 % 256 = 0 ∨ 32 ≤ b % 256 := by
  unfold fieldLen
  omega

theorem fieldLen_le (b : Nat) : b % 256 + fieldLen b ≤ 32 ∨ fieldLen b = 0 := by
  unfold fieldLen
  omega

theorem bitExtract_eq (signed : Bool) (a : Word64) (b : Nat) : bitExtract signed a.toNat b =
    if fieldLen b = 0 then 0
    else if signed then ((a.extractLsb' (b % 256) (fieldLen b)).signExtend 32).toNat
    else (a.extractLsb' (b % 256) (fieldLen b)).toNat := by
  simp only [bitExtract, fieldLen_eq_zero]
  split
  · rfl
  · next h =>
    have hpos : 0 < fieldLen b := Nat.pos_of_ne_zero fun h0 => h (fieldLen_eq_zero.mp h0)
    rw [← wrap_sgn hpos, BitVec.extractLsb'_toNat, Nat.shiftRight_eq_div_pow]
    rfl

/-- BFE bit by bit. -/
theorem testBit_bitExtract (signed : Bool) (a : Word64) (b i : Nat) :
    (bitExtract signed a.toNat b).testBit i = (decide (i < 32) && decide (0 < fieldLen b) &&
      if i < fieldLen b then a.getLsbD (b % 256 + i) else signed && a.getLsbD (b % 256 + fieldLen b - 1)) := by
  rw [bitExtract_eq]
  rcases fieldLen_le b with hle | h0
  swap
  · simp [h0]
  rcases Nat.eq_zero_or_pos (fieldLen b) with h0 | hpos
  · simp [h0]
  rw [if_neg hpos.ne']
  cases signed with
  | false =>
    rw [if_neg (by decide), ← BitVec.getLsbD, BitVec.getLsbD_extractLsb']
    by_cases hi : i < fieldLen b
    · simp [hi, hpos, show i < 32 by omega]
    · simp [hi]
  | true =>
    rw [if_pos rfl, ← BitVec.getLsbD, BitVec.getLsbD_signExtend, BitVec.getLsbD_extractLsb', BitVec.msb_eq_getLsbD_last,
      BitVec.getLsbD_extractLsb', show b % 256 + (fieldLen b - 1) = b % 256 + fieldLen b - 1 by omega]
    by_cases hi : i < fieldLen b
    · simp [hi, hpos]
    · simp [hi, hpos]

theorem bitInsert_eq {b : Nat} (hb : fieldLen b ≠ 0) (a x : Nat) : bitInsert a b x =
    2 ^ (b % 256) * (2 ^ fieldLen b * (x / 2 ^ (b % 256 + fieldLen b)) + a % 2 ^ fieldLen b) + x % 2 ^ (b % 256) := by
  unfold bitInsert
  simp only [if_neg (fun h => hb (fieldLen_eq_zero.mpr h))]
  rw [← fieldLen, Nat.pow_add]
  ring

/-- BFI bit by bit. -/
theorem testBit_bitInsert (a b x i : Nat) : (bitInsert a b x).testBit i =
    if b % 256 ≤ i ∧ i < b % 256 + fieldLen b then a.testBit (i - b % 256) else x.testBit i := by
  by_cases h0 : fieldLen b = 0
  · rw [if_neg (by omega), bitInsert]
    simp only [if_pos (fieldLen_eq_zero.mp h0)]
  rw [bitInsert_eq h0, Nat.testBit_two_pow_mul_add _ (Nat.mod_lt _ (Nat.two_pow_pos _))]
  by_cases hlow : i < b % 256
  · rw [if_pos hlow, if_neg (by omega), Nat.testBit_mod_two_pow]
    simp [hlow]
  rw [if_neg hlow, Nat.testBit_two_pow_mul_add _ (Nat.mod_lt _ (Nat.two_pow_pos _))]
  by_cases hmid : i < b % 256 + fieldLen b
  · rw [if_pos (by omega), if_pos (by omega), Nat.testBit_mod_two_pow]
    simp [show i - b % 256 < fieldLen b by omega]
  · rw [if_neg (by omega), if_neg (by omega), Nat.testBit_div_two_pow]
    congr 1
    omega

/-- Settles O15: the field is `fieldLen` bits long, and zero bits exactly when R70 says that there is none. -/
theorem bitFieldResults : Obligations.BitFieldResults := by
  refine ⟨fun w s c h => ⟨_, issue_ok _ h, _, resultIn_int2 s c w _ _ _ fun a b =>
      BitVec.ofNat 64 (bitExtract (w.ty.toNat == 2) a.toNat b.toNat), fun l i => ?bfe⟩,
    fun w s c h => ⟨_, issue_ok _ h, _, resultIn_int3 s c w _ _ _ _ fun a b x =>
      BitVec.ofNat 64 (bitInsert a.toNat b.toNat x.toNat), fun l i => ?bfi⟩⟩
  case bfe =>
    have hbit := testBit_bitExtract (w.ty.toNat == 2) (readField s c w.a.toNat l false) (readField s c w.b.toNat l false).toNat i
    rw [BitVec.getLsbD_ofNat, hbit, fieldLen]
    by_cases hi : i < 32
    · simp [hi, show i < 64 by omega]
    · simp [hi]
  case bfi =>
    have hbit := testBit_bitInsert (readField s c w.a.toNat l false).toNat (readField s c w.b.toNat l false).toNat
      (readField s c w.c.toNat l false).toNat i
    have hlen := fieldLen_le (readField s c w.b.toNat l false).toNat
    rw [BitVec.getLsbD_ofNat, hbit, ← fieldLen]
    by_cases hi : i < 64
    · simp only [hi, decide_true, Bool.true_and]
      rfl
    · rw [if_neg (by omega), if_neg (by omega), BitVec.getLsbD_of_ge _ _ (Nat.le_of_not_lt hi)]
      simp [hi]

end Sys2Proof.Proofs
end

section
/-! SUPPORT. NaN operands of F32 arithmetic (O30): each function of the exact values answers the canonical NaN. -/

namespace Sys2Proof.Proofs

open Sys2Proof Sys2Proof.Machine Sys2Proof.Laws

/-! ### NaN operands of the functions on patterns -/

/-- A pattern of a format with infinities whose exponent is all ones and whose fraction is not 0 (R78). -/
theorem value_eq_nan {f : Fmt} {x : Nat} (hf : f.fin = false) (he : x / 2 ^ f.p % 2 ^ f.eb = 2 ^ f.eb - 1)
    (hfr : x % 2 ^ f.p ≠ 0) : f.value x = .nan := by
  simp [Fmt.value, hf, he, hfr]

/-- The low word of a register value is an F32 NaN: exponent all ones, fraction not 0. -/
def IsNan (x : Word64) : Prop := x &&& 0x7F800000#64 = 0x7F800000#64 ∧ x &&& 0x7FFFFF#64 ≠ 0

/-- The exponent field of an F32 pattern in a register value. -/
theorem exponent_eq_extract (x : Word64) : elem F32.width x 0 / 2 ^ 23 % 2 ^ 8 = (x.extractLsb' 23 8).toNat := by
  rw [BitVec.extractLsb'_toNat, Nat.shiftRight_eq_div_pow]
  simp only [elem, F32, Fmt.width]
  omega

/-- The fraction field of an F32 pattern in a register value. -/
theorem fraction_eq_mask (x : Word64) : elem F32.width x 0 % 2 ^ 23 = (x &&& 0x7FFFFF#64).toNat := by
  rw [BitVec.toNat_and, show (0x7FFFFF#64).toNat = 2 ^ 23 - 1 from rfl, Nat.and_two_pow_sub_one_eq_mod]
  simp only [elem, F32, Fmt.width]
  omega

theorem value_elem_of_isNan {x : Word64} (h : IsNan x) : F32.value (elem F32.width x 0) = .nan := by
  obtain ⟨he, hf⟩ := h
  have hexp : elem F32.width x 0 / 2 ^ 23 % 2 ^ 8 = 2 ^ 8 - 1 := by
    have hx : (x &&& 0x7F800000#64).extractLsb' 23 8 = x.extractLsb' 23 8 := by
      rw [BitVec.extractLsb'_and, show BitVec.extractLsb' 23 8 0x7F800000#64 = BitVec.allOnes 8 from rfl, BitVec.and_allOnes]
    rw [exponent_eq_extract, ← hx, he]
    rfl
  have hfrac : elem F32.width x 0 % 2 ^ 23 ≠ 0 := by
    rw [fraction_eq_mask]
    exact fun h0 => hf (BitVec.eq_of_toNat_eq h0)
  exact value_eq_nan rfl hexp hfrac

section
variable {f : Fmt} {rm : Nat} {st : Bool} {a b c : Nat}

theorem isNan_eq_true {v : FV} : v.isNan = true ↔ v = .nan := by cases v <;> simp [FV.isNan]

theorem fAdd_nan (h : f.value a = .nan ∨ f.value b = .nan) : (fAdd f rm st a b).1 = f.nan := by
  simp [fAdd, isNan_eq_true, h]

theorem fSub_nan (h : f.value a = .nan ∨ f.value b = .nan) : (fSub f rm st a b).1 = f.nan := by
  simp [fSub, isNan_eq_true, h]

theorem mul_nan {x y : FV} (h : x = .nan ∨ y = .nan) : x.mul y = (.nan, false) := by
  rcases h with rfl | rfl
  · rfl
  · cases x <;> rfl

theorem fMul_nan (h : f.value a = .nan ∨ f.value b = .nan) : (fMul f rm st a b).1 = f.nan := by
  simp [fMul, mul_nan h, roundFV]

theorem fFma_nan (h : f.value a = .nan ∨ f.value b = .nan ∨ f.value c = .nan) : (fFma f rm st a b c).1 = f.nan := by
  simp [fFma, isNan_eq_true, or_assoc, h]

theorem fMinMax_nan {larger : Bool} (h : f.value a = .nan ∧ f.value b = .nan) : fMinMax f larger a b = f.nan := by
  simp [fMinMax, isNan_eq_true, h]

theorem fRnd_nan (h : f.value a = .nan) : (fRnd f rm a).1 = f.nan := by simp only [fRnd, h]

end

/-- The functions of one F32 operand on a NaN (Table 5.4). -/
theorem fScale_nan {rm a : Nat} {st : Bool} {b : Int} (h : F32.value a = .nan) : (fScale rm st a b).1 = F32.nan := by
  simp only [fScale, h]

/-- A function of F32 patterns answers the canonical NaN for a NaN. -/
def KeepsNan (F : Nat → Bool → Nat → Nat × Nat) : Prop := ∀ rm st a, F32.value a = .nan → (F rm st a).1 = F32.nan

theorem fRcp_keepsNan : KeepsNan fRcp := fun _ _ _ h => by simp only [fRcp, h]
theorem fRsq_keepsNan : KeepsNan fRsq := fun _ _ _ h => by simp only [fRsq, h]
theorem fSqrt_keepsNan : KeepsNan fSqrt := fun _ _ _ h => by simp only [fSqrt, h]
theorem fExp2_keepsNan : KeepsNan fExp2 := fun _ _ _ h => by simp only [fExp2, h]
theorem fLog2_keepsNan : KeepsNan fLog2 := fun _ _ _ h => by simp only [fLog2, h]
theorem fSin_keepsNan : KeepsNan fSin := fun _ _ _ h => by simp only [fSin, h]
theorem fCos_keepsNan : KeepsNan fCos := fun _ _ _ h => by simp only [fCos, h]
theorem fTanh_keepsNan : KeepsNan fTanh := fun _ _ _ h => by simp only [fTanh, h]

/-! ### Instructions of F32 -/

/-- The result of an element-wise F32 instruction: its function of the operands' patterns. -/
theorem resultIn_fElem (s : State) (c : Cur) {w : RF} (hty : w.ty.toNat = 8) (srcs : List (BitVec 8)) (lat : Nat)
    (F : Fmt → List Nat → Nat × Nat) :
    ResultIn s (fElem s c w srcs lat F) c w.g (srcs.map BitVec.toNat) w.d.toNat false lat fun l =>
      BitVec.ofNat 64 (F F32 (srcs.map fun r => elem F32.width (readField s c r.toNat l false) 0)).1 := by
  have h := resultIn_alu s c w.g w.d.toNat false (srcs.map fun r => (r.toNat, false)) lat
    (fun xs => BitVec.ofNat 64 (F F32 (xs.map fun x => elem F32.width x 0)).1)
    fun xs => flOr 0 (F F32 (xs.map fun x => elem F32.width x 0)).2
  simp only [List.map_map] at h
  simpa [fElem, hty, fmtOf, elems, packElems, List.range_succ, Function.comp_def] using h

/-- Where the function answers the canonical NaN, it lands. -/
theorem fElem_lands_nan {s : State} {c : Cur} {w : RF} {srcs : List (BitVec 8)} {lat : Nat} {F : Fmt → List Nat → Nat × Nat}
    {P : Nat → Prop} (hty : w.ty.toNat = 8)
    (hF : ∀ l, P l → (F F32 (srcs.map fun r => elem F32.width (readField s c r.toNat l false) 0)).1 = F32.nan) :
    ∃ r, ResultIn s (fElem s c w srcs lat F) c w.g (srcs.map BitVec.toNat) w.d.toNat false lat r ∧
      ∀ l, P l → r l = 0x7FC00000#64 :=
  ⟨_, resultIn_fElem s c hty srcs lat F, fun l hl => congrArg (BitVec.ofNat 64) (hF l hl)⟩

/-- An F32 instruction of one operand whose function keeps a NaN. -/
theorem fTrans_lands_nan {s : State} {c : Cur} {w : RF} {F : Nat → Bool → Nat → Nat × Nat} (hF : KeepsNan F)
    (hty : w.ty.toNat = 8) :
    ∃ r, ResultIn s (fTrans s c w F) c w.g [w.a.toNat] w.d.toNat false 16 r ∧
      ∀ l, IsNan (readField s c w.a.toNat l false) → r l = 0x7FC00000#64 :=
  fElem_lands_nan hty fun _ hn => hF _ _ _ (value_elem_of_isNan hn)

/-- Settles O30: the function of each instruction answers the canonical NaN for a NaN operand, and that is what lands. -/
theorem nanOperandsGiveTheCanonicalNan : Obligations.NanOperandsGiveTheCanonicalNan := by
  have nan {x : Word64} : IsNan x → F32.value (elem F32.width x 0) = .nan := value_elem_of_isNan
  refine ⟨fun w s c h => ⟨_, issue_ok _ h, ?add⟩, fun w s c h => ⟨_, issue_ok _ h, ?sub⟩,
    fun w s c h => ⟨_, issue_ok _ h, ?mul⟩,
    fun w s c h => ⟨_, issue_ok _ h, ?fma⟩, fun w s c h => ⟨_, issue_ok _ h, ?scale⟩, ?minMax,
    fun w s c h => ⟨_, issue_ok _ h, ?rnd⟩,
    fun w s c h => ⟨_, issue_ok _ h, fTrans_lands_nan fRcp_keepsNan⟩,
    fun w s c h => ⟨_, issue_ok _ h, fTrans_lands_nan fRsq_keepsNan⟩,
    fun w s c h => ⟨_, issue_ok _ h, fTrans_lands_nan fSqrt_keepsNan⟩,
    fun w s c h => ⟨_, issue_ok _ h, fTrans_lands_nan fExp2_keepsNan⟩,
    fun w s c h => ⟨_, issue_ok _ h, fTrans_lands_nan fLog2_keepsNan⟩,
    fun w s c h => ⟨_, issue_ok _ h, fTrans_lands_nan fSin_keepsNan⟩,
    fun w s c h => ⟨_, issue_ok _ h, fTrans_lands_nan fCos_keepsNan⟩,
    fun w s c h => ⟨_, issue_ok _ h, fTrans_lands_nan fTanh_keepsNan⟩⟩
  case add => exact fun hty => fElem_lands_nan hty fun _ hn => fAdd_nan (hn.imp nan nan)
  case sub => exact fun hty => fElem_lands_nan hty fun _ hn => fSub_nan (hn.imp nan nan)
  case mul => exact fun hty => fElem_lands_nan hty fun _ hn => fMul_nan (hn.imp nan nan)
  case fma => exact fun hty => fElem_lands_nan hty fun _ hn => fFma_nan (hn.imp nan (Or.imp nan nan))
  case scale => exact fun hty => fElem_lands_nan hty fun _ hn => fScale_nan (nan hn)
  case minMax =>
    rintro i w (rfl | rfl) s c h
    all_goals exact ⟨_, issue_ok _ h, fun hty => fElem_lands_nan hty fun _ hn => fMinMax_nan (hn.imp nan nan)⟩
  case rnd => exact fun hty => fElem_lands_nan hty fun _ hn => fRnd_nan (nan hn)

end Sys2Proof.Proofs
end

section
/-! SUPPORT. Finite patterns as numbers: the rational of a dyadic, the magnitude of a pattern, which grows with the pattern, and
the finite patterns of a format (R78). -/

namespace Sys2Proof.Proofs

open Sys2Proof Sys2Proof.Machine Sys2Proof.Laws

/-! ### Dyadics -/

/-- The rational number n · 2^e. -/
def dyRat (a : Dy) : ℚ := a.1 * 2 ^ a.2

/-- A dyadic written with a smaller exponent. -/
theorem dyRat_eq_scaled {a : Dy} {e : ℤ} (h : e ≤ a.2) : dyRat a = ((a.1 * 2 ^ (a.2 - e).toNat : ℤ) : ℚ) * 2 ^ e := by
  have h2 : (2 : ℚ) ^ a.2 = 2 ^ (a.2 - e).toNat * 2 ^ e := by
    rw [← zpow_natCast, ← zpow_add₀ two_ne_zero]
    congr 1
    omega
  rw [dyRat, h2]
  push_cast
  ring

theorem lt_iff_dyRat (a b : Dy) : Dy.lt a b = true ↔ dyRat a < dyRat b := by
  rw [dyRat_eq_scaled (min_le_left a.2 b.2), dyRat_eq_scaled (min_le_right a.2 b.2),
    mul_lt_mul_iff_left₀ (zpow_pos two_pos _), Int.cast_lt]
  exact decide_eq_true_iff

theorem not_lt_iff_dyRat (a b : Dy) : Dy.lt b a = false ↔ dyRat a ≤ dyRat b := by
  rw [← not_lt, ← lt_iff_dyRat, Bool.not_eq_true]

theorem dyRat_add (a b : Dy) : dyRat (Dy.add a b) = dyRat a + dyRat b := by
  unfold Dy.add
  split
  · next h => simp [dyRat, h]
  · split
    · next h => simp [dyRat, h]
    · rw [dyRat_eq_scaled (min_le_left a.2 b.2), dyRat_eq_scaled (min_le_right a.2 b.2), dyRat]
      push_cast
      ring

theorem dyRat_neg (a : Dy) : dyRat (-a.1, a.2) = -dyRat a := by simp [dyRat]

theorem dyRat_natAbs (a : Dy) : dyRat ((a.1.natAbs : ℤ), a.2) = |dyRat a| := by
  simp [dyRat, abs_mul, abs_of_pos (zpow_pos (two_pos (α := ℚ)) a.2)]

/-! ### Magnitudes of patterns -/

/-- The shape that the five formats share. -/
def Proper (f : Fmt) : Prop := 1 ≤ f.p ∧ 2 ≤ f.eb

theorem proper_of_mem {f : Fmt} (h : f = F32 ∨ f = F16 ∨ f = BF16 ∨ f = E4M3 ∨ f = E5M2) : Proper f := by
  rcases h with rfl | rfl | rfl | rfl | rfl <;> exact ⟨by decide, by decide⟩

/-- The exponent of the last place of the smallest patterns, subnormal and of exponent 1. -/
def lowExp (f : Fmt) : ℤ := 1 - (f.bias : ℤ) - f.p

/-- How many binades the last place of a pattern is above that. -/
def binade (f : Fmt) (n : Nat) : Nat := n / 2 ^ f.p - 1

/-- The magnitude of a pattern without its sign, as if exponents had no upper bound. -/
def patMag (f : Fmt) (n : Nat) : ℚ := ((n - binade f n * 2 ^ f.p : Nat) : ℚ) * 2 ^ (lowExp f + binade f n)

/-- Patterns of one binade, and the first one of the next, are k · 2^p and a significand r. -/
theorem patMag_add (f : Fmt) {k r : Nat} (hk : k = 0 ∨ 2 ^ f.p ≤ r) (hr : r ≤ 2 * 2 ^ f.p) :
    patMag f (k * 2 ^ f.p + r) = r * 2 ^ (lowExp f + k) := by
  have hp := Nat.two_pow_pos f.p
  have hdiv : (k * 2 ^ f.p + r) / 2 ^ f.p = k + r / 2 ^ f.p := by rw [add_comm, Nat.add_mul_div_right _ _ hp, add_comm]
  have hb : binade f (k * 2 ^ f.p + r) = k + (r / 2 ^ f.p - 1) := by
    rw [binade, hdiv]
    rcases hk with rfl | hk
    · omega
    · have := (Nat.one_le_div_iff hp).mpr hk
      omega
  unfold patMag
  rw [hb]
  rcases hr.lt_or_eq with h | rfl
  · have : r / 2 ^ f.p - 1 = 0 := by
      have := (Nat.div_lt_iff_lt_mul hp).mpr h
      omega
    simp [this]
  · rw [Nat.mul_div_cancel _ hp, show k * 2 ^ f.p + 2 * 2 ^ f.p - (k + (2 - 1)) * 2 ^ f.p = 2 ^ f.p by
      rw [← add_mul, ← Nat.sub_mul, show k + 2 - (k + (2 - 1)) = 1 by omega, one_mul]]
    push_cast
    rw [← add_assoc, zpow_add_one₀ two_ne_zero]
    ring

/-- Each pattern is a significand in a binade. -/
theorem exists_significand (f : Fmt) (n : Nat) :
    ∃ k r, n = k * 2 ^ f.p + r ∧ (k = 0 ∨ 2 ^ f.p ≤ r) ∧ r < 2 * 2 ^ f.p := by
  have hn := Nat.div_add_mod' n (2 ^ f.p)
  have hlt := Nat.mod_lt n (Nat.two_pow_pos f.p)
  rcases Nat.eq_zero_or_pos (n / 2 ^ f.p) with h | h
  · exact ⟨0, n, by omega, .inl rfl, by rw [h] at hn; omega⟩
  · obtain ⟨k, hk⟩ := Nat.exists_eq_add_of_le' h
    exact ⟨k, 2 ^ f.p + n % 2 ^ f.p, by rw [hk, add_mul] at hn; omega, .inr (by omega), by omega⟩

theorem patMag_lt_succ (f : Fmt) (n : Nat) : patMag f n < patMag f (n + 1) := by
  obtain ⟨k, r, rfl, hk, hr⟩ := exists_significand f n
  rw [patMag_add f hk hr.le, add_assoc, patMag_add f (hk.imp_right Nat.le_succ_of_le) hr]
  exact mul_lt_mul_of_pos_right (Nat.cast_lt.mpr (Nat.lt_succ_self r)) (zpow_pos two_pos _)

/-- A larger pattern is a larger magnitude. -/
theorem patMag_strictMono (f : Fmt) : StrictMono (patMag f) := strictMono_nat_of_lt_succ (patMag_lt_succ f)

@[simp] theorem patMag_zero (f : Fmt) : patMag f 0 = 0 := by simp [patMag]

theorem patMag_nonneg (f : Fmt) (n : Nat) : 0 ≤ patMag f n := patMag_zero f ▸ (patMag_strictMono f).monotone n.zero_le

/-! ### Finite patterns -/

/-- A pattern of a format that stands for a finite value. -/
def FinitePat (f : Fmt) (p : Nat) : Prop := p < 2 * f.sbit ∧ ∃ n k j, f.value p = .fin n k j

/-- A number with a sign. -/
def withSign (neg : Bool) (x : ℚ) : ℚ := if neg then -x else x

/-- The number that a finite pattern stands for. -/
def patRat (f : Fmt) (p : Nat) : ℚ := dyRat (f.value p).dy

theorem sbit_eq (f : Fmt) : f.sbit = 2 ^ f.eb * 2 ^ f.p := by rw [Fmt.sbit, pow_add, mul_comm]

/-- The finite patterns end below the NaN of a format without infinities and below the infinity of the others. -/
theorem le_maxPat_iff {f : Fmt} {n : Nat} (hf : Proper f) (hn : n < f.sbit) :
    n ≤ f.maxPat ↔ if f.fin then ¬(n / 2 ^ f.p = 2 ^ f.eb - 1 ∧ n % 2 ^ f.p = 2 ^ f.p - 1)
      else n / 2 ^ f.p ≠ 2 ^ f.eb - 1 := by
  have hp := Nat.two_pow_pos f.p
  have he : 2 ^ 2 ≤ 2 ^ f.eb := Nat.pow_le_pow_right two_pos hf.2
  have hs := sbit_eq f
  have hsub : (2 ^ f.eb - 1) * 2 ^ f.p = 2 ^ f.eb * 2 ^ f.p - 2 ^ f.p := Nat.sub_one_mul ..
  have hle : 1 * 2 ^ f.p ≤ (2 ^ f.eb - 1) * 2 ^ f.p := Nat.mul_le_mul_right _ (by omega)
  have hdiv : n / 2 ^ f.p < 2 ^ f.eb := (Nat.div_lt_iff_lt_mul hp).mpr (hs ▸ hn)
  have hm := Nat.div_add_mod' n (2 ^ f.p)
  have hr := Nat.mod_lt n hp
  have htop : n / 2 ^ f.p = 2 ^ f.eb - 1 ↔ (2 ^ f.eb - 1) * 2 ^ f.p ≤ n := by
    rw [← Nat.le_div_iff_mul_le hp]
    omega
  unfold Fmt.maxPat Fmt.infPat
  split
  · rw [show 2 ^ (f.p + f.eb) = f.sbit from rfl]
    constructor
    · rintro h ⟨h1, h2⟩
      rw [h1, h2] at hm
      omega
    · intro h
      by_contra hlt
      refine h ⟨htop.mpr (by omega), ?_⟩
      rw [htop.mpr (by omega)] at hm
      omega
  · rw [ne_eq, htop]
    omega

theorem maxPat_lt_sbit (f : Fmt) : f.maxPat < f.sbit := by
  have hp := Nat.two_pow_pos f.p
  have hs := sbit_eq f
  have hpos := Nat.two_pow_pos (f.p + f.eb)
  unfold Fmt.maxPat Fmt.infPat
  split
  · exact Nat.sub_lt hpos two_pos
  · rw [Nat.sub_one_mul]
    have : 0 < f.sbit := hpos
    omega

/-- The fraction, exponent and sign of a pattern with a sign. -/
theorem signed_fields {f : Fmt} {n : Nat} (h : n < f.sbit) (neg : Bool) : f.signed neg n % 2 ^ f.p = n % 2 ^ f.p ∧
    f.signed neg n / 2 ^ f.p % 2 ^ f.eb = n / 2 ^ f.p ∧ (f.signed neg n / f.sbit % 2 = 1 ↔ neg = true) := by
  have hp := Nat.two_pow_pos f.p
  have hdiv : n / 2 ^ f.p < 2 ^ f.eb := (Nat.div_lt_iff_lt_mul hp).mpr (sbit_eq f ▸ h)
  cases neg
  · simp [Fmt.signed, Nat.mod_eq_of_lt hdiv, Nat.div_eq_of_lt h]
  · have hs : (n + f.sbit) / f.sbit = 1 := by
      rw [Nat.add_div_right _ (Nat.zero_lt_of_lt h), Nat.div_eq_of_lt h]
    refine ⟨?_, ?_, by simp [Fmt.signed, hs]⟩
    · simp [Fmt.signed, sbit_eq]
    · simp [Fmt.signed, sbit_eq, Nat.add_mul_div_right _ _ hp, Nat.mod_eq_of_lt hdiv]

/-- The value of a pattern within the finite ones. -/
theorem value_signed {f : Fmt} {n : Nat} (hf : Proper f) (h : n ≤ f.maxPat) (neg : Bool) :
    f.value (f.signed neg n) = .fin neg (n - binade f n * 2 ^ f.p) (lowExp f + binade f n) := by
  have hn := h.trans_lt (maxPat_lt_sbit f)
  obtain ⟨hfr, hexp, hsign⟩ := signed_fields hn neg
  have hneg : (f.signed neg n / f.sbit % 2 == 1) = neg := Bool.eq_iff_iff.mpr (beq_iff_eq.trans hsign)
  have hfin := (le_maxPat_iff hf hn).mp h
  have hm := Nat.div_add_mod' n (2 ^ f.p)
  unfold Fmt.value binade
  simp only [hfr, hexp, hneg]
  have hnan : (f.fin && n / 2 ^ f.p == 2 ^ f.eb - 1 && n % 2 ^ f.p == 2 ^ f.p - 1) = false := by
    cases h : f.fin <;> simp_all
  have hinf : (!f.fin && n / 2 ^ f.p == 2 ^ f.eb - 1) = false := by
    cases h : f.fin <;> simp_all
  simp only [hnan, hinf, Bool.false_eq_true, if_false]
  split
  · next h0 =>
    rw [beq_iff_eq] at h0
    have : n % 2 ^ f.p = n := by rw [h0] at hm; omega
    simp [h0, this, lowExp]
  · next h0 =>
    obtain ⟨k, hk⟩ := Nat.exists_eq_add_of_le' (Nat.one_le_iff_ne_zero.mpr fun h => h0 (beq_iff_eq.mpr h))
    rw [hk] at hm ⊢
    rw [add_mul] at hm
    congr 1
    · rw [Nat.add_sub_cancel]
      omega
    · simp only [lowExp]
      push_cast
      omega

/-- No pattern above them is finite. -/
theorem value_signed_ne_fin {f : Fmt} {n : Nat} (hf : Proper f) (h : f.maxPat < n) (hn : n < f.sbit) (neg s : Bool)
    (m : Nat) (e : ℤ) :
    f.value (f.signed neg n) ≠ .fin s m e := by
  obtain ⟨hfr, hexp, hsign⟩ := signed_fields hn neg
  have hfin := mt (le_maxPat_iff hf hn).mpr (not_le.mpr h)
  unfold Fmt.value
  simp only [hfr, hexp]
  cases hff : f.fin
  · have htop : n / 2 ^ f.p = 2 ^ f.eb - 1 := by simpa [hff] using hfin
    simp only [htop, Bool.false_and, Bool.not_false, beq_self_eq_true, Bool.and_self, Bool.false_eq_true, if_false, if_true]
    split <;> exact nofun
  · obtain ⟨htop, hone⟩ : n / 2 ^ f.p = 2 ^ f.eb - 1 ∧ n % 2 ^ f.p = 2 ^ f.p - 1 := by simpa [hff] using hfin
    simp [htop, hone]

theorem finitePat_iff {f : Fmt} {p : Nat} (hf : Proper f) : FinitePat f p ↔ ∃ neg n, n ≤ f.maxPat ∧ p = f.signed neg n := by
  constructor
  · rintro ⟨hlt, s, m, e, hv⟩
    have hs : 0 < f.sbit := Nat.two_pow_pos _
    have hp : p = f.signed (decide (f.sbit ≤ p)) (p % f.sbit) := by
      unfold Fmt.signed
      by_cases h : f.sbit ≤ p
      · have : p % f.sbit = p - f.sbit := by rw [Nat.mod_eq_sub_mod h, Nat.mod_eq_of_lt (by omega)]
        simp only [h, decide_true, if_true]
        omega
      · simp [h, Nat.mod_eq_of_lt (not_le.mp h)]
    refine ⟨_, _, ?_, hp⟩
    by_contra h
    exact value_signed_ne_fin hf (not_le.mp h) (Nat.mod_lt _ hs) _ s m e (hp ▸ hv)
  · rintro ⟨neg, n, hn, rfl⟩
    refine ⟨?_, _, _, _, value_signed hf hn neg⟩
    have := maxPat_lt_sbit f
    cases neg <;> simp only [Fmt.signed, if_true, Bool.false_eq_true, if_false] <;> omega

theorem patRat_signed {f : Fmt} {n : Nat} (hf : Proper f) (h : n ≤ f.maxPat) (neg : Bool) :
    patRat f (f.signed neg n) = withSign neg (patMag f n) := by
  rw [patRat, value_signed hf h]
  cases neg <;> simp [FV.dy, dyRat, withSign, patMag]

end Sys2Proof.Proofs
end

section
/-! SUPPORT. The one rounding as a choice between two neighbouring patterns (R82-R85): the pattern and the flags depend on the exact
value alone. -/

namespace Sys2Proof.Proofs

open Sys2Proof Sys2Proof.Machine Sys2Proof.Laws

/-! ### The kept significand and the rest -/

/-- The exponent of the last place that rounding m · 2^e keeps. -/
def keptExp (f : Fmt) (m : Nat) (e : ℤ) : ℤ := max ((Nat.log2 m : ℤ) + e) (1 - (f.bias : ℤ)) - f.p

/-- m · 2^e in units of 2^q, over a power of two: numerator and denominator. -/
def unitsNum (m : Nat) (e q : ℤ) : Nat := m * 2 ^ (-(q - e)).toNat
/-- The denominator. -/
def unitsDen (e q : ℤ) : Nat := 2 ^ (q - e).toNat

theorem unitsDen_pos (e q : ℤ) : 0 < unitsDen e q := Nat.two_pow_pos _

/-- The fractions as `roundTo` writes them, by the side on which the last place of the number lies. -/
theorem units_eq_ite (m : Nat) (e q : ℤ) :
    unitsNum m e q / unitsDen e q = (if q - e ≤ 0 then m * 2 ^ (-(q - e)).toNat else m / 2 ^ (q - e).toNat) ∧
    unitsNum m e q % unitsDen e q = (if q - e ≤ 0 then 0 else m % 2 ^ (q - e).toNat) ∧
    unitsDen e q = if q - e ≤ 0 then 1 else 2 ^ (q - e).toNat := by
  unfold unitsNum unitsDen
  split_ifs with h
  · simp [Int.toNat_of_nonpos h, Nat.mod_one]
  · rw [Int.toNat_of_nonpos (show -(q - e) ≤ 0 by omega), pow_zero, mul_one]
    exact ⟨rfl, rfl, rfl⟩

/-- A number split into whole units of 2^q and the rest. -/
theorem split_units (m : Nat) (e q : ℤ) : (m : ℚ) * 2 ^ e =
    (unitsNum m e q / unitsDen e q : Nat) * 2 ^ q + (unitsNum m e q % unitsDen e q : Nat) * (2 ^ q / unitsDen e q) := by
  have hd : (unitsDen e q : ℚ) ≠ 0 := by exact_mod_cast (unitsDen_pos e q).ne'
  have hdm : (unitsNum m e q : ℚ) = (unitsNum m e q / unitsDen e q : Nat) * unitsDen e q +
      (unitsNum m e q % unitsDen e q : Nat) := by
    exact_mod_cast (Nat.div_add_mod' _ _).symm
  have hs : (m : ℚ) * 2 ^ e * unitsDen e q = unitsNum m e q * 2 ^ q := by
    simp only [unitsNum, unitsDen, Nat.cast_mul, Nat.cast_pow, Nat.cast_ofNat, ← zpow_natCast]
    rw [mul_assoc, mul_assoc, ← zpow_add₀ two_ne_zero, ← zpow_add₀ two_ne_zero]
    congr 2
    omega
  rw [← mul_left_inj' hd, hs, hdm]
  field_simp

theorem whole_units_le (m : Nat) (e q : ℤ) : (unitsNum m e q / unitsDen e q : Nat) * (2 : ℚ) ^ q ≤ m * 2 ^ e := by
  rw [split_units m e q]
  exact le_add_of_nonneg_right (by positivity)

theorem lt_whole_units_succ (m : Nat) (e q : ℤ) : (m : ℚ) * 2 ^ e < (unitsNum m e q / unitsDen e q + 1 : Nat) * 2 ^ q := by
  have hd : (0 : ℚ) < unitsDen e q := by exact_mod_cast unitsDen_pos e q
  have hr : ((unitsNum m e q % unitsDen e q : Nat) : ℚ) < unitsDen e q := by exact_mod_cast Nat.mod_lt _ (unitsDen_pos e q)
  have : ((unitsNum m e q % unitsDen e q : Nat) : ℚ) * (2 ^ q / unitsDen e q) < 2 ^ q := by
    rw [mul_div_left_comm]
    exact mul_lt_of_lt_one_right (by positivity) ((div_lt_one hd).mpr hr)
  rw [split_units m e q, Nat.cast_succ, add_one_mul]
  gcongr

section
variable (f : Fmt) {m : Nat} (hm : m ≠ 0) (e : ℤ)
include hm

/-- The first place of a number. -/
theorem top_place_bounds : (2 : ℚ) ^ ((Nat.log2 m : ℤ) + e) ≤ m * 2 ^ e ∧
    (m : ℚ) * 2 ^ e < 2 ^ ((Nat.log2 m : ℤ) + e + 1) := by
  have h1 : ((2 ^ m.log2 : Nat) : ℚ) ≤ m := by exact_mod_cast Nat.log2_self_le hm
  have h2 : (m : ℚ) < (2 ^ (m.log2 + 1) : Nat) := by exact_mod_cast Nat.lt_log2_self
  push_cast at h1 h2
  constructor
  · rw [zpow_add₀ two_ne_zero, zpow_natCast]
    gcongr
  · rw [add_right_comm, zpow_add₀ two_ne_zero, ← Nat.cast_succ, zpow_natCast]
    gcongr

/-- What is kept has at most p + 1 bits, and all of them unless it is subnormal. -/
theorem kept_bounds : ∃ k : Nat, keptExp f m e = lowExp f + k ∧
    (k = 0 ∨ 2 ^ f.p ≤ unitsNum m e (keptExp f m e) / unitsDen e (keptExp f m e)) ∧
    unitsNum m e (keptExp f m e) / unitsDen e (keptExp f m e) < 2 * 2 ^ f.p := by
  obtain ⟨hlo, hhi⟩ := top_place_bounds hm e
  have hq : (0 : ℚ) < 2 ^ keptExp f m e := zpow_pos two_pos _
  have hunit (t : ℤ) (ht : t = keptExp f m e + f.p) : (2 : ℚ) ^ t = 2 ^ f.p * 2 ^ keptExp f m e := by
    rw [ht, add_comm, zpow_add₀ two_ne_zero, zpow_natCast]
  refine ⟨(max ((Nat.log2 m : ℤ) + e) (1 - (f.bias : ℤ)) - (1 - (f.bias : ℤ))).toNat,
    by simp only [keptExp, lowExp]; omega, ?_, ?_⟩
  · rcases le_or_gt ((Nat.log2 m : ℤ) + e) (1 - (f.bias : ℤ)) with h | h
    · exact .inl (by omega)
    · refine .inr (Nat.lt_succ_iff.mp ?_)
      have := hlo.trans_lt (lt_whole_units_succ m e (keptExp f m e))
      rw [hunit _ (by simp only [keptExp]; omega)] at this
      exact_mod_cast lt_of_mul_lt_mul_right this hq.le
  · have hle : (2 : ℚ) ^ ((Nat.log2 m : ℤ) + e + 1) ≤ 2 * 2 ^ f.p * 2 ^ keptExp f m e := by
      rw [mul_assoc, ← hunit (max ((Nat.log2 m : ℤ) + e) (1 - (f.bias : ℤ))) (by simp only [keptExp]; omega),
        ← zpow_one_add₀ two_ne_zero]
      exact zpow_le_zpow_right₀ one_le_two (by omega)
    have := (whole_units_le m e (keptExp f m e)).trans_lt (hhi.trans_le hle)
    exact_mod_cast lt_of_mul_lt_mul_right this hq.le

/-- The exact value is below the smallest normal one when its first place is. -/
theorem below_normal_iff : (Nat.log2 m : ℤ) + e < 1 - (f.bias : ℤ) ↔ (m : ℚ) * 2 ^ e < 2 ^ (1 - (f.bias : ℤ)) := by
  obtain ⟨hlo, hhi⟩ := top_place_bounds hm e
  constructor
  · intro h
    exact hhi.trans_le (zpow_le_zpow_right₀ one_le_two (by omega))
  · intro h
    exact (zpow_lt_zpow_iff_right₀ one_lt_two).mp (hlo.trans_lt h)

end

/-- The pattern that `roundTo` builds of a significand. -/
theorem pattern_of_significand {f : Fmt} {k r : Nat} {q : ℤ} (hq : q = lowExp f + k) (hk : k = 0 ∨ 2 ^ f.p ≤ r) :
    (if r < 2 ^ f.p then r else if r = 2 ^ (f.p + 1) then (q + f.p + 1 + f.bias).toNat * 2 ^ f.p
      else (q + f.p + f.bias).toNat * 2 ^ f.p + (r - 2 ^ f.p)) = k * 2 ^ f.p + r := by
  have h1 : (q + f.p + f.bias).toNat = k + 1 := by simp only [hq, lowExp]; omega
  have h2 : (q + f.p + 1 + f.bias).toNat = k + 2 := by simp only [hq, lowExp]; omega
  rw [h1, h2, pow_succ']
  split_ifs with h h'
  · rcases hk with rfl | hk <;> omega
  · rw [h', ← add_mul]
  · rw [add_mul]; omega

theorem compare_eq_of_scaled {a b : Nat} {x y c d : ℚ} (hc : 0 < c) (hx : x = d + a * c) (hy : y = d + b * c) :
    compare a b = compare x y := by
  rcases lt_trichotomy a b with h | h | h
  · rw [compare_lt_iff_lt.mpr h, eq_comm, compare_lt_iff_lt, hx, hy]
    gcongr
  · rw [compare_eq_iff_eq.mpr h, eq_comm, compare_eq_iff_eq, hx, hy, h]
  · rw [compare_gt_iff_gt.mpr h, eq_comm, compare_gt_iff_gt, hx, hy]
    gcongr

/-! ### The choice between two patterns -/

/-- Does a mode round away from zero on a sign (R82)? -/
def awayMode (rm : Nat) (neg : Bool) : Bool := (rm == 2 && !neg) || (rm == 3 && neg)

/-- Pattern `n` and the next one enclose a magnitude. -/
def Encloses (f : Fmt) (n : Nat) (x : ℚ) : Prop := patMag f n ≤ x ∧ x < patMag f (n + 1)

theorem Encloses.le_iff {f : Fmt} {x : ℚ} {n k : Nat} (h : Encloses f n x) : k ≤ n ↔ patMag f k ≤ x :=
  ⟨fun hk => ((patMag_strictMono f).monotone hk).trans h.1,
   fun hk => Nat.lt_succ_iff.mp ((patMag_strictMono f).lt_iff_lt.mp (hk.trans_lt h.2))⟩

theorem Encloses.unique {f : Fmt} {x : ℚ} {n k : Nat} (h : Encloses f n x) (h' : Encloses f k x) : n = k :=
  le_antisymm (h'.le_iff.mpr h.1) (h.le_iff.mpr h'.1)

/-- The pattern that a mode chooses for a magnitude of which `n` and its successor are the neighbours. -/
def chosenPat (f : Fmt) (rm : Nat) (neg : Bool) (x : ℚ) (n : Nat) : Nat :=
  if roundUp rm neg (n % 2 == 1) (compare (2 * x) (patMag f n + patMag f (n + 1))) (decide (x = patMag f n)) then n + 1 else n

/-- What an overflow delivers (R84). -/
def overflowPat (f : Fmt) (rm : Nat) (st neg : Bool) : Nat :=
  if rm = 0 ∨ awayMode rm neg = true then
    (if st then f.signed neg f.maxPat else if f.fin then f.nan else f.signed neg f.infPat)
  else f.signed neg f.maxPat

/-- The chosen pattern with its sign, or the overflow case, and the flags. -/
def roundedRat (f : Fmt) (rm : Nat) (st neg : Bool) (x : ℚ) (n : Nat) : Nat × Nat :=
  if f.maxPat < chosenPat f rm neg x n then (overflowPat f rm st neg, flOverflow + flInexact)
  else (f.signed neg (chosenPat f rm neg x n),
    if x = patMag f n then 0 else if x < 2 ^ (1 - (f.bias : ℤ)) then flUnderflow + flInexact else flInexact)

/-- The exact value that `roundTo` rounds: the sticky bit stands for a quarter of the last place. -/
def exactOf (m : Nat) (e : ℤ) (sticky : Bool) : ℚ := ((4 * m + (if sticky then 1 else 0) : Nat) : ℚ) * 2 ^ (e - 2)

/-- A pattern is odd when its significand is. -/
theorem pattern_mod_two {f : Fmt} (hp : 1 ≤ f.p) (k r : Nat) : (k * 2 ^ f.p + r) % 2 = r % 2 := by
  obtain ⟨t, ht⟩ := dvd_mul_of_dvd_right (dvd_pow_self 2 (Nat.one_le_iff_ne_zero.mp hp)) k
  omega

/-- The choice said of the kept significand `K` of binade `k` and the rest `R` of `D` parts of its last place. -/
theorem chosenPat_of_kept {f : Fmt} (hp : 1 ≤ f.p) (rm : Nat) (neg : Bool) {k K R D : Nat} {x : ℚ}
    (hlo : k = 0 ∨ 2 ^ f.p ≤ K)
    (hhi : K < 2 * 2 ^ f.p) (hR : R < D) (hx : x = K * 2 ^ (lowExp f + k) + R * (2 ^ (lowExp f + k) / D)) :
    Encloses f (k * 2 ^ f.p + K) x ∧ (x = patMag f (k * 2 ^ f.p + K) ↔ R = 0) ∧
    chosenPat f rm neg x (k * 2 ^ f.p + K) =
      k * 2 ^ f.p + if roundUp rm neg (K % 2 == 1) (compare (2 * R) D) (R == 0) then K + 1 else K := by
  have hn := patMag_add f hlo hhi.le
  have hs : patMag f (k * 2 ^ f.p + K + 1) = (K + 1 : Nat) * 2 ^ (lowExp f + k) :=
    add_assoc (k * 2 ^ f.p) K 1 ▸ patMag_add f (hlo.imp_right Nat.le_succ_of_le) hhi
  have hD : (0 : ℚ) < D := by exact_mod_cast Nat.zero_lt_of_lt hR
  have hu : (0 : ℚ) < 2 ^ (lowExp f + k) := zpow_pos two_pos _
  have hDu : (D : ℚ) * (2 ^ (lowExp f + k) / D) = 2 ^ (lowExp f + k) := mul_div_cancel₀ _ hD.ne'
  have hRlt : (R : ℚ) * (2 ^ (lowExp f + k) / D) < 2 ^ (lowExp f + k) := by
    conv_rhs => rw [← hDu]
    gcongr
  have hexact : x = patMag f (k * 2 ^ f.p + K) ↔ R = 0 := by
    rw [hn, hx, add_eq_left, mul_eq_zero, Nat.cast_eq_zero]
    exact or_iff_left (div_pos hu hD).ne'
  refine ⟨⟨?_, ?_⟩, hexact, ?_⟩
  · rw [hn, hx]
    exact le_add_of_nonneg_right (by positivity)
  · rw [hs, hx]
    push_cast
    linarith
  · have hhalf : compare (2 * R) D = compare (2 * x) (patMag f (k * 2 ^ f.p + K) + patMag f (k * 2 ^ f.p + K + 1)) :=
      compare_eq_of_scaled (d := 2 * K * 2 ^ (lowExp f + k)) (div_pos hu hD) (by rw [hx]; push_cast; ring)
        (by rw [hDu, hn, hs]; push_cast; ring)
    rw [chosenPat, pattern_mod_two hp, ← hhalf, decide_eq_decide.mpr hexact, add_assoc, ← apply_ite (k * 2 ^ f.p + ·)]
    rfl

/-- The modes of an overflow that delivers no largest finite value (R84). -/
theorem overflowPat_eq_ite (f : Fmt) (rm : Nat) (st neg : Bool) :
    overflowPat f rm st neg = if rm = 0 ∨ (rm = 2 ∧ neg = false) ∨ (rm = 3 ∧ neg = true) then
        (if st then f.maxPat + (if neg then f.sbit else 0) else if f.fin then f.nan else f.infPat + if neg then f.sbit else 0)
      else f.maxPat + if neg then f.sbit else 0 := by
  unfold overflowPat
  congr 1
  simp [awayMode]

/-- The flags of a result within the finite ones (R85). -/
theorem roundFlags_finite (tiny diff : Bool) :
    roundFlags false tiny diff = if diff = false then 0 else if tiny then flUnderflow + flInexact else flInexact := by
  cases tiny <;> cases diff <;> rfl

/-- `roundTo` chooses one of the two patterns next to the exact value. -/
theorem roundTo_eq_roundedRat (f : Fmt) (hp : 1 ≤ f.p) (rm : Nat) (st neg : Bool) {m : Nat} (e : ℤ) {sticky : Bool}
    (h : ¬(m = 0 ∧ sticky = false)) : ∃ n, Encloses f n (exactOf m e sticky) ∧
      roundTo f rm st neg m e sticky = roundedRat f rm st neg (exactOf m e sticky) n := by
  have hm : 4 * m + (if sticky then 1 else 0) ≠ 0 := by
    cases sticky
    · have : m ≠ 0 := fun h0 => h ⟨h0, rfl⟩
      simp [this]
    · simp
  unfold roundTo exactOf
  rw [if_neg h]
  generalize 4 * m + (if sticky then 1 else 0) = m4 at hm ⊢
  generalize e - 2 = e4
  dsimp only
  obtain ⟨k, hk, hlo, hhi⟩ := kept_bounds f hm e4
  have hx := split_units m4 e4 (keptExp f m4 e4)
  have hR := Nat.mod_lt (unitsNum m4 e4 (keptExp f m4 e4)) (unitsDen_pos e4 (keptExp f m4 e4))
  obtain ⟨hkept, hrest, hunit⟩ := units_eq_ite m4 e4 (keptExp f m4 e4)
  rw [← keptExp, ← hkept, ← hrest, ← hunit]
  generalize unitsNum m4 e4 (keptExp f m4 e4) / unitsDen e4 (keptExp f m4 e4) = K at hlo hhi hx ⊢
  generalize unitsNum m4 e4 (keptExp f m4 e4) % unitsDen e4 (keptExp f m4 e4) = R at hx hR ⊢
  generalize unitsDen e4 (keptExp f m4 e4) = D at hx hR ⊢
  rw [hk] at hx ⊢
  obtain ⟨henc, hexact, hchosen⟩ := chosenPat_of_kept hp rm neg hlo hhi hR hx
  refine ⟨_, henc, ?_⟩
  have hr : K ≤ if roundUp rm neg (K % 2 == 1) (compare (2 * R) D) (R == 0) then K + 1 else K := by
    split <;> omega
  rw [roundedRat, hchosen]
  generalize (if roundUp rm neg (K % 2 == 1) (compare (2 * R) D) (R == 0) then K + 1 else K) = r at hr ⊢
  rw [pattern_of_significand rfl (hlo.imp_right fun h => h.trans hr), overflowPat_eq_ite]
  split
  · rfl
  · rw [roundFlags_finite, Fmt.signed, add_comm]
    simp [hexact, below_normal_iff f hm e4]

end Sys2Proof.Proofs
end

section
/-! SUPPORT. Rounding delivers the value that the mode names (O33): the chosen pattern is the nearest, the next below or the next
above in magnitude, and with its sign among all finite patterns. -/

namespace Sys2Proof.Proofs

open Sys2Proof Sys2Proof.Machine Sys2Proof.Laws

/-! ### The modes -/

theorem roundUp_nearest (neg odd : Bool) (half : Ordering) (exact : Bool) :
    roundUp 0 neg odd half exact = true ↔ exact = false ∧ (half = .gt ∨ half = .eq ∧ odd = true) := by
  cases exact <;> cases half <;> simp [roundUp]

theorem roundUp_directed {rm : Nat} (h0 : rm ≠ 0) (h4 : rm < 4) (neg odd : Bool) (half : Ordering) (exact : Bool) :
    roundUp rm neg odd half exact = (!exact && awayMode rm neg) := by
  obtain rfl | rfl | rfl : rm = 1 ∨ rm = 2 ∨ rm = 3 := by omega
  all_goals cases exact <;> cases neg <;> rfl

section
variable {f : Fmt} {rm : Nat} {neg : Bool} {x : ℚ} {n : Nat}

/-- To nearest: the nearer of the two, and the even one of a tie (R82). -/
theorem chosenPat_nearest (f : Fmt) (neg : Bool) (x : ℚ) (n : Nat) :
    (chosenPat f 0 neg x n = n ∧ (2 * x < patMag f n + patMag f (n + 1) ∨
      2 * x = patMag f n + patMag f (n + 1) ∧ n % 2 = 0)) ∨
    (chosenPat f 0 neg x n = n + 1 ∧ (patMag f n + patMag f (n + 1) < 2 * x ∨
      2 * x = patMag f n + patMag f (n + 1) ∧ n % 2 = 1)) := by
  have hup := roundUp_nearest neg (n % 2 == 1) (compare (2 * x) (patMag f n + patMag f (n + 1))) (decide (x = patMag f n))
  rw [compare_gt_iff_gt, compare_eq_iff_eq, decide_eq_false_iff_not, beq_iff_eq] at hup
  have hlt := patMag_lt_succ f n
  unfold chosenPat
  split
  · next hr => exact .inr ⟨rfl, (hup.mp hr).2⟩
  · next hr =>
    refine .inl ⟨rfl, ?_⟩
    rcases eq_or_ne x (patMag f n) with hx | hx
    · exact .inl (by linarith)
    · rcases lt_trichotomy (2 * x) (patMag f n + patMag f (n + 1)) with h | h | h
      · exact .inl h
      · exact .inr ⟨h, Nat.mod_two_ne_one.mp fun hodd => hr (hup.mpr ⟨hx, .inr ⟨h, hodd⟩⟩)⟩
      · exact absurd (hup.mpr ⟨hx, .inl h⟩) hr

/-- A mode that rounds toward zero takes the lower one. -/
theorem chosenPat_toward (h0 : rm ≠ 0) (h4 : rm < 4) (h : awayMode rm neg = false) : chosenPat f rm neg x n = n := by
  simp [chosenPat, roundUp_directed h0 h4, h]

/-- A mode that rounds away from zero takes the upper one, unless the value is exact. -/
theorem chosenPat_away (h0 : rm ≠ 0) (h4 : rm < 4) (h : awayMode rm neg = true) :
    chosenPat f rm neg x n = if x = patMag f n then n else n + 1 := by
  by_cases hx : x = patMag f n <;> simp [chosenPat, roundUp_directed h0 h4, h, hx]

/-- The chosen pattern is exact where the lower neighbour is. -/
theorem chosenPat_exact_iff (h : Encloses f n x) (rm : Nat) (neg : Bool) :
    patMag f (chosenPat f rm neg x n) = x ↔ x = patMag f n := by
  unfold chosenPat
  split
  · next hup =>
    have hx : x ≠ patMag f n := fun hx => by simp [roundUp, hx] at hup
    exact ⟨fun he => absurd he h.2.ne', fun he => absurd he hx⟩
  · exact eq_comm

/-! ### Magnitudes -/

/-- No pattern is nearer, and another one as near leaves the even one (R82). -/
def IsNearest (f : Fmt) (x : ℚ) (n : Nat) : Prop :=
  ∀ k, |x - patMag f n| ≤ |x - patMag f k| ∧ (|x - patMag f k| ≤ |x - patMag f n| → k ≠ n → n % 2 = 0)

/-- The largest magnitude not above. -/
def IsNextBelow (f : Fmt) (x : ℚ) (n : Nat) : Prop := patMag f n ≤ x ∧ ∀ k, patMag f k ≤ x → patMag f k ≤ patMag f n

/-- The smallest magnitude not below. -/
def IsNextAbove (f : Fmt) (x : ℚ) (n : Nat) : Prop := x ≤ patMag f n ∧ ∀ k, x ≤ patMag f k → patMag f n ≤ patMag f k

/-- The next value toward -∞ of a number with a sign. -/
def IsNextDown (f : Fmt) (neg : Bool) (x : ℚ) (n : Nat) : Prop := if neg then IsNextAbove f x n else IsNextBelow f x n

/-- The next value toward +∞. -/
def IsNextUp (f : Fmt) (neg : Bool) (x : ℚ) (n : Nat) : Prop := if neg then IsNextBelow f x n else IsNextAbove f x n

theorem chosenPat_isNearest (h : Encloses f n x) : IsNearest f x (chosenPat f 0 neg x n) := by
  obtain ⟨hlo, hhi⟩ := h
  have hmono := (patMag_strictMono f).monotone
  intro k
  have hk : |x - patMag f k| = if k ≤ n then x - patMag f k else patMag f k - x := by
    split
    · next h => exact abs_of_nonneg (sub_nonneg.mpr ((hmono h).trans hlo))
    · next h => rw [abs_sub_comm, abs_of_nonneg (sub_nonneg.mpr (hhi.le.trans (hmono (by omega))))]
  have hlow := abs_of_nonneg (sub_nonneg.mpr hlo)
  have hhigh : |x - patMag f (n + 1)| = patMag f (n + 1) - x := by rw [abs_sub_comm, abs_of_pos (sub_pos.mpr hhi)]
  have hnk (h : n < k) : patMag f (n + 1) ≤ patMag f k := hmono h
  rw [hk]
  rcases chosenPat_nearest f neg x n with ⟨hc, hnear⟩ | ⟨hc, hnear⟩
  · have hx : 2 * x ≤ patMag f n + patMag f (n + 1) := hnear.elim le_of_lt fun h => h.1.le
    rw [hc, hlow]
    split
    · next hkn =>
      refine ⟨by linarith [hmono hkn], fun hd hne => ?_⟩
      have : n ≤ k := (patMag_strictMono f).le_iff_le.mp (by linarith)
      omega
    · next hkn =>
      have hup := hnk (not_le.mp hkn)
      exact ⟨by linarith, fun hd _ => hnear.elim (fun h => absurd h (by linarith)) And.right⟩
  · have hx : patMag f n + patMag f (n + 1) ≤ 2 * x := hnear.elim le_of_lt fun h => h.1.ge
    rw [hc, hhigh]
    split
    · next hkn =>
      have hup := hmono hkn
      exact ⟨by linarith, fun hd _ => hnear.elim (fun h => absurd h (by linarith)) fun h => by omega⟩
    · next hkn =>
      refine ⟨by linarith [hnk (not_le.mp hkn)], fun hd hne => ?_⟩
      have : k ≤ n + 1 := (patMag_strictMono f).le_iff_le.mp (by linarith)
      omega

theorem chosenPat_isNextBelow (h : Encloses f n x) (h0 : rm ≠ 0) (h4 : rm < 4) (ha : awayMode rm neg = false) :
    IsNextBelow f x (chosenPat f rm neg x n) := by
  rw [chosenPat_toward h0 h4 ha]
  exact ⟨h.1, fun k hk => (patMag_strictMono f).monotone (h.le_iff.mpr hk)⟩

theorem chosenPat_isNextAbove (h : Encloses f n x) (h0 : rm ≠ 0) (h4 : rm < 4) (ha : awayMode rm neg = true) :
    IsNextAbove f x (chosenPat f rm neg x n) := by
  rw [chosenPat_away h0 h4 ha]
  split
  · next hx => exact ⟨hx.le, fun k hk => hx ▸ hk⟩
  · next hx =>
    refine ⟨h.2.le, fun k hk => (patMag_strictMono f).monotone ?_⟩
    exact (patMag_strictMono f).lt_iff_lt.mp ((lt_of_le_of_ne h.1 (Ne.symm hx)).trans_le hk)

/-! ### The overflow case -/

/-- The significand of the largest finite value. -/
def maxSig (f : Fmt) : Nat := 2 ^ f.p + f.maxPat % 2 ^ f.p
/-- The exponent of its last place. -/
def maxExp (f : Fmt) : ℤ := (f.maxPat / 2 ^ f.p : Nat) - f.bias - f.p

/-- The largest finite value is a normal one. -/
theorem two_pow_le_maxPat (hf : Proper f) : 2 ^ f.p ≤ f.maxPat := by
  have he : 2 ^ 2 ≤ 2 ^ f.eb := Nat.pow_le_pow_right two_pos hf.2
  have hlt : 2 ^ f.p < f.sbit := by
    rw [sbit_eq]
    exact lt_mul_left (Nat.two_pow_pos _) (by omega)
  rw [le_maxPat_iff hf hlt, Nat.div_self (Nat.two_pow_pos _)]
  split <;> omega

theorem patMag_maxPat (hf : Proper f) : patMag f f.maxPat = maxSig f * 2 ^ maxExp f ∧
    patMag f (f.maxPat + 1) = (maxSig f + 1 : Nat) * 2 ^ maxExp f ∧ maxSig f % 2 = f.maxPat % 2 := by
  obtain ⟨k, hk⟩ : ∃ k, f.maxPat / 2 ^ f.p = k + 1 :=
    Nat.exists_eq_add_of_le' ((Nat.one_le_div_iff (Nat.two_pow_pos f.p)).mpr (two_pow_le_maxPat hf))
  have hp := Nat.two_pow_pos f.p
  have hm := Nat.div_add_mod' f.maxPat (2 ^ f.p)
  have hr := Nat.mod_lt f.maxPat hp
  have hn : f.maxPat = k * 2 ^ f.p + maxSig f := by
    rw [hk, add_one_mul] at hm
    unfold maxSig
    omega
  have he : maxExp f = lowExp f + k := by
    simp only [maxExp, lowExp, hk]
    push_cast
    ring
  have hlo : 2 ^ f.p ≤ maxSig f := Nat.le_add_right ..
  have hhi : maxSig f < 2 * 2 ^ f.p := by
    unfold maxSig
    omega
  refine ⟨?_, ?_, by rw [hn, pattern_mod_two hf.1]⟩
  · rw [he, ← patMag_add f (.inr hlo) hhi.le, ← hn]
  · rw [he, ← patMag_add f (.inr (Nat.le_succ_of_le hlo)) hhi, Nat.succ_eq_add_one, ← add_assoc, ← hn]

/-- When the value rounded without an upper bound exceeds the largest finite one: to nearest. -/
theorem maxPat_lt_nearest_iff (h : Encloses f n x) : f.maxPat < chosenPat f 0 neg x n ↔
    if f.maxPat % 2 = 1 then patMag f f.maxPat + patMag f (f.maxPat + 1) ≤ 2 * x
    else patMag f f.maxPat + patMag f (f.maxPat + 1) < 2 * x := by
  obtain ⟨hlo, hhi⟩ := h
  have hmono := (patMag_strictMono f).monotone
  have hlt := patMag_lt_succ f f.maxPat
  rcases lt_trichotomy n f.maxPat with h | rfl | h
  · have hx : 2 * x < patMag f f.maxPat + patMag f (f.maxPat + 1) := by linarith [hmono (Nat.succ_le_of_lt h)]
    have hc : ¬f.maxPat < chosenPat f 0 neg x n := by
      rcases chosenPat_nearest f neg x n with ⟨hc, -⟩ | ⟨hc, -⟩ <;> omega
    simp [hc, hx.not_ge, hx.not_gt]
  · rcases chosenPat_nearest f neg x f.maxPat with ⟨hc, hx | ⟨hx, he⟩⟩ | ⟨hc, hx | ⟨hx, he⟩⟩
    · simp [hc, hx.not_ge, hx.not_gt]
    · simp [hc, hx, he]
    · simp [hc, hx, hx.le]
    · simp [hc, hx, he]
  · have hx : patMag f f.maxPat + patMag f (f.maxPat + 1) < 2 * x := by linarith [hmono (Nat.succ_le_of_lt h)]
    have hc : f.maxPat < chosenPat f 0 neg x n := by
      rcases chosenPat_nearest f neg x n with ⟨hc, -⟩ | ⟨hc, -⟩ <;> omega
    simp [hc, hx, hx.le]

theorem maxPat_lt_toward_iff (h : Encloses f n x) (h0 : rm ≠ 0) (h4 : rm < 4) (ha : awayMode rm neg = false) :
    f.maxPat < chosenPat f rm neg x n ↔ patMag f (f.maxPat + 1) ≤ x := by
  rw [chosenPat_toward h0 h4 ha, ← h.le_iff, Nat.succ_le_iff]

theorem maxPat_lt_away_iff (h : Encloses f n x) (h0 : rm ≠ 0) (h4 : rm < 4) (ha : awayMode rm neg = true) :
    f.maxPat < chosenPat f rm neg x n ↔ patMag f f.maxPat < x := by
  have hmono := patMag_strictMono f
  rw [chosenPat_away h0 h4 ha]
  split
  · next hx => rw [hx, hmono.lt_iff_lt]
  · next hx =>
    rw [Nat.lt_succ_iff]
    exact ⟨fun hn => (hmono.monotone hn).trans_lt (lt_of_le_of_ne h.1 (Ne.symm hx)), fun hn => h.le_iff.mpr hn.le⟩

/-- The overflow case in the words of R84, by the largest finite value and the step above it. -/
theorem maxPat_lt_chosenPat_iff {a : Dy} (hf : Proper f) (h : Encloses f n (dyRat a)) (h4 : rm < 4) :
    f.maxPat < chosenPat f rm neg (dyRat a) n ↔
      if rm = 0 then
        if maxSig f % 2 = 1 then Dy.lt a (2 * (maxSig f : ℤ) + 1, maxExp f - 1) = false
        else ¬Dy.lt (2 * (maxSig f : ℤ) + 1, maxExp f - 1) a = false
      else if awayMode rm neg = true then ¬Dy.lt ((maxSig f : ℤ), maxExp f) a = false
      else Dy.lt a ((maxSig f : ℤ) + 1, maxExp f) = false := by
  obtain ⟨hmax, hsucc, hodd⟩ := patMag_maxPat hf
  have hmaxD : dyRat ((maxSig f : ℤ), maxExp f) = patMag f f.maxPat := by simp [dyRat, hmax]
  have hsuccD : dyRat ((maxSig f : ℤ) + 1, maxExp f) = patMag f (f.maxPat + 1) := by simp [dyRat, hsucc]
  have hmid : 2 * dyRat (2 * (maxSig f : ℤ) + 1, maxExp f - 1) = patMag f f.maxPat + patMag f (f.maxPat + 1) := by
    rw [dyRat, hmax, hsucc, zpow_sub_one₀ two_ne_zero]
    push_cast
    ring
  simp only [not_lt_iff_dyRat, hmaxD, hsuccD, not_le]
  split
  · next h0 =>
    subst h0
    rw [maxPat_lt_nearest_iff h, ← hmid, hodd, mul_le_mul_iff_right₀ two_pos, mul_lt_mul_iff_right₀ two_pos]
  · next h0 =>
    split
    · next ha => exact maxPat_lt_away_iff h h0 h4 ha
    · next ha => exact maxPat_lt_toward_iff h h0 h4 (Bool.eq_false_iff.mpr ha)

/-- Toward -∞: RD, and RZ of a positive value. -/
theorem chosenPat_isNextDown (h : Encloses f n x) (hrm : rm = 1 ∧ neg = false ∨ rm = 3) :
    IsNextDown f neg x (chosenPat f rm neg x n) := by
  obtain ⟨rfl, rfl⟩ | rfl := hrm
  · exact chosenPat_isNextBelow h (by decide) (by decide) rfl
  · cases neg
    · exact chosenPat_isNextBelow h (by decide) (by decide) rfl
    · exact chosenPat_isNextAbove h (by decide) (by decide) rfl

/-- Toward +∞: RU, and RZ of a negative value. -/
theorem chosenPat_isNextUp (h : Encloses f n x) (hrm : rm = 1 ∧ neg = true ∨ rm = 2) :
    IsNextUp f neg x (chosenPat f rm neg x n) := by
  obtain ⟨rfl, rfl⟩ | rfl := hrm
  · exact chosenPat_isNextBelow h (by decide) (by decide) rfl
  · cases neg
    · exact chosenPat_isNextAbove h (by decide) (by decide) rfl
    · exact chosenPat_isNextBelow h (by decide) (by decide) rfl

end

/-! ### Values with their signs -/

section
variable {f : Fmt} {neg : Bool} {x : ℚ} {n p : Nat}

theorem withSign_inj {neg : Bool} {x y : ℚ} : withSign neg x = withSign neg y ↔ x = y := by cases neg <;> simp [withSign]

theorem withSign_not (neg : Bool) (x : ℚ) : withSign (!neg) x = -withSign neg x := by cases neg <;> simp [withSign]

theorem withSign_sub (neg : Bool) (x y : ℚ) : |withSign neg x - withSign neg y| = |x - y| := by
  cases neg
  · rfl
  · simp [withSign, abs_sub_comm, neg_add_eq_sub]

theorem withSign_not_sub {x y : ℚ} (hx : 0 ≤ x) (hy : 0 ≤ y) (neg : Bool) : |withSign neg x - withSign (!neg) y| = x + y := by
  rw [withSign_not, sub_neg_eq_add, ← abs_of_nonneg (add_nonneg hx hy)]
  cases neg
  · rfl
  · rw [← abs_neg, withSign, withSign, if_pos rfl, if_pos rfl, neg_add, neg_neg, neg_neg]

/-- The sign leaves a pattern even or odd. -/
theorem signed_mod_two (hf : Proper f) (neg : Bool) (n : Nat) : f.signed neg n % 2 = n % 2 := by
  obtain ⟨t, ht⟩ : 2 ∣ f.sbit := dvd_pow_self 2 (by have := hf.1; omega)
  cases neg <;> simp only [Fmt.signed, if_true, Bool.false_eq_true, if_false] <;> omega

/-- To nearest among the finite patterns. -/
theorem IsNearest.signed (hf : Proper f) (h : IsNearest f x n) (hx : 0 < x) (hn : n ≤ f.maxPat) (hp : FinitePat f p) :
    |withSign neg x - patRat f (f.signed neg n)| ≤ |withSign neg x - patRat f p| ∧
    (|withSign neg x - patRat f p| ≤ |withSign neg x - patRat f (f.signed neg n)| → p ≠ f.signed neg n →
      f.signed neg n % 2 = 0) := by
  obtain ⟨s, k, hk, rfl⟩ := (finitePat_iff hf).mp hp
  rw [patRat_signed hf hn, patRat_signed hf hk, withSign_sub, signed_mod_two hf]
  obtain ⟨hle, heven⟩ := h k
  obtain rfl | rfl : s = neg ∨ s = !neg := by cases s <;> cases neg <;> simp
  · rw [withSign_sub]
    exact ⟨hle, fun hd hne => heven hd fun hkn => hne (hkn ▸ rfl)⟩
  · have hk0 := patMag_nonneg f k
    obtain ⟨hle0, heven0⟩ := h 0
    rw [patMag_zero, sub_zero, abs_of_pos hx] at hle0 heven0
    rw [withSign_not_sub hx.le hk0]
    refine ⟨by linarith, fun hd _ => ?_⟩
    rcases Nat.eq_zero_or_pos n with rfl | hpos
    · rfl
    · exact heven0 (by linarith) hpos.ne

/-- Toward -∞ among the finite patterns. -/
theorem IsNextDown.signed (hf : Proper f) (h : IsNextDown f neg x n) (hx : 0 < x) (hn : n ≤ f.maxPat) :
    patRat f (f.signed neg n) ≤ withSign neg x ∧
    ∀ p, FinitePat f p → patRat f p ≤ withSign neg x → patRat f p ≤ patRat f (f.signed neg n) := by
  rw [patRat_signed hf hn]
  have hn0 := patMag_nonneg f n
  cases neg <;> obtain ⟨hle, hnext⟩ := h
  · refine ⟨hle, fun p hp hpx => ?_⟩
    obtain ⟨s, k, hk, rfl⟩ := (finitePat_iff hf).mp hp
    rw [patRat_signed hf hk] at hpx ⊢
    cases s
    · exact hnext k hpx
    · exact (neg_nonpos.mpr (patMag_nonneg f k)).trans hn0
  · refine ⟨neg_le_neg hle, fun p hp hpx => ?_⟩
    obtain ⟨s, k, hk, rfl⟩ := (finitePat_iff hf).mp hp
    rw [patRat_signed hf hk] at hpx ⊢
    cases s
    · exact absurd ((patMag_nonneg f k).trans hpx) (not_le.mpr (neg_neg_of_pos hx))
    · exact neg_le_neg (hnext k (neg_le_neg_iff.mp hpx))

/-- Toward +∞ among the finite patterns. -/
theorem IsNextUp.signed (hf : Proper f) (h : IsNextUp f neg x n) (hx : 0 < x) (hn : n ≤ f.maxPat) :
    withSign neg x ≤ patRat f (f.signed neg n) ∧
    ∀ p, FinitePat f p → withSign neg x ≤ patRat f p → patRat f (f.signed neg n) ≤ patRat f p := by
  have hdown : IsNextDown f (!neg) x n := by cases neg <;> exact h
  obtain ⟨hle, hnext⟩ := hdown.signed hf hx hn
  rw [patRat_signed hf hn, withSign_not, withSign_not, neg_le_neg_iff] at hle
  rw [patRat_signed hf hn]
  refine ⟨hle, fun p hp hpx => ?_⟩
  obtain ⟨s, k, hk, rfl⟩ := (finitePat_iff hf).mp hp
  specialize hnext (f.signed (!s) k) ((finitePat_iff hf).mpr ⟨_, k, hk, rfl⟩)
  rw [patRat_signed hf hk] at hpx ⊢
  rw [patRat_signed hf hk, patRat_signed hf hn, withSign_not, withSign_not, withSign_not, neg_le_neg_iff, neg_le_neg_iff] at hnext
  exact hnext hpx

end

/-! ### The obligation -/

theorem dyRat_one (e : ℤ) : dyRat (1, e) = 2 ^ e := by simp [dyRat]

/-- An exact value without a sticky bit. -/
theorem exactOf_false (m : Nat) (e : ℤ) : exactOf m e false = dyRat ((m : ℤ), e) := by
  simp only [exactOf, dyRat, zpow_sub₀ (two_ne_zero (α := ℚ))]
  push_cast
  ring

/-- The sticky bit stands for any part of the last place (R82). -/
theorem roundTo_sticky {f : Fmt} (hf : Proper f) (rm : Nat) (st neg : Bool) (m : Nat) (e : ℤ) :
    roundTo f rm st neg m e true = roundTo f rm st neg (4 * m + 1) (e - 2) false := by
  obtain ⟨n, hn, h1⟩ := roundTo_eq_roundedRat f hf.1 rm st neg e (m := m) (sticky := true) (by simp)
  obtain ⟨k, hk, h2⟩ := roundTo_eq_roundedRat f hf.1 rm st neg (e - 2) (m := 4 * m + 1) (sticky := false) (by simp)
  have hx : exactOf (4 * m + 1) (e - 2) false = exactOf m e true := by
    rw [exactOf_false, dyRat, exactOf]
    simp
  rw [hx] at hk h2
  rw [h1, h2, hn.unique hk]

/-- Settles O33: the exact value lies between two neighbouring patterns; the mode's choice between them is the one that the
statement names among all finite patterns. -/
theorem roundingIsCorrect : Obligations.RoundingIsCorrect := by
  intro f rm st neg m e hmem h4
  have hf := proper_of_mem hmem
  refine ⟨?zero, roundTo_sticky hf rm st neg m e, fun hm => ?_⟩
  case zero => simp [roundTo, Fmt.signed]
  intro r x mag v finite dist le M E away big
  obtain ⟨n, hn, hr⟩ := roundTo_eq_roundedRat f hf.1 rm st neg e (m := m) (sticky := false) (by simp [hm])
  rw [exactOf_false] at hn hr
  have hx : dyRat x = withSign neg (dyRat ((m : ℤ), e)) := by cases neg <;> simp [x, dyRat, withSign]
  have hpos : 0 < dyRat ((m : ℤ), e) := mul_pos (Int.cast_pos.mpr (by omega)) (zpow_pos two_pos _)
  have hle (a b : Dy) : le a b ↔ dyRat a ≤ dyRat b := not_lt_iff_dyRat a b
  have hv (p : Nat) : dyRat (v p) = patRat f p := rfl
  have hdist (p : Nat) : dyRat (dist p) = |withSign neg (dyRat ((m : ℤ), e)) - patRat f p| := by
    rw [← hx, sub_eq_add_neg, ← hv, ← dyRat_neg, ← dyRat_add, ← dyRat_natAbs]
  have hbig : big ↔ f.maxPat < chosenPat f rm neg (dyRat ((m : ℤ), e)) n := (maxPat_lt_chosenPat_iff hf hn h4).symm
  refine ⟨fun hb => hr.trans (if_pos (hbig.mp hb)), fun hb => ?_⟩
  have hr' := hr.trans (if_neg (mt hbig.mpr hb))
  have hc : chosenPat f rm neg (dyRat ((m : ℤ), e)) n ≤ f.maxPat := not_lt.mp (mt hbig.mpr hb)
  have hexact := chosenPat_exact_iff hn rm neg
  obtain ⟨-, -, hsign⟩ := signed_fields (hc.trans_lt (maxPat_lt_sbit f)) neg
  rw [show r = _ from hr']
  simp only [hle, hv, hdist, hx]
  refine ⟨(finitePat_iff hf).mpr ⟨neg, _, hc, rfl⟩, hsign, fun h0 p hp => ?nearest,
    fun hrm => (chosenPat_isNextDown hn hrm).signed hf hpos hc,
    fun hrm => (chosenPat_isNextUp hn hrm).signed hf hpos hc, ?flags⟩
  case nearest =>
    subst h0
    obtain ⟨hnear, heven⟩ := (chosenPat_isNearest hn).signed hf hpos hc hp
    exact ⟨hnear, fun hd hne => heven hd fun hp => hne (hp ▸ rfl)⟩
  case flags =>
    refine if_congr ?_ rfl (if_congr ?_ rfl rfl)
    · rw [← le_antisymm_iff, patRat_signed hf hc, withSign_inj, hexact]
    · rw [not_le, dyRat_one]

end Sys2Proof.Proofs
end

section
/-! SUPPORT. Results with their flags (R65, R97): what the loop of R65 lands and raises, and the elements of the element-wise
instructions. -/

namespace Sys2Proof.Proofs

open Sys2Proof Sys2Proof.Machine Sys2Proof.Laws

/-! ### Raised flags -/

/-- One raise of flags after writes that raise none. -/
theorem raises_raise {s t : State} (h : NoNewFlags s t) (c : Cur) (lat fl : Nat) :
    Raises s (t.raise c.u fl (c.cycle + lat) c.cycle) c lat fl := by
  unfold State.raise
  split
  · next h0 => exact ⟨fun p hp hf => .inl ((h p hp).resolve_right (not_not.mpr hf)), fun hne => absurd h0 hne⟩
  · next hne =>
    simp only [Raises, land_pend, mem_insertPend]
    refine ⟨fun p hp hf => ?_, fun _ => ⟨_, .inl rfl, rfl, rfl, rfl, rfl⟩⟩
    rcases hp with rfl | hp
    · exact .inr ⟨hne, rfl, rfl, rfl⟩
    · exact .inl ((h p hp).resolve_right (not_not.mpr hf))

theorem raises_refl (s : State) (c : Cur) (lat : Nat) : Raises s s c lat 0 :=
  ⟨fun _ hp _ => .inl hp, fun h => absurd rfl h⟩

/-- Writes to registers raise no flags. -/
theorem noNewFlags_landField (s : State) (c : Cur) (r l : Nat) (wide : Bool) (v : Word64) (lat op : Nat) :
    NoNewFlags s (landField s c r l wide v (c.cycle + lat) op) :=
  fun p hp => ((adds_landField s c r l wide v lat op).writes p hp).imp_right FieldWrite.file

theorem noNewFlags_foldl {α : Type} {f : State → α → State} (h : ∀ t a, NoNewFlags t (f t a)) (s : State) (l : List α) :
    NoNewFlags s (l.foldl f s) :=
  List.foldlRecOn (motive := NoNewFlags s) l f (fun _ hp => .inl hp) fun t ht a _ p hp => (h t a p hp).elim (ht p) .inr

theorem noNewFlags_landRes (s : State) (c : Cur) (l lat : Nat) (rs : List Res) :
    NoNewFlags s (landRes s c l (c.cycle + lat) rs) :=
  noNewFlags_foldl (fun _ _ => noNewFlags_landField _ _ _ _ _ _ _ _) _ _

/-! ### Lanes that raise flags -/

theorem laneCompute_of_laneActive {s : State} {c : Cur} {g : Guard} {l : Nat} (h : laneActive s c g l = true) :
    laneCompute s c g l = true := by
  unfold laneActive execMask at h
  unfold laneCompute execMask
  cases hx : s.unit? c.u with
  | none => simp [hx] at h
  | some x =>
    simp only [hx, Bool.and_eq_true] at h ⊢
    exact ⟨by simp [h.1], h.2⟩

/-- The lanes that raise flags are among those that compute, in the same order. -/
theorem filter_computing_realLanes (s : State) (c : Cur) (g : Guard) :
    ((List.range 32).filter (laneCompute s c g)).filter (fun l => (realLanes s c g).contains l) = realLanes s c g := by
  rw [List.filter_filter]
  unfold realLanes activeLanes
  rw [List.filter_filter]
  refine List.filter_congr fun l hl => Bool.eq_iff_iff.mpr ?_
  simp only [Bool.and_eq_true, List.contains_iff_mem, List.mem_filter]
  constructor
  · exact fun h => h.1.2
  · exact fun h => ⟨⟨hl, h⟩, laneCompute_of_laneActive h.2⟩

/-- The flags of the lanes that raise them, of results computed for all that compute. -/
theorem foldl_computing_flags {α : Type} (s : State) (c : Cur) (g : Guard) (v : Nat → α) (join : Nat → α → Nat) :
    ((((List.range 32).filter (laneCompute s c g)).map fun l => (l, v l)).filter fun x => (realLanes s c g).contains x.1).foldl
      (fun a x => join a x.2) 0 = (realLanes s c g).foldl (fun a l => join a (v l)) 0 := by
  conv_rhs => rw [← filter_computing_realLanes]
  rw [List.filter_map, List.foldl_map]
  rfl

/-! ### The loop of R65 -/

/-- An instruction whose loop (R65) computes one result and its flags for each lane. -/
theorem floatIn_alu {s : State} {c : Cur} {g : Guard} {d : Nat} {wide : Bool} {srcs : List (Nat × Bool)} {lat : Nat}
    {f : List Word64 → List Res × Nat} {r : Nat → Nat × Nat}
    (h : ∀ l, f (srcs.map fun x => readField s c x.1 l x.2) = ([(d, wide, BitVec.ofNat 64 (r l).1)], (r l).2)) :
    FloatIn s (alu s c g [d] srcs lat f) c g (srcs.map (·.1)) d wide lat r := by
  refine ⟨⟨onlyPending_alu .., ?results⟩, ?flags⟩
  case results =>
    split
    case isTrue hu =>
      have hone := alu_of_uniform (s := s) (g := g) (ds := [d]) (lat := lat) (f := f) hu
      split
      case isTrue hg => rwa [if_pos hg] at hone
      case isFalse hg =>
        rw [if_neg hg, h] at hone
        exact hone _ (List.mem_singleton_self _)
    case isFalse hu =>
      intro l hl hc
      have hone := alu_of_lanes (s := s) (g := g) (ds := [d]) (lat := lat) (f := f) hu hl hc
      rw [h] at hone
      exact hone _ (List.mem_singleton_self _)
  case flags =>
    unfold alu
    simp only [List.singleton_append]
    split
    · split
      · exact raises_refl ..
      · rw [h]
        exact raises_raise (noNewFlags_landRes _ _ _ _ _) ..
    · simp only [h]
      rw [foldl_computing_flags s c g (fun l => (([(d, wide, BitVec.ofNat 64 (r l).1)] : List Res), (r l).2)) fun a x => flOr a x.2]
      exact raises_raise (noNewFlags_foldl (fun _ _ => noNewFlags_landRes _ _ _ _ _) _ _) ..

/-! ### Elements -/

theorem elem_lt (w : Nat) (x : Word64) (i : Nat) : elem w x i < 2 ^ w := Nat.mod_lt _ (Nat.two_pow_pos w)

/-- The packed types are those of two elements of 16 bits. -/
theorem width_of_packed {ty : Nat} (h : (ty == 11 || ty == 12) = true) : (fmtOf ty).width = 16 ∧ elems ty = 2 := by
  simp only [Bool.or_eq_true, beq_iff_eq] at h
  rcases h with rfl | rfl <;> exact ⟨rfl, rfl⟩

theorem elems_of_unpacked {ty : Nat} (h : (ty == 11 || ty == 12) = false) : elems ty = 1 := by
  simpa [elems] using h

/-- An element-wise instruction lands what its function answers for each element. -/
theorem elementwise_fElem (s : State) (c : Cur) (w : RF) (srcs : List (BitVec 8)) (lat : Nat) {F : Fmt → List Nat → Nat × Nat}
    {G : Fmt → (BitVec 8 → Nat) → Nat × Nat → Prop}
    (h : ∀ x : BitVec 8 → Nat, (∀ b, x b < 2 ^ (fmtOf w.ty.toNat).width) →
      G (fmtOf w.ty.toNat) x (F (fmtOf w.ty.toNat) (srcs.map x))) :
    Elementwise s (fElem s c w srcs lat F) c w srcs lat G := by
  let x (l i : Nat) (b : BitVec 8) : Nat := elem (fmtOf w.ty.toNat).width (readField s c b.toNat l false) i
  refine ⟨fun l i => F (fmtOf w.ty.toNat) (srcs.map (x l i)), fun l i _ => h (x l i) fun b => elem_lt _ _ _, ?_⟩
  have hfields : (srcs.map fun b => (b.toNat, false)).map (·.1) = srcs.map (·.toNat) := by simp
  rw [← hfields]
  unfold fElem
  refine floatIn_alu fun l => ?_
  cases htwo : w.ty.toNat == 11 || w.ty.toNat == 12
  · simp [elems_of_unpacked htwo, packElems, flOr, Function.comp_def, x]
  · simp [width_of_packed htwo, packElems, flOr, List.range_succ, Function.comp_def, x]

end Sys2Proof.Proofs
end

section
/-! SUPPORT. Values of patterns, their order, their exact sums and products, as the case tables say them (R78, R91-R105). -/

namespace Sys2Proof.Proofs

open Sys2Proof Sys2Proof.Machine Sys2Proof.Laws

/-! ### Formats and values -/

theorem fmtOf_mem (ty : Nat) :
    fmtOf ty = F32 ∨ fmtOf ty = F16 ∨ fmtOf ty = BF16 ∨ fmtOf ty = E4M3 ∨ fmtOf ty = E5M2 := by
  unfold fmtOf
  split <;> simp

theorem proper_F32 : Proper F32 := ⟨by decide, by decide⟩

theorem proper_fmtOf (ty : Nat) : Proper (fmtOf ty) := proper_of_mem (fmtOf_mem ty)

theorem two_pow_width (f : Fmt) : 2 ^ f.width = 2 * f.sbit := by
  rw [Fmt.width, Fmt.sbit, add_assoc, pow_add, pow_one, add_comm f.eb]

section
variable {f : Fmt} {x m : Nat} {n : Bool} {e : ℤ}

/-- A format without infinities has none (Table 4.1). -/
theorem value_ne_inf (hf : f.fin = true) : f.value x ≠ .inf n := by
  simp only [Fmt.value, hf, Bool.not_true, Bool.false_and, Bool.false_eq_true, if_false]
  split
  · exact nofun
  · split <;> exact nofun

/-- The significand and the exponent of a finite value (R78): E4M3 alone has finite values of the highest exponent. -/
theorem value_fin_bounds (hf : Proper f) (h : f.value x = .fin n m e) :
    m < 2 * 2 ^ f.p ∧ lowExp f ≤ e ∧ e + f.bias + f.p + (if f.fin then 0 else 1) < 2 ^ f.eb := by
  have heb : 2 ^ 2 ≤ 2 ^ f.eb := Nat.pow_le_pow_right two_pos hf.2
  have hfr := Nat.mod_lt x (Nat.two_pow_pos f.p)
  have hexp := Nat.mod_lt (x / 2 ^ f.p) (Nat.two_pow_pos f.eb)
  rw [show (2 : ℤ) ^ f.eb = (2 ^ f.eb : Nat) by push_cast; rfl]
  unfold Fmt.value at h
  generalize x / 2 ^ f.p % 2 ^ f.eb = E at *
  dsimp only at h
  split at h
  · cases h
  split at h
  · split at h <;> cases h
  next hinf =>
  split at h
  · cases h
    exact ⟨by omega, le_refl _, by split <;> omega⟩
  · next h0 =>
    cases h
    have hne : E ≠ 0 := fun h => h0 (beq_iff_eq.mpr h)
    refine ⟨by omega, by unfold lowExp; omega, ?_⟩
    split
    · omega
    · next hfin =>
      have htop : E ≠ 2 ^ f.eb - 1 := by simpa [hfin] using hinf
      omega

/-- A zero is its sign. -/
theorem eq_signed_of_value_zero (hf : Proper f) (hx : x < 2 * f.sbit) (h : f.value x = .fin n 0 e) : x = f.signed n 0 := by
  obtain ⟨s, k, hk, rfl⟩ := (finitePat_iff hf).mp ⟨hx, n, 0, e, h⟩
  have hv := value_signed hf hk s
  rw [h] at hv
  injection hv with hs hm he
  have hk0 : k = 0 := by
    refine (patMag_strictMono f).injective ?_
    rw [patMag_zero, patMag, ← hm, Nat.cast_zero, zero_mul]
  rw [hs, hk0]

end

/-! ### Magnitudes -/

theorem sameMag_iff {n m : Nat} {e k : ℤ} : SameMag n e m k ↔ dyRat ((n : ℤ), e) = dyRat ((m : ℤ), k) := by
  rw [dyRat_eq_scaled (min_le_left e k), dyRat_eq_scaled (min_le_right e k), SameMag,
    mul_left_inj' (zpow_ne_zero _ two_ne_zero), Int.cast_inj]
  dsimp only
  norm_cast

theorem sameMag_refl (n : Nat) (e : ℤ) : SameMag n e n e := rfl

/-- Rounding an exact value as it stands. -/
theorem rounds_self (f : Fmt) (rm : Nat) (st neg : Bool) (n : Nat) (e : ℤ) :
    Rounds f rm st neg n e (roundTo f rm st neg n e false) := ⟨n, e, sameMag_refl n e, rfl⟩

theorem dyRat_neg_iff (a : Dy) : dyRat a < 0 ↔ a.1 < 0 := by
  rw [dyRat, ← not_iff_not, not_lt, not_lt, mul_nonneg_iff_of_pos_right (zpow_pos two_pos _)]
  exact Int.cast_nonneg_iff

theorem dyRat_eq_zero_iff (a : Dy) : dyRat a = 0 ↔ a.1 = 0 := by
  rw [dyRat, mul_eq_zero, or_iff_left (zpow_ne_zero _ two_ne_zero), Int.cast_eq_zero]

/-- An exact value given by another dyadic rounds to the same. -/
theorem rounds_dyadic {f : Fmt} {rm : Nat} {st : Bool} {x q : ℤ} {t : Dy} (h : dyRat t = dyRat (x, q)) :
    Rounds f rm st (decide (x < 0)) x.natAbs q (roundTo f rm st (decide (t.1 < 0)) t.1.natAbs t.2 false) := by
  have hneg : t.1 < 0 ↔ x < 0 := by rw [← dyRat_neg_iff, h, dyRat_neg_iff]
  refine ⟨t.1.natAbs, t.2, sameMag_iff.mpr ?_, by rw [decide_eq_decide.mpr hneg]⟩
  rw [dyRat_natAbs (x, q), dyRat_natAbs t, h]

/-! ### Sums -/

/-- A finite value as a number. -/
theorem scaled_eq_dyRat {q : ℤ} {t : FV} (h : ∀ n m e, t = .fin n m e → q ≤ e) : dyRat (t.scaled q, q) = dyRat t.dy := by
  cases t with
  | nan => simp [FV.scaled, FV.dy, dyRat]
  | inf n => simp [FV.scaled, FV.dy, dyRat]
  | fin n m e =>
    rw [dyRat_eq_scaled (a := (FV.fin n m e).dy) (h n m e rfl), dyRat]
    cases n <;> simp [FV.scaled, FV.dy]

theorem dyRat_foldl_add (ts : List FV) (a : Dy) :
    dyRat (ts.foldl (fun a x => Dy.add a x.dy) a) = dyRat a + (ts.map fun t => dyRat t.dy).sum := by
  induction ts generalizing a with
  | nil => simp
  | cons t ts ih => rw [List.foldl_cons, ih, dyRat_add, List.map_cons, List.sum_cons, add_assoc]

/-- The exact sum of finite values, in units of 2^q. -/
theorem dyRat_sum {q : ℤ} {ts : List FV} (h : ∀ n m e, FV.fin n m e ∈ ts → q ≤ e) :
    dyRat (ts.foldl (fun a x => Dy.add a x.dy) (0, 0)) = dyRat ((ts.map (FV.scaled q)).sum, q) := by
  have hsum : (ts.map fun t => dyRat t.dy).sum = dyRat ((ts.map (FV.scaled q)).sum, q) := by
    induction ts with
    | nil => simp [dyRat]
    | cons t ts ih =>
      rw [List.map_cons, List.sum_cons, ih fun n m e he => h n m e (List.mem_cons_of_mem _ he), List.map_cons, List.sum_cons,
        ← scaled_eq_dyRat fun n m e ht => h n m e (ht ▸ List.mem_cons_self)]
      simp only [dyRat]
      push_cast
      ring
  rw [dyRat_foldl_add, hsum, dyRat_eq_zero_iff (0, 0) |>.mpr rfl, zero_add]

/-- The sign of an exact zero sum (Table 5.2). -/
def zeroSign (rm : Nat) (ts : List FV) : Bool :=
  if ts.all FV.isZero && ts.all FV.neg then true
  else if ts.all FV.isZero && ts.all (fun t => !t.neg) then false else rm == 3

/-- The cases of a sum, in their order (Table 5.2, R93). -/
theorem sumFV_eq (rm : Nat) (ts : List FV) (bad : Bool) : sumFV rm ts bad =
    if bad = true ∨ (FV.inf false ∈ ts ∧ FV.inf true ∈ ts) then (.nan, flInvalid)
    else if FV.nan ∈ ts then (.nan, 0)
    else if FV.inf false ∈ ts then (.inf false, 0)
    else if FV.inf true ∈ ts then (.inf true, 0)
    else let t := ts.foldl (fun a x => Dy.add a x.dy) (0, 0)
      if t.1 = 0 then (.fin (zeroSign rm ts) 0 0, 0) else (Dy.fv t, 0) := by
  have hnan : ts.any FV.isNan = true ↔ FV.nan ∈ ts := by
    simp only [List.any_eq_true, isNan_eq_true, exists_eq_right]
  have hinf (n : Bool) : (ts.any fun t => t == .inf n) = true ↔ FV.inf n ∈ ts := by
    simp only [List.any_eq_true, beq_iff_eq, exists_eq_right]
  have hsign : (if ts.all FV.isZero && ts.all (fun x => x.neg) then true
      else if ts.all FV.isZero && ts.all (fun x => !x.neg || !x.isZero) then false else rm == 3) = zeroSign rm ts := by
    unfold zeroSign
    cases hz : ts.all FV.isZero
    · rfl
    · have hpos : ts.all (fun x => !x.neg || !x.isZero) = ts.all fun x => !x.neg := by
        rw [Bool.eq_iff_iff, List.all_eq_true, List.all_eq_true]
        exact forall₂_congr fun x hx => by simp [List.all_eq_true.mp hz x hx]
      rw [hpos]
  unfold sumFV
  simp only [Bool.or_eq_true, Bool.and_eq_true, hnan, hinf] at hsign ⊢
  simp only [hsign]

theorem roundFV_nan (f : Fmt) (rm : Nat) (st : Bool) : roundFV f rm st .nan = (f.nan, 0) := rfl

theorem roundFV_inf {f : Fmt} (hf : f.fin = false) (rm : Nat) (st n : Bool) :
    roundFV f rm st (.inf n) = (f.signed n f.infPat, 0) := by simp [roundFV, hf, Fmt.signed]

theorem roundTo_zero (f : Fmt) (rm : Nat) (st neg : Bool) (e : ℤ) : roundTo f rm st neg 0 e false = (f.signed neg 0, 0) := by
  simp [roundTo, Fmt.signed]

theorem flOr_zero_left (a : Nat) : flOr 0 a = a := Nat.zero_or a
theorem flOr_zero_right (a : Nat) : flOr a 0 = a := Nat.or_zero a

/-- A sum is rounded once, and has the flags of both (R85, R93). -/
theorem sumRound_of {f : Fmt} {rm : Nat} {st : Bool} {ts : List FV} {bad : Bool} {v : FV} {fl : Nat}
    (h : sumFV rm ts bad = (v, fl)) :
    sumRound f rm st ts bad = ((roundFV f rm st v).1, flOr fl (roundFV f rm st v).2) := by
  rw [sumRound, h]

/-- A sum rounded once is what Table 5.2, R93 and R105 say of its terms. -/
theorem sumRound_gives {f : Fmt} (rm : Nat) (st : Bool) {ts : List FV} (bad : Bool)
    (hf : f.fin = true → ∀ n, FV.inf n ∉ ts) : SumGives f rm st ts bad (sumRound f rm st ts bad) := by
  have hinf {n : Bool} (h : FV.inf n ∈ ts) : roundFV f rm st (.inf n) = (f.signed n f.infPat, 0) :=
    roundFV_inf (Bool.eq_false_iff.mpr fun hfin => hf hfin n h) rm st n
  have hsum := sumFV_eq rm ts bad
  refine ⟨fun hi => ?invalid, fun hi hn => ?nan, fun hi hn n h => ?inf, fun hall hb q hq => ?finite⟩
  case invalid =>
    rw [if_pos hi] at hsum
    rw [sumRound_of hsum, roundFV_nan, flOr_zero_right]
  case nan =>
    rw [if_neg hi, if_pos hn] at hsum
    rw [sumRound_of hsum, roundFV_nan, flOr_zero_right]
  case inf =>
    have hv : sumFV rm ts bad = (.inf n, 0) := by
      rw [hsum, if_neg hi, if_neg hn]
      cases n
      · rw [if_pos h]
      · rw [if_neg fun h' => hi (.inr ⟨h', h⟩), if_pos h]
    rw [sumRound_of hv, hinf h, flOr_zero_left]
  case finite =>
    have hne (t : FV) (ht : ∀ n m e, t ≠ .fin n m e) : t ∉ ts := fun h => by
      obtain ⟨n, m, e, he⟩ := hall t h
      exact ht n m e he
    rw [if_neg (by simp [hb, hne (.inf false) nofun]), if_neg (hne .nan nofun), if_neg (hne (.inf false) nofun),
      if_neg (hne (.inf true) nofun)] at hsum
    have hexact := dyRat_sum hq
    generalize ts.foldl (fun a x => Dy.add a x.dy) (0, 0) = t at hsum hexact
    have hzero : t.1 = 0 ↔ (ts.map (FV.scaled q)).sum = 0 := by
      rw [← dyRat_eq_zero_iff t, hexact, dyRat_eq_zero_iff]
    refine ⟨fun hx => ?_, fun hx => ?_⟩
    · rw [sumRound_of (hsum.trans (if_neg (mt hzero.mp hx))), flOr_zero_left]
      exact rounds_dyadic hexact
    · rw [sumRound_of (hsum.trans (if_pos (hzero.mpr hx))), flOr_zero_left]
      exact roundTo_zero f rm st _ 0

/-! ### FADD, FSUB, FMUL and FFMA -/

theorem sumRound_nan {f : Fmt} {rm : Nat} {st : Bool} {x y : FV} (h : x = .nan ∨ y = .nan) :
    sumRound f rm st [x, y] false = (f.nan, 0) := by
  have hinf : ¬(FV.inf false ∈ [x, y] ∧ FV.inf true ∈ [x, y]) := by
    rcases h with rfl | rfl <;> simpa using fun h h' => by simp [← h] at h'
  have hnan : FV.nan ∈ [x, y] := by
    rcases h with rfl | rfl <;> simp
  have hsum := sumFV_eq rm [x, y] false
  rw [if_neg (by simpa using hinf), if_pos hnan] at hsum
  rw [sumRound_of hsum, roundFV_nan, flOr_zero_right]

theorem fAdd_eq (f : Fmt) (rm : Nat) (st : Bool) (a b : Nat) :
    fAdd f rm st a b = sumRound f rm st [f.value a, f.value b] false := by
  unfold fAdd
  dsimp only
  split
  · next h => exact (sumRound_nan (by simpa [isNan_eq_true] using h)).symm
  · rfl

theorem negate_eq_nan {x : FV} : x.negate = .nan ↔ x = .nan := by cases x <;> simp [FV.negate]

theorem negate_eq_inf {x : FV} {n : Bool} : x.negate = .inf n ↔ x = .inf (!n) := by
  cases x <;> simp [FV.negate, Bool.not_eq_eq_eq_not]

theorem fSub_eq (f : Fmt) (rm : Nat) (st : Bool) (a b : Nat) :
    fSub f rm st a b = sumRound f rm st [f.value a, (f.value b).negate] false := by
  unfold fSub
  dsimp only
  split
  · next h => exact (sumRound_nan (by simpa [isNan_eq_true, negate_eq_nan] using h)).symm
  · rfl

theorem fAdd_gives (f : Fmt) (rm : Nat) (st : Bool) (a b : Nat) :
    SumGives f rm st [f.value a, f.value b] false (fAdd f rm st a b) := by
  rw [fAdd_eq]
  exact sumRound_gives rm st false fun hf n h => by
    rcases List.mem_pair.mp h with h | h <;> exact value_ne_inf hf h.symm

theorem fSub_gives (f : Fmt) (rm : Nat) (st : Bool) (a b : Nat) :
    SumGives f rm st [f.value a, (f.value b).negate] false (fSub f rm st a b) := by
  rw [fSub_eq]
  exact sumRound_gives rm st false fun hf n h => by
    rcases List.mem_pair.mp h with h | h
    · exact value_ne_inf hf h.symm
    · exact value_ne_inf hf (negate_eq_inf.mp h.symm)

/-- A product is infinite only with an infinite factor. -/
theorem mul_eq_inf {x y : FV} {n : Bool} (h : (x.mul y).1 = .inf n) : ∃ k, x = .inf k ∨ y = .inf k := by
  cases x with
  | nan => cases h
  | inf k => exact ⟨k, .inl rfl⟩
  | fin s m e =>
    cases y with
    | nan => cases h
    | inf k => exact ⟨k, .inr rfl⟩
    | fin => cases h

theorem fMul_gives (f : Fmt) (rm : Nat) (st : Bool) (a b : Nat) :
    MulGives f rm st (f.value a) (f.value b) (fMul f rm st a b) := by
  have hfin {x : Nat} {n : Bool} (h : f.value x = .inf n) : f.fin = false :=
    Bool.eq_false_iff.mpr fun hf => value_ne_inf hf h
  unfold fMul
  refine ⟨fun h => ?nan, fun s t m e h => ?infFin, fun s t hx hy => ?infInf, fun s m e t n k hx hy => ?finite⟩
  case nan => rw [mul_nan h]; rfl
  case infFin =>
    rcases h with ⟨hi, hv⟩ | ⟨hi, hv⟩
    all_goals
      simp only [hi, hv, FV.mul]
      split
      · rfl
      · simp only [roundFV_inf (hfin hi), Bool.false_eq_true, if_false, bne_comm]
  case infInf => simp only [hx, hy, FV.mul, roundFV_inf (hfin hx), Bool.false_eq_true, if_false]
  case finite =>
    simp only [hx, hy, FV.mul]
    exact rounds_self ..

theorem fFma_gives (f : Fmt) (rm : Nat) (st : Bool) (a b c : Nat) :
    FmaGives f rm st (f.value a) (f.value b) (f.value c) (fFma f rm st a b c) := by
  unfold fFma
  refine ⟨fun h => ?_, fun ha hb hc => ?_⟩
  · simp [isNan_eq_true, or_assoc, h]
  · simp only [Bool.or_eq_true, isNan_eq_true, ha, hb, hc, or_self, if_false]
    cases hbad : ((f.value a).mul (f.value b)).2
    · refine sumRound_gives rm st false fun hf n h => ?_
      rcases List.mem_pair.mp h with h | h
      · obtain ⟨k, hk | hk⟩ := mul_eq_inf h.symm <;> exact value_ne_inf hf hk
      · exact value_ne_inf hf h.symm
    · exact ⟨fun _ => rfl, fun hi => absurd (.inl rfl) hi, fun hi => absurd (.inl rfl) hi, fun _ h => by cases h⟩

/-- A dot product with an addend (R105). -/
theorem fDot_gives (rm : Nat) (st : Bool) (xs ys : List FV) (z : FV) :
    SumGives F32 rm st ((List.zipWith FV.mul xs ys).map (·.1) ++ [z]) ((List.zipWith FV.mul xs ys).any (·.2)) (fDot rm st xs ys z) :=
  sumRound_gives rm st _ nofun

/-! ### Order -/

theorem dyLt_irrefl (a : Dy) : Dy.lt a a = false := (not_lt_iff_dyRat a a).mpr le_rfl

theorem dyLt_asymm {a b : Dy} (h : Dy.lt a b = true) : Dy.lt b a = false :=
  (not_lt_iff_dyRat a b).mpr ((lt_iff_dyRat a b).mp h).le

theorem less_irrefl (z : Bool) (x : FV) : FV.less z x x = false := by
  cases x with
  | nan => simp [FV.less, FV.isZero, dyLt_irrefl]
  | inf n => simp [FV.less]
  | fin n m e => cases n <;> simp [FV.less, FV.neg, dyLt_irrefl]

theorem less_asymm {z : Bool} {x y : FV} (h : FV.less z x y = true) : FV.less z y x = false := by
  cases x with
  | inf n => cases y <;> simp_all [FV.less]
  | nan | fin n m e =>
    cases y with
    | inf k => simpa [FV.less] using h
    | nan | fin k m' e' =>
      simp only [FV.less] at h ⊢
      rw [Bool.and_comm]
      split at h
      · next hz => simp_all
      · next hz => rw [if_neg hz, dyLt_asymm h]

section
variable {f : Fmt} {larger : Bool} {a b : Nat}

/-- The smaller or the larger of two numbers (R100). -/
theorem fMinMax_gives (ha : a < 2 * f.sbit) (hb : b < 2 * f.sbit) : MinMaxGives f larger a b (fMinMax f larger a b) := by
  unfold fMinMax
  dsimp only
  rw [mul_comm, Nat.mod_eq_of_lt ha, Nat.mod_eq_of_lt hb]
  refine ⟨fun hx hy => ?_, fun hx hy => ?_, fun hx hy => ?_, fun hx hy => ?_⟩
  · simp [hx, hy, FV.isNan]
  · simp [hx, isNan_eq_true, hy]
  · simp [hy, isNan_eq_true, hx]
  · simp only [Bool.and_eq_true, isNan_eq_true, hx, hy, false_and, if_false]
    cases hlt : FV.less true (f.value a) (f.value b) <;> cases larger <;>
      simp [hlt, less_irrefl, less_asymm]

theorem fAbs_eq (f : Fmt) (a : Nat) : fAbs f a = if f.value a = .nan then f.nan else a % f.sbit :=
  if_congr isNan_eq_true rfl rfl

theorem fNeg_eq (ha : a < 2 * f.sbit) : fNeg f a = if f.value a = .nan then f.nan else (a + f.sbit) % (2 * f.sbit) := by
  refine if_congr isNan_eq_true rfl ?_
  rcases lt_or_ge a f.sbit with h | h
  · rw [Nat.div_eq_of_lt h, if_neg (by decide), Nat.mod_eq_of_lt h, Nat.mod_eq_of_lt (by omega)]
  · have hdiv : a / f.sbit = 1 := by
      rw [Nat.div_eq_iff (by omega)]
      omega
    rw [hdiv, if_pos rfl, Nat.mod_eq_sub_mod h, Nat.mod_eq_of_lt (by omega), show a + f.sbit = a - f.sbit + 2 * f.sbit by omega,
      Nat.add_mod_right, Nat.mod_eq_of_lt (by omega)]

end

end Sys2Proof.Proofs
end

section
/-! SUPPORT. Rounding at the edges (R82-R85): values that no pattern has, values below the smallest and above the largest pattern, the
sign of a result; and rounding to an integer (R102, R108). -/

namespace Sys2Proof.Proofs

open Sys2Proof Sys2Proof.Machine Sys2Proof.Laws

/-! ### Values that no pattern has -/

section
variable {f : Fmt} {rm m m' : Nat} {st neg sticky sticky' : Bool} {e e' : ℤ}

/-- An odd multiple of a power of two is no pattern when its last place is below every pattern's, or when it has more bits. -/
theorem odd_ne_patMag {M : Nat} {E : ℤ} (hodd : M % 2 = 1) (h : E < lowExp f ∨ 2 * 2 ^ f.p ≤ M) (n : Nat) :
    (M : ℚ) * 2 ^ E ≠ patMag f n := by
  obtain ⟨k, r, rfl, hk, hr⟩ := exists_significand f n
  rw [patMag_add f hk hr.le]
  intro heq
  rcases lt_or_ge E (lowExp f + k) with hlt | hge
  · have hM := sameMag_iff.mpr (show dyRat ((M : ℤ), E) = dyRat ((r : ℤ), lowExp f + k) by simpa [dyRat] using heq)
    rw [SameMag, min_eq_left hlt.le, sub_self, Int.toNat_zero, pow_zero, mul_one] at hM
    obtain ⟨j, hj⟩ := Nat.exists_eq_add_of_le' (show 1 ≤ (lowExp f + k - E).toNat by omega)
    rw [hj, pow_succ, ← mul_assoc] at hM
    omega
  · have hM := sameMag_iff.mpr (show dyRat ((M : ℤ), E) = dyRat ((r : ℤ), lowExp f + k) by simpa [dyRat] using heq)
    rw [SameMag, min_eq_right hge, sub_self, Int.toNat_zero, pow_zero, mul_one] at hM
    have hle := Nat.le_mul_of_pos_right M (Nat.two_pow_pos (E - (lowExp f + k)).toNat)
    omega

/-- A value that no pattern has is inexact. -/
theorem roundTo_inexact (hp : 1 ≤ f.p) (hz : ¬(m = 0 ∧ sticky = false)) (h : ∀ n, exactOf m e sticky ≠ patMag f n) :
    (roundTo f rm st neg m e sticky).2.testBit 0 = true := by
  obtain ⟨n, -, hr⟩ := roundTo_eq_roundedRat f hp rm st neg e hz
  rw [hr, roundedRat]
  split
  · show (flOverflow + flInexact).testBit 0 = true
    decide
  · rw [if_neg (h n)]
    dsimp only
    split <;> decide

/-- A sticky bit is inexact below the last place of every pattern, and below more bits than a pattern has. -/
theorem roundTo_sticky_inexact (hp : 1 ≤ f.p) (h : e - 2 < lowExp f ∨ 2 * 2 ^ f.p ≤ 4 * m + 1) :
    (roundTo f rm st neg m e true).2.testBit 0 = true :=
  roundTo_inexact hp (by simp) fun n => odd_ne_patMag (M := 4 * m + 1) (by omega) h n

/-! ### Signs -/

theorem infPat_lt_sbit (f : Fmt) : f.infPat < f.sbit := by
  rw [Fmt.infPat, sbit_eq]
  exact Nat.mul_lt_mul_of_pos_right (Nat.sub_lt (Nat.two_pow_pos _) one_pos) (Nat.two_pow_pos _)

theorem overflowPat_signed (hf : f.fin = false) : ∃ p, p < f.sbit ∧ overflowPat f rm st neg = f.signed neg p := by
  unfold overflowPat
  simp only [hf, Bool.false_eq_true, if_false]
  split_ifs
  · exact ⟨_, maxPat_lt_sbit f, rfl⟩
  · exact ⟨_, infPat_lt_sbit f, rfl⟩
  · exact ⟨_, maxPat_lt_sbit f, rfl⟩

/-- A result has the sign of the exact value. -/
theorem roundTo_signed (hp : 1 ≤ f.p) (hf : f.fin = false) :
    ∃ p, p < f.sbit ∧ (roundTo f rm st neg m e sticky).1 = f.signed neg p := by
  by_cases hz : m = 0 ∧ sticky = false
  · obtain ⟨rfl, rfl⟩ := hz
    exact ⟨0, Nat.two_pow_pos _, by rw [roundTo_zero]⟩
  · obtain ⟨n, -, hr⟩ := roundTo_eq_roundedRat f hp rm st neg e hz
    rw [hr, roundedRat]
    split
    · exact overflowPat_signed hf
    · next h => exact ⟨_, (not_lt.mp h).trans_lt (maxPat_lt_sbit f), rfl⟩

theorem roundTo_lt_sbit_iff (hp : 1 ≤ f.p) (hf : f.fin = false) :
    (roundTo f rm st neg m e sticky).1 < f.sbit ↔ neg = false := by
  obtain ⟨p, hlt, hr⟩ := roundTo_signed (rm := rm) (st := st) (neg := neg) (m := m) (e := e) (sticky := sticky) hp hf
  rw [hr]
  cases neg <;> simp [Fmt.signed, hlt]

/-! ### Beyond the patterns -/

theorem patMag_one (f : Fmt) : patMag f 1 = 2 ^ lowExp f := by
  have h2 : 1 ≤ 2 * 2 ^ f.p := by have := Nat.two_pow_pos f.p; omega
  simpa using patMag_add f (k := 0) (.inl rfl) h2

/-- A value below half of the smallest pattern rounds to zero or to that pattern, by the mode alone (R82, R85). -/
theorem roundTo_of_tiny (hf : Proper f) (h0 : 0 < exactOf m e sticky) (h : exactOf m e sticky < 2 ^ (lowExp f - 1)) :
    roundTo f rm st neg m e sticky =
      (f.signed neg (if roundUp rm neg false .lt false then 1 else 0), flUnderflow + flInexact) := by
  have hz : ¬(m = 0 ∧ sticky = false) := by
    rintro ⟨rfl, rfl⟩
    simp [exactOf] at h0
  obtain ⟨n, hn, hr⟩ := roundTo_eq_roundedRat f hf.1 rm st neg e hz
  generalize exactOf m e sticky = x at *
  have h2 : 2 * x < patMag f 1 := by
    rw [patMag_one]
    rw [zpow_sub_one₀ two_ne_zero] at h
    linarith
  obtain rfl : n = 0 := by
    have := mt hn.le_iff.mp (not_le.mpr (by linarith : x < patMag f 1))
    omega
  have hchosen : chosenPat f rm neg x 0 = if roundUp rm neg false .lt false then 1 else 0 := by
    rw [chosenPat, patMag_zero, zero_add, zero_add, compare_lt_iff_lt.mpr h2, decide_eq_false h0.ne']
    rfl
  have hmax : (if roundUp rm neg false .lt false then 1 else 0) ≤ f.maxPat := by
    have := (Nat.two_pow_pos f.p).trans_le (two_pow_le_maxPat hf)
    split <;> omega
  have hsub : x < 2 ^ (1 - (f.bias : ℤ)) := h.trans_le (zpow_le_zpow_right₀ one_le_two (by unfold lowExp; omega))
  rw [hr, roundedRat, hchosen, if_neg (not_lt.mpr hmax), patMag_zero, if_neg h0.ne', if_pos hsub]

/-- A value above every pattern overflows (R84). -/
theorem roundTo_of_huge (hp : 1 ≤ f.p) (h : patMag f (f.maxPat + 1) ≤ exactOf m e sticky) :
    roundTo f rm st neg m e sticky = (overflowPat f rm st neg, flOverflow + flInexact) := by
  have hz : ¬(m = 0 ∧ sticky = false) := by
    rintro ⟨rfl, rfl⟩
    have hpos := (patMag_strictMono f) (Nat.succ_pos f.maxPat)
    rw [patMag_zero] at hpos
    exact absurd (hpos.trans_le h) (by simp [exactOf])
  obtain ⟨n, hn, hr⟩ := roundTo_eq_roundedRat f hp rm st neg e hz
  have hchosen : f.maxPat < chosenPat f rm neg (exactOf m e sticky) n := by
    have hle := hn.le_iff.mpr h
    unfold chosenPat
    split <;> omega
  rw [hr, roundedRat, if_pos hchosen]

end

/-! ### Integers -/

/-- Rounding to an integer is exact for integers alone. -/
theorem toIntegral_inexact_iff (rm : Nat) (neg : Bool) (m : Nat) (e : ℤ) : (toIntegral rm neg m e).2 = true ↔ ¬Integral m e := by
  unfold toIntegral Integral
  split
  · next h => simp [h]
  · next h => simp [h]

/-- Rounding to an integer as R82 says. -/
theorem roundsInt_toIntegral {rm : Nat} (h4 : rm < 4) (neg : Bool) (m : Nat) (e : ℤ) :
    RoundsInt rm neg m e (toIntegral rm neg m e).1 := by
  unfold toIntegral RoundsInt
  by_cases he : 0 ≤ e
  · simp [he]
  · simp only [he, if_false]
    have hd := Nat.two_pow_pos (-e).toNat
    generalize 2 ^ (-e).toNat = d at hd ⊢
    have hm := Nat.div_add_mod' m d
    have hr := Nat.mod_lt m hd
    have hsucc : (m / d + 1) * d = m / d * d + d := Nat.add_one_mul ..
    by_cases h0 : rm = 0
    · subst h0
      have hup := roundUp_nearest neg (m / d % 2 == 1) (compare (2 * (m % d)) d) (m % d == 0)
      rw [compare_gt_iff_gt, compare_eq_iff_eq, beq_eq_false_iff_ne, beq_iff_eq] at hup
      simp only [if_true]
      split
      · next h =>
        have := hup.mp h
        omega
      · next h =>
        have := mt hup.mpr h
        omega
    · rw [if_neg h0, roundUp_directed h0 h4]
      have haway : (rm = 1 ∨ (rm = 2 ∧ neg = true) ∨ (rm = 3 ∧ neg = false)) ↔ awayMode rm neg = false := by
        obtain rfl | rfl | rfl : rm = 1 ∨ rm = 2 ∨ rm = 3 := by omega
        all_goals cases neg <;> decide
      cases ha : awayMode rm neg
      · simp [haway, ha]
      · simp only [haway, ha, Bool.true_eq_false, if_false, Bool.and_true]
        symm
        rw [Nat.div_eq_iff hd]
        cases hz : m % d == 0
        · have : m % d ≠ 0 := beq_eq_false_iff_ne.mp hz
          simp only [Bool.not_false, if_true]
          omega
        · have : m % d = 0 := beq_iff_eq.mp hz
          simp only [Bool.not_true, Bool.false_eq_true, if_false]
          omega

/-- FRND (R102). -/
theorem fRnd_gives {f : Fmt} {rm a : Nat} (h4 : rm < 4) (ha : a < 2 * f.sbit) : RndGives f rm a (fRnd f rm a) := by
  have hmod : a % (f.sbit * 2) = a := Nat.mod_eq_of_lt (by omega)
  unfold fRnd
  refine ⟨fun h => by simp only [h], fun n h => by simp only [h, hmod], fun n m e h => ?_⟩
  simp only [h, hmod]
  exact ⟨fun hi => if_neg (mt (toIntegral_inexact_iff ..).mp (not_not.mpr hi)),
    fun hi => ⟨_, roundsInt_toIntegral h4 n m e, if_pos ((toIntegral_inexact_iff ..).mpr hi)⟩⟩

/-- FCLASS by the exponent, the fraction and the sign (R103). -/
theorem fClass_eq (a : Nat) : fClass a =
    if a / 2 ^ 23 % 256 = 255 then (if a % 2 ^ 23 ≠ 0 then 256 else if a / 2 ^ 31 % 2 = 1 then 1 else 128)
    else if a / 2 ^ 23 % 256 ≠ 0 then (if a / 2 ^ 31 % 2 = 1 then 2 else 64)
    else if a % 2 ^ 23 ≠ 0 then (if a / 2 ^ 31 % 2 = 1 then 4 else 32)
    else if a / 2 ^ 31 % 2 = 1 then 8 else 16 := by
  have hfr : a % 2 ^ 23 < 2 ^ 23 := Nat.mod_lt a (Nat.two_pow_pos 23)
  have hv : F32.value a =
      if a / 2 ^ 23 % 256 = 255 then (if a % 2 ^ 23 = 0 then .inf (a / 2 ^ 31 % 2 == 1) else .nan)
      else if a / 2 ^ 23 % 256 = 0 then .fin (a / 2 ^ 31 % 2 == 1) (a % 2 ^ 23) (1 - (F32.bias : ℤ) - F32.p)
      else .fin (a / 2 ^ 31 % 2 == 1) (2 ^ 23 + a % 2 ^ 23) ((a / 2 ^ 23 % 256 : Nat) - (F32.bias : ℤ) - F32.p) := by
    simp [Fmt.value, F32, Fmt.sbit]
  unfold fClass
  rw [hv]
  generalize a / 2 ^ 23 % 256 = E
  generalize a % 2 ^ 23 = F at hfr
  generalize a / 2 ^ 31 % 2 = N
  by_cases hE : E = 255
  · by_cases hF : F = 0 <;> simp [hE, hF]
  · by_cases h0 : E = 0
    · by_cases hF : F = 0
      · simp [h0, hF]
      · simp [h0, hF, show F < 8388608 from hfr]
    · simp [hE, h0]

/-! ### Extreme values of F32 -/

theorem patMag_F32_succ_maxPat : patMag F32 (F32.maxPat + 1) = 2 ^ (128 : ℤ) := by
  have h := patMag_add F32 (k := 254) (r := 2 ^ 23) (.inr le_rfl) (by decide)
  rw [show F32.maxPat + 1 = 254 * 2 ^ F32.p + 2 ^ 23 by decide, h, show lowExp F32 = -149 from rfl]
  norm_num

/-- Any two values above all of F32 round to the same. -/
theorem roundTo_F32_eq_of_huge {rm m m' : Nat} {st neg s s' : Bool} {e e' : ℤ} (h : 2 ^ (128 : ℤ) ≤ exactOf m e s)
    (h' : 2 ^ (128 : ℤ) ≤ exactOf m' e' s') : roundTo F32 rm st neg m e s = roundTo F32 rm st neg m' e' s' := by
  rw [← patMag_F32_succ_maxPat] at h h'
  rw [roundTo_of_huge (by decide) h, roundTo_of_huge (by decide) h']

/-- Any two values below half of F32's smallest pattern round to the same. -/
theorem roundTo_F32_eq_of_tiny {rm m m' : Nat} {st neg s s' : Bool} {e e' : ℤ} (h0 : 0 < exactOf m e s)
    (h : exactOf m e s < 2 ^ (-150 : ℤ)) (h0' : 0 < exactOf m' e' s') (h' : exactOf m' e' s' < 2 ^ (-150 : ℤ)) :
    roundTo F32 rm st neg m e s = roundTo F32 rm st neg m' e' s' := by
  rw [roundTo_of_tiny proper_F32 h0 h, roundTo_of_tiny proper_F32 h0' h']

/-- Bounds of an exact value by its significand. -/
theorem le_exactOf {m k : Nat} (h : 2 ^ k ≤ m) (e : ℤ) (s : Bool) : 2 ^ (k + e) ≤ exactOf m e s := by
  have hm : (4 * 2 ^ k : ℚ) ≤ (4 * m + (if s then 1 else 0) : Nat) := by exact_mod_cast (by omega)
  calc (2 : ℚ) ^ (k + e) = 4 * 2 ^ k * 2 ^ (e - 2) := by
        rw [show (k : ℤ) + e = 2 + k + (e - 2) by ring, zpow_add₀ two_ne_zero, zpow_add₀ two_ne_zero, zpow_natCast]
        norm_num
    _ ≤ exactOf m e s := mul_le_mul_of_nonneg_right hm (zpow_nonneg two_pos.le _)

theorem exactOf_lt {m k : Nat} (h : m < 2 ^ k) (e : ℤ) (s : Bool) : exactOf m e s < 2 ^ (k + e) := by
  have hm : ((4 * m + (if s then 1 else 0) : Nat) : ℚ) < 4 * 2 ^ k := by
    have : 4 * m + (if s then 1 else 0) < 4 * 2 ^ k := by split <;> omega
    exact_mod_cast this
  calc exactOf m e s < 4 * 2 ^ k * 2 ^ (e - 2) := mul_lt_mul_of_pos_right hm (zpow_pos two_pos _)
    _ = 2 ^ (k + e) := by
        rw [show (k : ℤ) + e = 2 + k + (e - 2) by ring, zpow_add₀ two_ne_zero, zpow_add₀ two_ne_zero, zpow_natCast]
        norm_num

theorem exactOf_pos {m : Nat} (hm : m ≠ 0) (e : ℤ) (s : Bool) : 0 < exactOf m e s :=
  mul_pos (Nat.cast_pos.mpr (by omega)) (zpow_pos two_pos _)

theorem value_F32_bounds {a m : Nat} {n : Bool} {e : ℤ} (h : F32.value a = .fin n m e) : m < 2 ^ 24 ∧ -149 ≤ e ∧ e ≤ 104 := by
  obtain ⟨hlt, hlo, hhi⟩ := value_fin_bounds proper_F32 h
  have hhi : e + 127 + 23 + 1 < 2 ^ 8 := hhi
  exact ⟨hlt, hlo, by omega⟩

/-- FSCALE (R104): the exponent of the model stops where every result is the same. -/
theorem fScale_gives {rm a : Nat} {st n : Bool} {m : Nat} {e : ℤ} (h : F32.value a = .fin n m e) (hm : m ≠ 0) (b : ℤ) :
    Rounds F32 rm st n m (e + b) (fScale rm st a b) := by
  obtain ⟨hlt, hlo, hhi⟩ := value_F32_bounds h
  refine ⟨m, e + b, sameMag_refl .., ?_⟩
  simp only [fScale, h, hm, if_false]
  have hone : 2 ^ 0 ≤ m := Nat.one_le_iff_ne_zero.mpr hm
  have hge {x : ℤ} (hx : 128 ≤ x) : 2 ^ (128 : ℤ) ≤ exactOf m x false :=
    (zpow_le_zpow_right₀ one_le_two (by simpa using hx)).trans (le_exactOf hone x false)
  have hlt {x : ℤ} (hx : x ≤ -174) : exactOf m x false < 2 ^ (-150 : ℤ) :=
    (exactOf_lt hlt x false).trans_le (zpow_le_zpow_right₀ one_le_two (by omega))
  generalize hx : max (-4096) (min 4096 (e + max (-8192) (min 8192 b))) = x
  rcases lt_trichotomy x (e + b) with hlt' | rfl | hgt
  · exact roundTo_F32_eq_of_huge (hge (by omega)) (hge (by omega))
  · rfl
  · exact roundTo_F32_eq_of_tiny (exactOf_pos hm ..) (hlt (by omega)) (exactOf_pos hm ..) (hlt (by omega))

end Sys2Proof.Proofs
end

section
/-! SUPPORT. The transcendentals (R115, R116): special inputs, roots and quotients enclosed, exact cases and inexact ones. -/

namespace Sys2Proof.Proofs

open Sys2Proof Sys2Proof.Machine Sys2Proof.Laws

/-! ### Square roots -/

theorem isqrtGo_spec (x n : Nat) {r : Nat} (hlo : r * r ≤ x) (hhi : x < (r + 2 ^ n) * (r + 2 ^ n)) :
    isqrtGo x n r * isqrtGo x n r ≤ x ∧ x < (isqrtGo x n r + 1) * (isqrtGo x n r + 1) := by
  induction n generalizing r with
  | zero => exact ⟨hlo, hhi⟩
  | succ n ih =>
    simp only [isqrtGo]
    split
    · next h => exact ih h (by rwa [add_assoc, ← two_mul, ← pow_succ'])
    · next h => exact ih hlo (not_le.mp h)

/-- The root is the integer part of the square root. -/
theorem isqrt_spec (x : Nat) : isqrt x * isqrt x ≤ x ∧ x < (isqrt x + 1) * (isqrt x + 1) := by
  refine isqrtGo_spec x _ (Nat.zero_le _) ?_
  rw [zero_add, ← pow_add]
  exact Nat.lt_log2_self.trans_le (Nat.pow_le_pow_right two_pos (by omega))

theorem le_isqrt {x k : Nat} (h : k * k ≤ x) : k ≤ isqrt x := by
  by_contra hlt
  have : (isqrt x + 1) * (isqrt x + 1) ≤ k * k := Nat.mul_self_le_mul_self (Nat.succ_le_of_lt (not_le.mp hlt))
  have := (isqrt_spec x).2
  omega

/-! ### Operands of F32 -/

section
variable {rm a m : Nat} {st n : Bool} {e : ℤ}

theorem eq_signed_of_F32_zero (ha : a < 2 ^ 32) (h : F32.value a = .fin n 0 e) : a = F32.signed n 0 :=
  eq_signed_of_value_zero proper_F32 ha h

/-- The significand and the exponent made even, as the roots take them. -/
theorem sameMag_even (m : Nat) (e : ℤ) :
    SameMag m e (if e % 2 = 0 then m else 2 * m) (2 * ((if e % 2 = 0 then e else e - 1) / 2)) := by
  rw [sameMag_iff]
  split
  · next h => rw [Int.mul_ediv_cancel' (Int.dvd_of_emod_eq_zero h)]
  · next h =>
    rw [Int.mul_ediv_cancel' (by omega), dyRat, dyRat]
    push_cast
    rw [zpow_sub_one₀ two_ne_zero]
    ring

/-! ### FRCP, FRSQ and FSQRT -/

theorem bne_eq_decide (x y : Nat) : (x != y) = decide (x ≠ y) := (decide_not ..).symm

theorem fRcp_gives (rm : Nat) (st : Bool) (a : Nat) : RcpGives rm st a (fRcp rm st a) := by
  unfold fRcp
  refine ⟨⟨fun h => by rw [h], fun h => by rw [h]; rfl, fun h => by rw [h]; rfl, fun n e h => by rw [h]; rfl⟩,
    fun n m e h hm => ⟨2 ^ 128 / m, 128, ?_, Nat.div_mul_le_self _ _, ?_, ?_⟩⟩
  · obtain ⟨hlt, -, -⟩ := value_F32_bounds h
    exact (Nat.le_div_iff_mul_le (by omega)).mpr (by omega)
  · rw [mul_comm]
    exact Nat.lt_mul_div_succ _ (by omega)
  · simp only [h, if_neg hm]
    have hdiv := Nat.div_add_mod' (2 ^ 128) m
    congr 1
    rw [bne_eq_decide, decide_eq_decide]
    omega

/-- The square root of a quotient encloses that of the exact one. -/
theorem isqrt_div_spec {x d : Nat} (hd : 0 < d) :
    isqrt (x / d) * isqrt (x / d) * d ≤ x ∧ x < (isqrt (x / d) + 1) * (isqrt (x / d) + 1) * d := by
  obtain ⟨hlo, hhi⟩ := isqrt_spec (x / d)
  exact ⟨(Nat.le_div_iff_mul_le hd).mp hlo, (Nat.div_lt_iff_lt_mul hd).mp hhi⟩

theorem fRsq_special (rm : Nat) (st : Bool) (a : Nat) :
    SpecialInputs a (fun n => F32.signed n F32.infPat) (0, 0) (F32.nan, flInvalid) (fRsq rm st a) := by
  unfold fRsq
  exact ⟨fun h => by rw [h], fun h => by rw [h]; rfl, fun h => by rw [h]; rfl, fun n e h => by rw [h]; rfl⟩

theorem fRsq_negative (h : F32.value a = .fin true m e) (hm : m ≠ 0) : fRsq rm st a = (F32.nan, flInvalid) := by
  simp only [fRsq, h, if_neg hm, if_true]

theorem fRsq_positive (h : F32.value a = .fin false m e) (hm : m ≠ 0) :
    ∃ (M k m1 : Nat) (h : Int), SameMag m e m1 (2 * h) ∧ 2 ^ 26 ≤ M ∧ M * M * m1 ≤ 2 ^ (2 * k) ∧
      2 ^ (2 * k) < (M + 1) * (M + 1) * m1 ∧
      fRsq rm st a = roundTo F32 rm st false M (-(k : Int) - h) (decide (M * M * m1 ≠ 2 ^ (2 * k))) := by
  obtain ⟨hlt, -, -⟩ := value_F32_bounds h
  have heven := sameMag_even m e
  simp only [fRsq, h, if_neg hm, Bool.false_eq_true, if_false, bne_eq_decide]
  generalize hm1 : (if e % 2 = 0 then m else 2 * m) = m1 at heven ⊢
  have h0 : 0 < m1 := by split at hm1 <;> omega
  have h25 : m1 < 2 ^ 25 := by split at hm1 <;> omega
  obtain ⟨hlo, hhi⟩ := isqrt_div_spec (x := 2 ^ 256) h0
  refine ⟨isqrt (2 ^ 256 / m1), 128, m1, _, heven, le_isqrt ?_, hlo, hhi, rfl⟩
  exact (Nat.le_div_iff_mul_le h0).mpr (by omega)

theorem fSqrt_special (rm : Nat) (st : Bool) (ha : a < 2 ^ 32) :
    SpecialInputs a (fun n => F32.signed n 0) (F32.infPat, 0) (F32.nan, flInvalid) (fSqrt rm st a) := by
  unfold fSqrt
  refine ⟨fun h => by rw [h], fun h => by rw [h]; rfl, fun h => by rw [h]; rfl, fun n e h => ?_⟩
  have hz := eq_signed_of_F32_zero ha h
  rw [h]
  exact congrArg (·, 0) hz

theorem fSqrt_negative (h : F32.value a = .fin true m e) (hm : m ≠ 0) : fSqrt rm st a = (F32.nan, flInvalid) := by
  simp only [fSqrt, h, if_neg hm, if_true]

theorem fSqrt_positive (h : F32.value a = .fin false m e) (hm : m ≠ 0) :
    ∃ (M m1 : Nat) (h : Int), SameMag m e m1 (2 * h) ∧ 2 ^ 26 ≤ M ∧ M * M ≤ m1 ∧ m1 < (M + 1) * (M + 1) ∧
      fSqrt rm st a = roundTo F32 rm st false M h (decide (M * M ≠ m1)) := by
  simp only [fSqrt, h, if_neg hm, Bool.false_eq_true, if_false, bne_eq_decide]
  have heven : SameMag m e ((if e % 2 = 0 then m else 2 * m) * 2 ^ 80) (2 * (((if e % 2 = 0 then e else e - 1) - 80) / 2)) := by
    rw [sameMag_iff, sameMag_iff.mp (sameMag_even m e), show 2 * (((if e % 2 = 0 then e else e - 1) - 80) / 2) =
      2 * ((if e % 2 = 0 then e else e - 1) / 2) - (80 : ℕ) by omega, dyRat, dyRat, zpow_sub₀ two_ne_zero, zpow_natCast]
    push_cast
    ring
  generalize hm1 : (if e % 2 = 0 then m else 2 * m) * 2 ^ 80 = m1 at heven ⊢
  obtain ⟨hlo, hhi⟩ := isqrt_spec m1
  refine ⟨isqrt m1, m1, _, heven, le_isqrt ?_, hlo, hhi, rfl⟩
  split at hm1 <;> omega

/-! ### FEXP2 -/

theorem expGo_ge (x fuel k t s : Nat) : s ≤ expGo x fuel k t s := by
  induction fuel generalizing k t s with
  | zero => exact le_rfl
  | succ fuel ih => exact (Nat.le_add_right ..).trans (ih ..)

theorem expFix_ge (x : Nat) : 2 ^ fxP ≤ expFix x := expGo_ge ..

/-- An integer in units of 2^-K. -/
theorem integral_scaled {k K : Nat} (he : -(K : ℤ) ≤ e) (hi : Integral m e) (hk : RoundsInt 1 n m e k) :
    m * 2 ^ (e + K).toNat = k * 2 ^ K := by
  unfold RoundsInt at hk
  by_cases h : 0 ≤ e
  · rw [if_pos h] at hk
    rw [hk, mul_assoc, ← pow_add, show (e + K).toNat = e.toNat + K by omega]
  · rw [if_neg h, if_neg (by decide), if_pos (.inl rfl)] at hk
    have hm : m = k * 2 ^ (-e).toNat := by
      rw [hk, Nat.div_mul_cancel (Nat.dvd_of_mod_eq_zero (hi.resolve_left h))]
    rw [hm, mul_assoc, ← pow_add, show (-e).toNat + (e + K).toNat = K by omega]

theorem integral_of_scaled {K : Nat} (he : -(K : ℤ) ≤ e) (h : 2 ^ K ∣ m * 2 ^ (e + K).toNat) : Integral m e := by
  by_cases h0 : 0 ≤ e
  · exact .inl h0
  · refine .inr (Nat.mod_eq_zero_of_dvd ?_)
    rw [show 2 ^ K = 2 ^ (-e).toNat * 2 ^ (e + K).toNat by rw [← pow_add]; congr 1; omega] at h
    exact Nat.dvd_of_mul_dvd_mul_right (Nat.two_pow_pos _) h

/-- An operand of FEXP2 as a signed multiple of 2^-K. -/
def exp2Arg (K : Nat) (n : Bool) (m : Nat) (e : ℤ) : ℤ := (if n then -(m : ℤ) else m) * 2 ^ (e + K).toNat

theorem exp2Arg_of_integral {k K : Nat} (he : -(K : ℤ) ≤ e) (hi : Integral m e) (hk : RoundsInt 1 n m e k) :
    exp2Arg K n m e = (if n then -(k : ℤ) else k) * 2 ^ K := by
  have h : (m : ℤ) * 2 ^ (e + K).toNat = k * 2 ^ K := by exact_mod_cast integral_scaled he hi hk
  unfold exp2Arg
  cases n
  · exact h
  · simp only [if_true, neg_mul, h]

theorem integral_of_exp2Arg {K : Nat} (he : -(K : ℤ) ≤ e) (h : exp2Arg K n m e % 2 ^ K = 0) : Integral m e := by
  refine integral_of_scaled he ?_
  have hd := Int.natAbs_dvd_natAbs.mpr (Int.dvd_of_emod_eq_zero h)
  have hn : (exp2Arg K n m e).natAbs = m * 2 ^ (e + K).toNat := by
    rw [exp2Arg, Int.natAbs_mul, Int.natAbs_pow]
    cases n <;> simp
  rwa [hn, Int.natAbs_pow] at hd

/-- A large integer operand. -/
theorem two_pow_le_of_large {k : Nat} (hm : m ≠ 0) (hi : Integral m e) (hk : RoundsInt 1 n m e k)
    (h : e + (Nat.log2 m : ℤ) > 12) : 2 ^ 12 ≤ k := by
  have hs := integral_scaled (K := (-e).toNat) (by omega) hi hk
  refine Nat.le_of_mul_le_mul_right ?_ (Nat.two_pow_pos (-e).toNat)
  rw [← hs, ← pow_add]
  exact
    calc 2 ^ (12 + (-e).toNat) ≤ 2 ^ (m.log2 + (e + (-e).toNat).toNat) := Nat.pow_le_pow_right two_pos (by omega)
      _ = 2 ^ m.log2 * 2 ^ (e + (-e).toNat).toNat := pow_add ..
      _ ≤ m * 2 ^ (e + (-e).toNat).toNat := Nat.mul_le_mul_right _ (Nat.log2_self_le hm)

theorem fExp2_eq (h : F32.value a = .fin n m e) (hm : m ≠ 0) : fExp2 rm st a =
    if e + (Nat.log2 m : ℤ) > 12 then roundTo F32 rm st false 1 (if n then -1000 else 1000) n
    else if exp2Arg 300 n m e % 2 ^ 300 = 0 then roundTo F32 rm st false 1 (exp2Arg 300 n m e / 2 ^ 300) false
    else roundTo F32 rm st false (expFix ((exp2Arg 300 n m e % 2 ^ 300).toNat * ln2Fix / 2 ^ 300))
      (exp2Arg 300 n m e / 2 ^ 300 - fxP) true := by
  have hpos := Int.emod_nonneg (exp2Arg 300 n m e) (pow_ne_zero 300 (two_ne_zero (α := ℤ)))
  have hz : (exp2Arg 300 n m e % 2 ^ 300).toNat = 0 ↔ exp2Arg 300 n m e % 2 ^ 300 = 0 :=
    Int.toNat_eq_zero.trans ⟨fun h => le_antisymm h hpos, le_of_eq⟩
  simp only [fExp2, h, if_neg hm]
  exact if_congr Iff.rfl rfl (if_congr hz rfl rfl)

theorem fExp2_integral {k : Nat} (h : F32.value a = .fin n m e) (hm : m ≠ 0) (hi : Integral m e) (hk : RoundsInt 1 n m e k) :
    fExp2 rm st a = roundTo F32 rm st false 1 (if n then -(k : ℤ) else k) false := by
  obtain ⟨-, he, -⟩ := value_F32_bounds h
  rw [fExp2_eq h hm]
  split
  · next hl =>
    have hk12 := two_pow_le_of_large hm hi hk hl
    cases n
    · have hge {x : ℤ} (hx : 128 ≤ x) : 2 ^ (128 : ℤ) ≤ exactOf 1 x false :=
        (zpow_le_zpow_right₀ one_le_two (by simpa using hx)).trans (le_exactOf (k := 0) le_rfl x false)
      exact roundTo_F32_eq_of_huge (hge (by decide)) (hge (by simp; omega))
    · have hlt {x : ℤ} {s : Bool} (hx : x ≤ -151) : exactOf 1 x s < 2 ^ (-150 : ℤ) :=
        (exactOf_lt (k := 1) (by decide) x s).trans_le (zpow_le_zpow_right₀ one_le_two (by omega))
      exact roundTo_F32_eq_of_tiny (exactOf_pos one_ne_zero ..) (hlt (by decide)) (exactOf_pos one_ne_zero ..) (hlt (by simp; omega))
  · rw [exp2Arg_of_integral (by omega) hi hk, Int.mul_emod_left, if_pos rfl, Int.mul_ediv_cancel _ (pow_ne_zero 300 two_ne_zero)]

theorem fExp2_positive (h : F32.value a = .fin n m e) (hm : m ≠ 0) : (fExp2 rm st a).1 < 2 ^ 31 := by
  have hpos (m : Nat) (e : ℤ) (s : Bool) : (roundTo F32 rm st false m e s).1 < 2 ^ 31 :=
    (roundTo_lt_sbit_iff (by decide) rfl).mpr rfl
  rw [fExp2_eq h hm]
  split_ifs <;> exact hpos ..

theorem fExp2_inexact (h : F32.value a = .fin n m e) (hm : m ≠ 0) (hi : ¬Integral m e) :
    (fExp2 rm st a).2.testBit 0 = true := by
  obtain ⟨-, he, -⟩ := value_F32_bounds h
  rw [fExp2_eq h hm, if_neg fun h0 => hi (integral_of_exp2Arg (by omega) h0)]
  split
  · cases n
    · have hge : 2 ^ (128 : ℤ) ≤ exactOf 1 1000 false :=
        (zpow_le_zpow_right₀ one_le_two (by decide)).trans (le_exactOf (k := 0) le_rfl 1000 false)
      rw [if_neg Bool.false_ne_true, roundTo_of_huge (by decide) (patMag_F32_succ_maxPat ▸ hge)]
      show (flOverflow + flInexact).testBit 0 = true
      decide
    · exact roundTo_sticky_inexact (by decide) (.inl (by decide))
  · refine roundTo_sticky_inexact (by decide) (.inr ?_)
    have := expFix_ge ((exp2Arg 300 n m e % 2 ^ 300).toNat * ln2Fix / 2 ^ 300)
    have hbig : 2 ^ 24 ≤ 2 ^ fxP := Nat.pow_le_pow_right (n := 2) (i := 24) (j := fxP) two_pos (by decide)
    have hp : 2 * 2 ^ F32.p = 2 ^ 24 := rfl
    omega

theorem fExp2_gives (rm : Nat) (st : Bool) (a : Nat) : Exp2Gives rm st a (fExp2 rm st a) := by
  refine ⟨?special, fun n m e h hm => ⟨fun hi k hk => fExp2_integral h hm hi hk, fun hi =>
    ⟨fExp2_inexact h hm hi, fExp2_positive h hm⟩⟩⟩
  case special =>
    unfold fExp2
    exact ⟨fun h => by rw [h], fun h => by rw [h]; rfl, fun h => by rw [h]; rfl, fun n e h => by rw [h]; rfl⟩

/-! ### FLOG2 -/

theorem fLog2_special (rm : Nat) (st : Bool) (a : Nat) :
    SpecialInputs a (fun _ => F32.signed true F32.infPat) (F32.infPat, 0) (F32.nan, flInvalid) (fLog2 rm st a) := by
  unfold fLog2
  exact ⟨fun h => by rw [h], fun h => by rw [h]; rfl, fun h => by rw [h]; rfl, fun n e h => by rw [h]; rfl⟩

theorem fLog2_negative (h : F32.value a = .fin true m e) (hm : m ≠ 0) : fLog2 rm st a = (F32.nan, flInvalid) := by
  simp only [fLog2, h, if_neg hm, if_true]

/-- A magnitude is a power of two when its significand is. -/
theorem sameMag_one_iff (hm : m ≠ 0) (k : ℤ) : SameMag m e 1 k ↔ m = 2 ^ m.log2 ∧ k = e + m.log2 := by
  have hd : dyRat (((1 : Nat) : ℤ), k) = 2 ^ k := by simp [dyRat]
  have hdm : dyRat ((m : ℤ), e) = (m : ℚ) * 2 ^ e := by simp [dyRat]
  rw [sameMag_iff, hd, hdm]
  constructor
  · intro h
    obtain ⟨hlo, hhi⟩ := top_place_bounds hm e
    rw [h, zpow_le_zpow_iff_right₀ one_lt_two] at hlo
    rw [h, zpow_lt_zpow_iff_right₀ one_lt_two] at hhi
    have hk : k = m.log2 + e := by omega
    rw [hk, zpow_add₀ two_ne_zero, zpow_natCast, mul_left_inj' (zpow_ne_zero _ two_ne_zero)] at h
    exact ⟨by exact_mod_cast h, by omega⟩
  · rintro ⟨hpow, rfl⟩
    conv_lhs => rw [hpow]
    rw [add_comm, zpow_add₀ two_ne_zero, zpow_natCast]
    push_cast
    rfl

/-- The fraction of a power of two is zero. -/
theorem log2_fraction_eq_zero_iff (hm : m ≠ 0) : (m - 2 ^ m.log2) * 2 ^ (fxP - m.log2) = 0 ↔ m = 2 ^ m.log2 := by
  have hle := Nat.log2_self_le hm
  have hp := Nat.two_pow_pos (fxP - m.log2)
  rw [Nat.mul_eq_zero]
  omega

theorem fLog2_power (h : F32.value a = .fin false m e) (hm : m ≠ 0) {k : ℤ} (hk : SameMag m e 1 k) :
    fLog2 rm st a = roundTo F32 rm st (decide (k < 0)) k.natAbs 0 false := by
  obtain ⟨hpow, rfl⟩ := (sameMag_one_iff hm k).mp hk
  simp only [fLog2, h, if_neg hm, Bool.false_eq_true, if_false, if_pos ((log2_fraction_eq_zero_iff hm).mpr hpow)]
  rfl

theorem fLog2_inexact (h : F32.value a = .fin false m e) (hm : m ≠ 0) (hk : ∀ k : ℤ, ¬SameMag m e 1 k) :
    (fLog2 rm st a).2.testBit 0 = true := by
  have hpow : ¬m = 2 ^ m.log2 := fun hp => hk _ ((sameMag_one_iff hm _).mpr ⟨hp, rfl⟩)
  simp only [fLog2, h, if_neg hm, Bool.false_eq_true, if_false, if_neg (mt (log2_fraction_eq_zero_iff hm).mp hpow)]
  split <;> exact roundTo_sticky_inexact (by decide) (.inl (by decide))

/-! ### FSIN, FCOS and FTANH -/

/-- Fixed-point values with their sticky bits have no pattern, for their last place is too low. -/
theorem roundTo_fixed_inexact (neg : Bool) (v : Nat) : (roundTo F32 rm st neg v (-(fxP : ℤ)) true).2.testBit 0 = true :=
  roundTo_sticky_inexact (by decide) (.inl (by decide))

/-- A value just below another one has too many bits for a pattern. -/
theorem roundTo_below_inexact (neg : Bool) (hm : m ≠ 0) : (roundTo F32 rm st neg (below m e).1 (below m e).2 true).2.testBit 0 = true :=
  roundTo_sticky_inexact (by decide) (.inr (by unfold below; simp only [F32]; omega))

theorem fSin_special (rm : Nat) (st : Bool) (ha : a < 2 ^ 32) :
    SpecialInputs a (fun n => F32.signed n 0) (F32.nan, flInvalid) (F32.nan, flInvalid) (fSin rm st a) := by
  unfold fSin
  refine ⟨fun h => by rw [h], fun h => by rw [h], fun h => by rw [h], fun n e h => ?_⟩
  have hz := eq_signed_of_F32_zero ha h
  rw [h]
  exact congrArg (·, 0) hz

theorem fSin_inexact (h : F32.value a = .fin n m e) (hm : m ≠ 0) : (fSin rm st a).2.testBit 0 = true := by
  simp only [fSin, h, if_neg hm]
  split
  · exact roundTo_below_inexact _ hm
  · exact roundTo_fixed_inexact ..

theorem fCos_special (rm : Nat) (st : Bool) (a : Nat) :
    SpecialInputs a (fun _ => 0x3F800000) (F32.nan, flInvalid) (F32.nan, flInvalid) (fCos rm st a) := by
  unfold fCos
  exact ⟨fun h => by rw [h], fun h => by rw [h], fun h => by rw [h], fun n e h => by rw [h]; rfl⟩

theorem fCos_inexact (h : F32.value a = .fin n m e) (hm : m ≠ 0) : (fCos rm st a).2.testBit 0 = true := by
  simp only [fCos, h, if_neg hm]
  split
  · exact roundTo_below_inexact _ one_ne_zero
  · exact roundTo_fixed_inexact ..

theorem fTanh_special (rm : Nat) (st : Bool) (ha : a < 2 ^ 32) :
    SpecialInputs a (fun n => F32.signed n 0) (0x3F800000, 0) (F32.signed true 0x3F800000, 0) (fTanh rm st a) := by
  unfold fTanh
  refine ⟨fun h => by rw [h], fun h => by rw [h]; rfl, fun h => by rw [h]; rfl, fun n e h => ?_⟩
  have hz := eq_signed_of_F32_zero ha h
  rw [h]
  exact congrArg (·, 0) hz

theorem fTanh_inexact (h : F32.value a = .fin n m e) (hm : m ≠ 0) :
    (fTanh rm st a).2.testBit 0 = true ∧ ((fTanh rm st a).1 < 2 ^ 31 ↔ n = false) := by
  have hsign (m : Nat) (e : ℤ) : (roundTo F32 rm st n m e true).1 < 2 ^ 31 ↔ n = false :=
    roundTo_lt_sbit_iff (by decide) rfl
  simp only [fTanh, h, if_neg hm]
  split_ifs
  · exact ⟨roundTo_below_inexact _ hm, hsign ..⟩
  · exact ⟨roundTo_below_inexact _ one_ne_zero, hsign ..⟩
  · exact ⟨roundTo_fixed_inexact .., hsign ..⟩

end

end Sys2Proof.Proofs
end

section
/-! SUPPORT. Floating-point arithmetic and the transcendentals (O20), and the signs of FABS and FNEG (O29). -/

namespace Sys2Proof.Proofs

open Sys2Proof Sys2Proof.Machine Sys2Proof.Laws

theorem rmOf_lt (w : RF) : rmOf w < 4 := Nat.mod_lt _ (by decide)

/-! ### FCMP, FDOT2 and DOT4 -/

/-- The conditions of FCMP in the order of their codes (R101). -/
theorem fCond_eq (q : Nat) (x y : FV) : fCond q x y =
    let un := x.isNan || y.isNan
    let lt := !un && FV.less false x y
    let gt := !un && FV.less false y x
    if q = 0 then !un && !lt && !gt else if q = 1 then un || lt || gt else if q = 2 then lt
      else if q = 3 then !un && !gt else if q = 4 then gt else if q = 5 then !un && !lt else if q = 6 then un else !un := by
  match q with
  | 0 | 1 | 2 | 3 | 4 | 5 | 6 => rfl
  | q + 7 => simp [fCond]

theorem bit64_eq_ofNat (b : Bool) : bit64 b = BitVec.ofNat 64 (if b then 1 else 0) := by cases b <;> rfl

theorem floatIn_congr {s t : State} {c : Cur} {g : Guard} {fields : List Nat} {d : Nat} {wide : Bool} {lat : Nat}
    {r r' : Nat → Nat × Nat} (h : FloatIn s t c g fields d wide lat r) (hr : ∀ l, r l = r' l) :
    FloatIn s t c g fields d wide lat r' := funext hr ▸ h

/-- A byte as a two's complement number. -/
theorem sgn_eq_ofNat_toInt {k : Nat} (hk : 0 < k) (x : Nat) : sgn k x = (BitVec.ofNat k x).toInt := by
  rw [← sgn_eq_toInt hk, BitVec.toNat_ofNat]
  simp only [sgn, Nat.mod_mod]

/-- The cases of FSCALE (R104). -/
theorem fScale_table (rm : Nat) (st : Bool) (a b : Nat) : (F32.value a = .nan → fScale rm st a (sgn 32 b) = (F32.nan, 0)) ∧
    (∀ n, F32.value a = .inf n → fScale rm st a (sgn 32 b) = (a, 0)) ∧
    ∀ n m e, F32.value a = .fin n m e → (m = 0 → fScale rm st a (sgn 32 b) = (a, 0)) ∧
      (m ≠ 0 → Rounds F32 rm st n m (e + (BitVec.ofNat 32 b).toInt) (fScale rm st a (sgn 32 b))) := by
  refine ⟨fun hv => ?_, fun n hv => ?_, fun n m e hv => ⟨fun hm => ?_, fun hm => ?_⟩⟩
  · simp only [fScale, hv]
  · simp only [fScale, hv]
  · simp only [fScale, hv, if_pos hm]
  · rw [← sgn_eq_ofNat_toInt (by decide)]
    exact fScale_gives hv hm _

section
variable (rm : Nat) (st : Bool) (x0 x1 x2 x3 y0 y1 y2 y3 z : FV)

theorem fDot_pair : SumGives F32 rm st [(x0.mul y0).1, (x1.mul y1).1, z] ((x0.mul y0).2 || (x1.mul y1).2)
    (fDot rm st [x0, x1] [y0, y1] z) := by
  simpa using fDot_gives rm st [x0, x1] [y0, y1] z

theorem fDot_quad : SumGives F32 rm st [(x0.mul y0).1, (x1.mul y1).1, (x2.mul y2).1, (x3.mul y3).1, z]
    ((x0.mul y0).2 || (x1.mul y1).2 || (x2.mul y2).2 || (x3.mul y3).2) (fDot rm st [x0, x1, x2, x3] [y0, y1, y2, y3] z) := by
  simpa [Bool.or_assoc] using fDot_gives rm st [x0, x1, x2, x3] [y0, y1, y2, y3] z

end

section
variable (s : State) (c : Cur) (w : RF)

/-- The operands of FCMP: C is read only to combine with it. -/
theorem floatIn_fcmp :
    let m := w.md.toNat / 8 % 4
    let f := fmtOf w.ty.toNat
    FloatIn s (alu s c w.g [w.d.toNat] ([(w.a.toNat, false), (w.b.toNat, false)] ++ if m = 0 then [] else [(w.c.toNat, false)]) 6
        fun xs => ([(w.d.toNat, false, bit64 (combine m
          (fCond (w.md.toNat % 8) (f.value (elem f.width (opnd xs 0) 0)) (f.value (elem f.width (opnd xs 1) 0)))
          ((opnd xs 2).getLsbD 0)))], 0))
      c w.g ([w.a.toNat, w.b.toNat] ++ if m = 0 then [] else [w.c.toNat]) w.d.toNat false 6 fun l =>
        (if combine m (fCond (w.md.toNat % 8) (f.value (elem f.width (readField s c w.a.toNat l false) 0))
          (f.value (elem f.width (readField s c w.b.toNat l false) 0))) ((readField s c w.c.toNat l false).getLsbD 0)
          then 1 else 0, 0) := by
  intro m f
  by_cases hm : m = 0
  · rw [if_pos hm, if_pos hm]
    refine floatIn_alu fun l => ?_
    simp only [hm, combine, bit64_eq_ofNat]
    rfl
  · rw [if_neg hm, if_neg hm]
    refine floatIn_alu fun l => ?_
    simp only [bit64_eq_ofNat]
    rfl

/-- What FDOT2 computes of a lane (R105). -/
def dot2Lane (l : Nat) : Nat × Nat :=
  let es (b : BitVec 8) : List FV := (List.range 2).map fun j => (fmtOf w.ty.toNat).value (elem 16 (readField s c b.toNat l false) j)
  fDot (rmOf w) (satOf w) (es w.a) (es w.b) (F32.value (readField s c w.c.toNat l false).toNat)

/-- What DOT4 computes of a lane (R105). -/
def dot4Lane (l : Nat) : Nat × Nat :=
  let ty := w.ty.toNat
  let es (b : BitVec 8) : List Nat := (List.range 4).map fun j => elem 8 (readField s c b.toNat l false) j
  let k := readField s c w.c.toNat l false
  if 13 ≤ ty then fDot (rmOf w) (satOf w) ((es w.a).map (fmtOf ty).value) ((es w.b).map (fmtOf ty).value) (F32.value k.toNat)
  else
    let it := if ty = 0 then 2 else 3
    let b (x : Nat) : Int := if ty = 0 then sgn 8 x else x
    ((intResult it (satOf w) ((List.zipWith (fun x y => b x * b y) (es w.a) (es w.b)).foldl (· + ·) (intOf it k))).toNat, 0)

theorem dot4Lane_integer (h : w.ty.toNat < 13) (l : Nat) :
    let e (x : BitVec 8) (i : Nat) : Nat := elem 8 (readField s c x.toNat l false) i
    let b (x : Nat) : Int := if w.ty.toNat = 0 then (BitVec.ofNat 8 x).toInt else x
    let it := if w.ty.toNat = 0 then 2 else 3
    dot4Lane s c w l = ((r66 it (satOf w) (b (e w.a 0) * b (e w.b 0) + b (e w.a 1) * b (e w.b 1) +
      b (e w.a 2) * b (e w.b 2) + b (e w.a 3) * b (e w.b 3) + asInt it (readField s c w.c.toNat l false))).toNat, 0) := by
  intro e b it
  have hb (x : Nat) : (if w.ty.toNat = 0 then sgn 8 x else (x : ℤ)) = b x := by simp only [sgn_eq_ofNat_toInt (by decide : 0 < 8), b]
  simp only [dot4Lane, if_neg (not_le.mpr h), intResult_eq_r66, intOf_eq_asInt, hb]
  congr 3
  simp only [List.range_succ, List.range_zero, List.nil_append, List.cons_append, List.map_cons, List.map_nil, List.zipWith_cons_cons,
    List.zipWith_nil_left, List.foldl_cons, List.foldl_nil, e]
  ring

end

/-- A function of one F32 operand (R115). -/
theorem elementwise_fTrans (s : State) (c : Cur) (w : RF) (F : Nat → Bool → Nat → Nat × Nat) :
    Elementwise s (fTrans s c w F) c w [w.a] 16 fun _ x r => r = F (rmOf w) (satOf w) (x w.a) :=
  elementwise_fElem s c w [w.a] 16 fun _ _ => rfl

/-- Settles O20: each lands one function of its elements, of which the tables of R98-R105 and R115 hold. -/
theorem floatArithmeticResults : Obligations.FloatArithmeticResults := by
  have width {w : RF} {n : Nat} (h : n < 2 ^ (fmtOf w.ty.toNat).width) : n < 2 * (fmtOf w.ty.toNat).sbit := two_pow_width _ ▸ h
  refine ⟨fun w s c h => ⟨_, issue_ok _ h, elementwise_fElem s c w [w.a, w.b] 6 fun x _ => fAdd_gives ..⟩,
    fun w s c h => ⟨_, issue_ok _ h, elementwise_fElem s c w [w.a, w.b] 6 fun x _ => fSub_gives ..⟩,
    fun w s c h => ⟨_, issue_ok _ h, elementwise_fElem s c w [w.a, w.b] 6 fun x _ => fMul_gives ..⟩,
    fun w s c h => ⟨_, issue_ok _ h, elementwise_fElem s c w [w.a, w.b, w.c] 6 fun x _ => fFma_gives ..⟩,
    fun w s c h => ⟨_, issue_ok _ h, elementwise_fElem s c w [w.a, w.b] 6 fun x hx =>
      ⟨fMinMax_gives (width (hx w.a)) (width (hx w.b)), rfl⟩⟩,
    fun w s c h => ⟨_, issue_ok _ h, elementwise_fElem s c w [w.a, w.b] 6 fun x hx =>
      ⟨fMinMax_gives (width (hx w.a)) (width (hx w.b)), rfl⟩⟩,
    fun w s c h => ⟨_, issue_ok _ h, elementwise_fElem s c w [w.a] 6 fun x _ => congrArg (·, 0) (fAbs_eq ..)⟩,
    fun w s c h => ⟨_, issue_ok _ h, elementwise_fElem s c w [w.a] 6 fun x hx => congrArg (·, 0) (fNeg_eq (width (hx w.a)))⟩,
    fun w s c h => ⟨_, issue_ok _ h, elementwise_fElem s c w [w.a] 6 fun x hx => fRnd_gives (rmOf_lt w) (width (hx w.a))⟩,
    fun w s c h => ⟨_, issue_ok _ h, elementwise_fElem s c w [w.a] 6 fun x _ => congrArg (·, 0) (fClass_eq _)⟩,
    fun w s c h => ⟨_, issue_ok _ h, elementwise_fElem s c w [w.a, w.b] 6 fun x _ => fScale_table ..⟩,
    fun w s c h => ⟨_, issue_ok _ h, ?cmp⟩,
    fun w s c h => ⟨_, issue_ok _ h, dot2Lane s c w, floatIn_alu fun l => rfl, fun l => ?dot2⟩,
    fun w s c h => ⟨_, issue_ok _ h, dot4Lane s c w, floatIn_alu fun l => ?dot4, fun l => ⟨fun hty => ?dot4Float, fun hty =>
      dot4Lane_integer s c w hty l⟩⟩,
    ⟨fRcp, fun rm st a _ _ => fRcp_gives rm st a, fun w s c h => ⟨_, issue_ok _ h, elementwise_fTrans ..⟩⟩,
    ⟨fRsq, fun rm st a _ _ => ⟨fRsq_special rm st a, fun n m e hv hm =>
      ⟨fun hn => fRsq_negative (hn ▸ hv) hm, fun hn => fRsq_positive (hn ▸ hv) hm⟩⟩,
      fun w s c h => ⟨_, issue_ok _ h, elementwise_fTrans ..⟩⟩,
    ⟨fSqrt, fun rm st a _ ha => ⟨fSqrt_special rm st ha, fun n m e hv hm =>
      ⟨fun hn => fSqrt_negative (hn ▸ hv) hm, fun hn => fSqrt_positive (hn ▸ hv) hm⟩⟩,
      fun w s c h => ⟨_, issue_ok _ h, elementwise_fTrans ..⟩⟩,
    ⟨fExp2, fun rm st a _ _ => fExp2_gives rm st a, fun w s c h => ⟨_, issue_ok _ h, elementwise_fTrans ..⟩⟩,
    ⟨fLog2, fun rm st a _ _ => ⟨fLog2_special rm st a, fun n m e hv hm => ⟨fun hn => fLog2_negative (hn ▸ hv) hm,
      fun hn k hk => fLog2_power (hn ▸ hv) hm hk, fun hn hk => fLog2_inexact (hn ▸ hv) hm hk⟩⟩,
      fun w s c h => ⟨_, issue_ok _ h, elementwise_fTrans ..⟩⟩,
    ⟨fSin, fun rm st a _ ha => ⟨fSin_special rm st ha, fun n m e => fSin_inexact⟩,
      fun w s c h => ⟨_, issue_ok _ h, elementwise_fTrans ..⟩⟩,
    ⟨fCos, fun rm st a _ _ => ⟨fCos_special rm st a, fun n m e => fCos_inexact⟩,
      fun w s c h => ⟨_, issue_ok _ h, elementwise_fTrans ..⟩⟩,
    ⟨fTanh, fun rm st a _ ha => ⟨fTanh_special rm st ha, fun n m e => fTanh_inexact⟩,
      fun w s c h => ⟨_, issue_ok _ h, elementwise_fTrans ..⟩⟩⟩
  case cmp => exact floatIn_congr (floatIn_fcmp s c w) fun l => by rw [combine_eq, fCond_eq]
  case dot2 => exact fDot_pair ..
  case dot4 =>
    unfold dot4Lane
    dsimp only
    split
    · rfl
    · simp only [BitVec.ofNat_toNat, BitVec.setWidth_eq]
      rfl
  case dot4Float =>
    simp only [dot4Lane, if_pos hty]
    exact fDot_quad ..

/-! ### Signs -/

/-- The bits of the exponent field of F32. -/
theorem exponent_mask_bits : ∀ i : Fin 64, (0x7F800000#64).getLsbD i = (decide (23 ≤ i.val) && decide (i.val < 31)) := by decide

theorem isNan_of_value_elem {x : Word64} (h : F32.value (elem F32.width x 0) = .nan) : IsNan x := by
  have hfields : elem F32.width x 0 / 2 ^ 23 % 2 ^ 8 = 2 ^ 8 - 1 ∧ elem F32.width x 0 % 2 ^ 23 ≠ 0 := by
    simp only [Fmt.value, F32, Bool.false_and, Bool.false_eq_true, if_false, Bool.not_false, Bool.true_and, beq_iff_eq] at h ⊢
    split at h
    · next he =>
      split at h
      · cases h
      · next hf => exact ⟨he, hf⟩
    · split at h <;> cases h
  obtain ⟨hexp, hfrac⟩ := hfields
  rw [exponent_eq_extract] at hexp
  rw [fraction_eq_mask] at hfrac
  refine ⟨?_, fun h0 => hfrac (h0 ▸ rfl)⟩
  have hones : x.extractLsb' 23 8 = BitVec.allOnes 8 := BitVec.eq_of_toNat_eq hexp
  refine BitVec.eq_of_getLsbD_eq fun i hi => ?_
  rw [BitVec.getLsbD_and, exponent_mask_bits ⟨i, hi⟩]
  by_cases hin : 23 ≤ i ∧ i < 31
  · have hbit := congrArg (·.getLsbD (i - 23)) hones
    simp only [BitVec.getLsbD_extractLsb', BitVec.getLsbD_allOnes] at hbit
    have hlt : i - 23 < 8 := by omega
    simpa [hin.1, hin.2, hlt] using hbit
  · rw [not_and_or] at hin
    rcases hin with h | h <;> simp [h]

theorem value_elem_eq_nan_iff (x : Word64) : F32.value (elem F32.width x 0) = .nan ↔ IsNan x :=
  ⟨isNan_of_value_elem, value_elem_of_isNan⟩

/-- The one element of an operand of 32 bits. -/
theorem elem_F32 {x : Word64} (h : x.toNat < 2 ^ 32) : elem F32.width x 0 = x.toNat := by
  simp only [elem, Nat.mul_zero, pow_zero, Nat.div_one]
  exact Nat.mod_eq_of_lt h

/-- Adding the sign bit without a carry flips it. -/
theorem add_two_pow_mod {x k : Nat} (h : x < 2 ^ (k + 1)) : (x + 2 ^ k) % 2 ^ (k + 1) = x ^^^ 2 ^ k := by
  refine Nat.eq_of_testBit_eq fun i => ?_
  rw [Nat.testBit_mod_two_pow, Nat.testBit_xor, Nat.testBit_two_pow, Nat.add_comm x]
  rcases lt_trichotomy i k with hlt | rfl | hgt
  · rw [Nat.testBit_two_pow_add_gt hlt]
    simp [show i < k + 1 by omega, hlt.ne']
  · simp [Nat.testBit_two_pow_add_eq]
  · have hx := Nat.testBit_lt_two_pow (h.trans_le (Nat.pow_le_pow_right two_pos (show k + 1 ≤ i by omega)))
    simp [hx, show ¬i < k + 1 by omega, hgt.ne]

/-- The sign cleared (R100). -/
theorem ofNat_fAbs {x : Word64} (h : x.toNat < 2 ^ 32) :
    (IsNan x → BitVec.ofNat 64 (fAbs F32 (elem F32.width x 0)) = 0x7FC00000#64) ∧
      (¬IsNan x → BitVec.ofNat 64 (fAbs F32 (elem F32.width x 0)) = x &&& 0x7FFFFFFF#64) := by
  rw [fAbs_eq, ← value_elem_eq_nan_iff]
  refine ⟨fun hn => by rw [if_pos hn]; rfl, fun hn => ?_⟩
  rw [if_neg hn, elem_F32 h]
  refine BitVec.eq_of_toNat_eq ?_
  rw [BitVec.toNat_and, show (0x7FFFFFFF#64).toNat = 2 ^ 31 - 1 from rfl, Nat.and_two_pow_sub_one_eq_mod, BitVec.toNat_ofNat,
    show F32.sbit = 2 ^ 31 from rfl]
  omega

/-- The sign flipped (R100). -/
theorem ofNat_fNeg {x : Word64} (h : x.toNat < 2 ^ 32) :
    (IsNan x → BitVec.ofNat 64 (fNeg F32 (elem F32.width x 0)) = 0x7FC00000#64) ∧
      (¬IsNan x → BitVec.ofNat 64 (fNeg F32 (elem F32.width x 0)) = x ^^^ 0x80000000#64) := by
  have hlt : elem F32.width x 0 < 2 * F32.sbit := elem_F32 h ▸ h
  rw [fNeg_eq hlt, ← value_elem_eq_nan_iff]
  refine ⟨fun hn => by rw [if_pos hn]; rfl, fun hn => ?_⟩
  rw [if_neg hn, elem_F32 h]
  refine BitVec.eq_of_toNat_eq ?_
  rw [BitVec.toNat_xor, show (0x80000000#64).toNat = 2 ^ 31 from rfl, ← add_two_pow_mod h, BitVec.toNat_ofNat,
    show F32.sbit = 2 ^ 31 from rfl]
  omega

/-- An F32 instruction of one operand that raises no flag. -/
theorem fElem_unary (s : State) (c : Cur) {w : RF} (hty : w.ty.toNat = 8) (lat : Nat) (F : Fmt → Nat → Nat) :
    NoNewFlags s (fElem s c w [w.a] lat fun f x => (F f (pat x 0), 0)) ∧
    ResultIn s (fElem s c w [w.a] lat fun f x => (F f (pat x 0), 0)) c w.g [w.a.toNat] w.d.toNat false lat fun l =>
      BitVec.ofNat 64 (F F32 (elem F32.width (readField s c w.a.toNat l false) 0)) := by
  refine ⟨alu_noNewFlags fun _ => foldl_flOr_zero fun x hx => ?_, resultIn_fElem s c hty [w.a] lat _⟩
  obtain ⟨i, -, rfl⟩ := List.mem_map.mp hx
  rfl

/-- Settles O29: the two functions on patterns are bitwise operations on the operand, but for a NaN. -/
theorem floatSigns : Obligations.FloatSigns := by
  refine ⟨fun w hty s c h => ⟨_, issue_ok _ h, ?abs⟩, fun w hty s c h => ⟨_, issue_ok _ h, ?neg⟩⟩
  case abs =>
    obtain ⟨hflags, hresult⟩ := fElem_unary s c hty 6 fAbs
    exact ⟨hflags, _, hresult, fun l => ofNat_fAbs (readField_lt s c w.a.toNat l)⟩
  case neg =>
    obtain ⟨hflags, hresult⟩ := fElem_unary s c hty 6 fNeg
    exact ⟨hflags, _, hresult, fun l => ofNat_fNeg (readField_lt s c w.a.toNat l)⟩

end Sys2Proof.Proofs
end

section
/-! SUPPORT. Conversions and packing (R106-R110) and queries about a span descriptor (R114). -/

namespace Sys2Proof.Proofs

open Sys2Proof Sys2Proof.Machine Sys2Proof.Laws

/-! ### Between formats -/

theorem cvtF_gives (fs fd : Fmt) (rm : Nat) (st : Bool) (a : Nat) : CvtGives fs fd rm st a (cvtF fs fd rm st a) := by
  unfold cvtF
  refine ⟨fun h => by simp only [h], fun n h => ?_, fun n m e h => ?_⟩
  · simp only [h, Fmt.signed]
  · simp only [h]
    exact rounds_self ..

/-- A value that a finite pattern has is rounded to that pattern. -/
theorem roundTo_of_patMag {f : Fmt} (hp : 1 ≤ f.p) {rm m n : Nat} {st neg : Bool} {e : ℤ} (h : dyRat ((m : ℤ), e) = patMag f n)
    (hn : n ≤ f.maxPat) : roundTo f rm st neg m e false = (f.signed neg n, 0) := by
  rcases Nat.eq_zero_or_pos m with rfl | hm
  · have hz : patMag f n = patMag f 0 := by rw [← h, patMag_zero]; exact (dyRat_eq_zero_iff _).mpr rfl
    rw [(patMag_strictMono f).injective hz, roundTo_zero]
  · obtain ⟨k, hk, hr⟩ := roundTo_eq_roundedRat f hp rm st neg e (m := m) (sticky := false) (by simp [hm.ne'])
    rw [exactOf_false, h] at hk hr
    obtain rfl : k = n := hk.unique ⟨le_rfl, patMag_lt_succ f n⟩
    have hchosen : chosenPat f rm neg (patMag f k) k = k := by simp [chosenPat, roundUp]
    rw [hr, roundedRat, hchosen, if_neg (not_lt.mpr hn), if_pos rfl]

/-- A significand of no more bits than the format's, above its last place, is a pattern's magnitude. -/
theorem exists_patMag (f : Fmt) (k : Nat) {m : Nat} (hm : m < 2 * 2 ^ f.p) : ∃ n, patMag f n = m * 2 ^ (lowExp f + k) := by
  induction k generalizing m with
  | zero => exact ⟨_, patMag_add f (k := 0) (.inl rfl) hm.le⟩
  | succ k ih =>
    rcases lt_or_ge m (2 ^ f.p) with hlt | hge
    · obtain ⟨n, hn⟩ := ih (m := 2 * m) (by omega)
      refine ⟨n, hn.trans ?_⟩
      rw [Nat.cast_succ, ← add_assoc, zpow_add_one₀ two_ne_zero]
      push_cast
      ring
    · exact ⟨_, patMag_add f (.inr hge) hm.le⟩

/-- The last place of a value of the five formats, and the bits above it. -/
theorem value_fmtOf_bounds {ty a m : Nat} {n : Bool} {e : ℤ} (h : (fmtOf ty).value a = .fin n m e) :
    m < 2 * 2 ^ (fmtOf ty).p ∧ (fmtOf ty).p ≤ 23 ∧ -149 ≤ e ∧ e + (fmtOf ty).p + 1 ≤ 128 := by
  obtain ⟨hm, hlo, hhi⟩ := value_fin_bounds (proper_fmtOf ty) h
  refine ⟨hm, ?_⟩
  rcases fmtOf_mem ty with hf | hf | hf | hf | hf <;> rw [hf] at hhi hlo ⊢
  all_goals
    simp [F32, F16, BF16, E4M3, E5M2, lowExp, Fmt.bias] at hhi hlo ⊢
    omega

/-- Every finite value of the five formats has a pattern in F32. -/
theorem exists_F32_pattern {ty a m : Nat} {n : Bool} {e : ℤ} (h : (fmtOf ty).value a = .fin n m e) :
    ∃ k, k ≤ F32.maxPat ∧ dyRat ((m : ℤ), e) = patMag F32 k := by
  obtain ⟨hm, hp, he, htop⟩ := value_fmtOf_bounds h
  have hm24 : m < 2 * 2 ^ F32.p := hm.trans_le (Nat.mul_le_mul_left 2 (Nat.pow_le_pow_right two_pos hp))
  obtain ⟨k, hk⟩ := exists_patMag F32 (e + 149).toNat hm24
  have hval : dyRat ((m : ℤ), e) = patMag F32 k := by
    rw [hk, dyRat, show lowExp F32 + ((e + 149).toNat : ℤ) = e by rw [show lowExp F32 = -149 from rfl]; omega]
    rfl
  have hlt : dyRat ((m : ℤ), e) < 2 ^ (128 : ℤ) := by
    rw [← exactOf_false]
    refine (exactOf_lt (k := (fmtOf ty).p + 1) (by rwa [pow_succ']) e false).trans_le ?_
    exact zpow_le_zpow_right₀ one_le_two (by push_cast; omega)
  refine ⟨k, ?_, hval⟩
  rwa [← Nat.lt_succ_iff, ← (patMag_strictMono F32).lt_iff_lt, ← hval, patMag_F32_succ_maxPat]

/-- Widening to F32 is exact (R110). -/
theorem cvtF_widens (ty a : Nat) : WidensTo (fmtOf ty) a (cvtF (fmtOf ty) F32 0 false a).1 := by
  have hfin {n m e} (h : (fmtOf ty).value a = .fin n m e) : ∃ k, k ≤ F32.maxPat ∧ dyRat ((m : ℤ), e) = patMag F32 k ∧
      (cvtF (fmtOf ty) F32 0 false a).1 = F32.signed n k := by
    obtain ⟨k, hk, hval⟩ := exists_F32_pattern h
    exact ⟨k, hk, hval, by simp only [cvtF, h, roundTo_of_patMag (f := F32) (by decide) hval hk]⟩
  refine ⟨?bound, fun h => by simp only [cvtF, h], fun n h => ?inf, fun n m e h => ?fin⟩
  case bound =>
    generalize hv : (fmtOf ty).value a = v
    match v with
    | .nan => simp only [cvtF, hv]; decide
    | .inf n => cases n <;> simp only [cvtF, hv] <;> decide
    | .fin n m e =>
      obtain ⟨k, hk, -, hr⟩ := hfin hv
      have hlt := maxPat_lt_sbit F32
      have hs : F32.sbit = 2 ^ 31 := rfl
      cases n <;> simp only [hr, Fmt.signed, if_true, Bool.false_eq_true, if_false] <;> omega
  case inf => simp only [cvtF, h]; rfl
  case fin =>
    obtain ⟨k, hk, hval, hr⟩ := hfin h
    refine ⟨_, _, hr ▸ value_signed proper_F32 hk n, ?_⟩
    rw [sameMag_iff, hval, patMag, dyRat]
    rfl

/-! ### To integers -/

theorem cvtFI_gives {ty rm : Nat} {lo hi : ℤ} (h4 : rm < 4) (hle : lo ≤ hi) (a : Nat) :
    ToIntGives (fmtOf ty) rm lo hi a (cvtFI (fmtOf ty) rm lo hi a) := by
  unfold cvtFI
  refine ⟨fun h => by simp only [h], fun n h => by simp only [h], fun n m e h => ⟨_, roundsInt_toIntegral h4 n m e, ?_⟩⟩
  have he : min e 128 = e := by
    obtain ⟨-, -, -, htop⟩ := value_fmtOf_bounds h
    omega
  have hflag := toIntegral_inexact_iff rm n m e
  simp only [h, he]
  generalize (if n then -((toIntegral rm n m e).1 : ℤ) else ((toIntegral rm n m e).1 : ℤ)) = x
  refine ⟨fun hx => if_pos hx, fun hx => ?_, fun hlo hhi => ?_⟩
  · rw [if_neg (by omega), if_pos hx]
  · rw [if_neg (not_lt.mpr hlo), if_neg (not_lt.mpr hhi)]
    exact ⟨fun hi => by rw [if_neg fun ht => hflag.mp ht hi], fun hi => by rw [if_pos (hflag.mpr hi)]⟩

/-- The range of an integer destination (R108). -/
theorem cvtRange_eq (ty : Nat) : cvtRange ty =
    (if ty = 2 then -2 ^ 31 else if ty = 0 then -128 else 0,
      if ty = 2 then 2 ^ 31 - 1 else if ty = 3 then 2 ^ 32 - 1 else if ty = 0 then 127 else 255) := by
  unfold cvtRange
  split <;> simp_all

theorem wrap_eq_ofInt (k : Nat) (x : ℤ) : wrap k x = (BitVec.ofInt k x).toNat := (BitVec.toNat_ofInt ..).symm

/-! ### PACK4 -/

theorem packElems_bytes (a b c d : Nat) : packElems 8 [a, b, c, d] = a + 2 ^ 8 * b + 2 ^ 16 * c + 2 ^ 24 * d := by
  simp only [packElems, List.foldr]
  omega

/-- One element of PACK4 (R109). -/
def pack4Elem (w : RF) (x : Nat) : Nat × Nat :=
  if 13 ≤ w.ty.toNat then cvtF F32 (fmtOf w.ty.toNat) (rmOf w) (satOf w) x
  else (if w.ty.toNat = 0 then wrap 8 (sat (sgn 32 x) (-128) 127) else (sat (x : ℤ) 0 255).toNat, 0)

theorem pack4_eq (w : RF) (x0 x1 x2 x3 : Nat) : pack4 w [x0, x1, x2, x3] =
    ((pack4Elem w x0).1 + 2 ^ 8 * (pack4Elem w x1).1 + 2 ^ 16 * (pack4Elem w x2).1 + 2 ^ 24 * (pack4Elem w x3).1,
      flOr (flOr (flOr (pack4Elem w x0).2 (pack4Elem w x1).2) (pack4Elem w x2).2) (pack4Elem w x3).2) := by
  unfold pack4 pack4Elem
  by_cases h : 13 ≤ w.ty.toNat
  · simp only [if_pos h, List.map, packElems_bytes, List.foldl, flOr_zero_left]
  · simp only [if_neg h, List.map, packElems_bytes, flOr_zero_left]

theorem pack4Elem_signed {w : RF} (h : w.ty.toNat = 0) (x : Nat) :
    let n := (BitVec.ofNat 32 x).toInt
    pack4Elem w x = ((BitVec.ofInt 8 (if n < -128 then -128 else if 127 < n then 127 else n)).toNat, 0) := by
  simp [pack4Elem, h, sat, wrap_eq_ofInt, sgn_eq_ofNat_toInt]

theorem pack4Elem_unsigned {w : RF} (h : w.ty.toNat = 1) (x : Nat) : pack4Elem w x = (min x 255, 0) := by
  simp only [pack4Elem, h, sat]
  norm_num
  split <;> omega

/-! ### Span descriptors -/

theorem bmapCount_eq (d n : Nat) : bmapCount d n = ((List.range (n + 1)).filter fun i => d.testBit i).length := by
  unfold bmapCount
  simp only [Nat.testBit_eq_decide_div_mod_eq]

/-- The scale of a block as an F32 pattern (R87, R114). -/
theorem scale_pattern {E : Nat} (h : E < 63) : (roundTo F32 0 false false 1 ((E : ℤ) - 40) false).1 = (E + 87) * 2 ^ 23 := by
  have hmag : dyRat ((1 : Nat), (E : ℤ) - 40) = patMag F32 ((E + 86) * 2 ^ F32.p + 2 ^ F32.p) := by
    rw [patMag_add F32 (.inr le_rfl) (by decide), show lowExp F32 = -149 from rfl, show F32.p = 23 from rfl, dyRat]
    rw [show ((2 ^ 23 : Nat) : ℚ) = 2 ^ (23 : ℤ) by norm_num, ← zpow_add₀ two_ne_zero]
    push_cast
    rw [one_mul]
    congr 1
    ring
  have hle : (E + 86) * 2 ^ F32.p + 2 ^ F32.p ≤ F32.maxPat := by
    rw [show F32.p = 23 from rfl, show F32.maxPat = 0x7F7FFFFF from rfl]
    omega
  rw [roundTo_of_patMag (by decide) hmag hle, show F32.p = 23 from rfl, Fmt.signed]
  simp only [Bool.false_eq_true, if_false]
  ring

/-- The queries of QDESC (R114). -/
theorem descQuery_eq {q : Nat} (hq : q < 4) (d g : Nat) :
    let starts (n : Nat) : Nat := ((List.range (n + 1)).filter fun i => d.testBit i).length
    let valid : Bool := d.testBit 0 && starts 7 ≤ 3
    let j := starts g - 1
    let scale := d / 2 ^ (8 + 8 * j) % 256
    descQuery q d g = if q = 0 then (if valid then starts 7 else 0) else if q = 1 then (if valid then j else 0xFFFFFFFF)
      else if q = 2 then (if valid then scale else 0xFFFFFFFF)
      else if valid && scale % 64 != 63 then (scale % 64 + 87) * 2 ^ 23 else F32.nan := by
  intro starts valid j scale
  have hvalid : descValid d = valid := by
    simp only [descValid, valid, starts, bmapCount_eq, Nat.testBit_zero]
    rfl
  have hblock : descBlock d g = j := by simp only [descBlock, j, starts, bmapCount_eq]
  have hscale : descScale d j = scale := rfl
  have hstarts : bmapCount d 7 = starts 7 := bmapCount_eq d 7
  unfold descQuery
  simp only [hblock, hscale, hvalid, hstarts]
  match q with
  | 0 | 1 | 2 => rfl
  | 3 =>
    change (if valid && scale % 64 != 63 then _ else F32.nan) = if valid && scale % 64 != 63 then _ else F32.nan
    refine ite_congr rfl (fun h => ?_) fun _ => rfl
    rw [Bool.and_eq_true, bne_iff_ne] at h
    exact scale_pattern (by omega)

end Sys2Proof.Proofs
end

section
/-! SUPPORT. The quantiser's instructions (R111-R113): what QNT and DQNT land in each lane. -/

namespace Sys2Proof.Proofs

open Sys2Proof Sys2Proof.Machine Sys2Proof.Laws

/-! ### Writes that raise no flags -/

/-- A write to a register, not to the flags. -/
def RegisterWrite (p : PendW) : Prop := p.file ≠ .flags

section
variable {s t : State} {c : Cur} {lat : Nat}

theorem adds_landField_register (s : State) (c : Cur) (r l : Nat) (wide : Bool) (v : Word64) (lat op : Nat) :
    Adds c.u RegisterWrite s (landField s c r l wide v (c.cycle + lat) op) :=
  (adds_landField ..).mono fun _ => FieldWrite.file

theorem adds_xLanes_register (s : State) (c : Cur) (w : RF) (lat : Nat) (f : Nat → Nat → Word64) :
    Adds c.u RegisterWrite s (xLanes s c w lat f) :=
  adds_foldl fun _ _ _ => adds_landField_register ..

theorem adds_warpWide_register (s : State) (c : Cur) (w : RF) (lat : Nat) (f : Nat → Word64) :
    Adds c.u RegisterWrite s (warpWide s c w lat f) := by
  unfold warpWide
  split
  · exact adds_landField_register ..
  · exact adds_xLanes_register ..

/-- Registers written, then flags raised. -/
theorem onlyPending_raise_of_adds (h : Adds c.u RegisterWrite s t) (fl : Nat) :
    OnlyPending s (t.raise c.u fl (c.cycle + lat) c.cycle) := onlyPending_trans h.only (onlyPending_raise ..)

theorem raises_of_adds (h : Adds c.u RegisterWrite s t) (fl : Nat) :
    Raises s (t.raise c.u fl (c.cycle + lat) c.cycle) c lat fl := raises_raise h.writes ..

theorem lands_raise {d l : Nat} {wide : Bool} {v : Word64} (h : Lands t c d l wide v lat) (fl at' : Nat) :
    Lands (t.raise c.u fl at' c.cycle) c d l wide v lat := lands_of_grows h (grows_raise _ _ _ _ _)

end

/-! ### QNT -/

/-- Element `e` of a span on a side of the warp (R111): +0 where no lane is active. -/
def spanInput (s : State) (c : Cur) (w : RF) (side e : Nat) : FV :=
  let l := if protOf s c.u then 2 * (e / 4) + side else e / 4
  if l < 32 ∧ laneActive s c w.g l = true then
    if w.ty.toNat = 8 then F32.value (s.v c.u (w.a.toNat + e % 4) l).toNat
    else (fmtOf w.ty.toNat).value ((s.v c.u (w.a.toNat + e % 4 / 2) l).toNat / 2 ^ (16 * (e % 2)) % 65536)
  else .fin false 0 0

theorem quantIn_eq (s : State) (c : Cur) (w : RF) (side : Nat) :
    quantIn s c w side = (List.range 128).map (spanInput s c w side) := by
  refine List.map_congr_left fun e _ => ?_
  simp only [spanElem, spanInput, Bool.and_eq_true, decide_eq_true_eq, Nat.mod_mod_of_dvd e (show 2 ∣ 4 by decide)]

theorem codeField_eq (codes : List Nat) (k : Nat) : codeField codes k = codes.getD (4 * k) 0 + 16 * codes.getD (4 * k + 1) 0 +
    256 * codes.getD (4 * k + 2) 0 + 4096 * codes.getD (4 * k + 3) 0 := by
  have hrange : List.range 4 = [0, 1, 2, 3] := rfl
  simp only [codeField, packElems, hrange, List.map, List.foldr, Nat.add_zero]
  omega

/-- The register of codes of a lane: its half of D, the other half kept (R111). -/
def codeWord (s : State) (c : Cur) (w : RF) (codes : List Nat) (l : Nat) : Nat :=
  let old := (s.v c.u w.d.toNat l).toNat
  let k := visLane (protOf s c.u) l
  let new := codes.getD (4 * k) 0 + 16 * codes.getD (4 * k + 1) 0 + 256 * codes.getD (4 * k + 2) 0 + 4096 * codes.getD (4 * k + 3) 0
  if w.md.getLsbD 6 then old % 65536 + 65536 * new else old / 65536 * 65536 + new

theorem codeWord_onlyPending {s t : State} (h : OnlyPending s t) : codeWord t = codeWord s := by
  rw [h]
  rfl

theorem laneCompute_onlyPending {s t : State} (h : OnlyPending s t) : laneCompute t = laneCompute s := by
  rw [h]
  rfl

/-- What one lane of a QNT writes. -/
def quantLane (s : State) (c : Cur) (w : RF) (q : List Nat × Nat × Nat) (t : State) (l : Nat) : State :=
  let t := landField t c w.d.toNat l false (BitVec.ofNat 64 (codeWord s c w q.1 l)) (c.cycle + 12) 0
  if isV c.u.lead w.c.toNat then landField t c w.c.toNat l false (BitVec.ofNat 64 q.2.1) (c.cycle + 12) 0 else t

section
variable (s : State) (c : Cur) (w : RF) (side : Nat) (q : List Nat × Nat × Nat)

theorem quantSide_eq : quantSide s c w side q =
    ((List.range 32).filter fun l => laneCompute s c w.g l && (!protOf s c.u || l % 2 == side)).foldl (quantLane s c w q) s := by
  refine congrArg (fun f => List.foldl f s _) (funext₂ fun t l => ?_)
  cases hb : w.md.getLsbD 6
  · simp only [quantLane, codeWord, codeField_eq, hb, Bool.false_eq_true, if_false, if_true]
  · simp only [quantLane, codeWord, codeField_eq, hb, if_true, OfNat.ofNat_ne_zero, if_false, Nat.mul_comm 65536]

theorem adds_quantLane (t : State) (l : Nat) : Adds c.u RegisterWrite t (quantLane s c w q t l) := by
  unfold quantLane
  dsimp only
  split
  · exact (adds_landField_register ..).trans (adds_landField_register ..)
  · exact adds_landField_register ..

theorem adds_quantSide_register : Adds c.u RegisterWrite s (quantSide s c w side q) := by
  rw [quantSide_eq]
  exact adds_foldl fun t l _ => adds_quantLane s c w q t l

variable {s c w side q}

/-- What one side of a QNT lands in a lane of that side. -/
theorem quantSide_lands {l : Nat} (hl : l < 32) (hc : laneCompute s c w.g l = true) (hside : protOf s c.u = true → l % 2 = side) :
    Lands (quantSide s c w side q) c w.d.toNat l false (BitVec.ofNat 64 (codeWord s c w q.1 l)) 12 ∧
    (isV c.u.lead w.c.toNat = true → Lands (quantSide s c w side q) c w.c.toNat l false (BitVec.ofNat 64 q.2.1) 12) := by
  rw [quantSide_eq]
  have hgrows (t : State) (l : Nat) : Grows t (quantLane s c w q t l) := (adds_quantLane s c w q t l).grows
  have hmem : l ∈ (List.range 32).filter fun l => laneCompute s c w.g l && (!protOf s c.u || l % 2 == side) := by
    cases hp : protOf s c.u <;> simp_all
  refine ⟨lands_foldl _ hgrows (a := l) (fun t => ?_) s _ hmem, fun hv => lands_foldl _ hgrows (a := l) (fun t => ?_) s _ hmem⟩
  · unfold quantLane
    dsimp only
    split
    · exact lands_of_grows (lands_landField ..) (adds_landField_register ..).grows
    · exact lands_landField ..
  · rw [quantLane, if_pos hv]
    exact lands_landField ..

end

section
variable (s : State) (c : Cur) (w : RF) (q : Nat → List Nat × Nat × Nat)

/-- The writes of a QNT to the lanes of both sides (R112). -/
def quantLanes : State :=
  if protOf s c.u then quantSide (quantSide s c w 0 (q 0)) c w 1 (q 1) else quantSide s c w 0 (q 0)

/-- All writes of a QNT: the lanes', and the descriptor in an S register. -/
def quantWrites : State :=
  if isS c.u.lead w.c.toNat then
    landField (quantLanes s c w q) c w.c.toNat 0 false (BitVec.ofNat 64 (q 0).2.1) (c.cycle + 12) 0
  else quantLanes s c w q

theorem adds_quantLanes : Adds c.u RegisterWrite s (quantLanes s c w q) := by
  unfold quantLanes
  split
  · exact (adds_quantSide_register ..).trans (adds_quantSide_register ..)
  · exact adds_quantSide_register ..

theorem adds_quantWrites : Adds c.u RegisterWrite (quantLanes s c w q) (quantWrites s c w q) := by
  unfold quantWrites
  split
  · exact adds_landField_register ..
  · exact Adds.refl ..

/-- Each lane that computes receives the codes and the descriptor of its side. -/
theorem quantLanes_lands {l : Nat} (hl : l < 32) (hc : laneCompute s c w.g l = true) :
    let side := if protOf s c.u then l % 2 else 0
    Lands (quantLanes s c w q) c w.d.toNat l false (BitVec.ofNat 64 (codeWord s c w (q side).1 l)) 12 ∧
    (isV c.u.lead w.c.toNat = true → Lands (quantLanes s c w q) c w.c.toNat l false (BitVec.ofNat 64 (q side).2.1) 12) := by
  unfold quantLanes
  cases hp : protOf s c.u
  · exact quantSide_lands hl hc (by simp [hp])
  · have hfirst := (adds_quantSide_register s c w 0 (q 0)).only
    simp only [if_true]
    rcases Nat.mod_two_eq_zero_or_one l with h | h <;> rw [h]
    · have hgrows := (adds_quantSide_register (quantSide s c w 0 (q 0)) c w 1 (q 1)).grows
      obtain ⟨hcode, hscale⟩ := quantSide_lands (q := q 0) hl hc fun _ => h
      exact ⟨lands_of_grows hcode hgrows, fun hv => lands_of_grows (hscale hv) hgrows⟩
    · rw [← codeWord_onlyPending hfirst]
      exact quantSide_lands hl (by rwa [laneCompute_onlyPending hfirst]) fun _ => h

/-- The quantiser's answer for a side of the warp. -/
def quantOf (side : Nat) : List Nat × Nat × Nat :=
  quantise ((List.range 128).map (spanInput s c w side)) (w.md.toNat % 8 + 1) (w.md.toNat / 8 % 8)

/-- What a QNT with an active lane leaves (R112). -/
def quantOut : State := (quantWrites s c w (quantOf s c w)).raise c.u (quantOf s c w 0).2.2 (c.cycle + 12) c.cycle

theorem exec_qnt : exec (.qnt w) s = issue (.qnt w) s fun c => if (activeLanes s c w.g).isEmpty then s else quantOut s c w := by
  have hq (c : Cur) (side : Nat) :
      quantise (quantIn s c w side) (w.md.toNat % 8 + 1) (w.md.toNat / 8 % 8) = quantOf s c w side := by rw [quantIn_eq]; rfl
  show execQnt w s = _
  unfold execQnt
  simp only [hq]
  rfl

theorem adds_quantOut : Adds c.u RegisterWrite s (quantWrites s c w (quantOf s c w)) :=
  (adds_quantLanes ..).trans (adds_quantWrites ..)

theorem quantOut_scalar (h : isS c.u.lead w.c.toNat = true) :
    Lands (quantOut s c w) c w.c.toNat 0 false (BitVec.ofNat 64 (quantOf s c w 0).2.1) 12 := by
  refine lands_raise ?_ _ _
  rw [quantWrites, if_pos h]
  exact lands_landField ..

/-- What a QNT lands in a lane: the codes and the descriptor of its side. -/
theorem quantOut_lands {l : Nat} (hl : l < 32) (hc : laneCompute s c w.g l = true) :
    let side := if protOf s c.u then l % 2 else 0
    Lands (quantOut s c w) c w.d.toNat l false (BitVec.ofNat 64 (codeWord s c w (quantOf s c w side).1 l)) 12 ∧
    (isV c.u.lead w.c.toNat = true → Lands (quantOut s c w) c w.c.toNat l false (BitVec.ofNat 64 (quantOf s c w side).2.1) 12) := by
  obtain ⟨hcode, hscale⟩ := quantLanes_lands s c w (quantOf s c w) hl hc
  have hgrows := (adds_quantWrites s c w (quantOf s c w)).grows
  exact ⟨lands_raise (lands_of_grows hcode hgrows) _ _, fun hv => lands_raise (lands_of_grows (hscale hv) hgrows) _ _⟩

end

/-! ### DQNT -/

/-- Element `i` of a lane of DQNT (R113). -/
def dqElem (s : State) (c : Cur) (w : RF) (l i : Nat) : Nat × Nat :=
  let codes := (s.v c.u w.a.toNat l).toNat / (if w.md.getLsbD 6 then 65536 else 1) % 65536
  roundFV (fmtOf w.ty.toNat) (rmOf w) (satOf w)
    (q4Value (readField s c w.b.toNat l false).toNat (4 * visLane (protOf s c.u) l + i) (codes / 16 ^ i % 16))

theorem dqLane_eq (s : State) (c : Cur) (w : RF) (l : Nat) : dqLane s c w l = (List.range 4).map (dqElem s c w l) := rfl

/-- The registers that the elements of a lane fill (R111). -/
def spanRegs (ty : Nat) (xs : List Nat) : List Nat :=
  if ty = 8 then xs else [pat xs 0 + 65536 * pat xs 1, pat xs 2 + 65536 * pat xs 3]

theorem adds_landSpan (s : State) (c : Cur) (ty r l : Nat) (xs : List Nat) : Adds c.u RegisterWrite s (landSpan s c ty r l xs) :=
  adds_foldl fun _ _ _ => adds_landField_register ..

theorem landSpan_lands (s : State) (c : Cur) {ty r l i v : Nat} {xs : List Nat} (h : (spanRegs ty xs)[i]? = some v) :
    Lands (landSpan s c ty r l xs) c (r + i) l false (BitVec.ofNat 64 v) 12 :=
  lands_foldl (fun t (x : Nat × Nat) => landField t c (r + x.2) l false (BitVec.ofNat 64 x.1) (c.cycle + 12) 0)
    (fun _ _ => (adds_landField_register ..).grows) (a := (v, i)) (fun _ => lands_landField ..) s _ (List.mem_zipIdx_iff_getElem?.mpr h)

/-- The writes of a DQNT. -/
def dqWrites (s : State) (c : Cur) (w : RF) : State :=
  (((List.range 32).filter (laneCompute s c w.g)).map fun l => (l, dqLane s c w l)).foldl
    (fun t r => landSpan t c w.ty.toNat w.d.toNat r.1 (r.2.map (·.1))) s

theorem adds_dqWrites (s : State) (c : Cur) (w : RF) : Adds c.u RegisterWrite s (dqWrites s c w) :=
  adds_foldl fun _ _ _ => adds_landSpan ..

theorem dqWrites_lands {s : State} {c : Cur} {w : RF} {l i v : Nat} (hl : l < 32) (hc : laneCompute s c w.g l = true)
    (h : (spanRegs w.ty.toNat ((dqLane s c w l).map (·.1)))[i]? = some v) :
    Lands (dqWrites s c w) c (w.d.toNat + i) l false (BitVec.ofNat 64 v) 12 := by
  refine lands_foldl (fun t (r : Nat × List (Nat × Nat)) => landSpan t c w.ty.toNat w.d.toNat r.1 (r.2.map (·.1)))
    (fun _ _ => (adds_landSpan ..).grows) (a := (l, dqLane s c w l)) (fun t => landSpan_lands t c h) s _ ?_
  exact List.mem_map.mpr ⟨l, List.mem_filter.mpr ⟨List.mem_range.mpr hl, hc⟩, rfl⟩

theorem spanRegs_wide (s : State) (c : Cur) {w : RF} (hty : w.ty.toNat = 8) (l : Nat) {i : Nat} (hi : i < 4) :
    (spanRegs w.ty.toNat ((dqLane s c w l).map (·.1)))[i]? = some (dqElem s c w l i).1 := by
  rw [spanRegs, if_pos hty, dqLane_eq, List.map_map]
  simp [hi]

theorem spanRegs_packed (s : State) (c : Cur) {w : RF} (hty : w.ty.toNat ≠ 8) (l : Nat) {i : Nat} (hi : i < 2) :
    (spanRegs w.ty.toNat ((dqLane s c w l).map (·.1)))[i]? =
      some ((dqElem s c w l (2 * i)).1 + 65536 * (dqElem s c w l (2 * i + 1)).1) := by
  rw [spanRegs, if_neg hty, dqLane_eq]
  match i with
  | 0 | 1 => rfl

theorem foldl_flOr {α : Type} (f : α → Nat) (a : Nat) (xs : List α) :
    xs.foldl (fun a x => flOr a (f x)) a = flOr a (xs.foldl (fun a x => flOr a (f x)) 0) := by
  induction xs generalizing a with
  | nil => exact (flOr_zero_right a).symm
  | cons x xs ih =>
    rw [List.foldl_cons, List.foldl_cons, ih, ih (flOr 0 _), flOr_zero_left]
    exact Nat.or_assoc ..

/-- What a DQNT leaves (R113): its flags are those of the elements of the lanes that raise them. -/
def dqOut (s : State) (c : Cur) (w : RF) : State :=
  (dqWrites s c w).raise c.u (orAll (realLanes s c w.g) fun l => orAll (List.range 4) fun i => (dqElem s c w l i).2) (c.cycle + 12)
    c.cycle

theorem exec_dqnt (w : RF) (s : State) : exec (.dqnt w) s = issue (.dqnt w) s fun c => dqOut s c w := by
  refine congrArg (issue _ s) (funext fun c => ?_)
  dsimp only
  rw [foldl_computing_flags s c w.g (dqLane s c w) fun a xs => xs.foldl (fun a x => flOr a x.2) a]
  refine congrArg (fun fl => (dqWrites s c w).raise c.u fl (c.cycle + 12) c.cycle) ?_
  refine List.foldl_ext _ _ _ fun a l _ => ?_
  rw [foldl_flOr, dqLane_eq, List.foldl_map]
  rfl

/-- A value as it is rounded once. -/
theorem roundFV_gives (f : Fmt) (rm : Nat) (st : Bool) (y : FV) : (y = .nan → roundFV f rm st y = (f.nan, 0)) ∧
    ∀ n m e, y = .fin n m e → Rounds f rm st n m e (roundFV f rm st y) := by
  refine ⟨?_, fun n m e => ?_⟩ <;> rintro rfl
  · rfl
  · exact rounds_self ..

end Sys2Proof.Proofs
end

section
/-! SUPPORT. The code of a value in a block (R88): the nearest one, ties to the even code. -/

namespace Sys2Proof.Proofs

open Sys2Proof Sys2Proof.Machine Sys2Proof.Laws

/-! ### The search for the nearest code -/

/-- The distance of a code from a value, both times eight. -/
def codeDist (ty : Nat) (v8 : Dy) (c : Nat) : Dy :=
  let d := Dy.add v8 (-codeVal8 ty c, 0)
  ((d.1.natAbs : ℤ), d.2)

theorem dyRat_codeDist (ty : Nat) (v8 : Dy) (c : Nat) : dyRat (codeDist ty v8 c) = |dyRat v8 - codeVal8 ty c| := by
  rw [codeDist, dyRat_natAbs, dyRat_add, sub_eq_add_neg]
  simp [dyRat]

/-- One comparison of the search. -/
def nearer (D : Nat → Dy) (best c : Nat) : Nat :=
  if Dy.lt (D c) (D best) then c else if Dy.lt (D best) (D c) then best else if c % 2 = 0 then c else best

/-- The codes of a block type: code 8 of the symmetric types is a second zero. -/
def searchCodes (ty : Nat) : List Nat := (List.range 16).filter fun c => ty = 0 || c != 8

theorem mem_searchCodes_zero (ty : Nat) : 0 ∈ searchCodes ty := by simp [searchCodes]

theorem nearestCode_eq (ty : Nat) (v8 : Dy) : nearestCode ty v8 = (searchCodes ty).foldl (nearer (codeDist ty v8)) 0 := rfl

/-- `b` is nearest among `cs`, and even where an even one is as near. -/
structure Nearest (D : Nat → Dy) (cs : List Nat) (b : Nat) : Prop where
  mem : b ∈ cs
  le : ∀ c ∈ cs, dyRat (D b) ≤ dyRat (D c)
  even : ∀ c ∈ cs, dyRat (D c) = dyRat (D b) → c % 2 = 0 → b % 2 = 0

theorem nearest_singleton (D : Nat → Dy) (b : Nat) : Nearest D [b] b where
  mem := List.mem_singleton_self b
  le := fun c hc => by rw [List.mem_singleton.mp hc]
  even := fun c hc _ h => by rwa [← List.mem_singleton.mp hc]

/-- A code that is nearer, or as near and even, is taken. -/
theorem Nearest.take {D : Nat → Dy} {cs : List Nat} {b c : Nat} (h : Nearest D cs b) (hle : dyRat (D c) ≤ dyRat (D b))
    (heven : dyRat (D c) = dyRat (D b) → c % 2 = 0) : Nearest D (c :: cs) c where
  mem := List.mem_cons_self
  le := List.forall_mem_cons.mpr ⟨le_rfl, fun k hk => hle.trans (h.le k hk)⟩
  even := List.forall_mem_cons.mpr ⟨fun _ hc => hc, fun k hk htie _ => heven (hle.antisymm (htie ▸ h.le k hk))⟩

/-- A code that is farther, or as far and odd, is left. -/
theorem Nearest.keep {D : Nat → Dy} {cs : List Nat} {b c : Nat} (h : Nearest D cs b) (hle : dyRat (D b) ≤ dyRat (D c))
    (hodd : dyRat (D c) = dyRat (D b) → c % 2 ≠ 0) : Nearest D (c :: cs) b where
  mem := List.mem_cons_of_mem _ h.mem
  le := List.forall_mem_cons.mpr ⟨hle, h.le⟩
  even := List.forall_mem_cons.mpr ⟨fun htie hc => absurd hc (hodd htie), h.even⟩

theorem Nearest.nearer {D : Nat → Dy} {cs : List Nat} {b : Nat} (h : Nearest D cs b) (c : Nat) :
    Nearest D (c :: cs) (nearer D b c) := by
  unfold Proofs.nearer
  simp only [lt_iff_dyRat]
  split_ifs with hlt hgt heven
  · exact h.take hlt.le fun htie => absurd htie hlt.ne
  · exact h.keep hgt.le fun htie => absurd htie hgt.ne'
  · exact h.take (not_lt.mp hgt) fun _ => heven
  · exact h.keep (not_lt.mp hlt) fun _ => heven

theorem Nearest.foldl {D : Nat → Dy} (ys : List Nat) {cs : List Nat} {b : Nat} (h : Nearest D cs b) :
    Nearest D (ys.reverse ++ cs) (ys.foldl (Proofs.nearer D) b) := by
  induction ys generalizing cs b with
  | nil => exact h
  | cons y ys ih => simpa using ih (h.nearer y)

/-- The search finds a nearest code. -/
theorem nearest_nearestCode (ty : Nat) (v8 : Dy) : Nearest (codeDist ty v8) (searchCodes ty) (nearestCode ty v8) := by
  have h0 := mem_searchCodes_zero ty
  have hmem {c : Nat} : c ∈ (searchCodes ty).reverse ++ [0] ↔ c ∈ searchCodes ty := by
    simp only [List.mem_append, List.mem_reverse, List.mem_singleton]
    exact or_iff_left_of_imp (· ▸ h0)
  obtain ⟨hm, hle, heven⟩ := Nearest.foldl (searchCodes ty) (nearest_singleton (codeDist ty v8) 0)
  rw [nearestCode_eq]
  exact ⟨hmem.mp hm, fun c hc => hle c (hmem.mpr hc), fun c hc => heven c (hmem.mpr hc)⟩

/-! ### Ties -/

/-- Between two odd codes of different values lies another code. -/
theorem exists_code_between : ∀ ty < 4, ∀ i < 8, ∀ j < 8, codeVal8 ty (2 * i + 1) < codeVal8 ty (2 * j + 1) →
    ∃ k ∈ searchCodes ty, codeVal8 ty (2 * i + 1) < codeVal8 ty k ∧ codeVal8 ty k < codeVal8 ty (2 * j + 1) := by
  decide

/-- A code that the search leaves out has the value of code 0. -/
theorem exists_searchCode : ∀ ty < 4, ∀ c < 16, c ∈ searchCodes ty ∨ c = 8 ∧ codeVal8 ty c = codeVal8 ty 0 := by decide

theorem lt_of_mem_searchCodes {ty c : Nat} (h : c ∈ searchCodes ty) : c < 16 :=
  List.mem_range.mp (List.mem_filter.mp h).1

/-- Between two points as far from a third one, each inner point is nearer. -/
theorem abs_sub_lt_of_between {v a k b : ℚ} (hd : |v - a| = |v - b|) (hak : a < k) (hkb : k < b) : |v - k| < |v - b| := by
  have hmid : v - a = -(v - b) := (abs_eq_abs.mp hd).resolve_left fun h => by linarith
  rw [abs_of_neg (show v - b < 0 by linarith), abs_lt]
  constructor <;> linarith

/-- A nearest code is at most as far as every code. -/
theorem nearestCode_le {ty c : Nat} (hty : ty < 4) (v8 : Dy) (hc : c < 16) :
    dyRat (codeDist ty v8 (nearestCode ty v8)) ≤ dyRat (codeDist ty v8 c) := by
  have hn := nearest_nearestCode ty v8
  rcases exists_searchCode ty hty c hc with hmem | ⟨-, hval⟩
  · exact hn.le c hmem
  · rw [dyRat_codeDist ty v8 c, hval, ← dyRat_codeDist]
    exact hn.le 0 (mem_searchCodes_zero ty)

/-- The search does not answer an odd code when a code of another value is as near. -/
theorem nearestCode_even {ty c : Nat} (hty : ty < 4) {v8 : Dy} (hc : c < 16)
    (htie : dyRat (codeDist ty v8 c) = dyRat (codeDist ty v8 (nearestCode ty v8)))
    (hne : codeVal8 ty c ≠ codeVal8 ty (nearestCode ty v8)) : nearestCode ty v8 % 2 = 0 := by
  have hn := nearest_nearestCode ty v8
  have hr := lt_of_mem_searchCodes hn.mem
  generalize nearestCode ty v8 = r at *
  by_contra hodd
  obtain ⟨hmem, hcodd⟩ : c ∈ searchCodes ty ∧ c % 2 = 1 := by
    rcases exists_searchCode ty hty c hc with hmem | ⟨rfl, hval⟩
    · exact ⟨hmem, by have := mt (hn.even c hmem htie); omega⟩
    · refine absurd (hn.even 0 (mem_searchCodes_zero ty) ?_ rfl) hodd
      rw [← htie, dyRat_codeDist, dyRat_codeDist, hval]
  have hnear {k : Nat} (hk : k ∈ searchCodes ty) : ¬dyRat (codeDist ty v8 k) < dyRat (codeDist ty v8 r) := (hn.le k hk).not_gt
  simp only [dyRat_codeDist] at htie hnear
  obtain ⟨i, rfl⟩ : ∃ i, c = 2 * i + 1 := ⟨c / 2, by omega⟩
  obtain ⟨j, rfl⟩ : ∃ j, r = 2 * j + 1 := ⟨r / 2, by omega⟩
  rcases lt_or_gt_of_ne hne with hlt | hlt
  · obtain ⟨k, hk, hik, hkj⟩ := exists_code_between ty hty i (by omega) j (by omega) hlt
    exact hnear hk (abs_sub_lt_of_between htie (by exact_mod_cast hik) (by exact_mod_cast hkj))
  · obtain ⟨k, hk, hjk, hki⟩ := exists_code_between ty hty j (by omega) i (by omega) hlt
    exact hnear hk (htie ▸ abs_sub_lt_of_between htie.symm (by exact_mod_cast hjk) (by exact_mod_cast hki))

/-! ### The code of a finite value -/

/-- The value of a signed significand over the scale of a block, times eight. -/
def scaled8 (ex : Nat) (n : Bool) (m : Nat) (e : ℤ) : Dy := (if n then -(m : ℤ) else m, e + 43 - ex)

/-- Eight times the largest code value of a block type, and the smallest. -/
def codeTop (ty : Nat) : ℤ := if ty = 0 then 56 else if ty = 1 then 48 else if ty = 2 then 64 else 128
def codeBottom (ty : Nat) : ℤ := if ty = 0 then -64 else -codeTop ty

/-- A code of value zero is code 0 (R88). -/
def plusZero (ty c : Nat) : Nat := if codeVal8 ty c = 0 then 0 else c

theorem codeVal8_plusZero (ty c : Nat) : codeVal8 ty (plusZero ty c) = codeVal8 ty c := by
  unfold plusZero
  split
  · next h =>
    rw [h]
    unfold codeVal8
    split <;> rfl
  · rfl

theorem codeOf_fin {ty : Nat} (hty : ty < 4) (ex : Nat) (n : Bool) (m : Nat) (e : ℤ) : codeOf ty ex (.fin n m e) =
    let v8 := scaled8 ex n m e
    let c := plusZero ty (nearestCode ty v8)
    if Dy.lt (codeTop ty, 0) v8 then (7, flOverflow + flInexact)
    else if Dy.lt v8 (codeBottom ty, 0) then (if ty = 0 then 8 else 15, flOverflow + flInexact)
    else (c, if (codeDist ty v8 c).1 = 0 then 0 else flInexact) := by
  have hdist (d : ℤ) : (d.natAbs : ℤ) = 0 ↔ d = 0 := by simp
  simp only [codeDist, hdist]
  match ty with
  | 0 | 1 | 2 | 3 => rfl

theorem codeDist_plusZero (ty : Nat) (v8 : Dy) (c : Nat) : codeDist ty v8 (plusZero ty c) = codeDist ty v8 c := by
  rw [codeDist, codeVal8_plusZero, codeDist]

/-- The code within the range of its block type is the nearest, an even one in a tie (R88). -/
theorem plusZero_nearestCode {ty : Nat} (hty : ty < 4) (v8 : Dy) :
    let r := plusZero ty (nearestCode ty v8)
    r < 16 ∧ (codeVal8 ty r = 0 → r = 0) ∧ ∀ c, c < 16 → Dy.lt (codeDist ty v8 c) (codeDist ty v8 r) = false ∧
      (Dy.lt (codeDist ty v8 r) (codeDist ty v8 c) = false → codeVal8 ty c ≠ codeVal8 ty r → r % 2 = 0) := by
  intro r
  have hlt : nearestCode ty v8 < 16 := lt_of_mem_searchCodes (nearest_nearestCode ty v8).mem
  have hdist : codeDist ty v8 r = codeDist ty v8 (nearestCode ty v8) := codeDist_plusZero ..
  have hval : codeVal8 ty r = codeVal8 ty (nearestCode ty v8) := codeVal8_plusZero ..
  refine ⟨?_, fun h0 => if_pos (hval ▸ h0), fun c hc => ?_⟩
  · unfold r plusZero
    split <;> omega
  · have hle := nearestCode_le hty v8 hc
    rw [hdist, not_lt_iff_dyRat, not_lt_iff_dyRat, hval]
    refine ⟨hle, fun htie hne => ?_⟩
    have heven := nearestCode_even hty hc (le_antisymm htie hle) hne
    unfold r plusZero
    split <;> omega

section
variable {ty ex m : Nat} {n : Bool} {e : ℤ}

theorem codeOf_above (hty : ty < 4) (h : Dy.lt (codeTop ty, 0) (scaled8 ex n m e) = true) :
    codeOf ty ex (.fin n m e) = (7, flOverflow + flInexact) := by
  rw [codeOf_fin hty]
  exact if_pos h

theorem codeBottom_le_codeTop : ∀ ty < 4, codeBottom ty ≤ codeTop ty := by decide

theorem codeOf_below (hty : ty < 4) (h : Dy.lt (scaled8 ex n m e) (codeBottom ty, 0) = true) :
    codeOf ty ex (.fin n m e) = (if ty = 0 then 8 else 15, flOverflow + flInexact) := by
  have hnot : ¬Dy.lt (codeTop ty, 0) (scaled8 ex n m e) = true := by
    rw [lt_iff_dyRat] at h ⊢
    have hle : dyRat (codeBottom ty, 0) ≤ dyRat (codeTop ty, 0) := by simpa [dyRat] using codeBottom_le_codeTop ty hty
    exact (h.le.trans hle).not_gt
  rw [codeOf_fin hty]
  exact (if_neg hnot).trans (if_pos h)

theorem codeOf_inside (hty : ty < 4) (htop : Dy.lt (codeTop ty, 0) (scaled8 ex n m e) = false)
    (hbottom : Dy.lt (scaled8 ex n m e) (codeBottom ty, 0) = false) :
    let c := plusZero ty (nearestCode ty (scaled8 ex n m e))
    codeOf ty ex (.fin n m e) = (c, if (codeDist ty (scaled8 ex n m e) c).1 = 0 then 0 else flInexact) := by
  rw [codeOf_fin hty]
  exact (if_neg (ne_true_of_eq_false htop)).trans (if_neg (ne_true_of_eq_false hbottom))

end

end Sys2Proof.Proofs
end

section
/-! SUPPORT. The F32 reductions (R92, R134): the fixed tree of WREDUCE and the blocks of WSCAN. -/

namespace Sys2Proof.Proofs

open Sys2Proof Sys2Proof.Machine Sys2Proof.Laws

/-! ### The tree -/

/-- One level of the tree over contributions `u`: neighbours are added. -/
def sumLevel (u : Nat → Nat × Nat) (i : Nat) : Nat × Nat := nodeAdd true (u (2 * i)) (u (2 * i + 1))

theorem treeLevel_map_range (n : Nat) (u : Nat → Nat × Nat) :
    treeLevel true ((List.range (2 * n)).map u) = (List.range n).map (sumLevel u) := by
  induction n generalizing u with
  | zero => rfl
  | succ n ih =>
    rw [show 2 * (n + 1) = 2 * n + 1 + 1 from rfl]
    simp only [List.range_succ_eq_map (n := 2 * n + 1), List.range_succ_eq_map (n := 2 * n), List.range_succ_eq_map (n := n),
      List.map_cons, List.map_map, treeLevel, ih]
    rfl

/-- A node of the model's tree is the node of as many levels. -/
theorem treeNode_map_range (k : Nat) {n i : Nat} (hi : i < n) (u : Nat → Nat × Nat) :
    treeNode true k ((List.range (2 ^ k * n)).map u) i = sumLevel^[k] u i := by
  induction k generalizing u with
  | zero => simp [treeNode, hi]
  | succ k ih =>
    rw [pow_succ', mul_assoc, treeNode, treeLevel_map_range, ih, Function.iterate_succ_apply]

/-- A node within the 32 contributions of a side. -/
theorem treeNode_contributions {k i : Nat} (hk : k ≤ 5) (hi : i * 2 ^ k + 2 ^ k ≤ 32) (u : Nat → Nat × Nat) :
    treeNode true k ((List.range 32).map u) i = sumLevel^[k] u i := by
  have hsize : 32 = 2 ^ k * 2 ^ (5 - k) := by rw [← pow_add, Nat.add_sub_cancel' hk]; rfl
  have hlt : i < 2 ^ (5 - k) := by
    rw [← Nat.succ_mul, hsize, mul_comm] at hi
    exact Nat.le_of_mul_le_mul_left hi (Nat.two_pow_pos k)
  conv_lhs => rw [hsize]
  exact treeNode_map_range k hlt u

/-! ### Contributions -/

/-- The contribution of visible lane `i` on a side: -0.0 where the lane takes no part. -/
def sumLeaf (s : State) (c : Cur) (w : RF) (side i : Nat) : Nat × Nat :=
  let l := if protOf s c.u then 2 * i + side else i
  (if l < 32 ∧ laneActive s c w.g l = true then (readField s c w.a.toNat l false).toNat else 0x80000000, 0)

theorem contribs_eq (s : State) (c : Cur) {w : RF} (hty : w.ty.toNat = 8) {side : Nat} (hside : side < 2) :
    contribs s c w side = (List.range 32).map (sumLeaf s c w side) := by
  refine List.map_congr_left fun i _ => ?_
  have hact (l : Nat) (hl : protOf s c.u = true → l % 2 = side) :
      (sideActive s c w.g side).contains l = true ↔ l < 32 ∧ laneActive s c w.g l = true := by
    simp only [sideActive, activeLanes, List.contains_iff_mem, List.mem_filter, List.mem_range]
    cases hp : protOf s c.u <;> simp_all
  have hl : protOf s c.u = true → (if protOf s c.u then 2 * i + side else i) % 2 = side := fun hp => by rw [if_pos hp]; omega
  simp only [sumLeaf, hact _ hl, if_pos hty]
  exact (apply_ite (·, 0) _ _ _).symm

/-! ### The scan -/

/-- The part of `n` above bit `k`, and bit `k`. -/
theorem div_two_pow_mul_succ (n k : Nat) :
    n / 2 ^ k * 2 ^ k = n / 2 ^ (k + 1) * 2 ^ (k + 1) + if n.testBit k then 2 ^ k else 0 := by
  rw [Nat.testBit_eq_decide_div_mod_eq, pow_succ, ← Nat.div_div_eq_div_mul]
  generalize n / 2 ^ k = q
  conv_lhs => rw [← Nat.div_add_mod q 2]
  rcases Nat.mod_two_eq_zero_or_one q with h | h
  · simp only [h, zero_ne_one, decide_false, Bool.false_eq_true, if_false]
    ring
  · simp only [h, decide_true, if_true]
    ring

/-- The nodes of the aligned blocks that cover the first `n` contributions, by the bits `ks` of `n`. -/
def sumBlocks (u : Nat → Nat × Nat) (n : Nat) (ks : List Nat) : List (Nat × Nat) :=
  (ks.filter fun k => n.testBit k).map fun k => sumLevel^[k] u (n / 2 ^ (k + 1) * 2)

/-- A running sum that starts with its first block. -/
def addBlock (a : Option (Nat × Nat)) (b : Nat × Nat) : Option (Nat × Nat) :=
  some (match a with | none => b | some v => nodeAdd true v b)

theorem foldl_addBlock (b : Nat × Nat) (bs : List (Nat × Nat)) : bs.foldl addBlock (some b) = some (bs.foldl (nodeAdd true) b) := by
  induction bs generalizing b with
  | nil => rfl
  | cons x bs ih => exact ih _

/-- One bit of the scan's walk: the contributions covered so far, and their sum. -/
def scanStep (xs : List (Nat × Nat)) (n : Nat) (a : Nat × Option (Nat × Nat)) (k : Nat) : Nat × Option (Nat × Nat) :=
  if n.testBit k then (a.1 + 2 ^ k, addBlock a.2 (treeNode true k xs (a.1 / 2 ^ k))) else a

/-- The walk over the bits below `K` adds the blocks of those bits. -/
theorem foldl_scanStep {K n : Nat} (hK : K ≤ 6) (hn : n ≤ 32) (u : Nat → Nat × Nat) (o : Option (Nat × Nat)) :
    (List.range K).reverse.foldl (scanStep ((List.range 32).map u) n) (n / 2 ^ K * 2 ^ K, o) =
      (n, (sumBlocks u n (List.range K).reverse).foldl addBlock o) := by
  induction K generalizing o with
  | zero => simp [sumBlocks]
  | succ K ih =>
    have habove := div_two_pow_mul_succ n K
    rw [List.range_succ (n := K), List.reverse_append, List.reverse_singleton, List.singleton_append, List.foldl_cons]
    cases hbit : n.testBit K
    · simp only [hbit, Bool.false_eq_true, if_false, add_zero] at habove
      rw [scanStep, hbit, if_neg (by decide), ← habove, ih (by omega), sumBlocks, sumBlocks, List.filter_cons_of_neg (by simp [hbit])]
    · rw [hbit, if_pos rfl] at habove
      have hindex : n / 2 ^ (K + 1) * 2 ^ (K + 1) / 2 ^ K = n / 2 ^ (K + 1) * 2 := by
        rw [pow_succ', ← mul_assoc, Nat.mul_div_cancel _ (Nat.two_pow_pos K)]
      have hfits : n / 2 ^ (K + 1) * 2 * 2 ^ K + 2 ^ K ≤ 32 := by
        rw [mul_assoc, ← pow_succ', ← habove]
        exact (Nat.div_mul_le_self n _).trans hn
      rw [scanStep, hbit, if_pos rfl, ← habove, ih (by omega), hindex, treeNode_contributions (by omega) hfits, sumBlocks, sumBlocks,
        List.filter_cons_of_pos hbit, List.map_cons, List.foldl_cons]

/-- The sum of blocks in their order, with the canonical NaN. -/
def sumOfBlocks : List (Nat × Nat) → Nat × Nat
  | [] => (0, 0)
  | b :: bs =>
    let x := bs.foldl (nodeAdd true) b
    if (F32.value x.1).isNan then (F32.nan, x.2) else x

/-- The scan of a lane is the sum of its blocks (R92). -/
theorem scanAt_eq {i : Nat} (hi : i < 32) (u : Nat → Nat × Nat) :
    scanAt true ((List.range 32).map u) i = sumOfBlocks (sumBlocks u (i + 1) [5, 4, 3, 2, 1, 0]) := by
  have hstart : (i + 1) / 2 ^ 6 * 2 ^ 6 = 0 := by omega
  have hwalk := foldl_scanStep (K := 6) le_rfl (show i + 1 ≤ 32 from hi) u none
  rw [hstart, show (List.range 6).reverse = [5, 4, 3, 2, 1, 0] from rfl] at hwalk
  have hscan : scanAt true ((List.range 32).map u) i =
      let r := ([5, 4, 3, 2, 1, 0].foldl (scanStep ((List.range 32).map u) (i + 1)) (0, none)).2.getD (0, 0)
      if (F32.value r.1).isNan then (F32.nan, r.2) else r := rfl
  rw [hscan, hwalk]
  cases sumBlocks u (i + 1) [5, 4, 3, 2, 1, 0] with
  | nil => exact if_neg (show ¬(F32.value 0).isNan = true by decide)
  | cons b bs =>
    rw [List.foldl_cons, show addBlock none b = some b from rfl, foldl_addBlock]
    rfl

/-! ### The instructions -/

section
variable {s : State} {c : Cur} {w : RF} {lat : Nat}

theorem xLanes_lands {f : Nat → Nat → Word64} {l : Nat} (hl : l < 32) (hc : laneCompute s c w.g l = true) :
    Lands (xLanes s c w lat f) c w.d.toNat l false (f (visLane (protOf s c.u) l) l) lat :=
  lands_foldl (fun t l => landField t c w.d.toNat l false (f (visLane (protOf s c.u) l) l) (c.cycle + lat) 0)
    (fun _ _ => (adds_landField_register ..).grows) (fun _ => lands_landField ..) s _
    (List.mem_filter.mpr ⟨List.mem_range.mpr hl, hc⟩)

theorem warpWide_scalar {f : Nat → Word64} (h : w.d.toNat = 0xE0 ∨ isS c.u.lead w.d.toNat = true) :
    Lands (warpWide s c w lat f) c w.d.toNat 0 false (f 0) lat := by
  have hsz : isSZ c.u.lead w.d.toNat = true := by
    simpa [isSZ, isZ, or_comm] using h
  rw [warpWide, if_pos hsz]
  exact lands_landField ..

theorem warpWide_lanes {f : Nat → Word64} (h : ¬(w.d.toNat = 0xE0 ∨ isS c.u.lead w.d.toNat = true)) {l : Nat} (hl : l < 32)
    (hc : laneCompute s c w.g l = true) :
    Lands (warpWide s c w lat f) c w.d.toNat l false (f (if protOf s c.u then l % 2 else 0)) lat := by
  have hsz : ¬isSZ c.u.lead w.d.toNat = true := by
    simpa [isSZ, isZ, or_comm] using h
  have hvalue : f (if protOf s c.u then l % 2 else 0) =
      if protOf s c.u && l % 2 == 1 then (if protOf s c.u then f 1 else f 0) else f 0 := by
    rcases Nat.mod_two_eq_zero_or_one l with h | h <;> cases protOf s c.u <;> simp [h]
  rw [warpWide, if_neg hsz, hvalue]
  exact xLanes_lands hl hc

theorem warpWide_congr {f g : Nat → Word64} (h0 : f 0 = g 0) (h1 : f 1 = g 1) : warpWide s c w lat f = warpWide s c w lat g := by
  simp only [warpWide, h0, h1]

theorem xLanes_congr {f g : Nat → Nat → Word64}
    (h : ∀ l < 32, f (visLane (protOf s c.u) l) l = g (visLane (protOf s c.u) l) l) : xLanes s c w lat f = xLanes s c w lat g := by
  refine List.foldl_ext _ _ _ fun t l hl => ?_
  rw [h l (List.mem_range.mp (List.mem_filter.mp hl).1)]

end

section
variable (s : State) (c : Cur) (w : RF)

/-- The sum of a side of the warp. -/
def warpSum (side : Nat) : Nat × Nat := sumLevel^[5] (sumLeaf s c w side) 0

/-- The scan of a lane. -/
def laneScan (l : Nat) : Nat × Nat :=
  sumOfBlocks (sumBlocks (sumLeaf s c w (if protOf s c.u then l % 2 else 0)) (visLane (protOf s c.u) l + 1) [5, 4, 3, 2, 1, 0])

/-- What WREDUCE.F32 leaves. -/
def reduceOut : State :=
  (warpWide s c w 20 fun side => BitVec.ofNat 64 (warpSum s c w side).1).raise c.u (warpSum s c w 0).2 (c.cycle + 20) c.cycle

/-- What WSCAN.F32 leaves. -/
def scanOut : State :=
  (xLanes s c w 20 fun _ l => BitVec.ofNat 64 (laneScan s c w l).1).raise c.u
    (orAll (realLanes s c w.g) fun l => (laneScan s c w l).2) (c.cycle + 20) c.cycle

/-- The contributions that the scan of a lane takes. -/
def scanInput (l : Nat) : List (Nat × Nat) :=
  if protOf s c.u && l % 2 == 1 then (if protOf s c.u then contribs s c w 1 else contribs s c w 0) else contribs s c w 0

variable {w} (hty : w.ty.toNat = 8)
include hty

theorem treeNode_contribs {side : Nat} (hside : side < 2) :
    treeNode (w.ty.toNat == 8) 5 (contribs s c w side) 0 = warpSum s c w side := by
  rw [contribs_eq s c hty hside, hty]
  exact treeNode_contributions le_rfl (by decide) _

theorem exec_wreduce : exec (.wreduce w) s = issue (.wreduce w) s fun c => reduceOut s c w := by
  refine congrArg (issue _ s) (funext fun c => ?_)
  dsimp only
  rw [treeNode_contribs s c hty two_pos]
  refine congrArg (State.raise · ..) (warpWide_congr rfl ?_)
  rw [if_neg one_ne_zero, treeNode_contribs s c hty one_lt_two]

theorem scanAt_scanInput {l : Nat} (hl : l < 32) :
    scanAt (w.ty.toNat == 8) (scanInput s c w l) (visLane (protOf s c.u) l) = laneScan s c w l := by
  have hside : scanInput s c w l = contribs s c w (if protOf s c.u then l % 2 else 0) := by
    unfold scanInput
    rcases Nat.mod_two_eq_zero_or_one l with h | h <;> cases protOf s c.u <;> simp [h]
  have hvis : visLane (protOf s c.u) l < 32 := by
    unfold visLane
    split <;> omega
  rw [hside, contribs_eq s c hty (by split <;> omega), hty]
  exact scanAt_eq hvis _

theorem exec_wscan : exec (.wscan w) s = issue (.wscan w) s fun c => scanOut s c w := by
  refine congrArg (issue _ s) (funext fun c => ?_)
  have hflags : (realLanes s c w.g).foldl (fun a l =>
        flOr a (scanAt (w.ty.toNat == 8) (scanInput s c w l) (visLane (protOf s c.u) l)).2) 0 =
      orAll (realLanes s c w.g) fun l => (laneScan s c w l).2 := by
    refine List.foldl_ext _ _ _ fun a l hl => ?_
    rw [scanAt_scanInput s c hty (List.mem_range.mp (List.mem_filter.mp (List.mem_filter.mp hl).1).1)]
  have hvalues : xLanes s c w 20 (fun v l => BitVec.ofNat 64 (scanAt (w.ty.toNat == 8) (scanInput s c w l) v).1) =
      xLanes s c w 20 fun _ l => BitVec.ofNat 64 (laneScan s c w l).1 :=
    xLanes_congr fun l hl => by rw [scanAt_scanInput s c hty hl]
  unfold scanOut
  rw [← hflags, ← hvalues]
  rfl

end

end Sys2Proof.Proofs
end

section
/-! SUPPORT. Conversions, packing, quantising and the F32 reductions (O47). -/

namespace Sys2Proof.Proofs

open Sys2Proof Sys2Proof.Machine Sys2Proof.Laws

/-! ### What each lane computes -/

section
variable (s : State) (c : Cur) (w : RF) (l : Nat)

/-- CVTFI of a lane (R108). -/
def cvtfiLane : ℤ × Nat :=
  cvtFI (fmtOf (w.md.toNat / 8)) (rmOf w) (cvtRange w.ty.toNat).1 (cvtRange w.ty.toNat).2
    (elem (fmtOf (w.md.toNat / 8)).width (readField s c w.a.toNat l false) 0)

/-- One source of PACK2 of a lane (R109). -/
def pack2Lane (x : BitVec 8) : Nat × Nat :=
  cvtF F32 (fmtOf w.ty.toNat) (rmOf w) (satOf w) (readField s c x.toNat l false).toNat

/-- Element `i` of PACK4 of a lane (R109). -/
def pack4Lane (i : Nat) : Nat × Nat :=
  pack4Elem w (elem 32 (readField s c (if i < 2 then w.a else w.b).toNat l true) (i % 2))

/-- Element `i` of UNPK of a lane (R110). -/
def unpkLane (i : Nat) : Nat :=
  (cvtF (fmtOf w.ty.toNat) F32 0 false
    (elem (fmtOf w.ty.toNat).width (readField s c w.a.toNat l false) (i + if w.md.getLsbD 0 then 2 else 0))).1

theorem cvtfiLane_gives :
    let lo : ℤ := if w.ty.toNat = 2 then -2 ^ 31 else if w.ty.toNat = 0 then -128 else 0
    let hi : ℤ := if w.ty.toNat = 2 then 2 ^ 31 - 1 else if w.ty.toNat = 3 then 2 ^ 32 - 1 else if w.ty.toNat = 0 then 127 else 255
    ToIntGives (fmtOf (w.md.toNat / 8)) (rmOf w) lo hi
      (elem (fmtOf (w.md.toNat / 8)).width (readField s c w.a.toNat l false) 0) (cvtfiLane s c w l) := by
  unfold cvtfiLane
  rw [cvtRange_eq]
  refine cvtFI_gives (rmOf_lt w) ?_ _
  split_ifs <;> decide

theorem pack4Lane_float (h : 13 ≤ w.ty.toNat) (i : Nat) : CvtGives F32 (fmtOf w.ty.toNat) (rmOf w) (satOf w)
    (elem 32 (readField s c (if i < 2 then w.a else w.b).toNat l true) (i % 2)) (pack4Lane s c w l i) := by
  rw [pack4Lane, pack4Elem, if_pos h]
  exact cvtF_gives ..

end

/-- Settles O47, clause by clause: the conversions are the loop of R65 over the functions of `cvtF_gives` and its like, QNT and DQNT
are folds over the lanes, the codes come from the invariant of the nearest-code search, and the trees from `sumLevel`. -/
theorem conversionAndReductionResults : Obligations.ConversionAndReductionResults := by
  refine ⟨fun w s c h => ⟨_, issue_ok _ h, _, floatIn_alu fun l => rfl, fun l => cvtF_gives ..⟩,
    fun w s c h => ⟨_, issue_ok _ h, _, floatIn_alu fun l => rfl, fun l => ?cvti⟩,
    fun w s c h => ⟨_, issue_ok _ h, cvtfiLane s c w, floatIn_alu fun l => ?cvtfi, fun l => cvtfiLane_gives ..⟩,
    fun w s c h => ⟨_, issue_ok _ h, pack2Lane s c w, floatIn_alu fun l => rfl, fun l x => cvtF_gives ..⟩,
    fun w s c h => ⟨_, issue_ok _ h, pack4Lane s c w, floatIn_alu fun l => ?pack4, fun l i _ =>
      ⟨fun hty => pack4Lane_float s c w l hty i, fun hty => pack4Elem_signed hty _, fun hty => pack4Elem_unsigned hty _⟩⟩,
    fun w s c h => ⟨_, issue_ok _ h, unpkLane s c w, floatIn_alu fun l => ?unpk, fun l i _ => cvtF_widens ..⟩,
    fun w s c h => ⟨_, issue_ok _ h, floatIn_alu fun l => ?qdesc⟩,
    fun w s c h => ⟨_, (exec_qnt s w).trans (issue_ok _ h), fun hn => ?qntOff, fun ha => ?qntOn⟩, ?codes,
    fun w s c h => ⟨_, (exec_dqnt w s).trans (issue_ok _ h), onlyPending_raise_of_adds (adds_dqWrites s c w) _, dqElem s c w,
      raises_of_adds (adds_dqWrites s c w) _, fun l hl hc => ⟨fun i _ => roundFV_gives .., fun hty i hi => ?dqntWide,
        fun hty i hi => ?dqntPacked⟩⟩,
    fAdd F32 0 false, fun a b _ _ => fAdd_gives ..,
    fun w hty s c h => ⟨_, (exec_wreduce s hty).trans (issue_ok _ h), onlyPending_raise_of_adds (adds_warpWide_register ..) _,
      raises_of_adds (adds_warpWide_register ..) _, ?reduce⟩,
    fun w hty s c h => ⟨_, (exec_wscan s hty).trans (issue_ok _ h), onlyPending_raise_of_adds (adds_xLanes_register ..) _,
      raises_of_adds (adds_xLanes_register ..) _, fun l hl hc => lands_raise (xLanes_lands hl hc) _ _⟩⟩
  case cvti =>
    dsimp only
    rw [intOf_eq_asInt]
    exact rounds_self ..
  case cvtfi => rw [← wrap_eq_ofInt]; rfl
  case pack4 => rw [pack4_eq]; rfl
  case unpk => simp only [unpkLane, Nat.add_comm]; rfl
  case qdesc =>
    rw [descQuery_eq (Nat.mod_lt _ (by decide))]
    rfl
  case qntOff => rw [if_pos (List.isEmpty_iff.mpr hn)]
  case qntOn =>
    rw [if_neg (mt List.isEmpty_iff.mp ha)]
    exact ⟨onlyPending_raise_of_adds (adds_quantOut s c w) _, raises_of_adds (adds_quantOut s c w) _, quantOut_scalar s c w,
      fun l hl hc => quantOut_lands s c w hl hc⟩
  case dqntWide => exact lands_raise (dqWrites_lands hl hc (spanRegs_wide s c hty l hi)) _ _
  case dqntPacked => exact lands_raise (dqWrites_lands hl hc (spanRegs_packed s c hty l hi)) _ _
  case codes =>
    intro ty ex n m e hty _
    refine ⟨fun h => codeOf_above hty (Bool.eq_true_of_not_eq_false h), fun h => codeOf_below hty (Bool.eq_true_of_not_eq_false h),
      fun htop hbottom => ?_⟩
    obtain ⟨hlt, hzero, hnear⟩ := plusZero_nearestCode hty (scaled8 ex n m e)
    have hcode := codeOf_inside hty htop hbottom
    exact hcode ▸ ⟨hlt, hzero, hnear, rfl⟩
  case reduce =>
    split
    · next hd => exact lands_raise (warpWide_scalar hd) _ _
    · next hd => exact fun l hl hc => lands_raise (warpWide_lanes hd hl hc) _ _

end Sys2Proof.Proofs
end

section
/-! SUPPORT. Exchange between the lanes of a warp: the lane each form reads, warp-wide values, and masks of lanes (R126-R135). -/

namespace Sys2Proof.Proofs

open Sys2Proof Sys2Proof.Machine Sys2Proof.Laws

/-! ### Lane-wise results and warp-wide ones -/

section
variable {s : State} {c : Cur} {w : RF} {lat : Nat}

/-- What an exchange leaves, when each lane's value is `v` of it. -/
theorem xLanes_result {f : Nat → Nat → Word64} {v : Nat → Word64} (hv : ∀ l < 32, f (visLane (protOf s c.u) l) l = v l) :
    OnlyPending s (xLanes s c w lat f) ∧
      ∀ l, l < 32 → laneCompute s c w.g l = true → Lands (xLanes s c w lat f) c w.d.toNat l false (v l) lat :=
  ⟨onlyPending_xLanes .., fun l hl hc => hv l hl ▸ xLanes_lands hl hc⟩

/-- What a warp-wide value leaves, when the value of each lane's side is `v` of it. -/
theorem warpWide_result {f v : Nat → Word64} (hv : ∀ l, f (if protOf s c.u then l % 2 else 0) = v l) :
    OnlyPending s (warpWide s c w lat f) ∧
      if w.d.toNat = 0xE0 ∨ isS c.u.lead w.d.toNat = true then Lands (warpWide s c w lat f) c w.d.toNat 0 false (v 0) lat
      else ∀ l, l < 32 → laneCompute s c w.g l = true → Lands (warpWide s c w lat f) c w.d.toNat l false (v l) lat := by
  refine ⟨onlyPending_warpWide .., ?_⟩
  split
  · next hd =>
    have h0 : f 0 = v 0 := by simpa using hv 0
    exact h0 ▸ warpWide_scalar hd
  · next hd => exact fun l hl hc => hv l ▸ warpWide_lanes hd hl hc

end

/-! ### The lane that an exchange reads -/

/-- A visible lane's field is read on the reader's own side; there are 16 visible lanes in protected mode (R126). -/
theorem readVis_eq (s : State) (c : Cur) (r i l : Nat) (wide : Bool) : readVis s c r i l wide =
    if protOf s c.u = true ∧ 16 ≤ i then 0 else readField s c r (if protOf s c.u then 2 * i + l % 2 else i) wide := by
  unfold readVis physLane
  by_cases hi : 16 ≤ i
  · cases protOf s c.u <;> simp [hi]
  · cases protOf s c.u <;> simp [hi, Nat.mod_eq_of_lt (not_le.mp hi)]

/-- A position `pos` of the own quad (R130). -/
theorem readVis_quad (s : State) (c : Cur) (r : Nat) {f : Nat → Nat} (hf : ∀ k < 4, f k < 4) {l : Nat} (hl : l < 32) :
    readVis s c r (visLane (protOf s c.u) l / 4 * 4 + f (visLane (protOf s c.u) l % 4)) l false =
      readField s c r (if protOf s c.u then 8 * (l / 8) + 2 * f (l / 2 % 4) + l % 2 else 4 * (l / 4) + f (l % 4)) false := by
  rw [readVis_eq]
  cases protOf s c.u
  · simp [visLane, Nat.mul_comm]
  · have hpos := hf (l / 2 % 4) (Nat.mod_lt _ (by decide))
    have hin : ¬16 ≤ l / 2 / 4 * 4 + f (l / 2 % 4) := by omega
    have hlane : 2 * (l / 2 / 4 * 4 + f (l / 2 % 4)) + l % 2 = 8 * (l / 8) + 2 * f (l / 2 % 4) + l % 2 := by omega
    simp [visLane, hin, hlane]

/-- The exchange forms of a quad: position `f i` for position `i` (R130). -/
theorem quadSwap_result (s : State) (c : Cur) (w : RF) {f : Nat → Nat} (hf : ∀ k < 4, f k < 4) :
    OnlyPending s (quadSwap s c w f) ∧ ∀ l, l < 32 → laneCompute s c w.g l = true →
      Lands (quadSwap s c w f) c w.d.toNat l false (readField s c w.a.toNat
        (if protOf s c.u then 8 * (l / 8) + 2 * f (l / 2 % 4) + l % 2 else 4 * (l / 4) + f (l % 4)) false) 4 :=
  xLanes_result fun _ hl => readVis_quad s c _ hf hl

/-- Settles O21: each form is an exchange whose source position stays inside the quad. -/
theorem quadExchangeResults : Obligations.QuadExchangeResults := by
  exact ⟨fun w s c h => ⟨_, issue_ok _ h, quadSwap_result s c w (by decide)⟩,
    fun w s c h => ⟨_, issue_ok _ h, quadSwap_result s c w (by decide)⟩,
    fun w s c h => ⟨_, issue_ok _ h, quadSwap_result s c w (by decide)⟩,
    fun w s c h => ⟨_, issue_ok _ h, quadSwap_result s c w fun _ _ => Nat.mod_lt _ (by decide)⟩⟩

theorem segWidth_eq (m : Nat) : segWidth m =
    if m = 1 then 2 else if m = 2 then 4 else if m = 3 then 8 else if m = 4 then 16 else 32 := by
  match m with
  | 0 | 1 | 2 | 3 | 4 => rfl
  | m + 5 => simp [segWidth]

theorem shflSrc_up (W l n : Nat) : shflSrc 1 W l n = if n ≥ W ∨ l - (l - l % W) < n then l else l - n := by
  have hmod := Nat.mod_le l W
  exact if_congr (by omega) rfl rfl

/-- A SHFL form reads A of its source lane (R131). -/
theorem shflOp_result (s : State) (c : Cur) (w : RF) {op : Nat} {src : Nat → Nat → Nat → Nat}
    (hsrc : ∀ W l n, shflSrc op W l n = src W l n) :
    OnlyPending s (shflOp s c w op) ∧ ∀ k, k < 32 → laneCompute s c w.g k = true →
      let i := src (segWidth (w.md.toNat % 8)) (visLane (protOf s c.u) k) ((readField s c w.b.toNat k false).toNat % 32)
      Lands (shflOp s c w op) c w.d.toNat k false (if protOf s c.u = true ∧ 16 ≤ i then 0
        else readField s c w.a.toNat (if protOf s c.u then 2 * i + k % 2 else i) false) 8 :=
  xLanes_result fun l _ => by rw [readVis_eq, hsrc]

/-- Settles O22: the source lane of each form is that of R131, and a visible lane above 15 reads 0 in protected mode. -/
theorem shuffleResults : Obligations.ShuffleResults := by
  unfold Obligations.ShuffleResults
  simp only [← segWidth_eq]
  exact ⟨fun w s c h => ⟨_, issue_ok _ h, shflOp_result s c w (op := 0) fun _ _ _ => rfl⟩,
    fun w s c h => ⟨_, issue_ok _ h, shflOp_result s c w shflSrc_up⟩,
    fun w s c h => ⟨_, issue_ok _ h, shflOp_result s c w (op := 2) fun _ _ _ => rfl⟩,
    fun w s c h => ⟨_, issue_ok _ h, shflOp_result s c w (op := 3) fun _ _ _ => rfl⟩⟩

end Sys2Proof.Proofs
end

section
/-! SUPPORT. Votes and masks of lanes (R132, R133, R135). -/

namespace Sys2Proof.Proofs

open Sys2Proof Sys2Proof.Machine Sys2Proof.Laws

/-! ### The active lanes of a side -/

theorem mem_sideActive (s : State) (c : Cur) (g : Guard) (side x : Nat) :
    x ∈ sideActive s c g side ↔ x < 32 ∧ laneActive s c g x = true ∧ (protOf s c.u = true → x % 2 = side) := by
  simp only [sideActive, activeLanes, List.mem_filter, List.mem_range, and_assoc]
  cases protOf s c.u <;> simp

theorem sideActive_eq (s : State) (c : Cur) (g : Guard) (side : Nat) : sideActive s c g side =
    (List.range 32).filter fun x => laneActive s c g x && (!protOf s c.u || x % 2 == side) := by
  rw [sideActive, activeLanes, List.filter_filter]
  exact List.filter_congr fun x _ => Bool.and_comm ..

/-- Outside protected mode the one side has every lane. -/
theorem sideActive_side (s : State) (c : Cur) (g : Guard) (k : Nat) :
    sideActive s c g (if protOf s c.u then k % 2 else 0) = sideActive s c g (k % 2) := by
  cases hp : protOf s c.u <;> simp [sideActive, hp]

/-! ### Votes -/

theorem voteVal_eq (m : Nat) (xs : List Bool) : voteVal m xs =
    if m = 0 then xs.any id else if m = 1 then xs.all id else xs.all id || !xs.any id := by
  match m with
  | 0 | 1 => rfl
  | m + 2 => simp [voteVal]

theorem any_sideActive (s : State) (c : Cur) (g : Guard) (side : Nat) (q : Nat → Bool) : ((sideActive s c g side).map q).any id =
    (List.range 32).any fun x => laneActive s c g x && (!protOf s c.u || x % 2 == side) && q x := by
  rw [sideActive_eq, List.any_map, List.any_filter]
  rfl

theorem all_sideActive (s : State) (c : Cur) (g : Guard) (side : Nat) (q : Nat → Bool) : ((sideActive s c g side).map q).all id =
    (List.range 32).all fun x => !(laneActive s c g x && (!protOf s c.u || x % 2 == side)) || q x := by
  rw [sideActive_eq, List.all_map, List.all_filter]
  rfl

/-! ### Masks -/

theorem getLsbD_maskOf (p : Bool) (ls : List Nat) (i : Nat) :
    (maskOf p ls).getLsbD i = true ↔ i < 32 ∧ ∃ l ∈ ls, visLane p l = i := by
  have hfold (m : BitVec 32) : (ls.foldl (fun m l => m ||| (1#32 <<< visLane p l)) m).getLsbD i = true ↔
      m.getLsbD i = true ∨ i < 32 ∧ ∃ l ∈ ls, visLane p l = i := by
    induction ls generalizing m with
    | nil => simp
    | cons l ls ih =>
      have hbit : (1#32 <<< visLane p l).getLsbD i = true ↔ i < 32 ∧ visLane p l = i := by
        rw [← BitVec.twoPow_eq, BitVec.getLsbD_twoPow]
        simp
        omega
      rw [List.foldl_cons, ih, BitVec.getLsbD_or, Bool.or_eq_true, hbit]
      simp only [List.mem_cons, exists_eq_or_imp]
      tauto
  simpa [maskOf] using hfold 0

/-- Physical lanes are visible ones outside protected mode. -/
theorem maskPhys_eq (ls : List Nat) : maskPhys ls = maskOf false ls := rfl

/-- The mask of the lanes of a side for which `q` holds, by visible lanes. -/
def sideMask (s : State) (c : Cur) (g : Guard) (side : Nat) (q : Nat → Bool) : Word64 :=
  (maskOf (protOf s c.u) ((sideActive s c g side).filter q)).setWidth 64

/-- The physical lane of a visible one on the side of lane `k` (R126). -/
theorem visLane_eq_iff (p : Bool) (i k l : Nat) :
    visLane p l = i ∧ (p = true → l % 2 = k % 2) ↔ l = if p then 2 * i + k % 2 else i := by
  cases p
  · simp [visLane]
  · simp only [visLane, if_true, forall_const]
    omega

theorem getLsbD_sideMask (s : State) (c : Cur) (g : Guard) (k : Nat) (q : Nat → Bool) (i : Nat) :
    (sideMask s c g (k % 2) q).getLsbD i = (decide (i < if protOf s c.u then 16 else 32) &&
      (laneActive s c g (if protOf s c.u then 2 * i + k % 2 else i) && q (if protOf s c.u then 2 * i + k % 2 else i))) := by
  have hbound : (if protOf s c.u then 2 * i + k % 2 else i) < 32 ↔ i < if protOf s c.u then 16 else 32 := by
    split <;> omega
  have hmem (l : Nat) : l ∈ (sideActive s c g (k % 2)).filter q ∧ visLane (protOf s c.u) l = i ↔
      l = (if protOf s c.u then 2 * i + k % 2 else i) ∧ l < 32 ∧ laneActive s c g l = true ∧ q l = true := by
    rw [List.mem_filter, mem_sideActive, ← visLane_eq_iff]
    tauto
  rw [Bool.eq_iff_iff, sideMask, BitVec.getLsbD_setWidth, Bool.and_eq_true, getLsbD_maskOf]
  simp only [hmem, exists_eq_left, hbound, Bool.and_eq_true, decide_eq_true_eq]
  have hvis : (if protOf s c.u then 16 else 32) ≤ 32 := by split <;> decide
  exact ⟨fun h => h.2.2, fun h => ⟨by omega, by omega, h⟩⟩

/-- Settles O23: the value of a side is formed from the active lanes of that side, once or for each computing lane. -/
theorem voteAndBallotResults : Obligations.VoteAndBallotResults := by
  refine ⟨fun w s c h => ⟨_, issue_ok _ h, warpWide_result fun l => ?vote⟩,
    fun w s c h => ⟨_, issue_ok _ h, fun k => sideMask s c w.g (k % 2) fun x => s.p c.u (w.a.toNat - 0xA0) x,
      fun k i => getLsbD_sideMask .., warpWide_result fun l => ?ballot⟩⟩
  case vote =>
    simp only [sideActive_side, voteVal_eq, any_sideActive, all_sideActive]
    rfl
  case ballot =>
    simp only [sideActive_side]
    rfl

/-- Settles O24: MATCH lands the mask of the lanes of its side whose value is its own, LPOPC counts the bits below its lane. -/
theorem matchAndCountResults : Obligations.MatchAndCountResults := by
  refine ⟨fun w s c h => ⟨_, issue_ok _ h, onlyPending_xLanes ..,
    fun l => sideMask s c w.g (l % 2) fun x => rd s c w.ty.toNat w.a.toNat x == rd s c w.ty.toNat w.a.toNat l,
    fun l i _ => getLsbD_sideMask .., (xLanes_result fun l _ => rfl).2⟩,
    fun w s c h => ⟨_, issue_ok _ h, xLanes_result fun l _ => rfl⟩⟩

end Sys2Proof.Proofs
end

section
/-! SUPPORT. Moves between lanes and warps (O26). -/

namespace Sys2Proof.Proofs

open Sys2Proof Sys2Proof.Machine Sys2Proof.Laws

/-- A write to a V register of a lane of `lanes`. -/
def VectorWrite (lanes : List Nat) (p : PendW) : Prop := p.file = .v ∧ p.lane ∈ lanes

/-- A V field is written in the lane given. -/
theorem adds_landField_vector {s : State} {c : Cur} {r l lat op : Nat} {wide : Bool} {v : Word64} {lanes : List Nat}
    (hr : isV c.u.lead r = true) (hl : l ∈ lanes) :
    Adds c.u (VectorWrite lanes) s (landField s c r l wide v (c.cycle + lat) op) := by
  have hlead : c.u.lead = false := by
    simp only [isV, Bool.and_eq_true, Bool.not_eq_true'] at hr
    exact hr.1
  refine (adds_landField ..).mono fun p hp => ?_
  have hfile : p.file = .v := by
    rcases hp.field with hin | ⟨-, -, hfile, -⟩
    · rw [PendW.inField, if_pos hr, Bool.and_eq_true, beq_iff_eq] at hin
      exact hin.1
    · exact hfile
  exact ⟨hfile, (hp.lane hlead (.inl hfile)).2 ▸ hl⟩

/-- A value landed in a V field of each of the lanes. -/
def landLanes (s : State) (c : Cur) (r : Nat) (wide : Bool) (v : Word64) (lat : Nat) (lanes : List Nat) : State :=
  lanes.foldl (fun t l => landField t c r l wide v (c.cycle + lat) 0) s

section
variable {s : State} {c : Cur} {r : Nat} {wide : Bool} {v : Word64} {lat : Nat} {lanes : List Nat}

theorem landLanes_lands {l : Nat} (hl : l ∈ lanes) : Lands (landLanes s c r wide v lat lanes) c r l wide v lat :=
  lands_foldl (fun t l => landField t c r l wide v (c.cycle + lat) 0) (fun _ _ => grows_landField _ _ _ _ _ _ _ _)
    (fun _ => lands_landField ..) s _ hl

theorem adds_landLanes (hr : isV c.u.lead r = true) : Adds c.u (VectorWrite lanes) s (landLanes s c r wide v lat lanes) :=
  adds_foldl fun _ _ hl => adds_landField_vector hr hl

end

/-- The lanes that WRLANE writes: none without a lane of the group there, and both sides of a visible lane (R135, R126). -/
def wrlaneLanes (s : State) (c : Cur) (i : Nat) : List Nat :=
  if lanePresent s c.u i = false then [] else if protOf s c.u then [2 * i, 2 * i + 1] else [i]

theorem exec_wrlane (w : RF) (s : State) : exec (.wrlane w) s = issue (.wrlane w) s fun c =>
    landLanes s c w.d.toNat (isWide w.ty.toNat) (rd s c w.ty.toNat w.a.toNat 0) 8
      (wrlaneLanes s c ((readField s c w.b.toNat 0 false).toNat % 32)) := by
  refine congrArg (issue _ s) (funext fun c => ?_)
  dsimp only
  generalize (readField s c w.b.toNat 0 false).toNat % 32 = i
  cases hl : lanePresent s c.u i <;> cases hp : protOf s c.u <;> simp [wrlaneLanes, hl, hp, landLanes, rd]

/-- The destination of WRLANE is a V register. -/
theorem isV_of_wrlane {w : RF} {s : State} {c : Cur} (h : Issuing s c (.wrlane w)) : isV c.u.lead w.d.toNat = true := by
  have h4 : (isV c.u.lead w.d.toNat && _ && _ && _ && _) = true := c4_of_opcode h.2.1 (opcodeOf_rf rfl) (by decide)
  simp only [Bool.and_eq_true] at h4
  exact h4.1.1.1.1

/-- The lane that RDLANE reads, by its visible number. -/
theorem readVis_primary (s : State) (c : Cur) (ty r i : Nat) : readVis s c r i 0 (isWide ty) =
    if protOf s c.u then (if 16 ≤ i then 0 else rd s c ty r (2 * i)) else rd s c ty r i := by
  rw [readVis_eq]
  cases protOf s c.u <;> simp [rd]

/-- XMOV from the warp `src` of the group (R135). -/
def moveFrom (s : State) (c : Cur) (w : RF) (src : UnitId) : State :=
  if isS c.u.lead w.a.toNat then landField s c w.d.toNat 0 true (s.sr src (w.a.toNat - 0x80)) (c.cycle + 8) 0
  else xLanes s c w 8 fun _ l => (s.v src w.a.toNat l).setWidth 64

theorem exec_xmov (w : RF) (s : State) : exec (.xmov w) s = issue (.xmov w) s fun c =>
    (s.groupOf c.u).elim s fun g => moveFrom s c w (warpId g (w.md.toNat % 4)) := by
  refine congrArg (issue _ s) (funext fun c => ?_)
  cases s.groupOf c.u <;> rfl

theorem moveFrom_result (s : State) (c : Cur) (w : RF) (src : UnitId) : OnlyPending s (moveFrom s c w src) ∧
    if isS c.u.lead w.a.toNat then
      Lands (moveFrom s c w src) c w.d.toNat 0 true (s.sr src (w.a.toNat - 0x80)) 8
    else ∀ l, l < 32 → laneCompute s c w.g l = true →
      Lands (moveFrom s c w src) c w.d.toNat l false ((s.v src w.a.toNat l).setWidth 64) 8 := by
  unfold moveFrom
  split
  · exact ⟨onlyPending_landField .., lands_landField ..⟩
  · exact xLanes_result fun _ _ => rfl

/-- Settles O26: RDLANE reads a visible lane, WRLANE lands in the lanes of `wrlaneLanes`, XMOV reads the other warp at issue. -/
theorem laneAndWarpMoves : Obligations.LaneAndWarpMoves := by
  refine ⟨fun w s c h => ⟨_, issue_ok _ h, onlyPending_landField .., ?rdlane⟩,
    fun w s c h => ⟨_, (exec_wrlane w s).trans (issue_ok _ h), (adds_landLanes (isV_of_wrlane h)).only,
      fun l hl => landLanes_lands hl, (adds_landLanes (isV_of_wrlane h)).writes⟩,
    fun w s c h => ⟨_, (exec_xmov w s).trans (issue_ok _ h), ?xmov⟩⟩
  case rdlane =>
    dsimp only
    rw [← readVis_primary]
    exact lands_landField ..
  case xmov =>
    cases hgroup : s.groupOf c.u with
    | none => exact ⟨rfl, fun g hg => absurd (hgroup.symm.trans hg) nofun⟩
    | some g =>
      obtain ⟨honly, hlands⟩ := moveFrom_result s c w (warpId g (w.md.toNat % 4))
      exact ⟨honly, fun g' hg => Option.some.inj (hgroup.symm.trans hg) ▸ hlands⟩

end Sys2Proof.Proofs
end

section
/-! SUPPORT. EXIT, REGANG and NOP (O43), and accesses without an active lane (O35). -/

namespace Sys2Proof.Proofs

open Sys2Proof Sys2Proof.Machine Sys2Proof.Laws

/-! ### EXIT, REGANG and NOP -/

theorem getLsbD_maskPhys_active (s : State) (c : Cur) (g : Guard) {l : Nat} (hl : l < 32) :
    (maskPhys (activeLanes s c g)).getLsbD l = laneActive s c g l := by
  rw [Bool.eq_iff_iff, maskPhys_eq, getLsbD_maskOf]
  simp [activeLanes, visLane, hl]

/-- A unit whose lanes `m` have exited (R144). -/
def markLanes (m : BitVec 32) (x : ExecUnit) : ExecUnit :=
  { x with marked := x.marked ||| m, exec := if x.exec &&& ~~~(x.marked ||| m) = 0 then 0 else x.exec }

/-- The issuing unit after EXIT: a lead stream ends, a warp's lanes are marked. -/
def exitUnit (s : State) (c : Cur) (g : Guard) (x : ExecUnit) : ExecUnit :=
  if c.u.lead then (if guardLane s c.u g 0 then { x with ended := true } else x)
  else markLanes (maskPhys (activeLanes s c g)) x

theorem exitUnit_id (s : State) (c : Cur) (g : Guard) (x : ExecUnit) : (exitUnit s c g x).id = x.id := by
  unfold exitUnit
  split
  · split <;> rfl
  · rfl

theorem modUnit_id (s : State) (u : UnitId) : s.modUnit u (fun x => x) = s := by
  simp [State.modUnit]

theorem exec_exit (w : RF) (s : State) : exec (.exit w) s = issue (.exit w) s fun c => s.modUnit c.u (exitUnit s c w.g) := by
  refine congrArg (issue _ s) (funext fun c => ?_)
  cases hl : c.u.lead
  · refine congrArg (s.modUnit c.u) (funext fun x => ?_)
    simp only [exitUnit, hl, markLanes]
    split <;> rfl
  · cases hg : guardLane s c.u w.g 0
    · have hunit : exitUnit s c w.g = fun x => x := funext fun x => by simp [exitUnit, hl, hg]
      rw [hunit, modUnit_id]
      simp [hg, guardLead]
    · have hunit : exitUnit s c w.g = fun x => { x with ended := true } := funext fun x => by simp [exitUnit, hl, hg]
      rw [hunit]
      simp [hg, guardLead]

/-- A change of one unit, by a function that keeps its number. -/
theorem modUnit_result (s : State) (u : UnitId) {f : ExecUnit → ExecUnit} (hf : ∀ x, (f x).id = x.id) :
    s.modUnit u f = { s with units := (s.modUnit u f).units } ∧ (∀ v, v ≠ u → (s.modUnit u f).unit? v = s.unit? v) ∧
      ∀ x, s.unit? u = some x → (s.modUnit u f).unit? u = some (f x) := by
  refine ⟨rfl, fun v hv => ?_, fun x hx => ?_⟩
  · simp [unit?_modUnit s u v f fun x h => (hf x).trans h, hv]
  · simp [unit?_modUnit s u u f fun x h => (hf x).trans h, hx]

/-- Settles O43: EXIT and REGANG change the issuing unit alone, NOP nothing. -/
theorem exitRegangAndNop : Obligations.ExitRegangAndNop := by
  refine ⟨fun w s c h => ⟨_, (exec_exit w s).trans (issue_ok _ h), ?exit⟩, fun w s c h => ⟨_, issue_ok _ h, ?regang⟩,
    fun w s c h => ⟨_, issue_ok _ h, rfl⟩⟩
  case exit =>
    obtain ⟨hframe, hother, hunit⟩ := modUnit_result s c.u (exitUnit_id s c w.g)
    refine ⟨hframe, hother, fun x hx => ⟨_, hunit x hx, ?_⟩⟩
    unfold exitUnit
    split
    · rfl
    · refine ⟨_, fun l hl => ?_, rfl⟩
      rw [BitVec.getLsbD_or, getLsbD_maskPhys_active s c w.g hl]
  case regang =>
    obtain ⟨hframe, hother, hunit⟩ := modUnit_result s c.u (f := withXfer (.regang (w.imm.setWidth 8))) fun _ => rfl
    split
    · next hl => exact ⟨rfl, fun _ => rfl, fun _ _ => rfl, fun hn => absurd (hl.symm.trans hn) (by decide)⟩
    · next hl => exact ⟨hframe, fun h => absurd h hl, hother, fun _ => hunit⟩

/-! ### No active lane -/

theorem activeLanes_eq_nil {s : State} {c : Cur} {g : Guard} (h : ∀ l, l < 32 → laneActive s c g l = false) :
    activeLanes s c g = [] := by
  simpa [activeLanes, List.filter_eq_nil_iff] using h

section
variable {s : State} {c : Cur}

theorem glob_of_no_lane {w : MF} (h : activeLanes s c w.g = []) (load : Bool) : glob s c w load = s := by simp [glob, h]

theorem scrTeam_of_no_lane {w : MF} (h : activeLanes s c w.g = []) (load : Bool) : scrTeam s c w load = s := by simp [scrTeam, h]

theorem atomg_of_no_lane {w : RF} (h : activeLanes s c w.g = []) (fn : Nat) : atomg s c w fn = s := by simp [atomg, h]

theorem remote_of_no_lane {g : Guard} (h : activeLanes s c g = []) (n : Nat) (write : Bool) (ad peer : Nat → Nat) (o : Op) :
    remote s c g n write ad peer o = s := by simp [remote, h]

theorem realLanes_of_no_lane {g : Guard} (h : activeLanes s c g = []) : realLanes s c g = [] := by simp [realLanes, h]

end

/-- An instruction whose effect is none without an active lane. -/
theorem completes_of_no_lane {i : Instr} {g : Guard} {f : State → Cur → State} (hi : ∀ s, exec i s = issue i s (f s))
    (hf : ∀ s c, activeLanes s c g = [] → f s c = s) :
    Completes i fun s c t => (∀ l, l < 32 → laneActive s c g l = false) → t = s := fun s c h =>
  ⟨_, (hi s).trans (issue_ok _ h), fun hl => hf s c (activeLanes_eq_nil hl)⟩

/-- Settles O35: every access tests for an active lane before its address checks, its probe and its operation (R127). -/
theorem noActiveLaneNoAccess : Obligations.NoActiveLaneNoAccess := by
  refine ⟨?memory, ?atomg, ?ratom, ?probe⟩
  case memory =>
    rintro w i (rfl | rfl | rfl | rfl | ⟨rfl | rfl, hsco⟩)
    · exact completes_of_no_lane (fun _ => rfl) fun s c h => glob_of_no_lane h _
    · exact completes_of_no_lane (fun _ => rfl) fun s c h => glob_of_no_lane h _
    · exact completes_of_no_lane (fun _ => rfl) fun s c h => remote_of_no_lane h ..
    · exact completes_of_no_lane (fun _ => rfl) fun s c h => remote_of_no_lane h ..
    · exact completes_of_no_lane (fun _ => rfl) fun s c h => (if_pos hsco).trans (scrTeam_of_no_lane h _)
    · exact completes_of_no_lane (fun _ => rfl) fun s c h => (if_pos hsco).trans (scrTeam_of_no_lane h _)
  case atomg =>
    rintro w i (rfl | rfl | rfl | rfl | rfl | rfl | rfl | rfl | rfl)
    all_goals exact completes_of_no_lane (fun _ => rfl) fun s c h => atomg_of_no_lane h _
  case ratom =>
    rintro w i (rfl | rfl | rfl | rfl | rfl | rfl | rfl | rfl | rfl)
    all_goals exact completes_of_no_lane (fun _ => rfl) fun s c h => remote_of_no_lane h ..
  case probe =>
    refine fun w s c h => ⟨_, issue_ok _ h, fun hv hl => ?_⟩
    simp [hv, realLanes_of_no_lane (activeLanes_eq_nil hl)]

end Sys2Proof.Proofs
end

section
/-! SUPPORT. The decision queues: what a push and a pop change (O27, O28). -/

namespace Sys2Proof.Proofs

open Sys2Proof Sys2Proof.Machine Sys2Proof.Laws

theorem unit?_onlyPending {s t : State} (h : OnlyPending s t) (u : UnitId) : t.unit? u = s.unit? u := by
  rw [h]
  rfl

/-! ### Pops -/

/-- The head entry that DQPOP and BRD find (R139). -/
def headEntry (x : ExecUnit) (cyc : Nat) : Option (Nat × Nat × Word64) := x.dq.find? fun e => e.1 == x.pp && decide (e.2.1 ≤ cyc)

theorem dqHead_eq {s : State} {u : UnitId} {x : ExecUnit} (hx : s.unit? u = some x) (cyc : Nat) :
    ((s.unit? u).bind fun x => dqHead x cyc) = (headEntry x cyc).map fun e => e.2.2 := by
  rw [hx]
  rfl

theorem dqDrop_unit? {s : State} {u : UnitId} {x : ExecUnit} (hx : s.unit? u = some x) :
    (dqDrop s u).unit? u = some { x with pp := x.pp + 1 } :=
  (modUnit_result s u (f := fun x => { x with pp := x.pp + 1 }) fun _ => rfl).2.2 x hx

/-- An empty queue: the unit stops with trap kind 4, and nothing is popped (R139). -/
theorem underrun_result {s : State} {c : Cur} {x : ExecUnit} (hx : s.unit? c.u = some x) :
    SameMemory s (underrun s c) ∧ SameRegisters s (underrun s c) ∧ (underrun s c).pend = s.pend ∧
      (underrun s c).unit? c.u = some (stopUnit (curStop s c 4 0 (execMask s c) [0]) x) := by
  have hunit := takeTrap_unit? hx (t := curStop s c 4 0 (execMask s c) [0]) (by simp [curStop]) c.u
  rw [if_pos rfl] at hunit
  refine ⟨?_, ?_, ?_, hunit⟩
  all_goals rw [underrun, trapCur, takeTrap_eq]
  · exact fun _ => ⟨rfl, rfl, rfl, rfl⟩
  · exact ⟨rfl, rfl, rfl, rfl⟩

theorem goIf_frame (s : State) (c : Cur) (b : Bool) (pc : Nat) :
    SameMemory s (goIf s c b pc) ∧ SameRegisters s (goIf s c b pc) ∧ (goIf s c b pc).pend = s.pend := by
  have hgoes : goIf s c b pc = { s with units := (goIf s c b pc).units } := by
    unfold goIf
    split <;> rfl
  rw [hgoes]
  exact ⟨fun _ => ⟨rfl, rfl, rfl, rfl⟩, ⟨rfl, rfl, rfl, rfl⟩, rfl⟩

theorem goIf_unit? {s : State} {c : Cur} {x : ExecUnit} {r : ClauseRun} (hx : s.unit? c.u = some x) (hr : x.clause = some r)
    (b : Bool) (pc : Nat) :
    (goIf s c b pc).unit? c.u = some { x with clause := some (if b then { r with xfer := .goto pc } else r) } := by
  cases b
  · exact hx.trans (congrArg (fun k => some { x with clause := k }) hr)
  · exact (setXfer_unit? hx _).trans (congrArg (fun k => some { x with clause := k }) (hr ▸ rfl))

theorem brd_taken_iff (v : Word64) (b : Bool) : ((v != 0) != b) = true ↔ (v ≠ 0 ↔ b = false) := by
  cases b <;> simp

/-- Settles O28: the head entry is popped and landed or branched on; with none, the trap leaves the pop count. -/
theorem decisionQueuePop : Obligations.DecisionQueuePop := by
  refine ⟨fun w s c x h hx => ⟨_, issue_ok _ h, ?pop⟩, fun w s c x r h hx hr => ⟨_, issue_ok _ h, ?branch⟩⟩
  case pop =>
    rw [dqHead_eq hx]
    change _ ∧ _ ∧ ∃ y, _ ∧ match headEntry x c.cycle with | some e => _ | none => _
    cases headEntry x c.cycle with
    | none =>
      obtain ⟨hmem, hreg, hpend, hunit⟩ := underrun_result hx
      exact ⟨hmem, hreg, _, hunit, rfl, hpend, _, rfl, rfl, rfl, rfl⟩
    | some e =>
      have honly := onlyPending_landField (dqDrop s c.u) c w.d.toNat 0 true e.2.2 (c.cycle + 4) 0
      exact ⟨(sameMemory_of_onlyPending honly :), (sameRegisters_of_onlyPending honly :), _,
        (unit?_onlyPending honly _).trans (dqDrop_unit? hx), lands_landField .., rfl⟩
  case branch =>
    rw [dqHead_eq hx]
    change _ ∧ _ ∧ _ ∧ ∃ y, _ ∧ match headEntry x c.cycle with | some e => _ | none => _
    cases headEntry x c.cycle with
    | none =>
      obtain ⟨hmem, hreg, hpend, hunit⟩ := underrun_result hx
      exact ⟨hmem, hreg, hpend, _, hunit, rfl, _, rfl, rfl, rfl⟩
    | some e =>
      obtain ⟨hmem, hreg, hpend⟩ := goIf_frame (dqDrop s c.u) c ((e.2.2 != 0) != w.cond.getLsbD 0) (branchTarget c w.off)
      refine ⟨hmem, hreg, hpend, _, goIf_unit? (dqDrop_unit? hx) hr _ _, ?_⟩
      simp only [brd_taken_iff]

/-! ### Pushes -/

/-- The queue's side of a push whose renewed count is `p`: one more entry, or a replay dropped (R138). -/
def pushed (p : Nat) (cyc : Nat) (v : Word64) (y : ExecUnit) : ExecUnit :=
  if p ≤ y.ps then y else { y with ps := y.ps + 1, dq := y.dq ++ [(y.ps, cyc + 4, v)] }

/-- The lead's side of a push to warp `n`: its count rises by one. -/
def bump (l : List Nat) (n : Nat) : List Nat := l.set n (l.getD n 0 + 1)

/-- A lead stream that has counted a push to warp `n`. -/
def countPush (push : List Nat) (n : Nat) (x : ExecUnit) : ExecUnit := { x with push := x.push.set n (push.getD n 0 + 1) }

theorem pushed_id (p cyc : Nat) (v : Word64) (y : ExecUnit) : (pushed p cyc v y).id = y.id := by
  unfold pushed
  split <;> rfl

theorem getD_bump_ne {l : List Nat} {n m : Nat} (h : m ≠ n) : (bump l n).getD m 0 = l.getD m 0 := by
  simp [bump, List.getD_eq_getElem?_getD, List.getElem?_set_ne h.symm]

theorem getD_bump_same {l : List Nat} {n : Nat} (h : n < l.length) : (bump l n).getD n 0 = l.getD n 0 + 1 := by
  simp [bump, List.getD_eq_getElem?_getD, h]

theorem getD_foldl_bump_of_not_mem {ns : List Nat} {m : Nat} (h : m ∉ ns) (l : List Nat) :
    (ns.foldl bump l).getD m 0 = l.getD m 0 := by
  induction ns generalizing l with
  | nil => rfl
  | cons n ns ih =>
    obtain ⟨hne, hnot⟩ : m ≠ n ∧ m ∉ ns := by simpa using h
    exact (ih hnot _).trans (getD_bump_ne hne)

theorem getD_foldl_bump_of_mem {ns : List Nat} (hnodup : ns.Nodup) {m : Nat} (h : m ∈ ns) {l : List Nat} (hm : m < l.length) :
    (ns.foldl bump l).getD m 0 = l.getD m 0 + 1 := by
  induction ns generalizing l with
  | nil => cases h
  | cons n ns ih =>
    obtain ⟨hn, hns⟩ := List.nodup_cons.mp hnodup
    by_cases hmn : m = n
    · subst hmn
      exact (getD_foldl_bump_of_not_mem hn _).trans (getD_bump_same hm)
    · have hmem : m ∈ ns := (List.mem_cons.mp h).resolve_left hmn
      exact (ih hns hmem (l := bump l n) (by simpa [bump] using hm)).trans (congrArg (· + 1) (getD_bump_ne hmn))

section
variable {g : Group} {lead : UnitId} {v : Word64} {cyc : Nat} {s : State} {x : ExecUnit}

theorem warpId_inj (hslots : g.slots.Nodup) {a b : Nat} (ha : a < g.slots.length) (hb : b < g.slots.length)
    (h : warpId g a = warpId g b) : a = b := by
  have hslot : g.slots.getD a 0 = g.slots.getD b 0 := congrArg UnitId.slot h
  rw [List.getD_eq_getElem _ _ ha, List.getD_eq_getElem _ _ hb] at hslot
  exact (hslots.getElem_inj_iff).mp hslot

theorem warpId_ne_lead (hlead : lead.lead = true) (n : Nat) : warpId g n ≠ lead := by
  rintro rfl
  cases hlead

theorem pushTo_eq (hx : s.unit? lead = some x) (n : Nat) : pushTo g lead v cyc s n =
    (s.modUnit lead (countPush x.push n)).modUnit (warpId g n) (pushed (x.push.getD n 0 + 1) cyc v) := by
  rw [pushTo, hx]
  rfl

/-- One push: the lead counts it, the queue of its warp takes it, and every other unit stays. -/
theorem pushTo_unit? (hlead : lead.lead = true) (hx : s.unit? lead = some x) (n : Nat) (u : UnitId) :
    (pushTo g lead v cyc s n).unit? u = if u = lead then some { x with push := bump x.push n }
      else (s.unit? u).map fun y => if u = warpId g n then pushed (x.push.getD n 0 + 1) cyc v y else y := by
  rw [pushTo_eq hx, unit?_modUnit _ _ _ _ fun y h => (pushed_id ..).trans h,
    unit?_modUnit s lead u (countPush x.push n) fun y h => h]
  by_cases hu : u = lead
  · subst hu
    simp [hx, (warpId_ne_lead (g := g) hlead n).symm, countPush, bump]
  · simp [hu]

/-- Pushes to different warps of the group: the lead counts each, each queue takes its own, and nothing else changes. -/
theorem pushes_result (hlead : lead.lead = true) (hslots : g.slots.Nodup) {ns : List Nat} (hns : ns.Nodup)
    (hlt : ∀ n ∈ ns, n < g.slots.length) (hx : s.unit? lead = some x) :
    let t := ns.foldl (pushTo g lead v cyc) s
    t = { s with units := t.units } ∧ t.unit? lead = some { x with push := ns.foldl bump x.push } ∧
      (∀ n ∈ ns, t.unit? (warpId g n) = (s.unit? (warpId g n)).map (pushed (x.push.getD n 0 + 1) cyc v)) ∧
      ∀ u, u ≠ lead → (∀ n ∈ ns, u ≠ warpId g n) → t.unit? u = s.unit? u := by
  induction ns generalizing s x with
  | nil => exact ⟨rfl, hx, fun n hn => absurd hn List.not_mem_nil, fun _ _ _ => rfl⟩
  | cons n ns ih =>
    obtain ⟨hn, hns⟩ := List.nodup_cons.mp hns
    have hstep := pushTo_unit? (g := g) (v := v) (cyc := cyc) hlead hx n
    have hx1 := (hstep lead).trans (if_pos rfl)
    have hother (u : UnitId) (hu : u ≠ lead) (hw : u ≠ warpId g n) : (pushTo g lead v cyc s n).unit? u = s.unit? u := by
      simp [hstep, hu, hw]
    have hne (m : Nat) (hm : m ∈ ns) : m ≠ n := fun h => hn (h ▸ hm)
    have hwarp (m : Nat) (hm : m ∈ ns) : warpId g m ≠ warpId g n := fun h =>
      hne m hm (warpId_inj hslots (hlt m (List.mem_cons_of_mem _ hm)) (hlt n List.mem_cons_self) h)
    obtain ⟨hframe, hunit, hqueues, hrest⟩ := ih hns (fun m hm => hlt m (List.mem_cons_of_mem _ hm)) hx1
    refine ⟨?_, hunit, fun m hm => ?_, fun u hu hw => ?_⟩
    · rw [List.foldl_cons, hframe, pushTo_eq hx]
      rfl
    · rcases List.mem_cons.mp hm with rfl | hm
      · have hm1 : (pushTo g lead v cyc s m).unit? (warpId g m) = _ := hstep _
        rw [if_neg (warpId_ne_lead hlead m)] at hm1
        rw [List.foldl_cons, hrest _ (warpId_ne_lead hlead m) fun k hk => (hwarp k hk).symm, hm1]
        simp
      · rw [List.foldl_cons, hqueues m hm, hother _ (warpId_ne_lead hlead m) (hwarp m hm)]
        exact congrArg (fun p => Option.map (pushed (p + 1) cyc v) _) (getD_bump_ne (hne m hm))
    · rw [List.foldl_cons, hrest u hu fun m hm => hw m (List.mem_cons_of_mem _ hm), hother u hu (hw n List.mem_cons_self)]

end

/-- The warps that LPUSH names (R138). -/
def pushTargets (w : RF) (g : Group) : List Nat := if w.md.getLsbD 2 then List.range g.slots.length else [w.md.toNat % 4]

theorem exec_lpush (w : RF) (s : State) : exec (.lpush w) s = issue (.lpush w) s fun c =>
    (s.groupOf c.u).elim s fun g => if guardLane s c.u w.g 0 then
      (pushTargets w g).foldl (pushTo g c.u (readU s c w.a.toNat) c.cycle) s else s := by
  refine congrArg (issue _ s) (funext fun c => ?_)
  cases s.groupOf c.u with
  | none => rfl
  | some g =>
    cases hguard : guardLane s c.u w.g 0 <;> simp [guardLead, hguard, pushTargets]

theorem pushTargets_nodup (w : RF) (g : Group) : (pushTargets w g).Nodup := by
  unfold pushTargets
  split
  · exact List.nodup_range
  · exact List.nodup_singleton _

theorem mem_pushTargets {w : RF} {g : Group} {n : Nat} (hn : n < g.slots.length) :
    n ∈ pushTargets w g ↔ w.md.getLsbD 2 = true ∨ w.md.toNat % 4 = n := by
  unfold pushTargets
  split
  · next h => simp [h, hn]
  · next h =>
    rw [List.mem_singleton]
    exact ⟨fun hm => .inr hm.symm, fun hm => (hm.resolve_left h).symm⟩

/-- LPUSH passes check 2 by the registers of a lead clause, whatever clause holds it. -/
theorem c2_of_lpush {w : RF} {s : State} {c : Cur} (h : decodeCheck s c (.lpush w) = none) :
    (chk s c true (.lpush w)).c2 = true := by
  unfold decodeCheck at h
  extract_lets lead op l k at h
  split at h
  · cases h
  next h2 =>
  have hl : l = true := if_pos (opcodeOf_rf (op := 0xD2) (w := w) rfl)
  simp only [Bool.not_eq_true', Bool.not_eq_false, Bool.and_eq_true] at h2
  exact hl ▸ h2.2

/-- The warps that LPUSH names are those of the group. -/
theorem lt_of_mem_pushTargets {w : RF} {s : State} {c : Cur} {g : Group} (hck : decodeCheck s c (.lpush w) = none)
    (hg : s.groupOf c.u = some g) {n : Nat} (hn : n ∈ pushTargets w g) : n < g.slots.length := by
  unfold pushTargets at hn
  split at hn
  · exact List.mem_range.mp hn
  · next hall =>
    rw [List.mem_singleton] at hn
    have h2 : (_ && if w.md.toNat / 4 % 2 = 1 then _ else hasWarp s c (w.md.toNat % 4)) = true := c2_of_lpush hck
    have hone : ¬w.md.toNat / 4 % 2 = 1 := by simpa [BitVec.getLsbD, Nat.testBit_eq_decide_div_mod_eq] using hall
    rw [if_neg hone, Bool.and_eq_true, hasWarp, hg] at h2
    exact hn ▸ of_decide_eq_true h2.2

/-- Settles O27: the pushes of one LPUSH go to different warps, so each count and each queue changes once. -/
theorem decisionQueuePush : Obligations.DecisionQueuePush := by
  intro w s c g x y n h hg hx hlead hlen hpush hslots hy named
  refine ⟨_, (exec_lpush w s).trans (issue_ok _ h), ?_⟩
  rw [hg]
  have hlt (m : Nat) (hm : m ∈ pushTargets w g) := lt_of_mem_pushTargets h.2.1 hg hm
  obtain ⟨hframe, hunit, hqueues, hrest⟩ := pushes_result (v := readU s c w.a.toNat) (cyc := c.cycle) hlead hslots
    (pushTargets_nodup w g) hlt hx
  have hnamed : n ∈ pushTargets w g ↔ named n := mem_pushTargets hlen
  cases hguard : guardLane s c.u w.g 0
  case false => exact ⟨rfl, fun _ => rfl, nofun⟩
  case true =>
    refine ⟨hframe, nofun, fun _ => ⟨⟨_, hunit, fun m hm => ?otherCounts, fun hn => ?count⟩, fun hn => ?otherQueue, fun hn => ?queue,
      fun v hv hw => ?otherUnits⟩⟩
    case otherCounts => exact getD_foldl_bump_of_not_mem (fun h => hm ((mem_pushTargets (hlt m h)).mp h)) _
    case count => exact getD_foldl_bump_of_mem (pushTargets_nodup w g) (hnamed.mpr hn) hpush
    case otherQueue =>
      refine (hrest _ (warpId_ne_lead hlead n) fun m hm heq => hn (hnamed.mp ?_)).trans hy
      exact warpId_inj hslots hlen (hlt m hm) heq ▸ hm
    case queue => exact (hqueues n (hnamed.mpr hn)).trans (hy ▸ rfl)
    case otherUnits => exact hrest v hv fun m hm => hw m (hlt m hm) ((mem_pushTargets (hlt m hm)).mp hm)

end Sys2Proof.Proofs
end

section
/-! SUPPORT. The I32 reductions (R92, R134): the tree and the scan add modulo 2^32, so that they are sums over the active lanes. -/

namespace Sys2Proof.Proofs

open Sys2Proof Sys2Proof.Machine Sys2Proof.Laws

/-! ### The tree and the scan of integers -/

/-- A contribution of a value: it adds modulo 2^32 and raises no flag. -/
def intTerm (x : Nat) : Nat × Nat := (x % 2 ^ 32, 0)

theorem nodeAdd_intTerm (x y : Nat) : nodeAdd false (intTerm x) (intTerm y) = intTerm (x + y) := by
  simp [nodeAdd, intTerm]

/-- One level of the tree adds neighbours. -/
theorem treeLevel_intTerm (n : Nat) (u : Nat → Nat) : treeLevel false ((List.range (2 * n)).map fun j => intTerm (u j)) =
    (List.range n).map fun j => intTerm (u (2 * j) + u (2 * j + 1)) := by
  induction n generalizing u with
  | zero => rfl
  | succ n ih =>
    rw [show 2 * (n + 1) = 2 * n + 1 + 1 from rfl]
    simp only [List.range_succ_eq_map (n := 2 * n + 1), List.range_succ_eq_map (n := 2 * n), List.range_succ_eq_map (n := n),
      List.map_cons, List.map_map, treeLevel, nodeAdd_intTerm]
    exact congrArg _ (ih fun j => u (j + 2))

theorem sum_range_pairs (v : Nat → Nat) (m : Nat) :
    ∑ j ∈ Finset.range (2 * m), v j = ∑ j ∈ Finset.range m, (v (2 * j) + v (2 * j + 1)) := by
  induction m with
  | zero => rfl
  | succ m ih =>
    rw [show 2 * (m + 1) = 2 * m + 1 + 1 from rfl, Finset.sum_range_succ, Finset.sum_range_succ, ih, Finset.sum_range_succ, add_assoc]

/-- A node of the tree is the sum of the contributions that it covers. -/
theorem treeNode_intTerm (k : Nat) {n i : Nat} (hi : i < n) (u : Nat → Nat) :
    treeNode false k ((List.range (2 ^ k * n)).map fun j => intTerm (u j)) i =
      intTerm (∑ j ∈ Finset.range (2 ^ k), u (i * 2 ^ k + j)) := by
  induction k generalizing u with
  | zero => simp [treeNode, hi]
  | succ k ih =>
    rw [pow_succ', mul_assoc, treeNode, treeLevel_intTerm, ih, sum_range_pairs]
    refine congrArg intTerm (Finset.sum_congr rfl fun j _ => ?_)
    rw [mul_left_comm i, mul_add, add_assoc]

/-- A node within the 32 contributions of a side. -/
theorem treeNode_within {k i : Nat} (hk : k ≤ 5) (hi : i * 2 ^ k + 2 ^ k ≤ 32) (u : Nat → Nat) :
    treeNode false k ((List.range 32).map fun j => intTerm (u j)) i =
      intTerm (∑ j ∈ Finset.range (2 ^ k), u (i * 2 ^ k + j)) := by
  obtain ⟨n, hn⟩ : 2 ^ k ∣ 32 := pow_dvd_pow 2 hk
  have hlt : i < n := by
    rw [← Nat.succ_mul, hn, mul_comm] at hi
    exact Nat.le_of_mul_le_mul_left hi (Nat.two_pow_pos k)
  rw [hn]
  exact treeNode_intTerm k hlt u

/-- The sum of the first `m` contributions, as the scan carries it: none before the first block. -/
def prefixSum (u : Nat → Nat) (m : Nat) : Option (Nat × Nat) :=
  if m = 0 then none else some (intTerm (∑ j ∈ Finset.range m, u j))

/-- A sum extended by a block, which begins it when there is none yet. -/
def extendSum (a : Option (Nat × Nat)) (b : Nat × Nat) : Nat × Nat := match a with | none => b | some v => nodeAdd false v b

theorem extendSum_prefixSum (u : Nat → Nat) (m : Nat) {p : Nat} (hp : p ≠ 0) :
    some (extendSum (prefixSum u m) (intTerm (∑ j ∈ Finset.range p, u (m + j)))) = prefixSum u (m + p) := by
  have hpos : m + p ≠ 0 := by omega
  rw [prefixSum, prefixSum, if_neg hpos, Finset.sum_range_add]
  split
  · next h0 => simp [h0, extendSum]
  · exact congrArg some (nodeAdd_intTerm ..)

/-- One bit of the scan of integers: the contributions covered so far, and their sum. -/
def intScanStep (xs : List (Nat × Nat)) (n : Nat) (a : Nat × Option (Nat × Nat)) (k : Nat) : Nat × Option (Nat × Nat) :=
  if n.testBit k then (a.1 + 2 ^ k, some (extendSum a.2 (treeNode false k xs (a.1 / 2 ^ k)))) else a

/-- The block of bit `k` extends the sum of the contributions before it. -/
theorem intScanStep_prefix {n k : Nat} (hk : k ≤ 5) (hn : n ≤ 32) (u : Nat → Nat) :
    intScanStep ((List.range 32).map fun j => intTerm (u j)) n
      (n / 2 ^ (k + 1) * 2 ^ (k + 1), prefixSum u (n / 2 ^ (k + 1) * 2 ^ (k + 1))) k =
      (n / 2 ^ k * 2 ^ k, prefixSum u (n / 2 ^ k * 2 ^ k)) := by
  have habove := div_two_pow_mul_succ n k
  unfold intScanStep
  split
  · next hbit =>
    have hindex : n / 2 ^ (k + 1) * 2 ^ (k + 1) = n / 2 ^ (k + 1) * 2 * 2 ^ k := by rw [pow_succ', mul_assoc]
    rw [if_pos hbit, hindex] at habove
    have hfits : n / 2 ^ (k + 1) * 2 * 2 ^ k + 2 ^ k ≤ 32 := habove ▸ (Nat.div_mul_le_self n _).trans hn
    rw [hindex, Nat.mul_div_cancel _ (Nat.two_pow_pos k), treeNode_within hk hfits, habove]
    exact congrArg (Prod.mk _) (extendSum_prefixSum u _ (Nat.two_pow_pos k).ne')
  · next hbit =>
    rw [if_neg hbit, add_zero] at habove
    rw [habove]

/-- The scan of integers is the sum of the contributions up to its own. -/
theorem scanAt_intTerm {i : Nat} (hi : i < 32) (u : Nat → Nat) :
    scanAt false ((List.range 32).map fun j => intTerm (u j)) i = intTerm (∑ j ∈ Finset.range (i + 1), u j) := by
  have hwalk (K : Nat) (hK : K ≤ 6) :
      (List.range K).reverse.foldl (intScanStep ((List.range 32).map fun j => intTerm (u j)) (i + 1))
        ((i + 1) / 2 ^ K * 2 ^ K, prefixSum u ((i + 1) / 2 ^ K * 2 ^ K)) = (i + 1, prefixSum u (i + 1)) := by
    induction K with
    | zero => simp
    | succ K ih =>
      rw [List.range_succ (n := K), List.reverse_append, List.reverse_singleton, List.singleton_append, List.foldl_cons,
        intScanStep_prefix (by omega) hi, ih (by omega)]
  have hstart : (i + 1) / 2 ^ 6 * 2 ^ 6 = 0 := by omega
  have h6 := hwalk 6 le_rfl
  rw [hstart] at h6
  have hscan : scanAt false ((List.range 32).map fun j => intTerm (u j)) i =
      ((List.range 6).reverse.foldl (intScanStep ((List.range 32).map fun j => intTerm (u j)) (i + 1))
        (0, prefixSum u 0)).2.getD (0, 0) := rfl
  rw [hscan, h6]
  rfl

end Sys2Proof.Proofs
end

section
/-! SUPPORT. WREDUCE and WSCAN over integers, and WREDUCE.F32 of no lane (O25). -/

namespace Sys2Proof.Proofs

open Sys2Proof Sys2Proof.Machine Sys2Proof.Laws

section
variable (s : State) (c : Cur) (w : RF)

/-- The physical lane of visible lane `i`, on the side of lane `k` (R126). -/
def sideLane (k i : Nat) : Nat := if protOf s c.u then 2 * i + k % 2 else i

/-- What visible lane `i` adds: nothing when it is not active. -/
def laneTerm (k i : Nat) : Nat :=
  if laneActive s c w.g (sideLane s c k i) then (readField s c w.a.toNat (sideLane s c k i) false).toNat else 0

/-- The sum over lanes, modulo 2^32. -/
def laneSum (ls : List Nat) : Nat := (ls.map fun x => (readField s c w.a.toNat x false).toNat).sum % 2 ^ 32

/-- The active lanes of the side of lane `k` among its first `n` visible lanes. -/
def termLanes (k n : Nat) : List Nat := (List.range 32).filter fun x =>
  laneActive s c w.g x && decide (visLane (protOf s c.u) x < n) && (!protOf s c.u || x % 2 == k % 2)

theorem raise_zero (s : State) (u : UnitId) (cyc issue : Nat) : s.raise u 0 cyc issue = s := rfl

theorem laneActive_lt {g : Guard} {l : Nat} (h : laneActive s c g l = true) : l < 32 := by
  rw [laneActive, Bool.and_eq_true] at h
  exact BitVec.lt_of_getLsbD h.1

theorem contribs_side (k : Nat) : contribs s c w (if protOf s c.u then k % 2 else 0) = contribs s c w (k % 2) := by
  unfold contribs
  rw [sideActive_side]
  cases protOf s c.u <;> rfl

/-- Outside F32 a lane that is not active contributes 0 (R92). -/
theorem contribs_int (hty : w.ty.toNat ≠ 8) (k : Nat) :
    contribs s c w (k % 2) = (List.range 32).map fun i => intTerm (laneTerm s c w k i) := by
  refine List.map_congr_left fun i _ => ?_
  have hact : (sideActive s c w.g (k % 2)).contains (sideLane s c k i) = true ↔ laneActive s c w.g (sideLane s c k i) = true := by
    rw [List.contains_iff_mem, mem_sideActive]
    exact ⟨fun h => h.2.1, fun h => ⟨laneActive_lt s c h, h, ((visLane_eq_iff (protOf s c.u) i k _).mpr rfl).2⟩⟩
  show (if (sideActive s c w.g (k % 2)).contains (sideLane s c k i) then
    ((readField s c w.a.toNat (sideLane s c k i) false).toNat, 0) else (if w.ty.toNat = 8 then 0x80000000 else 0, 0)) = _
  rw [if_congr hact rfl rfl, if_neg hty, laneTerm]
  split
  · exact Prod.ext (Nat.mod_eq_of_lt (readField_lt ..)).symm rfl
  · rfl

theorem mem_termLanes (k n x : Nat) : x ∈ termLanes s c w k n ↔
    laneActive s c w.g x = true ∧ visLane (protOf s c.u) x < n ∧ (protOf s c.u = true → x % 2 = k % 2) := by
  simp only [termLanes, List.mem_filter, List.mem_range, Bool.and_eq_true, decide_eq_true_eq, and_assoc]
  have hside : (!protOf s c.u || x % 2 == k % 2) = true ↔ (protOf s c.u = true → x % 2 = k % 2) := by
    cases protOf s c.u <;> simp
  rw [hside]
  exact ⟨fun h => h.2, fun h => ⟨laneActive_lt s c h.1, h⟩⟩

/-- The contributions of the first `n` visible lanes of a side are those of its active lanes among them. -/
theorem sum_laneTerm (k n : Nat) : ∑ i ∈ Finset.range n, laneTerm s c w k i =
    ((termLanes s c w k n).map fun x => (readField s c w.a.toNat x false).toNat).sum := by
  have hlane (i x : Nat) : visLane (protOf s c.u) x = i ∧ (protOf s c.u = true → x % 2 = k % 2) ↔ x = sideLane s c k i :=
    visLane_eq_iff ..
  have hvis (i : Nat) := (hlane i _).mpr rfl
  have hnodup : (termLanes s c w k n).Nodup := List.nodup_range.filter _
  rw [← List.sum_toFinset _ hnodup]
  simp only [laneTerm]
  rw [← Finset.sum_filter]
  refine Finset.sum_nbij (sideLane s c k) (fun i hi => ?_) (fun i _ j _ hij => ?_) (fun x hx => ?_) fun _ _ => rfl
  · obtain ⟨hn, hact⟩ := Finset.mem_filter.mp hi
    obtain ⟨hi, hside⟩ := hvis i
    exact List.mem_toFinset.mpr ((mem_termLanes ..).mpr ⟨hact, hi.trans_lt (Finset.mem_range.mp hn), hside⟩)
  · exact (hvis i).1.symm.trans (hij ▸ (hvis j).1)
  · obtain ⟨hact, hn, hside⟩ := (mem_termLanes ..).mp (List.mem_toFinset.mp hx)
    have hx : x = sideLane s c k (visLane (protOf s c.u) x) := (hlane _ x).mp ⟨rfl, hside⟩
    exact ⟨_, Finset.mem_coe.mpr (Finset.mem_filter.mpr ⟨Finset.mem_range.mpr hn, hx ▸ hact⟩), hx.symm⟩

theorem visLane_le {p : Bool} (l : Nat) : visLane p l ≤ l := by
  unfold visLane
  split <;> omega

/-- WREDUCE takes every active lane of a side. -/
theorem termLanes_all (k : Nat) : termLanes s c w k 32 =
    (List.range 32).filter fun x => laneActive s c w.g x && (!protOf s c.u || x % 2 == k % 2) := by
  refine List.filter_congr fun x hx => ?_
  have hlt : visLane (protOf s c.u) x < 32 := (visLane_le x).trans_lt (List.mem_range.mp hx)
  simp [hlt]

/-- Outside protected mode the one side has every lane. -/
theorem termLanes_side (k n : Nat) : termLanes s c w (if protOf s c.u then k % 2 else 0) n = termLanes s c w k n := by
  cases hp : protOf s c.u <;> simp [termLanes, hp]

/-- WSCAN takes the active lanes of a lane's side up to it. -/
theorem termLanes_upto (l : Nat) : termLanes s c w l (visLane (protOf s c.u) l + 1) =
    (List.range 32).filter fun x => laneActive s c w.g x && decide (x ≤ l) && (!protOf s c.u || x % 2 == l % 2) := by
  refine List.filter_congr fun x _ => ?_
  cases protOf s c.u
  · simp [visLane]
  · have hle : x % 2 = l % 2 → (x / 2 < l / 2 + 1 ↔ x ≤ l) := by omega
    rw [Bool.eq_iff_iff]
    simp only [visLane, if_true, Bool.and_eq_true, decide_eq_true_eq, Bool.not_true, Bool.false_or, beq_iff_eq]
    tauto

variable {w}

theorem treeNode_int (hty : w.ty.toNat = 2) (k : Nat) : treeNode (w.ty.toNat == 8) 5 (contribs s c w (k % 2)) 0 =
    (laneSum s c w (termLanes s c w k 32), 0) := by
  rw [contribs_int s c w (by omega), hty, laneSum, ← sum_laneTerm]
  simpa [intTerm] using treeNode_within (k := 5) (i := 0) le_rfl (by decide) (laneTerm s c w k)

theorem exec_wreduce_int (hty : w.ty.toNat = 2) : exec (.wreduce w) s = issue (.wreduce w) s fun c =>
    warpWide s c w 20 fun k => BitVec.ofNat 64 (laneSum s c w (termLanes s c w k 32)) := by
  refine congrArg (issue _ s) (funext fun c => ?_)
  have h0 : treeNode (w.ty.toNat == 8) 5 (contribs s c w 0) 0 = _ := treeNode_int s c hty 0
  have h1 : treeNode (w.ty.toNat == 8) 5 (contribs s c w 1) 0 = _ := treeNode_int s c hty 1
  dsimp only
  rw [h0, raise_zero]
  refine warpWide_congr rfl ?_
  rw [if_neg one_ne_zero, h1]

theorem scanAt_int (hty : w.ty.toNat = 2) {l : Nat} (hl : l < 32) :
    scanAt (w.ty.toNat == 8) (scanInput s c w l) (visLane (protOf s c.u) l) =
      (laneSum s c w (termLanes s c w l (visLane (protOf s c.u) l + 1)), 0) := by
  have hinput : scanInput s c w l = contribs s c w (if protOf s c.u then l % 2 else 0) := by
    unfold scanInput
    rcases Nat.mod_two_eq_zero_or_one l with h | h <;> cases protOf s c.u <;> simp [h]
  rw [hinput, contribs_side, contribs_int s c w (by omega), hty, laneSum, ← sum_laneTerm]
  exact scanAt_intTerm ((visLane_le l).trans_lt hl) _

/-- What WSCAN lands in the lanes that compute. -/
def scanWrites (s : State) (c : Cur) (w : RF) : State :=
  xLanes s c w 20 fun v l => BitVec.ofNat 64 (scanAt (w.ty.toNat == 8) (scanInput s c w l) v).1

theorem exec_wscan_int (hty : w.ty.toNat = 2) : exec (.wscan w) s = issue (.wscan w) s fun c => scanWrites s c w := by
  refine congrArg (issue _ s) (funext fun c => ?_)
  have hflags : (realLanes s c w.g).foldl (fun a l =>
      flOr a (scanAt (w.ty.toNat == 8) (scanInput s c w l) (visLane (protOf s c.u) l)).2) 0 = 0 := by
    refine foldl_flOr_zero fun l hl => ?_
    rw [scanAt_int s c hty (List.mem_range.mp (List.mem_filter.mp (List.mem_filter.mp hl).1).1)]
  exact congrArg (fun fl => (scanWrites s c w).raise c.u fl (c.cycle + 20) c.cycle) hflags

/-- A tree of -0.0 alone (R134). -/
theorem warpSum_of_no_lane (h : activeLanes s c w.g = []) (side : Nat) : warpSum s c w side = (0x80000000, 0) := by
  have hleaf : sumLeaf s c w side = fun _ => (0x80000000, 0) := by
    funext i
    have hnone (l : Nat) : ¬(l < 32 ∧ laneActive s c w.g l = true) := fun hl =>
      List.filter_eq_nil_iff.mp h l (List.mem_range.mpr hl.1) hl.2
    simp only [sumLeaf, if_neg (hnone _)]
  have hlevel : sumLevel (fun _ => (0x80000000, 0)) = fun _ => (0x80000000, 0) := funext fun _ => by
    show nodeAdd true (0x80000000, 0) (0x80000000, 0) = _
    decide
  rw [warpSum, hleaf, Function.iterate_fixed hlevel]

theorem reduceOut_of_no_lane (h : activeLanes s c w.g = []) : reduceOut s c w = warpWide s c w 20 fun _ => 0x80000000#64 := by
  simp only [reduceOut, warpSum_of_no_lane s c h]
  rfl

end

/-- WREDUCE is of type I32 or F32: its check 3. -/
theorem ty_of_wreduce {w : RF} {s : State} {c : Cur} (h : Issuing s c (.wreduce w)) : w.ty.toNat = 2 ∨ w.ty.toNat = 8 := by
  obtain ⟨-, h3, -⟩ := chk_of_decodeCheck h.2.1 (opcodeOf_ne_lpush (opcodeOf_rf rfl) (by decide))
  have hty : [2, 8].contains w.ty.toNat = true := h3
  simpa using hty

/-- Settles O25: modulo 2^32 the tree and the scan are sums over the active lanes, and a tree of -0.0 alone is -0.0. -/
theorem reduceAndScanIntegers : Obligations.ReduceAndScanIntegers := by
  refine ⟨fun w s c h => ?reduce, fun w s c h => ?scan⟩
  case reduce =>
    rcases ty_of_wreduce h with hty | hty
    · refine ⟨_, (exec_wreduce_int s hty).trans (issue_ok _ h), fun _ => (adds_warpWide_register ..).writes, fun _ =>
        warpWide_result fun k => ?_⟩
      rw [termLanes_side, termLanes_all, if_pos hty]
      rfl
    · have h2 : ¬w.ty.toNat = 2 := by omega
      refine ⟨_, (exec_wreduce s hty).trans (issue_ok _ h), fun hint => absurd hint h2, fun hnone => ?_⟩
      rw [reduceOut_of_no_lane s c (hnone.resolve_left h2)]
      exact warpWide_result fun k => (if_neg h2).symm
  case scan =>
    by_cases hty : w.ty.toNat = 2
    · refine ⟨_, (exec_wscan_int s hty).trans (issue_ok _ h), fun _ =>
        ⟨(adds_xLanes_register ..).writes, xLanes_result fun l hl => ?_⟩⟩
      rw [scanAt_int s c hty hl, ← termLanes_upto]
      rfl
    · exact ⟨_, issue_ok _ h, fun h2 => absurd h2 hty⟩

end Sys2Proof.Proofs
end

section
/-! SUPPORT. A context of one group with one warp, in which the refutations of O52, O55 and O56 place their accesses and traps. -/

namespace Sys2Proof.Proofs

open Sys2Proof Sys2Proof.Machine Sys2Proof.Laws

/-- The group of context 0 on core 0 of die 0, in a state. -/
def loneGroup (st : GState) : Group :=
  { newGroup (placedKernel 1) 1 1 0 0 0 0 [0] none with state := st, before := .running }

/-- Its warp: in the shadow store when the group is frozen (R315). -/
def loneWarp (st : GState) : ExecUnit :=
  newUnit State.reset (loneGroup st) (warpId (loneGroup st) 0) 0 [0] 0 0xFFFFFFFF#32 0xFFFFFFFF#32 0xFF#8

/-- The module with this group alone, its warp as given and one operation of it. -/
def loneState (st : GState) (x : ExecUnit) (ops : List Op) (n : List Nat) : State :=
  { State.reset with groups := [loneGroup st], units := [x], ops := ops, arg := { Arg.none with u := x.id, n := n } }

/-- Operation 1 of the warp, with one lane. -/
def loneOp (st : GState) (kind : OpKind) (stage : Stage) (l : LaneReq) : Op :=
  { opBase (loneState st (loneWarp st) [] []) (landCur (loneWarp st).id 0) kind with
    id := 1, size := 4, lanes := [l], stage := stage }

end Sys2Proof.Proofs
end

section
/-! SUPPORT. A walk of a frozen unit's PROBE (O52). -/

namespace Sys2Proof.Proofs

open Sys2Proof Sys2Proof.Machine Sys2Proof.Laws

/-- A walk of a frozen unit does not end its lane: it is tried again, until the resume (Table 14.6). -/
theorem exec_walkComplete_of_frozen {s : State} {o : Op} {l : LaneReq} (ho : s.op? (s.num 0) = some o)
    (hl : o.lanes.find? (fun l => l.lane == s.num 1) = some l) (hlive : o.live = true) (hfroz : frozenUnit s o.u = true) :
    exec .walkComplete s = .next (s.schedIn 1 20 (ev .walkComplete [o.id, l.lane])) := by
  change execWalkComplete s = _
  simp only [execWalkComplete, ho, hl, hlive, hfroz, Bool.not_true, Bool.false_eq_true, if_false, if_true]

theorem op?_schedIn (s : State) (ticks phase : Nat) (d : Due) (n : Nat) : (s.schedIn ticks phase d).op? n = s.op? n := rfl

/-- The lane of a PROBE that walks. -/
def walkingLane : LaneReq := { laneReq 0 0 0 0 with st := .walking }

/-- A PROBE of a unit that an urgent freeze has put into the shadow store. -/
def frozenProbe : Op := loneOp .frozen .probe .inflight walkingLane

/-- Its walk ends now. -/
def frozenProbeState : State := loneState .frozen (loneWarp .frozen) [frozenProbe] [1, 0]

/-- Refutes O52: its clause about WALK_COMPLETE ends the lane of a PROBE whatever the state of its group, but the walk of a unit
frozen by an urgent pre-emption is put off until the resume (Table 14.6), and leaves the lane walking. -/
theorem not_accessEvents : ¬ Obligations.AccessEvents := by
  unfold Obligations.AccessEvents
  intro h
  obtain ⟨-, -, -, -, -, -, -, -, hwalk, -⟩ := h
  have hop : frozenProbeState.op? (frozenProbeState.num 0) = some frozenProbe := rfl
  have hlive : frozenProbe.live = true := rfl
  have hkind : frozenProbe.kind = .probe := rfl
  have hfroz : frozenUnit frozenProbeState frozenProbe.u = true := rfl
  have hlane : frozenProbe.lanes.find? (fun l => l.lane == frozenProbeState.num 1) = some walkingLane := rfl
  obtain ⟨t, ht, -, z, hz, hlanes, -⟩ := (hwalk frozenProbeState frozenProbe walkingLane hop hlive hlane).1 hkind
  rw [exec_walkComplete_of_frozen hop hlane hlive hfroz] at ht
  cases ht
  rw [op?_schedIn] at hz
  have hsame : z = frozenProbe := Option.some.inj (hz.symm.trans hop)
  have hst : [LaneSt.walking] = [LaneSt.answered] := by
    rw [hsame] at hlanes
    exact congrArg (List.map LaneReq.st) hlanes
  exact absurd hst (by decide)

end Sys2Proof.Proofs
end

section
/-! SUPPORT. REGION of a unit that a walk's fault has stopped, beside an access that is still to be walked (O56). -/

namespace Sys2Proof.Proofs

open Sys2Proof Sys2Proof.Machine Sys2Proof.Laws

/-- An access without its region's record, whose fault waits to be walked again (R296). -/
def stuckAccess : Op := loneOp .running .load .probing { laneReq 0 0 0 0 with st := .faulted, cause := 2 }

/-- A walk's page fault, final, with REGION written as its disposition. -/
def walkStop : Stop :=
  { kind := 7, sub := 2, cycle := 0, time := 0, pc := 0, idx := 0, quads := 0, clause := none, lanes := 1, detail := []
    sgpc := [], final := true, byWalk := true, waitOnly := false, waits := [], disp := some 2 }

/-- The warp that it has stopped, set back to its region's entry. -/
def walkStopped : ExecUnit :=
  { loneWarp .running with stop := some walkStop, ring := [regionRecord (loneWarp .running) 0 0 1] }

/-- The disposition takes effect now. -/
def walkStoppedState : State := loneState .running walkStopped [stuckAccess] [0, 1]

/-- REGION walks the access again: its lane walks. -/
theorem walkStopped_rewalks :
    (walkStoppedState.unitcmd 2).ops.map (fun o => o.lanes.map LaneReq.st) = [[.walking]] := by decide

/-- Refutes O56: its clause about REGION of a unit that a walk has stopped leaves every operation as it was, but an access of the unit
that still waits with a walk's fault is walked again as the unit goes on (R296, log 142). -/
theorem not_trapRecordAndRegisterEvents : ¬ Obligations.TrapRecordAndRegisterEvents := by
  unfold Obligations.TrapRecordAndRegisterEvents
  intro h
  obtain ⟨-, -, -, hdispose, -⟩ := h
  have hunit : walkStoppedState.unit? walkStoppedState.arg.u = some walkStopped := rfl
  have hgroup : walkStoppedState.group? walkStopped.gid = some (loneGroup .running) := rfl
  obtain ⟨-, -, hregion, -⟩ := hdispose walkStoppedState walkStopped walkStop (loneGroup .running) (by decide) hunit rfl hgroup
    (by decide) (by decide)
  obtain ⟨-, hwalk, -⟩ := hregion rfl
  obtain ⟨t, ht, hframe, -⟩ := hwalk (by decide) rfl rfl
  have hsame : t.ops = walkStoppedState.ops := (congrArg State.ops hframe :)
  have hexec : exec .unitcmdRegion walkStoppedState = .next (walkStoppedState.unitcmd 2) := rfl
  rw [hexec] at ht
  cases ht
  have hwalking := walkStopped_rewalks
  rw [hsame] at hwalking
  exact absurd hwalking (by decide)

end Sys2Proof.Proofs
end

section
/-! SUPPORT. The resume of a context one of whose kernels was doomed by its freeze (O55). -/

namespace Sys2Proof.Proofs

open Sys2Proof Sys2Proof.Machine Sys2Proof.Laws

/-- A final trap of an illegal instruction. -/
def finalTrap : Stop :=
  { kind := 1, sub := 1, cycle := 0, time := 0, pc := 0, idx := 0, quads := 0, clause := none, lanes := 1, detail := []
    sgpc := [], final := true, byWalk := false, waitOnly := false, waits := [] }

/-- The context that it has made faulted, as an urgent freeze of die 0 leaves it (R315). -/
def doomedContext : Context :=
  { Context.reset with state := .suspended, partition := 1, wasFaulted := true, image := true, swapped := [0] }

/-- Its kernel's lay was abandoned at the freeze, so that the resume aborts it (Table 18.6). -/
def doomedKernel : Kernel := { placedKernel 1 with doomed := true }

/-- Port A owns the management, and resumes context 0. -/
def doomedState : State :=
  { loneState .frozen { loneWarp .frozen with stop := some finalTrap } [] [0, 0] with
    mgmtOwner := 1, ctxs := [(0, doomedContext)], kernels := [doomedKernel]
    teams := [{ newTeam 1 (placedKernel 1) 0 0 with state := .running, members := [1] }]
    dies := { Die.reset with shadow := some 0 } :: List.replicate 15 Die.reset }

/-- The abort of the kernel takes the stopped unit with it, so that the context runs again (log 38). -/
theorem doomedState_resumes :
    stoppedUnits doomedState 0 = 1 ∧ (((doomedState.resumeCtx 0).ctxStatus 0 0).ctx 0).state = .running := by decide

/-- Refutes O55: its clause about RESUME makes a context faulted that has a stopped unit when it is suspended, but a kernel whose lay the
freeze abandoned is aborted at the resume (Table 18.6), and with its last stopped unit gone the context is running. -/
theorem not_contextLifeEvents : ¬ Obligations.ContextLifeEvents := by
  unfold Obligations.ContextLifeEvents
  intro h
  obtain ⟨hcommands, -⟩ := h
  have howned : owns doomedState (doomedState.num 0) = true ∧ doomedState.ibrum.updating = false := ⟨rfl, rfl⟩
  obtain ⟨-, -, -, -, -, hresume, -⟩ := hcommands doomedState howned
  have hnum : doomedState.num 1 = 0 := rfl
  have hok : resumeOk doomedState 0 = true := by decide
  obtain ⟨t, ht, hstate, -⟩ := hresume rfl hok rfl
  have hexec : exec .ctxResume doomedState = .next ((doomedState.resumeCtx 0).ctxStatus 0 0) := by
    change execCtxResume doomedState = _
    have hsusp : (doomedState.ctx 0).state = .suspended := rfl
    simp only [execCtxResume, ctxCommand, howned, hnum, hsusp, hok, bne_self_eq_false, Bool.not_true, Bool.or_self,
      Bool.false_eq_true, if_false]
  rw [hexec] at ht
  cases ht
  obtain ⟨hstopped, hruns⟩ := doomedState_resumes
  have hfaulted : (((doomedState.resumeCtx 0).ctxStatus 0 0).ctx 0).state = .faulted :=
    hstate.trans (if_neg (by rw [hnum, hstopped]; decide))
  exact absurd (hruns.symm.trans hfaulted) (by decide)

end Sys2Proof.Proofs
end

section
/-! SUPPORT. The logs of a group's counters and barriers: what an instruction that acts adds to them, once (O44, R61, R163, R170,
R172). -/

namespace Sys2Proof.Proofs

open Sys2Proof Sys2Proof.Machine Sys2Proof.Laws

/-! ### Instructions under a guard -/

theorem ctlOk_iff (s : State) (c : Cur) (g : Guard) : ctlOk s c g = true ↔ Acts s c g := xferOk_iff s c g

/-- What is done by an instruction that acts, and nothing by one that does not. -/
theorem guarded {s t : State} {c : Cur} {g : Guard} {P : State → Prop} (h : P t) :
    (¬Acts s c g → (if !ctlOk s c g then s else t) = s) ∧ (Acts s c g → P (if !ctlOk s c g then s else t)) := by
  rw [← ctlOk_iff]
  cases ctlOk s c g
  · exact ⟨fun _ => rfl, nofun⟩
  · exact ⟨fun hn => absurd rfl hn, fun _ => h⟩

/-- An instruction that takes effect when it acts. -/
theorem completes_guarded {i : Instr} {g : Guard} {f : State → Cur → State} {P : State → Cur → State → Prop}
    (hi : ∀ s, exec i s = issue i s fun c => if !ctlOk s c g then s else f s c) (hP : ∀ s c, Issuing s c i → P s c (f s c)) :
    Completes i fun s c t => (¬Acts s c g → t = s) ∧ (Acts s c g → P s c t) := fun s c h =>
  ⟨_, (hi s).trans (issue_ok _ h), guarded (hP s c h)⟩

/-! ### Changes of the group of a unit -/

/-- The group of unit `u` has become `F` of what it was; nothing but groups and teams has changed. -/
structure GroupBecomes (u : UnitId) (F : Group → Group) (s t : State) : Prop where
  frame : t = { s with groups := t.groups, teams := t.teams }
  group : ∀ x g, s.unit? u = some x → s.group? x.gid = some g → t.group? x.gid = some (F g)

/-- A change of the unit's group that keeps its number. -/
theorem groupBecomes_modGroup {s : State} {u : UnitId} {x : ExecUnit} (hx : s.unit? u = some x) {F : Group → Group}
    (hF : ∀ g, (F g).gid = g.gid) : GroupBecomes u F s (s.modGroup x.gid F) := by
  refine ⟨rfl, fun y g hy hg => ?_⟩
  obtain rfl : x = y := Option.some.inj (hx.symm.trans hy)
  simp [group?_modGroup s _ _ F fun g h => (hF g).trans h, hg]

theorem groupBecomes_none {s : State} {u : UnitId} (hx : s.unit? u = none) (F : Group → Group) : GroupBecomes u F s s :=
  ⟨rfl, fun _ _ hy => by rw [hx] at hy; cases hy⟩

/-- What only changes teams leaves the group as it has become. -/
theorem GroupBecomes.of_teams {u : UnitId} {F : Group → Group} {s t r : State} (h : GroupBecomes u F s t)
    (hr : r = { t with teams := r.teams }) : GroupBecomes u F s r := by
  refine ⟨?_, fun x g hx hg => ?_⟩
  · rw [hr, h.frame]
  · rw [hr]
    exact h.group x g hx hg

/-- A counter's log with the change that an instruction makes (R170). -/
def logK (c : Cur) (k : Nat) (set : Option Nat) (d : Int) (g : Group) : Group :=
  { g with kLog := insertK { cyc := c.cycle + 4, k := k, set := set, delta := d, u := c.u, issue := c.cycle, instr := true } g.kLog }

/-- A barrier's log with the change that an instruction makes (R163). -/
def logB (c : Cur) (bar : Nat) (e : BEv) (g : Group) : Group :=
  let x : BChange := { cyc := c.cycle + 4, rank := c.u.rank, bar := bar, ev := e, u := c.u, issue := c.cycle, instr := true }
  { g with bLog := insertB x g.bLog }

theorem groupBecomes_kInstr (s : State) (c : Cur) (k : Nat) (set : Option Nat) (d : Int) :
    GroupBecomes c.u (logK c k set d) s (kInstr s c k set d) := by
  unfold kInstr
  split
  · next hx => exact groupBecomes_none hx _
  · next x hx => exact groupBecomes_modGroup hx fun _ => rfl

theorem groupBecomes_barInstr (s : State) (c : Cur) (bar : Nat) (e : BEv) :
    GroupBecomes c.u (logB c bar e) s (barInstr s c bar e) := by
  unfold barInstr
  split
  · next hx => exact groupBecomes_none hx _
  · next x hx => exact groupBecomes_modGroup hx fun _ => rfl

/-- A counter change leaves the barriers of every group. -/
theorem kInstr_bLog {s : State} {gid : Nat} {g : Group} (hg : s.group? gid = some g) (c : Cur) (k : Nat) (set : Option Nat)
    (d : Int) : ∃ h, (kInstr s c k set d).group? gid = some h ∧ h.bLog = g.bLog := by
  unfold kInstr
  split
  · exact ⟨g, hg, rfl⟩
  · next x hx =>
    refine ⟨if gid = x.gid then logK c k set d g else g, ?_, by split <;> rfl⟩
    exact (group?_modGroup s x.gid gid (logK c k set d) fun _ h => h).trans (congrArg _ hg)

/-- BARINIT.TEAM's part in a team barrier's error phase changes teams alone (R168). -/
theorem reinitTeamBar_frame (s : State) (tid j m : Nat) (u : UnitId) (iss : Nat) :
    s.reinitTeamBar tid j m u iss = { s with teams := (s.reinitTeamBar tid j m u iss).teams } := by
  unfold State.reinitTeamBar State.testTeamErr
  split
  · rfl
  · dsimp only
    split <;> rfl

/-! ### Counted changes -/

/-- The ordinal of the issuing unit has risen by one, and its group has become `f` of what it was when the change is `made`;
memories, registers and pending writes are as they were. -/
def Counts (s t : State) (c : Cur) (made : ExecUnit → Group → Bool) (f : Group → Group) : Prop :=
  SameMemory s t ∧ SameRegisters s t ∧ t.pend = s.pend ∧
    ∀ x g, s.unit? c.u = some x → s.group? x.gid = some g →
      ∃ y h, t.unit? c.u = some y ∧ t.group? x.gid = some h ∧ y = { x with nBar := x.nBar + 1 } ∧
        h = if made x g then f g else g

/-- The unit that issues a barrier or counter change, its ordinal counted. -/
def countUnit (n : Nat) (x : ExecUnit) : ExecUnit := { x with nBar := n }

theorem countBar_eq {s : State} {c : Cur} {x : ExecUnit} (hx : s.unit? c.u = some x) (f : State → State)
    (always : ExecUnit → Bool) : countBar s c f always =
      if x.keepBar < x.nBar + 1 ∨ always x = true then f (s.modUnit c.u (countUnit (x.nBar + 1)))
      else s.modUnit c.u (countUnit (x.nBar + 1)) := by
  have hdropped : (x.nBar + 1 ≤ x.keepBar && !always x) = true ↔ ¬(x.keepBar < x.nBar + 1 ∨ always x = true) := by
    simp [not_or]
  unfold countBar
  rw [hx]
  by_cases hmade : x.keepBar < x.nBar + 1 ∨ always x = true
  · exact (if_neg fun h => hdropped.mp h hmade).trans (if_pos hmade).symm
  · exact (if_pos (hdropped.mpr hmade)).trans (if_neg hmade).symm

theorem counts_countBar {s : State} {c : Cur} {f : State → State} {F : Group → Group} {always : ExecUnit → Bool}
    {made : ExecUnit → Group → Bool}
    (hf : ∀ n, GroupBecomes c.u F (s.modUnit c.u (countUnit n)) (f (s.modUnit c.u (countUnit n))))
    (hmade : ∀ x g, s.unit? c.u = some x → s.group? x.gid = some g →
      (made x g = true ↔ x.keepBar < x.nBar + 1 ∨ always x = true)) :
    Counts s (countBar s c f always) c made F := by
  cases hx : s.unit? c.u with
  | none =>
    have hnothing : countBar s c f always = s := by rw [countBar, hx]
    rw [hnothing]
    exact ⟨fun _ => ⟨rfl, rfl, rfl, rfl⟩, ⟨rfl, rfl, rfl, rfl⟩, rfl, fun y g hy => by rw [hx] at hy; cases hy⟩
  | some x =>
    obtain ⟨-, -, hunit⟩ := modUnit_result s c.u (f := countUnit (x.nBar + 1)) fun _ => rfl
    rw [countBar_eq hx]
    split
    · next hm =>
      obtain ⟨hframe, hgroup⟩ := hf (x.nBar + 1)
      refine ⟨?_, ?_, ?_, fun y g hy hg => ?_⟩
      · rw [hframe]
        exact fun _ => ⟨rfl, rfl, rfl, rfl⟩
      · rw [hframe]
        exact ⟨rfl, rfl, rfl, rfl⟩
      · rw [hframe]
        rfl
      · obtain rfl : x = y := Option.some.inj (hx.symm.trans hy)
        refine ⟨_, _, ?_, hgroup (countUnit (x.nBar + 1) x) g (hunit x hx) hg, rfl, (if_pos ((hmade x g hx hg).mpr hm)).symm⟩
        rw [hframe]
        exact hunit x hx
    · next hm =>
      refine ⟨fun _ => ⟨rfl, rfl, rfl, rfl⟩, ⟨rfl, rfl, rfl, rfl⟩, rfl, fun y g hy hg => ?_⟩
      obtain rfl : x = y := Option.some.inj (hx.symm.trans hy)
      exact ⟨_, g, hunit x hx, hg, rfl, (if_neg fun h => hm ((hmade x g hx hg).mp h)).symm⟩

/-- A change that no replay makes. -/
theorem counts_once {s : State} {c : Cur} {f : State → State} {F : Group → Group} (hf : ∀ r, GroupBecomes c.u F r (f r)) :
    Counts s (countBar s c f) c (fun x _ => x.keepBar < x.nBar + 1) F :=
  counts_countBar (fun _ => hf _) fun x g _ _ => by simp

/-- A BARINIT is made again when a lay restart makes it a replay and its barrier is in its error phase (log 137). -/
theorem counts_init {s : State} {c : Cur} {bar : Nat} {f : State → State} {F : Group → Group}
    (hf : ∀ n, GroupBecomes c.u F (s.modUnit c.u (countUnit n)) (f (s.modUnit c.u (countUnit n)))) :
    Counts s (countBar s c f fun x => clearsRerun s c x bar) c (fun x g =>
      x.keepBar < x.nBar + 1 ∨ (x.rerun.isSome = true ∧ (bBefore g bar (c.cycle + 4) c.u.rank).mode = 3)) F := by
  refine counts_countBar hf fun x g hx hg => ?_
  have hgroup : s.groupOf c.u = some g := by rw [State.groupOf, hx]; exact hg
  simp [clearsRerun, hgroup]

theorem countBar_bLog {s : State} {c : Cur} {f : State → State} {gid : Nat} {g : Group} (hg : s.group? gid = some g)
    (hf : ∀ r, r.group? gid = some g → ∃ h, (f r).group? gid = some h ∧ h.bLog = g.bLog) :
    ∃ h, (countBar s c f).group? gid = some h ∧ h.bLog = g.bLog := by
  cases hx : s.unit? c.u with
  | none => exact ⟨g, by rw [countBar, hx]; exact hg, rfl⟩
  | some x =>
    rw [countBar_eq hx]
    split
    · exact hf _ hg
    · exact ⟨g, hg, rfl⟩

/-! ### The four instructions -/

/-- The operand of 16 bits: an immediate, or a register's low half (R171). -/
def count16 (s : State) (c : Cur) (a : BitVec 8) (imm : Nat) : Nat := if a = 0xFF then imm else (readU s c a.toNat).toNat % 65536

theorem kset_completes (w : RF) : Completes (.kset w) fun s c t => (¬Acts s c w.g → t = s) ∧ (Acts s c w.g →
    Counts s t c (fun x _ => x.keepBar < x.nBar + 1) (logK c (w.d.toNat % 16) (some (count16 s c w.a w.md.toNat)) 0)) :=
  completes_guarded (fun _ => rfl) fun _ c _ => counts_once fun r => groupBecomes_kInstr r c (w.d.toNat % 16) _ 0

theorem kinc_completes (w : RF) : Completes (.kinc w) fun s c t => (¬Acts s c w.g → t = s) ∧ (Acts s c w.g →
    Counts s t c (fun x _ => x.keepBar < x.nBar + 1) (logK c (w.d.toNat % 16) none
      (if w.a = 0xFF then w.md.toInt else (BitVec.ofNat 16 ((readU s c w.a.toNat).toNat % 65536)).toInt))) := by
  have hsgn (n : Nat) : sgn 16 n = (BitVec.ofNat 16 (n % 65536)).toInt := by
    rw [← sgn_eq_ofNat_toInt (by decide)]
    simp [sgn]
  simp only [← hsgn]
  exact completes_guarded (fun _ => rfl) fun _ c _ => counts_once fun r => groupBecomes_kInstr r c (w.d.toNat % 16) none _

/-- What BARA makes: an arrival, or, of count 0, a change of counter 0 by nothing (log 48). -/
def arrive (c : Cur) (bar n : Nat) (s : State) : State := if n = 0 then kInstr s c 0 none 0 else barInstr s c bar (.arrive n)

theorem groupBecomes_arrive {n : Nat} (hn : n ≠ 0) (c : Cur) (bar : Nat) (s : State) :
    GroupBecomes c.u (logB c bar (.arrive n)) s (arrive c bar n s) := by
  rw [arrive, if_neg hn]
  exact groupBecomes_barInstr ..

theorem bara_completes (w : RF) : Completes (.bara w) fun s c t => (¬Acts s c w.g → t = s) ∧ (Acts s c w.g →
    let n := count16 s c w.a (w.md.toNat + 1)
    (n ≠ 0 → Counts s t c (fun x _ => x.keepBar < x.nBar + 1) (logB c (w.d.toNat % 16) (.arrive n))) ∧
    (n = 0 → t.pend = s.pend ∧ ∀ gid g, s.group? gid = some g → ∃ h, t.group? gid = some h ∧ h.bLog = g.bLog)) := by
  refine completes_guarded (f := fun s c => countBar s c (arrive c (w.d.toNat % 16) (count16 s c w.a (w.md.toNat + 1))))
    (fun _ => rfl) fun s c _ => ⟨fun hn => counts_once (groupBecomes_arrive hn c _), fun hn => ?_⟩
  rw [hn]
  obtain ⟨-, -, hpend, -⟩ := counts_once (s := s) (c := c) (f := arrive c (w.d.toNat % 16) 0) fun r =>
    groupBecomes_kInstr r c 0 none 0
  exact ⟨hpend, fun gid g hg => countBar_bLog hg fun r hr => kInstr_bLog hr c 0 none 0⟩

/-- BARINIT.TEAM counts towards its team barrier's leaving its error phase (R168). -/
def countReinit (c : Cur) (j : Nat) (s : State) : State :=
  match s.groupOf c.u with
  | some g => s.reinitTeamBar g.tid j g.tmbr c.u c.cycle
  | none => s

theorem countReinit_frame (c : Cur) (j : Nat) (s : State) : countReinit c j s = { s with teams := (countReinit c j s).teams } := by
  unfold countReinit
  split
  · exact reinitTeamBar_frame ..
  · rfl

/-- What BARINIT makes, its register read after its ordinal is counted. -/
def initBarrier (c : Cur) (w : RF) (s : State) : State :=
  if 128 ≤ w.md.toNat then countReinit c (w.md.toNat % 4) (barInstr s c (w.d.toNat % 16) (.initTeam (w.md.toNat % 4)))
  else barInstr s c (w.d.toNat % 16) (.init (count16 s c w.a w.md.toNat))

theorem exec_barinit (w : RF) (s : State) : exec (.barinit w) s = issue (.barinit w) s fun c =>
    if !ctlOk s c w.g then s
    else countBar s c (initBarrier c w) fun x => clearsRerun s c x (w.d.toNat % 16) := rfl

/-- An S or G register, or ZERO, reads the same whatever a unit has counted. -/
theorem readU_countUnit (s : State) {c : Cur} {r : Nat} (hr : isSZ c.u.lead r = true) (n : Nat) :
    readU (s.modUnit c.u (countUnit n)) c r = readU s c r := by
  have hspec : isSpec c.u.lead r = false := by
    cases hl : c.u.lead <;> simp [isSZ, isS, isZ, isSpec, hl] at hr ⊢ <;> omega
  have hv (i l : Nat) : (s.modUnit c.u (countUnit n)).v c.u i l = s.v c.u i l := rfl
  have hs (i : Nat) : (s.modUnit c.u (countUnit n)).sr c.u i = s.sr c.u i := rfl
  have hg (i : Nat) : (s.modUnit c.u (countUnit n)).gr c.u i = s.gr c.u i := rfl
  have hp (i l : Nat) : (s.modUnit c.u (countUnit n)).p c.u i l = s.p c.u i l := rfl
  simp only [readU, readField, hspec, hv, hs, hg, hp, Bool.false_eq_true, if_false]

theorem groupBecomes_initBarrier {s : State} {c : Cur} {w : RF} (h : Issuing s c (.barinit w)) (n : Nat) :
    GroupBecomes c.u (logB c (w.d.toNat % 16) (if 128 ≤ w.md.toNat then .initTeam (w.md.toNat % 4)
      else .init (count16 s c w.a w.md.toNat))) (s.modUnit c.u (countUnit n))
      (initBarrier c w (s.modUnit c.u (countUnit n))) := by
  have hread : count16 (s.modUnit c.u (countUnit n)) c w.a w.md.toNat = count16 s c w.a w.md.toNat := by
    have h4 : (_ && (isFF w.a.toNat || isSZ c.u.lead w.a.toNat && _) && _ && _) = true :=
      c4_of_opcode h.2.1 (opcodeOf_rf (op := 0x18B) (w := w) rfl) (by decide)
    simp only [Bool.and_eq_true, Bool.or_eq_true] at h4
    obtain ⟨⟨⟨-, hregister⟩, -⟩, -⟩ := h4
    unfold count16
    split
    · rfl
    · next hreg =>
      have hff : ¬isFF w.a.toNat = true := by simpa [isFF, ← BitVec.toNat_inj] using hreg
      rw [readU_countUnit s (hregister.resolve_left hff).1]
  unfold initBarrier
  rw [hread]
  split
  · exact (groupBecomes_barInstr ..).of_teams (countReinit_frame ..)
  · exact groupBecomes_barInstr ..

theorem barinit_completes (w : RF) : Completes (.barinit w) fun s c t => (¬Acts s c w.g → t = s) ∧ (Acts s c w.g →
    let made (x : ExecUnit) (g : Group) : Bool :=
      x.keepBar < x.nBar + 1 ∨ (x.rerun.isSome = true ∧ (bBefore g (w.d.toNat % 16) (c.cycle + 4) c.u.rank).mode = 3)
    (w.md.toNat < 128 → Counts s t c made (logB c (w.d.toNat % 16) (.init (count16 s c w.a w.md.toNat)))) ∧
    (128 ≤ w.md.toNat → Counts s t c made (logB c (w.d.toNat % 16) (.initTeam (w.md.toNat % 4))))) := by
  refine completes_guarded (exec_barinit w) fun s c h => ?_
  have hcounts := counts_init (bar := w.d.toNat % 16) (groupBecomes_initBarrier h)
  refine ⟨fun hlt => ?_, fun hge => ?_⟩
  · rwa [if_neg (not_le.mpr hlt)] at hcounts
  · rwa [if_pos hge] at hcounts

/-- Settles O44: each of the four counts its ordinal and, unless it is dropped as a replay, logs the one change. -/
theorem barrierAndCounterChanges : Obligations.BarrierAndCounterChanges :=
  ⟨kset_completes, kinc_completes, bara_completes, barinit_completes⟩

end Sys2Proof.Proofs
end

section
/-! SUPPORT. A K counter as the fold of its changes: the last change, alone in its cycle, is applied to what the earlier ones left
(O45, R26, R170). -/

namespace Sys2Proof.Proofs

open Sys2Proof Sys2Proof.Machine Sys2Proof.Laws

theorem kApply_nil {a : KVal} (ha : a.v ≤ 65535) : kApply a [] = a := by
  have hv : ¬(65535 < (a.v : Int)) := by omega
  simp [kApply, hv]

/-- What a cycle's changes leave is within the clamps. -/
theorem kApply_le (a : KVal) (cs : List KChange) : (kApply a cs).v ≤ 65535 := by
  unfold kApply
  dsimp only
  split
  · exact Nat.zero_le _
  · split
    · exact le_rfl
    · next h => exact Int.toNat_le.mpr (not_lt.mp h)

/-- A value set clears OVF and UNF. -/
theorem kApply_set (a : KVal) {x : KChange} {n : Nat} (hset : x.set = some n) (hdelta : x.delta = 0) (hn : n < 65536) :
    kApply a [x] = { v := n, ovf := false, unf := false } := by
  have hv : ¬(65535 < (n : Int)) := by omega
  simp [kApply, hset, hdelta, hv]

/-- An increment is clamped at both ends. -/
theorem kApply_delta (a : KVal) {x : KChange} (hset : x.set = none) :
    kApply a [x] = if (a.v : Int) + x.delta < 0 then { a with v := 0, unf := true }
      else if 65535 < (a.v : Int) + x.delta then { a with v := 65535, ovf := true }
      else { a with v := ((a.v : Int) + x.delta).toNat } := by
  simp [kApply, hset]

/-- The last change, with no other of its cycle, is applied by itself. -/
theorem kFold_append_single {x : KChange} {m : List KChange} (hm : ∀ y ∈ m, y.cyc ≠ x.cyc) {a : KVal} {acc : List KChange}
    (hacc : ∀ y ∈ acc, y.cyc ≠ x.cyc) (ha : a.v ≤ 65535) : kFold a acc (m ++ [x]) = kApply (kFold a acc m) [x] := by
  induction m generalizing a acc with
  | nil =>
    cases acc with
    | nil => simp [kFold, kApply_nil ha]
    | cons b acc => simp [kFold, hacc b List.mem_cons_self]
  | cons c m ih =>
    obtain ⟨hc, hm⟩ := List.forall_mem_cons.mp hm
    have hsingle : ∀ y ∈ [c], y.cyc ≠ x.cyc := by simpa using hc
    cases acc with
    | nil => exact ih hm hsingle ha
    | cons b acc =>
      simp only [List.cons_append, kFold]
      split
      · exact ih hm (List.forall_mem_cons.mpr ⟨hc, hacc⟩) ha
      · exact ih hm hsingle (kApply_le ..)

section
variable {g : Group} {l : List KChange} {x : KChange}

/-- A change is not read in its own cycle. -/
theorem kValue_at_change (hlog : g.kLog = l ++ [x]) (k : Nat) : kValue g k x.cyc = kValue { g with kLog := l } k x.cyc := by
  simp [kValue, hlog, List.filter_append]

/-- From the next cycle on it is. -/
theorem kValue_after_change (hlog : g.kLog = l ++ [x]) (hbefore : ∀ y ∈ l, y.k = x.k → y.cyc < x.cyc) :
    kValue g x.k (x.cyc + 1) = kApply (kValue { g with kLog := l } x.k x.cyc) [x] := by
  have hread : (g.kLog.filter fun y => y.k = x.k && y.cyc < x.cyc + 1) =
      (l.filter fun y => y.k = x.k && y.cyc < x.cyc) ++ [x] := by
    rw [hlog, List.filter_append, List.filter_congr (q := fun y => y.k = x.k && y.cyc < x.cyc) fun y hy => ?_]
    · simp
    · by_cases hk : y.k = x.k
      · have hlt := hbefore y hy hk
        simp [hk, hlt, Nat.lt_succ_of_lt hlt]
      · simp [hk]
  have hearlier : ∀ y ∈ l.filter fun y => y.k = x.k && y.cyc < x.cyc, y.cyc ≠ x.cyc := fun y hy => by
    have := (List.mem_filter.mp hy).2
    simp only [Bool.and_eq_true, decide_eq_true_eq] at this
    exact this.2.ne
  rw [kValue, hread]
  exact kFold_append_single hearlier (by simp) (Nat.zero_le _)

end

/-- Settles O45: the log's last change is folded last, and alone. -/
theorem counterRule : Obligations.CounterRule := by
  intro g l x hlog hbefore
  have hafter := kValue_after_change hlog hbefore
  exact ⟨kValue_at_change hlog x.k, fun n hset hdelta hn => hafter.trans (kApply_set _ hset hdelta hn),
    fun hset => hafter.trans (kApply_delta _ hset)⟩

end Sys2Proof.Proofs
end

section
/-! SUPPORT. What the operations of several instructions leave: records by place, counted changes of a group, and the start of
an operation (O46, R151, R170). -/

namespace Sys2Proof.Proofs

open Sys2Proof Sys2Proof.Machine Sys2Proof.Laws

/-! ### Records by place -/

/-- A record that takes the place of those of one place is not found at another. -/
theorem find?_replace_place {α : Type} {a b : α → Nat} {i j d k : Nat} {y : α} (l : List α) (hy : a y = i ∧ b y = j)
    (h : ¬(d = i ∧ k = j)) : (y :: l.filter fun x => !(a x = i && b x = j)).find? (fun x => a x = d && b x = k) =
      l.find? fun x => a x = d && b x = k := by
  have hother (x : α) (hx : a x = d ∧ b x = k) : ¬(a x = i ∧ b x = j) := fun hp =>
    h ⟨hx.1.symm.trans hp.1, hx.2.symm.trans hp.2⟩
  rw [List.find?_cons_of_neg fun hq => hother y (by simpa using hq) hy, List.find?_filter]
  refine congrArg (fun r => List.find? r l) (funext fun x => ?_)
  rw [Bool.eq_iff_iff]
  simpa [← not_and_or] using hother x

theorem core_modCore_other (s : State) {die core d k : Nat} (h : ¬(d = die ∧ k = core)) {f : CoreRec → CoreRec}
    (hf : ∀ c, (f c).die = c.die ∧ (f c).core = c.core) : (s.modCore die core f).core d k = s.core d k := by
  obtain ⟨hd, hc⟩ := hf (s.core die core)
  obtain ⟨hd', hc'⟩ := core_place s die core
  exact congrArg (fun x : Option CoreRec => x.getD _)
    (find?_replace_place (a := CoreRec.die) (b := CoreRec.core) s.cores ⟨hd.trans hd', hc.trans hc'⟩ h)

theorem engine_place (s : State) (die q : Nat) : (s.engine die q).die = die ∧ (s.engine die q).q = q := by
  unfold State.engine
  cases h : s.engines.find? fun x => x.die = die && x.q = q with
  | none => exact ⟨rfl, rfl⟩
  | some x => simpa using List.find?_some h

section
variable (s : State) {die q : Nat} {f : Engine → Engine} (hf : ∀ e, (f e).die = e.die ∧ (f e).q = e.q)
include hf

theorem engine_modEngine : (s.modEngine die q f).engine die q = f (s.engine die q) := by
  obtain ⟨hd, hq⟩ := engine_place s die q
  obtain ⟨hd', hq'⟩ := hf (s.engine die q)
  have hhead : ((f (s.engine die q)).die = die && (f (s.engine die q)).q = q : Bool) = true := by simp [hd', hd, hq', hq]
  exact congrArg (fun x : Option Engine => x.getD _) (List.find?_cons_of_pos (p := fun x : Engine => x.die = die && x.q = q) hhead)

theorem engine_modEngine_other {d e : Nat} (h : ¬(d = die ∧ e = q)) : (s.modEngine die q f).engine d e = s.engine d e := by
  obtain ⟨hd, hq⟩ := hf (s.engine die q)
  obtain ⟨hd', hq'⟩ := engine_place s die q
  exact congrArg (fun x : Option Engine => x.getD _)
    (find?_replace_place (a := Engine.die) (b := Engine.q) s.engines ⟨hd.trans hd', hq.trans hq'⟩ h)

end

/-! ### Counters and barriers of a unit's group -/

/-- The change of counter `k` that a counted operation makes at cycle `cyc` (R170). -/
def countBy (u : UnitId) (k : Nat) (d : Int) (cyc : Nat) : KChange :=
  { cyc := cyc, k := k, set := none, delta := d, u := u, issue := cyc, instr := false }

/-- A group whose counter has changed by an operation. -/
def counted (u : UnitId) (k : Nat) (d : Int) (cyc : Nat) (g : Group) : Group := { g with kLog := insertK (countBy u k d cyc) g.kLog }

theorem kAdd_frame (s : State) (u : UnitId) (k : Nat) (d : Int) (cyc : Nat) :
    s.kAdd u k d cyc = { s with groups := (s.kAdd u k d cyc).groups } := by
  unfold State.kAdd
  split <;> rfl

theorem kAdd_group? {s : State} {u : UnitId} {x : ExecUnit} (hx : s.unit? u = some x) (k : Nat) (d : Int) (cyc n : Nat) :
    (s.kAdd u k d cyc).group? n = (s.group? n).map fun g => if n = x.gid then counted u k d cyc g else g := by
  rw [State.kAdd, hx]
  exact group?_modGroup s x.gid n (counted u k d cyc) fun _ h => h

/-- The group of a unit whose operation has counted. -/
theorem kAdd_groupOf {s : State} {u : UnitId} {g : Group} (hg : s.groupOf u = some g) (k : Nat) (d : Int) (cyc : Nat) :
    (s.kAdd u k d cyc).group? g.gid = some (counted u k d cyc g) := by
  obtain ⟨x, hx, hgx⟩ := Option.bind_eq_some_iff.mp hg
  rw [kAdd_group? hx, gid_of_group? hgx, hgx]
  simp

/-- A change of a unit that keeps its group. -/
theorem groupOf_modUnit (s : State) (u : UnitId) {f : ExecUnit → ExecUnit} (hf : ∀ x, (f x).id = x.id ∧ (f x).gid = x.gid) :
    (s.modUnit u f).groupOf u = s.groupOf u := by
  rw [State.groupOf, unit?_modUnit s u u f fun x h => (hf x).1.trans h]
  cases hx : s.unit? u with
  | none => rw [State.groupOf, hx]; rfl
  | some x =>
    rw [State.groupOf, hx]
    simp only [Option.map_some, Option.bind_some, if_true, (hf x).2]
    rfl

theorem bEvent_frame (s : State) (u : UnitId) (bar : Option Nat) (e : BEv) (cyc : Nat) :
    s.bEvent u bar e cyc = { s with groups := (s.bEvent u bar e cyc).groups } := by
  unfold State.bEvent
  split <;> rfl

/-- A barrier's event leaves the counters. -/
theorem bEvent_kLog {s : State} {n : Nat} {g : Group} (hg : s.group? n = some g) (u : UnitId) (bar : Option Nat) (e : BEv)
    (cyc : Nat) : ∃ h, (s.bEvent u bar e cyc).group? n = some h ∧ h.kLog = g.kLog := by
  unfold State.bEvent
  split
  · refine ⟨_, by rw [bChange_group?, hg]; rfl, ?_⟩
    split <;> rfl
  · exact ⟨g, hg, rfl⟩

/-! ### The start of an operation -/

/-- A unit that has numbered one operation more. -/
def numberOp (n : Nat) (x : ExecUnit) : ExecUnit := { x with nSeq := n }

/-- An operation that is started: it takes the next number and its unit's next ordinal, and its counter rises (R170). -/
theorem startOp_eq (s : State) (o : Op) : ∃ n, (s.startOp o).2 =
    let r := { s with nextId := s.nextId + 1 }.modUnit o.u (numberOp n)
    (o.k.elim r fun k => r.kAdd o.u k 1 o.issue).addOp { o with id := s.nextId, seq := n } := by
  refine ⟨(s.unit? o.u).elim 1 fun x => x.nSeq + 1, ?_⟩
  dsimp only [State.startOp, State.fresh]
  cases s.unit? o.u <;> cases o.k <;> rfl

/-- Only the next number, units, groups and operations change. -/
theorem startOp_frame (s : State) (o : Op) : ∃ n, (s.startOp o).2 =
    { s with nextId := s.nextId + 1, units := (s.startOp o).2.units, groups := (s.startOp o).2.groups
             ops := s.ops ++ [{ o with id := s.nextId, seq := n }] } := by
  obtain ⟨n, heq⟩ := startOp_eq s o
  refine ⟨n, ?_⟩
  rw [heq]
  cases o.k with
  | none => rfl
  | some k =>
    dsimp only [Option.elim]
    rw [kAdd_frame]
    rfl

theorem startOp_group? {s : State} {o : Op} {k : Nat} {g : Group} (hk : o.k = some k) (hg : s.groupOf o.u = some g) :
    (s.startOp o).2.group? g.gid = some (counted o.u k 1 o.issue g) := by
  obtain ⟨n, heq⟩ := startOp_eq s o
  rw [heq, hk]
  have hgroup : ({ s with nextId := s.nextId + 1 }.modUnit o.u (numberOp n)).groupOf o.u = some g :=
    (groupOf_modUnit { s with nextId := s.nextId + 1 } o.u (f := numberOp n) fun _ => ⟨rfl, rfl⟩).trans hg
  exact kAdd_groupOf hgroup k 1 o.issue

theorem startOp_system (s : State) (o : Op) : SameSystem s (s.startOp o).2 ∧ (s.startOp o).2.engines = s.engines := by
  obtain ⟨n, heq⟩ := startOp_frame s o
  rw [heq]
  exact ⟨⟨rfl, rfl, rfl, rfl, rfl, rfl, rfl, rfl, rfl, rfl, rfl⟩, rfl⟩

theorem started_startOp {s : State} {c : Cur} {o : Op} {P : Op → Prop} (hu : o.u = c.u) (hissue : o.issue = c.cycle)
    (hpc : o.pc = c.pc) (hP : ∀ i n, P { o with id := i, seq := n }) : Started s (s.startOp o).2 c o.kind P := by
  obtain ⟨n, heq⟩ := startOp_frame s o
  refine ⟨?_, ?_, ?_, { o with id := s.nextId, seq := n }, ?_, rfl, hu, rfl, hissue, hpc, hP _ n,
    fun k g hk hg => ⟨_, startOp_group? hk (hu ▸ hg), by rw [hu, hissue]; rfl⟩⟩
  all_goals rw [heq]
  · exact fun _ => ⟨rfl, rfl, rfl, rfl⟩
  · exact ⟨rfl, rfl, rfl, rfl⟩
  · exact List.mem_append_right _ (List.mem_singleton_self _)

end Sys2Proof.Proofs
end

section
/-! SUPPORT. Words read at issue: BARST, KRD and TIME add the write of one uniform field (O46, R171, R360), and PHASE changes one
core's record (R151). -/

namespace Sys2Proof.Proofs

open Sys2Proof Sys2Proof.Machine Sys2Proof.Laws

/-! ### The write of a uniform field -/

/-- What waits to land has grown by writes to field `d`, of cycle issue + 4, and what is due by their landing; nothing else changes. -/
def LandsField (s t : State) (c : Cur) (d : Nat) : Prop :=
  OnlyPending s t ∧ (∀ p ∈ s.pend, p ∈ t.pend) ∧
    (∀ p ∈ t.pend, p ∈ s.pend ∨ (p.u = c.u ∧ p.land = c.cycle + 4 ∧ p.inField c.u.lead d = true)) ∧
    (∀ a ∈ s.agenda, a ∈ t.agenda) ∧ ∀ a ∈ t.agenda, a ∈ s.agenda ∨ a.due = evU .registerLand c.u []

theorem landsField_refl (s : State) (c : Cur) (d : Nat) : LandsField s s c d :=
  ⟨rfl, fun _ h => h, fun _ h => .inl h, fun _ h => h, fun _ h => .inl h⟩

/-- An S or G register, or ZERO, is no pair of V registers. -/
theorem landsField_landField (s : State) {c : Cur} {d : Nat} (hd : isSZ c.u.lead d = true) (v : Word64) :
    LandsField s (landField s c d 0 true v (c.cycle + 4) 0) c d := by
  have h := adds_landField s c d 0 true v 4 0
  refine ⟨h.only, h.grows, fun w hw => (h.writes w hw).imp_right fun hf => ⟨hf.unit, hf.land, hf.field.resolve_right ?_⟩,
    h.due, h.events⟩
  rintro ⟨-, hv, -⟩
  exact absurd ((not_lanes_of_isSZ hd).1.symm.trans hv) (by decide)

/-- BARST and KRD: a word of the group lands in the field, when the instruction acts. -/
theorem groupRead_lands {s : State} {c : Cur} {w : RF} {f : Group → Word64} (hd : isSZ c.u.lead w.d.toNat = true) :
    LandsField s (groupRead s c w f) c w.d.toNat ∧ (¬Acts s c w.g → groupRead s c w f = s) ∧
      ∀ g, s.groupOf c.u = some g → Acts s c w.g → Lands (groupRead s c w f) c w.d.toNat 0 true (f g) 4 := by
  unfold groupRead
  cases hg : s.groupOf c.u with
  | none => exact ⟨landsField_refl .., fun _ => rfl, nofun⟩
  | some g =>
    dsimp only
    refine ⟨?_, (guarded (P := fun _ => True) trivial).1, fun g' hg' ha => ?_⟩
    · split
      · exact landsField_refl ..
      · exact landsField_landField s hd _
    · obtain rfl := Option.some.inj hg'
      exact (guarded (P := fun t => Lands t c w.d.toNat 0 true (f g) 4) (lands_landField ..)).2 ha

/-- The destination that check 4 of BARST, KRD and TIME asks for. -/
theorem isSZ_of_decodeCheck {i : Instr} {op : BitVec 9} {w : RF} {s : State} {c : Cur} (hck : decodeCheck s c i = none)
    (henc : encode i = some (.inl (encRF op w))) (hop : op ≠ 0xD2) {a b e : Bool}
    (hc4 : (chk s c c.u.lead i).c4 = (isSZ c.u.lead w.d.toNat && a && b && e)) : isSZ c.u.lead w.d.toNat = true := by
  have h := hc4 ▸ c4_of_opcode hck (opcodeOf_rf henc) hop
  simp only [Bool.and_eq_true] at h
  exact h.1.1.1

theorem barst_completes (w : RF) : Completes (.barst w) fun s c t => LandsField s t c w.d.toNat ∧ (¬Acts s c w.g → t = s) ∧
    ∀ g, s.groupOf c.u = some g → Acts s c w.g →
      Lands t c w.d.toNat 0 true (BitVec.ofNat 64 ((bValue g (w.a.toNat % 16) c.cycle).word c.cycle)) 4 := fun s c h =>
  ⟨_, (issue_ok (fun c => groupRead s c w fun g => BitVec.ofNat 64 ((bValue g (w.a.toNat % 16) c.cycle).word c.cycle)) h :),
    groupRead_lands (isSZ_of_decodeCheck h.2.1 (op := 0x18C) rfl (by decide) rfl)⟩

theorem krd_completes (w : RF) : Completes (.krd w) fun s c t => LandsField s t c w.d.toNat ∧ (¬Acts s c w.g → t = s) ∧
    ∀ g, s.groupOf c.u = some g → Acts s c w.g →
      Lands t c w.d.toNat 0 true (BitVec.ofNat 64 (kValue g (w.a.toNat % 16) c.cycle).word) 4 := fun s c h =>
  ⟨_, (issue_ok (fun c => groupRead s c w fun g => BitVec.ofNat 64 (kValue g (w.a.toNat % 16) c.cycle).word) h :),
    groupRead_lands (isSZ_of_decodeCheck h.2.1 (op := 0x190) rfl (by decide) rfl)⟩

/-! ### TIME -/

/-- TIME's counter, up from issue to issue + 4 (R360). -/
def countTime (s : State) (c : Cur) (k : Nat) : State := (s.kAdd c.u k 1 c.cycle).kAdd c.u k (-1) (c.cycle + 4)

theorem countTime_frame (s : State) (c : Cur) (k : Nat) : countTime s c k = { s with groups := (countTime s c k).groups } := by
  unfold countTime
  rw [kAdd_frame (s.kAdd _ _ _ _), kAdd_frame s]

theorem countTime_group? {s : State} {c : Cur} {x : ExecUnit} (hx : s.unit? c.u = some x) (k n : Nat) :
    (countTime s c k).group? n = (s.group? n).map fun g =>
      if n = x.gid then counted c.u k (-1) (c.cycle + 4) (counted c.u k 1 c.cycle g) else g := by
  have hunit : (s.kAdd c.u k 1 c.cycle).unit? c.u = some x := by
    rw [kAdd_frame]
    exact hx
  rw [countTime, kAdd_group? hunit, kAdd_group? hx, Option.map_map]
  refine congrFun (congrArg Option.map (funext fun g => ?_)) _
  simp only [Function.comp]
  split <;> rfl

theorem localTime_countTime (s : State) (c : Cur) (k : Nat) :
    localTime (countTime s c k) c.u.die c.u.core (countTime s c k).now = localTime s c.u.die c.u.core s.now := by
  rw [countTime_frame]
  rfl

theorem time_completes (w : RF) : Completes (.time w) fun s c t => (¬Acts s c w.g → t = s) ∧ (Acts s c w.g →
    Lands t c w.d.toNat 0 true (BitVec.ofNat 64 (localTime s c.u.die c.u.core s.now)) 4 ∧
    LandsField { s with groups := t.groups } t c w.d.toNat ∧
    ∀ x, s.unit? c.u = some x → (∀ n, n ≠ x.gid → t.group? n = s.group? n) ∧ ∀ g, s.group? x.gid = some g →
      t.group? x.gid = some (counted c.u (w.a.toNat % 16) (-1) (c.cycle + 4) (counted c.u (w.a.toNat % 16) 1 c.cycle g))) := by
  refine completes_guarded (f := fun s c => let r := countTime s c (w.a.toNat % 16)
    landField r c w.d.toNat 0 true (BitVec.ofNat 64 (localTime r c.u.die c.u.core r.now)) (c.cycle + 4) 0) (fun _ => rfl)
    fun s c h => ?_
  dsimp only
  rw [localTime_countTime]
  have hd : isSZ c.u.lead w.d.toNat = true := isSZ_of_decodeCheck h.2.1 (op := 0x191) rfl (by decide) rfl
  have hlands := landsField_landField (countTime s c (w.a.toNat % 16)) hd (BitVec.ofNat 64 (localTime s c.u.die c.u.core s.now))
  have hgroups (n : Nat) := congrArg (fun t : State => t.group? n) hlands.1
  have hcounted := (congrArg (fun t : State => { s with groups := t.groups }) hlands.1).trans (countTime_frame ..).symm
  refine ⟨lands_landField .., ?_, fun x hx => ⟨fun n hn => ?_, fun g hg => ?_⟩⟩
  · exact (congrArg (fun r => LandsField r _ c w.d.toNat) hcounted).mpr hlands
  · rw [hgroups]
    refine (countTime_group? hx _ n).trans ?_
    simp [hn]
  · rw [hgroups]
    refine (countTime_group? hx _ x.gid).trans ?_
    simp [hg]

/-! ### PHASE -/

/-- A core's record with its windows credited and its marker set (R151). -/
def phased (c : Cur) (n : Nat) (x : CoreRec) : CoreRec := { x.settle (c.cycle / 16 + 1) with marker := n }

theorem phased_place (c : Cur) (n : Nat) (x : CoreRec) : (phased c n x).die = x.die ∧ (phased c n x).core = x.core := by
  unfold phased CoreRec.settle
  split <;> exact ⟨rfl, rfl⟩

/-- The marker that check 2 of PHASE lets through has 4 bits. -/
theorem marker_of_phase {s : State} {c : Cur} {w : IF} (h : Issuing s c (.phase w)) : w.imm.toNat % 16 = w.imm.toNat := by
  have h2 : (_ && decide (w.imm.toNat < 16) && _) = true :=
    (chk_of_decodeCheck h.2.1 (opcodeOf_ne_lpush (opcodeOf_if (op := 0x193) (w := w) rfl) (by decide))).1
  simp only [Bool.and_eq_true, decide_eq_true_eq] at h2
  exact Nat.mod_eq_of_lt h2.1.2

theorem phase_completes (w : IF) : Completes (.phase w) fun s c t => t = { s with cores := t.cores } ∧ (¬Acts s c w.g → t = s) ∧
    (Acts s c w.g → t.core c.u.die c.u.core = phased c w.imm.toNat (s.core c.u.die c.u.core) ∧
      ∀ d k, ¬(d = c.u.die ∧ k = c.u.core) → t.core d k = s.core d k) := by
  intro s c h
  have hexec : exec (.phase w) s = .next (if !ctlOk s c w.g then s else
      s.modCore c.u.die c.u.core (phased c (w.imm.toNat % 16))) := issue_ok _ h
  rw [marker_of_phase h] at hexec
  refine ⟨_, hexec, ?_, guarded (P := fun t => t.core c.u.die c.u.core = phased c w.imm.toNat (s.core c.u.die c.u.core) ∧
    ∀ d k, ¬(d = c.u.die ∧ k = c.u.core) → t.core d k = s.core d k) ⟨?_, fun d k hdk => ?_⟩⟩
  · split <;> rfl
  · exact core_modCore s _ _ (phased_place c w.imm.toNat)
  · exact core_modCore_other s hdk (phased_place c w.imm.toNat)

end Sys2Proof.Proofs
end

section
/-! SUPPORT. Requests to an engine and reads of its status (O46, R249, R262-R265, R284): what the issue of one adds. -/

namespace Sys2Proof.Proofs

open Sys2Proof Sys2Proof.Machine Sys2Proof.Laws

/-! ### The row of a request -/

/-- A request newly issued: its unit, kind and times, with nothing done of it. -/
structure NewRequest (s : State) (c : Cur) (kind : Nat) (r : PassRow) : Prop where
  unit : r.u = c.u
  group : r.gid = (reqRow s c kind 0 0 0).gid
  kind : r.kind = kind
  st : r.st = 1
  issue : r.issue = c.cycle
  post : r.post = c.cycle + 4
  step : r.step = 0
  flags : r.flags = 0

theorem reqRow_gid {s : State} {c : Cur} {g : Group} (hg : s.groupOf c.u = some g) (kind : Nat) :
    (reqRow s c kind 0 0 0).gid = g.gid := by
  obtain ⟨x, hx, hgx⟩ := Option.bind_eq_some_iff.mp hg
  simp [reqRow, hx, gid_of_group? hgx]

/-- An urgent freeze of the unit's context lets its clauses end (R259). -/
def isFreezing (s : State) (u : UnitId) : Bool :=
  match s.groupOf u with | some g => (s.ctx g.ctx).state == .freezing | none => false

/-- The row as it is posted: under an urgent freeze it knows the window at which it stops (R259). -/
def postedRow (s : State) (c : Cur) (r : PassRow) : PassRow :=
  if isFreezing s c.u then { r with wn := nextWindow c.u.slot (c.cycle + 1) } else r

theorem postedRow_eq (s : State) (c : Cur) (r : PassRow) : postedRow s c r = { r with wn := (postedRow s c r).wn } := by
  unfold postedRow
  split <;> rfl

/-- A unit whose clause has issued one request more. -/
def countReq (x : ExecUnit) : ExecUnit := { x with clause := x.clause.map fun y => { y with reqs := y.reqs + 1 } }

/-- Unit, counter and barrier of a request at its issue (Table 12.2). -/
def requested (s : State) (c : Cur) (r : PassRow) : State :=
  ((s.modUnit c.u countReq).kAdd c.u r.k 1 c.cycle).bEvent c.u r.bar .post (c.cycle + 4)

/-- The request enters the engine of its core's quartet, and its posting becomes due. -/
def enterRow (t : State) (c : Cur) (r : PassRow) : State :=
  let e := t.modEngine c.u.die (quartetOf c.u.core) fun e => { e with rows := r :: e.rows }
  (e.schedCyc c.u.die c.u.core (c.cycle + 4) 20 (evU .requestPost c.u [])).judge c.u.die (quartetOf c.u.core)
    (instantOf e c.u.die c.u.core (c.cycle + 4))

theorem postReq_eq (s : State) (c : Cur) (r : PassRow) :
    s.postReq c r = enterRow (requested s c (postedRow s c r)) c (postedRow s c r) := rfl

theorem requested_frame (s : State) (c : Cur) (r : PassRow) :
    requested s c r = { s with units := (requested s c r).units, groups := (requested s c r).groups } := by
  unfold requested
  rw [bEvent_frame, kAdd_frame]
  rfl

theorem requested_kLog {s : State} {c : Cur} {g : Group} (hg : s.groupOf c.u = some g) (r : PassRow) :
    ∃ h, (requested s c r).group? g.gid = some h ∧ h.kLog = insertK (countUp c r.k) g.kLog :=
  bEvent_kLog (kAdd_groupOf ((groupOf_modUnit s c.u (f := countReq) fun _ => ⟨rfl, rfl⟩).trans hg) r.k 1 c.cycle) ..

/-- Nothing but an engine and the agenda has changed. -/
theorem enterRow_frame (t : State) (c : Cur) (r : PassRow) :
    enterRow t c r = { t with engines := (enterRow t c r).engines, agenda := (enterRow t c r).agenda } := rfl

theorem enterRow_agenda (t : State) (c : Cur) (r : PassRow) :
    AgendaGrows t (enterRow t c r) ∧ ∃ a ∈ (enterRow t c r).agenda, a.due = evU .requestPost c.u [] ∧
      a.at' = max t.now (instantOf t c.u.die c.u.core (c.cycle + 4)) := by
  refine ⟨fun a ha => mem_schedEv_of_mem (mem_schedEv_of_mem ?_ _ _ _) _ _ _, ?_⟩
  · exact ha
  · obtain ⟨a, ha, hdue, hat⟩ := exists_mem_schedEv
      (t.modEngine c.u.die (quartetOf c.u.core) fun e => { e with rows := r :: e.rows })
      (max t.now (instantOf t c.u.die c.u.core (c.cycle + 4))) 20 (evU .requestPost c.u [])
    exact ⟨a, mem_schedEv_of_mem ha _ _ _, hdue, hat⟩

theorem enterRow_engine (t : State) (c : Cur) (r : PassRow) :
    (enterRow t c r).engine c.u.die (quartetOf c.u.core) = { t.engine c.u.die (quartetOf c.u.core) with
      rows := r :: (t.engine c.u.die (quartetOf c.u.core)).rows } ∧
    ∀ d e, ¬(d = c.u.die ∧ e = quartetOf c.u.core) → (enterRow t c r).engine d e = t.engine d e :=
  ⟨engine_modEngine t (f := fun e => { e with rows := r :: e.rows }) fun _ => ⟨rfl, rfl⟩,
    fun _ _ h => engine_modEngine_other t (f := fun e => { e with rows := r :: e.rows }) (fun _ => ⟨rfl, rfl⟩) h⟩

/-! ### Requests -/

/-- One request of a kind, of which `P` holds, has been issued to the engine of the core's quartet, and nothing else of the engines,
memories, registers, operations and pending writes has changed; its counter has risen and its posting is due. -/
def Posts (s t : State) (c : Cur) (kind : Nat) (P : PassRow → Prop) : Prop :=
  let q := 8 * (c.u.core / 32) + c.u.core % 16 / 2
  SameMemory s t ∧ SameRegisters s t ∧ t.pend = s.pend ∧ t.ops = s.ops ∧
    ∃ r, t.engine c.u.die q = { s.engine c.u.die q with rows := r :: (s.engine c.u.die q).rows } ∧
      r.u = c.u ∧ r.kind = kind ∧ r.st = 1 ∧ r.issue = c.cycle ∧ r.post = c.cycle + 4 ∧ r.step = 0 ∧ r.flags = 0 ∧ P r ∧
      (∃ a ∈ t.agenda, a.due = evU .requestPost c.u [] ∧ a.at' = max s.now (instantOf s c.u.die c.u.core (c.cycle + 4))) ∧
      (∀ a ∈ s.agenda, a ∈ t.agenda) ∧ (∀ d e, ¬(d = c.u.die ∧ e = q) → t.engine d e = s.engine d e) ∧
      ∀ g, s.groupOf c.u = some g → r.gid = g.gid ∧ ∃ h, t.group? g.gid = some h ∧ h.kLog = insertK (countUp c r.k) g.kLog

theorem quartetOf_eq (core : Nat) : quartetOf core = 8 * (core / 32) + core % 16 / 2 := by
  rw [quartetOf, Nat.div_div_eq_div_mul]

theorem posts_postReq {s : State} {c : Cur} {kind : Nat} {r : PassRow} {P : PassRow → Prop} (hr : NewRequest s c kind r)
    (hP : ∀ n, P { r with wn := n }) : Posts s (s.postReq c r) c kind P := by
  rw [postReq_eq]
  have hrow := postedRow_eq s c r
  generalize (postedRow s c r).wn = n at hrow
  rw [hrow]
  have hlog (g : Group) (hg : s.groupOf c.u = some g) := requested_kLog hg { r with wn := n }
  have hframe := requested_frame s c { r with wn := n }
  generalize requested s c { r with wn := n } = t at hlog hframe
  obtain ⟨hgrows, hdue⟩ := enterRow_agenda t c { r with wn := n }
  obtain ⟨hsame, hother⟩ := enterRow_engine t c { r with wn := n }
  rw [quartetOf_eq] at hsame hother
  have hengine (d e : Nat) : t.engine d e = s.engine d e := by
    rw [hframe]
    rfl
  have hinstant : max t.now (instantOf t c.u.die c.u.core (c.cycle + 4)) =
      max s.now (instantOf s c.u.die c.u.core (c.cycle + 4)) := by
    rw [hframe]
    rfl
  have hagenda : t.agenda = s.agenda := by rw [hframe]
  simp only [hengine] at hsame hother
  rw [hinstant] at hdue
  refine ⟨?mem, ?reg, ?pend, ?ops, { r with wn := n }, hsame, hr.unit, hr.kind, hr.st, hr.issue, hr.post, hr.step, hr.flags, hP n,
    hdue, fun a ha => hgrows a (hagenda ▸ ha), hother, fun g hg => ⟨hr.group.trans (reqRow_gid hg kind), hlog g hg⟩⟩
  all_goals rw [enterRow_frame, hframe]
  · exact fun _ => ⟨rfl, rfl, rfl, rfl⟩
  · exact ⟨rfl, rfl, rfl, rfl⟩

/-- The drain control of a request: DEST, STRIDE and SLOT (Table 12.5). -/
theorem withDrain_eq (r : PassRow) (sd : Nat) :
    r.withDrain sd = { r with slot := sd / 2 ^ 48 % 64, stride := sd / 2 ^ 32 % 2 ^ 16, dest := sd % 2 ^ 32 } := by
  rw [PassRow.withDrain, bits, bits, bits, pow_zero, Nat.div_one]
  rfl

theorem posts_withDrain {s : State} {c : Cur} {kind : Nat} {r : PassRow} {P : PassRow → Prop} (sd : Nat)
    (hr : NewRequest s c kind r)
    (hP : ∀ n, P { r with wn := n, slot := sd / 2 ^ 48 % 64, stride := sd / 2 ^ 32 % 2 ^ 16, dest := sd % 2 ^ 32 }) :
    Posts s (s.postReq c (r.withDrain sd)) c kind P := by
  rw [withDrain_eq]
  exact posts_postReq ⟨hr.unit, hr.group, hr.kind, hr.st, hr.issue, hr.post, hr.step, hr.flags⟩ hP

/-- The request of MLOOP, but for its drain control (R263). -/
def loopRow (s : State) (c : Cur) (w : ReqF) : PassRow :=
  let sk := (readU s c w.sk.toNat).toNat
  let sd := (readU s c w.sd.toNat).toNat
  { reqRow s c 1 w.kc w.ben w.bar with
    n := sk % 2 ^ 16, tile := w.tile.toNat, ty := w.ty.toNat, rl := w.rl.toNat + 1, abase := w.abase.toNat
    bbase := w.bbase.toNat, bscr := w.bscr == 1, za := w.za == 1, pri := w.pri.toNat, chk := w.chk == 1, tol := w.tol.toNat
    den := sd.testBit 54 || w.chk == 1
    badr := if w.bscr == 1 then bits sk 32 32 else 0, inc := if w.bscr == 1 then bits sk 16 16 else 0
    allInc := w.chk == 1 && (!sd.testBit 54 || sk % 2 ^ 16 == 0) }

theorem exec_mloop (w : ReqF) (s : State) : exec (.mloop w) s = issue (.mloop w) s fun c =>
    s.postReq c (if (loopRow s c w).den then (loopRow s c w).withDrain (readU s c w.sd.toNat).toNat else loopRow s c w) := rfl

theorem newRequest_loopRow (s : State) (c : Cur) (w : ReqF) : NewRequest s c 1 (loopRow s c w) :=
  ⟨rfl, rfl, rfl, rfl, rfl, rfl, rfl, rfl⟩

/-! ### Reads of an engine's status -/

/-- MSTAT and MCHK: the operation `o` is started, to read at issue + 4 and to land at issue + 8. -/
def startRead (s : State) (c : Cur) (o : Op) : State :=
  ((s.startOp o).2.schedCyc c.u.die c.u.core (c.cycle + 4) 20 (evU .requestPost c.u [])).schedCyc c.u.die c.u.core (c.cycle + 8) 0
    (evU .requestPost c.u [1])

theorem startRead_result {s : State} {c : Cur} {o : Op} {P : Op → Prop} (hu : o.u = c.u) (hissue : o.issue = c.cycle)
    (hpc : o.pc = c.pc) (hP : ∀ i n, P { o with id := i, seq := n }) :
    SameSystem s (startRead s c o) ∧ (startRead s c o).engines = s.engines ∧
      (Due' (startRead s c o) (evU .requestPost c.u []) ∧ Due' (startRead s c o) (evU .requestPost c.u [1])) ∧
      Started s (startRead s c o) c o.kind P := by
  obtain ⟨hsystem, hengines⟩ := startOp_system s o
  obtain ⟨a, ha, hdue, -⟩ := exists_mem_schedEv (s.startOp o).2 (max (s.startOp o).2.now
    (instantOf (s.startOp o).2 c.u.die c.u.core (c.cycle + 4))) 20 (evU .requestPost c.u [])
  obtain ⟨b, hb, hland, -⟩ := exists_mem_schedEv
    ((s.startOp o).2.schedCyc c.u.die c.u.core (c.cycle + 4) 20 (evU .requestPost c.u []))
    (max (s.startOp o).2.now (instantOf (s.startOp o).2 c.u.die c.u.core (c.cycle + 8))) 0 (evU .requestPost c.u [1])
  exact ⟨hsystem, hengines, ⟨⟨a, mem_schedEv_of_mem ha _ _ _, hdue⟩, ⟨b, hb, hland⟩⟩, started_startOp hu hissue hpc hP⟩

/-! ### The obligation -/

theorem mloop_posts (w : ReqF) : Completes (.mloop w) fun s c t =>
    let S (r : BitVec 8) : Nat := (readU s c r.toNat).toNat
    Posts s t c 1 fun r => r.n = S w.sk % 2 ^ 16 ∧ r.tile = w.tile.toNat ∧
      r.ty = w.ty.toNat ∧ r.rl = w.rl.toNat + 1 ∧ r.bscr = (w.bscr == 1) ∧ r.chk = (w.chk == 1) ∧ r.abase = w.abase.toNat ∧
      r.bbase = w.bbase.toNat ∧ r.za = (w.za == 1) ∧ r.pri = w.pri.toNat ∧ r.tol = w.tol.toNat ∧ r.k = w.kc.toNat ∧
      r.bar = (if w.ben = 1 then some w.bar.toNat else none) ∧ r.den = ((S w.sd).testBit 54 || w.chk == 1) ∧
      (r.den = true → r.dest = S w.sd % 2 ^ 32 ∧ r.stride = S w.sd / 2 ^ 32 % 2 ^ 16 ∧ r.slot = S w.sd / 2 ^ 48 % 64) ∧
      (w.bscr = 1 → r.badr = S w.sk / 2 ^ 32 % 2 ^ 32 ∧ r.inc = S w.sk / 2 ^ 16 % 2 ^ 16) := by
  intro s c h
  refine ⟨_, (exec_mloop w s).trans (issue_ok _ h), ?_⟩
  have hscratch (hb : w.bscr = 1) : (loopRow s c w).badr = (readU s c w.sk.toNat).toNat / 2 ^ 32 % 2 ^ 32 ∧
      (loopRow s c w).inc = (readU s c w.sk.toNat).toNat / 2 ^ 16 % 2 ^ 16 := by simp [loopRow, hb, bits]
  cases hden : (loopRow s c w).den with
  | true =>
    exact posts_withDrain _ (newRequest_loopRow s c w) fun n =>
      ⟨rfl, rfl, rfl, rfl, rfl, rfl, rfl, rfl, rfl, rfl, rfl, rfl, rfl, rfl, fun _ => ⟨rfl, rfl, rfl⟩, hscratch⟩
  | false =>
    exact posts_postReq (newRequest_loopRow s c w) fun n =>
      ⟨rfl, rfl, rfl, rfl, rfl, rfl, rfl, rfl, rfl, rfl, rfl, rfl, rfl, rfl,
        fun hd => absurd (hden.symm.trans hd) (by decide), hscratch⟩

/-- Settles O46: BARST, KRD and TIME by the write that they add, PHASE by its core's record, requests by the row that their engine
takes, MSTAT and MCHK by the operation that they start. -/
theorem statusReadsTimePhaseAndEngineRequests : Obligations.StatusReadsTimePhaseAndEngineRequests := by
  refine ⟨barst_completes, ?krd, time_completes, phase_completes, ?mma, mloop_posts, ?mzero, ?mdrain, ?dpload, ?mstat, ?mchk⟩
  case krd => exact krd_completes
  case mma =>
    exact fun w s c h => ⟨_, issue_ok _ h, posts_postReq ⟨rfl, rfl, rfl, rfl, rfl, rfl, rfl, rfl⟩ fun n =>
      ⟨rfl, rfl, rfl, rfl, rfl, rfl, rfl, rfl, rfl, rfl, rfl⟩⟩
  case mzero =>
    exact fun w s c h => ⟨_, issue_ok _ h, posts_postReq ⟨rfl, rfl, rfl, rfl, rfl, rfl, rfl, rfl⟩ fun n =>
      ⟨rfl, rfl, rfl, rfl⟩⟩
  case mdrain =>
    exact fun w s c h => ⟨_, issue_ok _ h, posts_withDrain _ ⟨rfl, rfl, rfl, rfl, rfl, rfl, rfl, rfl⟩ fun n =>
      ⟨rfl, rfl, rfl, rfl, rfl, rfl, rfl⟩⟩
  case dpload =>
    exact fun w s c h => ⟨_, issue_ok _ h, posts_postReq ⟨rfl, rfl, rfl, rfl, rfl, rfl, rfl, rfl⟩ fun n =>
      ⟨rfl, rfl, rfl, rfl, rfl, rfl⟩⟩
  case mstat => exact fun w s c h => ⟨_, issue_ok _ h, startRead_result rfl rfl rfl fun _ _ => ⟨rfl, rfl, rfl⟩⟩
  case mchk => exact fun w s c h => ⟨_, issue_ok _ h, startRead_result rfl rfl rfl fun _ _ => ⟨rfl, rfl, rfl⟩⟩

end Sys2Proof.Proofs
end

section
/-! SUPPORT. What an access to scratch does beside its data: banks, out-of-range records and reports of pairs (R181, R187, R388);
and what an access to scratch can change at all. -/

namespace Sys2Proof.Proofs

open Sys2Proof Sys2Proof.Machine Sys2Proof.Laws

/-! ### Banks, records and reports -/

/-- Nothing changes but what is due, the use of banks and the out-of-range records on their way. -/
def Bookkept (s t : State) : Prop := t = { s with agenda := t.agenda, bankUse := t.bankUse, heldFlags := t.heldFlags }

theorem Bookkept.trans {s t r : State} (h : Bookkept s t) (k : Bookkept t r) : Bookkept s r := by
  unfold Bookkept at *
  rw [k, h]

theorem bookkept_recordLanes (s : State) (c : Cur) (plain write : Bool) (n cyc : Nat) (ls : List (Nat × Nat)) :
    Bookkept s (recordLanes s c plain write n cyc ls) :=
  List.foldlRecOn (motive := Bookkept s) ls _ rfl fun t ht x _ => ht.trans (by split <;> exact rfl)

/-- The books of an access: the banks that it uses, its lanes out of range, and the mismatch of a pair if there is one. -/
def accessBooks (s : State) (c : Cur) (hs : List (List (Nat × Nat))) (write : Bool) (n : Nat) (ls : List (Nat × Nat))
    (differ : Bool) : State :=
  let r := recordLanes (s.useBanks c.u.die c.u.core (c.cycle + 1) hs) c true write n (c.cycle + 1) ls
  if differ then r.reportPair c (c.cycle + 1) else r

theorem bookkept_accessBooks (s : State) (c : Cur) (hs : List (List (Nat × Nat))) (write : Bool) (n : Nat) (ls : List (Nat × Nat))
    (differ : Bool) : Bookkept s (accessBooks s c hs write n ls differ) := by
  have hr : Bookkept s (recordLanes (s.useBanks c.u.die c.u.core (c.cycle + 1) hs) c true write n (c.cycle + 1) ls) :=
    Bookkept.trans (t := s.useBanks c.u.die c.u.core (c.cycle + 1) hs) rfl (bookkept_recordLanes ..)
  unfold accessBooks
  split
  · exact hr.trans rfl
  · exact hr

/-! ### What an access to scratch can change -/

/-- Nothing changes but bytes of scratch with their marks and lines, what waits to land, what is due, the use of banks and the
out-of-range records on their way. -/
def OnlyScratch (s t : State) : Prop :=
  t = { s with agenda := t.agenda, bankUse := t.bankUse, heldFlags := t.heldFlags, pend := t.pend, scratch := t.scratch
               poison := t.poison, lines := t.lines }

section
variable {s t r : State}

theorem OnlyScratch.trans (h : OnlyScratch s t) (k : OnlyScratch t r) : OnlyScratch s r := by
  unfold OnlyScratch at *
  rw [k, h]

theorem Bookkept.onlyScratch (h : Bookkept s t) : OnlyScratch s t := by
  unfold Bookkept at h
  unfold OnlyScratch
  rw [h]

theorem onlyScratch_of_onlyPending (h : OnlyPending s t) : OnlyScratch s t := by
  unfold OnlyPending at h
  unfold OnlyScratch
  rw [h]

theorem OnlyScratch.sameRegisters (h : OnlyScratch s t) : SameRegisters s t := by
  rw [h]
  exact ⟨rfl, rfl, rfl, rfl⟩

theorem OnlyScratch.sameSystem (h : OnlyScratch s t) : SameSystem s t := by
  rw [h]
  exact ⟨rfl, rfl, rfl, rfl, rfl, rfl, rfl, rfl, rfl, rfl, rfl⟩

/-- The memories other than scratch. -/
theorem OnlyScratch.memories (h : OnlyScratch s t) : t.hbm = s.hbm ∧ t.hostMem = s.hostMem ∧ t.code = s.code := by
  rw [h]
  exact ⟨rfl, rfl, rfl⟩

theorem OnlyScratch.sameMemory (h : OnlyScratch s t) (hs : t.scratch = s.scratch) : SameMemory s t := by
  obtain ⟨hhbm, hhost, hcode⟩ := h.memories
  exact fun a => ⟨congrArg (·.read a) hhbm, congrArg (·.read a) hhost, congrArg (·.read a) hs, congrArg (·.read a) hcode⟩

theorem Bookkept.scratch (h : Bookkept s t) : t.scratch = s.scratch := by rw [h]

theorem Bookkept.pend (h : Bookkept s t) : t.pend = s.pend := by rw [h]

theorem scratch_of_onlyPending (h : OnlyPending s t) : t.scratch = s.scratch := by rw [h]

/-- What an access leaves that only lands results, beside its books. -/
theorem Bookkept.result (h : Bookkept s t) (k : OnlyPending t r) : SameMemory s r ∧ SameRegisters s r ∧ SameSystem s r :=
  have hall := h.onlyScratch.trans (onlyScratch_of_onlyPending k)
  ⟨hall.sameMemory ((scratch_of_onlyPending k).trans h.scratch), hall.sameRegisters, hall.sameSystem⟩

end

/-! ### The lanes of an access -/

theorem mem_activeLanes {s : State} {c : Cur} {g : Guard} {l : Nat} :
    l ∈ activeLanes s c g ↔ l < 32 ∧ laneActive s c g l = true := by simp [activeLanes]

theorem mem_realLanes {s : State} {c : Cur} {g : Guard} {l : Nat} :
    l ∈ realLanes s c g ↔ (l < 32 ∧ laneActive s c g l = true) ∧ (protOf s c.u = false ∨ l % 2 = 0) := by
  simp [realLanes, mem_activeLanes]

/-- The lane whose access a lane shares is an active lane's own when that lane makes one (R387). -/
theorem ownerLane_of_real {s : State} {c : Cur} {g : Guard} {l : Nat} (h : l ∈ realLanes s c g) : ownerLane s c l = l := by
  obtain ⟨-, hp⟩ := mem_realLanes.mp h
  unfold ownerLane
  split
  · next hprot => exact Nat.div_mul_cancel (Nat.dvd_of_mod_eq_zero (hp.resolve_left (by simp [hprot])))
  · rfl

theorem ownerLane_mem_realLanes {s : State} {c : Cur} {g : Guard} {l : Nat} (hl : l < 32) :
    ownerLane s c l ∈ realLanes s c g ↔ laneActive s c g (ownerLane s c l) = true := by
  rw [mem_realLanes]
  unfold ownerLane
  cases hp : protOf s c.u
  · simp [hl]
  · have : l / 2 * 2 < 32 := by omega
    simp [this]

/-- The active lanes whose address is no multiple of the access size (R176). -/
def misalignedLanes (s : State) (c : Cur) (g : Guard) (ad : Nat → Nat) (n : Nat) : List Nat :=
  (activeLanes s c g).filter fun l => ad l % n ≠ 0

theorem aligned_iff {s : State} {c : Cur} {g : Guard} {ad : Nat → Nat} {n : Nat} :
    Aligned s c g ad n ↔ misalignedLanes s c g ad n = [] := by
  simp only [misalignedLanes, List.filter_eq_nil_iff, mem_activeLanes, decide_eq_true_eq, not_not, Aligned]
  exact ⟨fun h l hl => h l hl.2 hl.1, fun h l ha hl => h l ⟨hl, ha⟩⟩

end Sys2Proof.Proofs
end

section
/-! SUPPORT. Misaligned accesses (O34, R176, R217, R239, R377): the trap names the misaligned lanes, before anything is accessed. -/

namespace Sys2Proof.Proofs

open Sys2Proof Sys2Proof.Machine Sys2Proof.Laws

/-- A trap but for a page fault, as the issuing unit finds it. -/
theorem trapped_trapCur {s : State} {c : Cur} {kind sub : Nat} {lanes : BitVec 32} {detail : List Nat} {P : Stop → Prop}
    (h7 : kind ≠ 7) (hP : ∀ cl d, P { curStop s c kind sub lanes detail with clause := cl, due := d }) :
    Trapped s (trapCur s c kind sub lanes detail) c kind P := by
  refine ⟨takeTrap_eq .., fun x hx => ⟨stopUnit (curStop s c kind sub lanes detail) x, _, ?_, rfl, rfl, rfl, rfl, rfl, rfl, rfl,
    hP _ _⟩⟩
  rw [trapCur, takeTrap_unit? hx h7, if_pos rfl]

/-- The lanes that a misaligned-access trap names. -/
theorem getLsbD_maskPhys_misaligned (s : State) (c : Cur) (g : Guard) (ad : Nat → Nat) (n : Nat) {l : Nat} (hl : l < 32) :
    (maskPhys (misalignedLanes s c g ad n)).getLsbD l = (laneActive s c g l && decide (ad l % n ≠ 0)) := by
  rw [Bool.eq_iff_iff, maskPhys_eq, getLsbD_maskOf]
  simp [misalignedLanes, mem_activeLanes, visLane, hl]

section
variable {i : Instr} {f : State → Cur → State}

/-- An access that tests the alignment of its active lanes before all else (R176). -/
theorem completes_of_misaligned {g : Guard} {n : Nat} {ad : State → Cur → Nat → Nat} (hi : ∀ s, exec i s = issue i s (f s))
    (hf : ∀ s c, ¬Aligned s c g (ad s c) n → f s c = misaligned s c (misalignedLanes s c g (ad s c) n)) :
    Completes i fun s c t => ¬Aligned s c g (ad s c) n → Trapped s t c 6 fun p => ∀ l, l < 32 →
      p.lanes.getLsbD l = (laneActive s c g l && decide (ad s c l % n ≠ 0)) := fun s c h =>
  ⟨_, (hi s).trans (issue_ok _ h), fun ha => by
    rw [hf s c ha]
    exact trapped_trapCur (by decide) fun _ _ _ hl => getLsbD_maskPhys_misaligned _ _ _ _ _ hl⟩

/-- An access of one uniform address that tests its alignment. -/
theorem completes_of_misaligned_uniform {bad : State → Cur → Prop} (hi : ∀ s, exec i s = issue i s (f s))
    (hf : ∀ s c, bad s c → f s c = misaligned s c []) :
    Completes i fun s c t => bad s c → Trapped s t c 6 fun p => p.lanes = 0 := fun s c h =>
  ⟨_, (hi s).trans (issue_ok _ h), fun hb => by
    rw [hf s c hb]
    exact trapped_trapCur (by decide) fun _ _ => rfl⟩

end

section
variable {s : State} {c : Cur} {g : Guard} {ad : Nat → Nat} {n : Nat}

theorem misalignedLanes_nonempty (h : ¬Aligned s c g ad n) : (!(misalignedLanes s c g ad n).isEmpty) = true := by
  simpa using mt aligned_iff.mpr h

theorem misalignedLanes_isEmpty (h : Aligned s c g ad n) : ¬(!(misalignedLanes s c g ad n).isEmpty) = true := by
  simpa using aligned_iff.mp h

theorem activeLanes_nonempty (h : ¬Aligned s c g ad n) : ¬(activeLanes s c g).isEmpty = true := fun h0 => by
  rw [aligned_iff, misalignedLanes, List.isEmpty_iff.mp h0] at h
  exact h rfl

theorem scrPlain_of_misaligned {w : MF} (load : Bool) (h : ¬Aligned s c w.g (lineAddr s c w w.off.toInt) (2 ^ w.sz.toNat)) :
    scrPlain s c w load = misaligned s c (misalignedLanes s c w.g (lineAddr s c w w.off.toInt) (2 ^ w.sz.toNat)) :=
  if_pos (misalignedLanes_nonempty h)

theorem scrTeam_of_misaligned {w : MF} (load : Bool)
    (h : ¬Aligned s c w.g (lineAddr s c w (w.off.setWidth 14).toInt) (2 ^ w.sz.toNat)) : scrTeam s c w load =
      misaligned s c (misalignedLanes s c w.g (lineAddr s c w (w.off.setWidth 14).toInt) (2 ^ w.sz.toNat)) :=
  (if_neg (activeLanes_nonempty h)).trans (if_pos (misalignedLanes_nonempty h))

/-- LDS and STS take the team form or the plain one by their scope. -/
theorem scrForm_of_misaligned {w : MF} {load : Bool}
    (h : ¬Aligned s c w.g (if w.sco = 1 then lineAddr s c w (w.off.setWidth 14).toInt else lineAddr s c w w.off.toInt)
      (2 ^ w.sz.toNat)) :
    (if w.sco = 1 then scrTeam s c w load else scrPlain s c w load) = misaligned s c (misalignedLanes s c w.g
      (if w.sco = 1 then lineAddr s c w (w.off.setWidth 14).toInt else lineAddr s c w w.off.toInt) (2 ^ w.sz.toNat)) := by
  by_cases hsco : w.sco = 1
  · simp only [if_pos hsco] at h ⊢
    exact scrTeam_of_misaligned load h
  · simp only [if_neg hsco] at h ⊢
    exact scrPlain_of_misaligned load h

theorem glob_of_misaligned {w : MF} (load : Bool) (h : ¬Aligned s c w.g (globAddr s c w) (2 ^ w.sz.toNat)) :
    glob s c w load = misaligned s c (misalignedLanes s c w.g (globAddr s c w) (2 ^ w.sz.toNat)) :=
  (if_neg (activeLanes_nonempty h)).trans (if_pos (misalignedLanes_nonempty h))

theorem remote_of_misaligned (write : Bool) (peer : Nat → Nat) (o : Op) (h : ¬Aligned s c g ad n) :
    remote s c g n write ad peer o = misaligned s c (misalignedLanes s c g ad n) :=
  (if_neg (activeLanes_nonempty h)).trans (if_pos (misalignedLanes_nonempty h))

theorem remoteM_of_misaligned {w : MF} (load : Bool) :
    let ad (l : Nat) : Nat := wrap 64 (((readField s c w.index.toNat l true).toNat : Int) + (w.off.setWidth 14).toInt)
    ¬Aligned s c w.g ad (2 ^ w.sz.toNat) →
      remoteM s c w load = misaligned s c (misalignedLanes s c w.g ad (2 ^ w.sz.toNat)) :=
  fun h => remote_of_misaligned _ _ _ h

theorem atoms_of_misaligned {w : RF} (fn : Nat) :
    let n := if w.ty.toNat = 7 then 8 else 4
    let ad (l : Nat) : Nat := (readField s c w.a.toNat l false).toNat
    ¬Aligned s c w.g ad n → atoms s c w fn = misaligned s c (misalignedLanes s c w.g ad n) :=
  fun h => if_pos (misalignedLanes_nonempty h)

theorem atomg_of_misaligned {w : RF} (fn : Nat) :
    let n := if w.ty.toNat = 7 then 8 else 4
    let ad (l : Nat) : Nat := (readField s c w.a.toNat l true).toNat
    ¬Aligned s c w.g ad n → atomg s c w fn = misaligned s c (misalignedLanes s c w.g ad n) :=
  fun h => (if_neg (activeLanes_nonempty h)).trans (if_pos (misalignedLanes_nonempty h))

theorem ratom_of_misaligned {w : RatomF} (fn : Nat) :
    let n := if w.ty.toNat = 7 then 8 else 4
    let ad (l : Nat) : Nat := (readField s c w.a.toNat l true).toNat
    ¬Aligned s c w.g ad n → ratom s c w fn = misaligned s c (misalignedLanes s c w.g ad n) :=
  fun h => remote_of_misaligned _ _ _ h

end

/-- Settles O34: each access tests the alignment of its active lanes, or of its one address, before it does anything else. -/
theorem misalignedAccessTraps : Obligations.MisalignedAccessTraps := by
  refine ⟨?memory, ?atomics, ?ratom, ?ldsb, ?cpyst⟩
  case memory =>
    rintro w i ad (⟨rfl | rfl, rfl⟩ | ⟨rfl | rfl, rfl⟩ | ⟨rfl | rfl, rfl⟩)
    · exact completes_of_misaligned (fun _ => rfl) fun _ _ => scrForm_of_misaligned
    · exact completes_of_misaligned (fun _ => rfl) fun _ _ => scrForm_of_misaligned
    · exact completes_of_misaligned (fun _ => rfl) fun _ _ => glob_of_misaligned _
    · exact completes_of_misaligned (fun _ => rfl) fun _ _ => glob_of_misaligned _
    · exact completes_of_misaligned (fun _ => rfl) fun _ _ => remoteM_of_misaligned _
    · exact completes_of_misaligned (fun _ => rfl) fun _ _ => remoteM_of_misaligned _
  case atomics =>
    rintro w i wide (⟨rfl | rfl | rfl | rfl | rfl | rfl | rfl | rfl | rfl, rfl⟩ |
      ⟨rfl | rfl | rfl | rfl | rfl | rfl | rfl | rfl | rfl, rfl⟩)
    iterate 9 exact completes_of_misaligned (fun _ => rfl) fun _ _ => atoms_of_misaligned _
    all_goals exact completes_of_misaligned (fun _ => rfl) fun _ _ => atomg_of_misaligned _
  case ratom =>
    rintro w i (rfl | rfl | rfl | rfl | rfl | rfl | rfl | rfl | rfl)
    all_goals exact completes_of_misaligned (fun _ => rfl) fun _ _ => ratom_of_misaligned _
  case ldsb => exact fun w => completes_of_misaligned_uniform (fun _ => rfl) fun _ _ h => if_pos h
  case cpyst =>
    intro w s c h
    refine ⟨_, issue_ok _ h, fun hacts hbad => ?_⟩
    rw [(ctlOk_iff s c w.g).mpr hacts, if_neg (by simp), if_pos hbad]
    exact trapped_trapCur (by decide) fun _ _ => rfl

end Sys2Proof.Proofs
end

section
/-! SUPPORT. Bytes that land, lane by lane, and the plain loads from scratch (O31, R60, R175, R188-R191). -/

namespace Sys2Proof.Proofs

open Sys2Proof Sys2Proof.Machine Sys2Proof.Laws

/-! ### Bytes that land -/

theorem onlyPending_landBytes (s : State) (c : Cur) (d l n v cyc op : Nat) : OnlyPending s (landBytes s c d l n v cyc op) := by
  unfold landBytes
  split
  · exact onlyPending_landField ..
  · refine onlyPending_foldl _ (fun t j => ?_) _ _
    split
    · exact onlyPending_landField ..
    · exact onlyPending_refl t

theorem grows_landBytes (s : State) (c : Cur) (d l n v cyc op : Nat) : Grows s (landBytes s c d l n v cyc op) := by
  unfold landBytes
  split
  · exact grows_landField _ _ _ _ _ _ _ _
  · refine grows_foldl _ (fun t j => ?_) _ _
    split
    · exact grows_landField _ _ _ _ _ _ _ _
    · exact grows_refl t

theorem landsBytes_of_grows {s t : State} {c : Cur} {d l n v lat : Nat} (h : LandsBytes s c d l n v lat) (k : Grows s t) :
    LandsBytes t c d l n v lat := fun j hj hd hr => waits_of_grows (h j hj hd hr) k

/-- A register of 32 bits that bytes fill. -/
theorem and_mask32_ofNat (x : Nat) : BitVec.ofNat 64 (x % 2 ^ 32) &&& 0xFFFFFFFF#64 = BitVec.ofNat 64 (x % 2 ^ 32) := by
  refine BitVec.eq_of_toNat_eq ?_
  rw [and_mask32_toNat, BitVec.toNat_ofNat]
  omega

/-- Each register of the lane takes its four bytes (R189). -/
theorem landsBytes_landBytes (s : State) (c : Cur) (d l n v lat op : Nat) :
    LandsBytes (landBytes s c d l n v (c.cycle + lat) op) c d l n v lat := by
  intro j hj hd hr
  have hs : isS c.u.lead d = false := by
    revert hd
    cases hl : c.u.lead
    · simp only [isV, isS]
      simp
      omega
    · simp [isV]
  have hlands := lands_foldl (fun s j => if isV c.u.lead d then
      landField s c (d + j) l false (BitVec.ofNat 64 (v / 2 ^ (32 * j) % 2 ^ 32)) (c.cycle + lat) op else s) (a := j)
    (fun _ _ => by rw [if_pos hd]; exact grows_landField _ _ _ _ _ _ _ _) (fun _ => by rw [if_pos hd]; exact lands_landField ..) s
    (List.range (if n = 16 then 4 else if n = 8 then 2 else 1)) (List.mem_range.mpr hj)
  rw [Lands, if_pos hr, and_mask32_ofNat] at hlands
  unfold landBytes
  rw [hs, if_neg (by decide)]
  exact hlands.1

/-- What lanes receive, each its own value. -/
def landLaneBytes (s : State) (c : Cur) (d n : Nat) (v : Nat → Nat) (cyc : Nat) (ls : List Nat) : State :=
  ls.foldl (fun t l => landBytes t c d l n (v l) cyc 0) s

theorem onlyPending_landLaneBytes (s : State) (c : Cur) (d n : Nat) (v : Nat → Nat) (cyc : Nat) (ls : List Nat) :
    OnlyPending s (landLaneBytes s c d n v cyc ls) := onlyPending_foldl _ (fun _ _ => onlyPending_landBytes ..) _ _

theorem landsBytes_landLaneBytes (s : State) (c : Cur) (d n : Nat) (v : Nat → Nat) (lat : Nat) {ls : List Nat} {l : Nat} (hl : l ∈ ls) :
    LandsBytes (landLaneBytes s c d n v (c.cycle + lat) ls) c d l n (v l) lat := by
  obtain ⟨before, after, rfl⟩ := List.append_of_mem hl
  rw [landLaneBytes, List.foldl_append, List.foldl_cons]
  exact landsBytes_of_grows (landsBytes_landBytes _ c d l n (v l) lat 0) (grows_foldl _ (fun _ _ => grows_landBytes _ _ _ _ _ _ _ _) _ _)

/-! ### The lanes that take part -/

/-- The lanes in range of an access, with their addresses (R175). -/
def okLanes (s : State) (c : Cur) (g : Guard) (ad : Nat → Nat) (n : Nat) : List (Nat × Nat) :=
  ((realLanes s c g).map fun l => (l, ad l)).filter fun x => laneInRange s c true n x.2

section
variable {s : State} {c : Cur} {g : Guard} {ad : Nat → Nat} {n : Nat}

theorem mem_okLanes {x : Nat × Nat} :
    x ∈ okLanes s c g ad n ↔ x.1 ∈ realLanes s c g ∧ x.2 = ad x.1 ∧ laneInRange s c true n (ad x.1) = true := by
  obtain ⟨l, a⟩ := x
  simp only [okLanes, List.mem_filter, List.mem_map, Prod.mk.injEq]
  constructor
  · rintro ⟨⟨k, hk, rfl, rfl⟩, hr⟩
    exact ⟨hk, rfl, hr⟩
  · rintro ⟨hl, rfl, hr⟩
    exact ⟨⟨l, hl, rfl, rfl⟩, hr⟩

/-- The entry of a lane. -/
theorem find?_okLanes (l : Nat) : (okLanes s c g ad n).find? (fun x => x.1 = l) =
    if l ∈ realLanes s c g ∧ laneInRange s c true n (ad l) = true then some (l, ad l) else none := by
  split
  · next h =>
    cases hf : (okLanes s c g ad n).find? fun x => x.1 = l with
    | none =>
      have := List.find?_eq_none.mp hf (l, ad l) (mem_okLanes.mpr ⟨h.1, rfl, h.2⟩)
      simp at this
    | some x =>
      obtain ⟨-, hx, -⟩ := mem_okLanes.mp (List.mem_of_find?_eq_some hf)
      have hl : x.1 = l := by simpa using List.find?_some hf
      rw [← hl, ← hx]
  · next h =>
    refine List.find?_eq_none.mpr fun x hx hl => h ?_
    obtain ⟨hreal, -, hrange⟩ := mem_okLanes.mp hx
    rw [← of_decide_eq_true hl]
    exact ⟨hreal, hrange⟩

theorem consumeBad_none (t : State) (c : Cur) : t.consumeBad c none = t := rfl

/-- Nothing is consumed when no word that is read is marked. -/
theorem consumeBad_of_clean {t : State} (h : ∀ l, s.scrPoisoned c.u.die c.u.core (ad l % 2 ^ 19) n = false) :
    t.consumeBad c (scratchBad s c ((okLanes s c g ad n).map fun x => (x.2, n))) = t := by
  have hnone : ((okLanes s c g ad n).map fun x => (x.2, n)).find?
      (fun a => s.scrPoisoned c.u.die c.u.core (a.1 % 2 ^ 19) a.2) = none := by
    refine List.find?_eq_none.mpr fun a ha => ?_
    obtain ⟨x, hx, rfl⟩ := List.mem_map.mp ha
    obtain ⟨-, hxa, -⟩ := mem_okLanes.mp hx
    rw [hxa, h]
    exact Bool.false_ne_true
  rw [scratchBad, hnone]
  rfl

end

/-! ### LDS -/

/-- The bytes that a lane's access reads: those of the lane that makes it, when that one is in range (R60, R175). -/
def loadedBytes (s : State) (c : Cur) (g : Guard) (ad : Nat → Nat) (n l : Nat) : Nat :=
  match (okLanes s c g ad n).find? fun x => x.1 = ownerLane s c l with
  | some x => scrOf s c.u x.2 n
  | none => 0

theorem loadedBytes_eq {s : State} {c : Cur} {g : Guard} (ad : Nat → Nat) (n : Nat) {l : Nat} (hl : l < 32) :
    (if (activeLanes s c g).contains l then loadedBytes s c g ad n l else 0) =
      if laneActive s c g l = true ∧ laneActive s c g (ownerLane s c l) = true ∧ laneInRange s c true n (ad (ownerLane s c l)) = true
      then s.scratch.readN (scrAddr c.u.die c.u.core (ad (ownerLane s c l) % 2 ^ 19)) n else 0 := by
  have hactive : (activeLanes s c g).contains l = true ↔ laneActive s c g l = true := by
    rw [List.contains_iff_mem, mem_activeLanes, and_iff_right hl]
  simp only [loadedBytes, find?_okLanes, ownerLane_mem_realLanes hl, hactive]
  by_cases ha : laneActive s c g l = true
  · by_cases ho : laneActive s c g (ownerLane s c l) = true ∧ laneInRange s c true n (ad (ownerLane s c l)) = true
    · simp only [ha, ho, and_self, if_true]
      rfl
    · simp only [ha, ho, and_false, if_true, if_false]
  · rw [if_neg ha, if_neg fun h => ha h.1]

/-- What a load of lanes leaves: the books, and what each of them is to receive. -/
theorem landLaneBytes_result {s r : State} {c : Cur} (hr : Bookkept s r) (d n : Nat) (v : Nat → Nat) (lat : Nat) (ls : List Nat) :
    let t := landLaneBytes r c d n v (c.cycle + lat) ls
    SameMemory s t ∧ SameRegisters s t ∧ SameSystem s t ∧ ∀ l ∈ ls, LandsBytes t c d l n (v l) lat := by
  obtain ⟨hmem, hregs, hsys⟩ := hr.result (onlyPending_landLaneBytes r c d n v (c.cycle + lat) ls)
  exact ⟨hmem, hregs, hsys, fun _ hl => landsBytes_landLaneBytes _ _ _ _ _ _ hl⟩

/-- A plain load of aligned lanes: what they read is to land at one cycle (R188, R189). -/
theorem scrPlain_load {s : State} {c : Cur} {w : MF} (h : Aligned s c w.g (lineAddr s c w w.off.toInt) (2 ^ w.sz.toNat)) :
    let n := 2 ^ w.sz.toNat
    let ad := lineAddr s c w w.off.toInt
    ∃ r lat, Bookkept s r ∧ 12 ≤ lat ∧ scrPlain s c w true =
      (landLaneBytes r c w.data.toNat n (fun l => if (activeLanes s c w.g).contains l then loadedBytes s c w.g ad n l else 0)
        (c.cycle + lat) ((List.range 32).filter (laneCompute s c w.g))).consumeBad c
          (scratchBad s c ((okLanes s c w.g ad n).map fun x => (x.2, n))) := by
  intro n ad
  let hs := halves (okLanes s c w.g ad n) n
  refine ⟨accessBooks s c hs false n ((realLanes s c w.g).map fun l => (l, ad l))
    (pairsDiffer s c (activeLanes s c w.g) fun l => [ad l, 0]), 12 + ((hs.map maxLoad).foldl (· + ·) 0 - 1),
    bookkept_accessBooks .., Nat.le_add_right .., (if_neg (misalignedLanes_isEmpty h)).trans ?_⟩
  rw [← Nat.add_assoc]
  rfl

theorem lds_completes (w : MF) : Completes (.lds w) fun s c t =>
    let n := 2 ^ w.sz.toNat
    let ad := lineAddr s c w w.off.toInt
    w.sco ≠ 1 → Aligned s c w.g ad n → (∀ l, s.scrPoisoned c.u.die c.u.core (ad l % 2 ^ 19) n = false) →
    SameMemory s t ∧ SameRegisters s t ∧ SameSystem s t ∧ ∃ lat, 12 ≤ lat ∧ ∀ l, l < 32 → laneCompute s c w.g l = true →
      let o := if protOf s c.u then l / 2 * 2 else l
      LandsBytes t c w.data.toNat l n
        (if laneActive s c w.g l = true ∧ laneActive s c w.g o = true ∧ laneInRange s c true n (ad o) = true
         then s.scratch.readN (scrAddr c.u.die c.u.core (ad o % 2 ^ 19)) n else 0) lat := by
  refine fun s c h => ⟨_, issue_ok _ h, fun hsco ha hclean => ?_⟩
  obtain ⟨r, lat, hr, hlat, heq⟩ := scrPlain_load ha
  rw [if_neg hsco, heq, consumeBad_of_clean hclean]
  obtain ⟨hmem, hregs, hsys, hlands⟩ := landLaneBytes_result hr w.data.toNat (2 ^ w.sz.toNat) (c := c)
    (fun l => if (activeLanes s c w.g).contains l then loadedBytes s c w.g (lineAddr s c w w.off.toInt) (2 ^ w.sz.toNat) l else 0)
    lat ((List.range 32).filter (laneCompute s c w.g))
  refine ⟨hmem, hregs, hsys, lat, hlat, fun l hl hcomp => ?_⟩
  have hlane := hlands l (List.mem_filter.mpr ⟨List.mem_range.mpr hl, hcomp⟩)
  rwa [loadedBytes_eq _ _ hl] at hlane

/-! ### LDSB -/

theorem ldsb_completes (w : MF) : Completes (.ldsb w) fun s c t =>
    let n := 2 ^ w.sz.toNat
    let a := lineAddr s c w w.off.toInt 0
    a % n = 0 → s.scrPoisoned c.u.die c.u.core (a % 2 ^ 19) n = false →
    SameMemory s t ∧ SameRegisters s t ∧ SameSystem s t ∧
      Lands t c w.data.toNat 0 true (if laneInRange s c true n a = true
        then BitVec.ofNat 64 (s.scratch.readN (scrAddr c.u.die c.u.core (a % 2 ^ 19)) n) else 0) 12 := by
  refine fun s c h => ⟨_, issue_ok _ h, fun ha hclean => ?_⟩
  have hbad : scratchBad s c [(lineAddr s c w w.off.toInt 0, 2 ^ w.sz.toNat)] = none := by
    rw [scratchBad, List.find?_cons_of_neg (by rw [hclean]; exact Bool.false_ne_true)]
    rfl
  let ok := laneInRange s c true (2 ^ w.sz.toNat) (lineAddr s c w w.off.toInt 0)
  let books := accessBooks s c (if ok then [bankLoads (wordsOf (lineAddr s c w w.off.toInt 0) (2 ^ w.sz.toNat))] else [])
    false (2 ^ w.sz.toNat) [(0, lineAddr s c w w.off.toInt 0)] false
  let v := if ok then scrOf s c.u (lineAddr s c w w.off.toInt 0) (2 ^ w.sz.toNat) else 0
  have hbooks : Bookkept s books := bookkept_accessBooks ..
  dsimp only
  rw [if_neg (not_not.mpr ha), hbad, consumeBad_none, ite_self]
  obtain ⟨hmem, hregs, hsys⟩ := hbooks.result (onlyPending_landField books c w.data.toNat 0 true (BitVec.ofNat 64 v) (c.cycle + 12) 0)
  refine ⟨hmem, hregs, hsys, ?_⟩
  have hv : BitVec.ofNat 64 v = if ok = true
      then BitVec.ofNat 64 (scrOf s c.u (lineAddr s c w w.off.toInt 0) (2 ^ w.sz.toNat)) else 0 := apply_ite ..
  exact (congrArg (Lands _ c w.data.toNat 0 true · 12) hv).mp (lands_landField books c w.data.toNat 0 true (BitVec.ofNat 64 v) 12 0)

/-- Settles O31: each lane receives what the lane that makes its access reads, or 0. -/
theorem scratchLoads : Obligations.ScratchLoads := ⟨lds_completes, ldsb_completes⟩

end Sys2Proof.Proofs
end

section
/-! SUPPORT. Operations that start beside an access's books, and entries of the stopper (R170, R195, R197); the team forms of LDS and
STS (O38, R190). -/

namespace Sys2Proof.Proofs

open Sys2Proof Sys2Proof.Machine Sys2Proof.Laws

/-! ### Operations started -/

section
variable {s r t : State} {c : Cur} {kind : OpKind} {P Q : Op → Prop}

/-- The books that an access makes first leave what a started operation counts from. -/
theorem started_of_bookkept (h : Bookkept s r) (k : Started r t c kind P) : Started s t c kind P := by
  unfold Bookkept at h
  rw [h] at k
  exact k

/-- A count of the unit that keeps its group leaves it too. -/
theorem started_of_modUnit {f : ExecUnit → ExecUnit} (hf : ∀ x, (f x).id = x.id ∧ (f x).gid = x.gid)
    (k : Started (s.modUnit c.u f) t c kind P) : Started s t c kind P := by
  obtain ⟨hmem, hregs, hpend, o, ho, hid, hu, hkind, hissue, hpc, hP, hcount⟩ := k
  exact ⟨hmem, hregs, hpend, o, ho, hid, hu, hkind, hissue, hpc, hP,
    fun k g hk hg => hcount k g hk ((groupOf_modUnit s c.u hf).trans hg)⟩

/-- What is scheduled afterwards changes nothing of it. -/
theorem started_of_onlyAgenda (k : Started s t c kind P) (h : OnlyAgenda t r) : Started s r c kind P := by
  unfold OnlyAgenda at h
  rw [h]
  exact k

/-- Nor does what is posted at a barrier. -/
theorem started_bEvent (k : Started s t c kind P) (u : UnitId) (bar : Option Nat) (e : BEv) (cyc : Nat) :
    Started s (t.bEvent u bar e cyc) c kind P := by
  obtain ⟨hmem, hregs, hpend, o, ho, hid, hu, hkind, hissue, hpc, hP, hcount⟩ := k
  have hframe := bEvent_frame t u bar e cyc
  refine ⟨?_, ?_, ?_, o, ?_, hid, hu, hkind, hissue, hpc, hP, fun k g hk hg => ?_⟩
  · rw [hframe]
    exact hmem
  · rw [hframe]
    exact hregs
  · rw [hframe]
    exact hpend
  · rw [hframe]
    exact ho
  · obtain ⟨g', hg', hlog⟩ := hcount k g hk hg
    obtain ⟨g'', hg'', hlog'⟩ := bEvent_kLog hg' u bar e cyc
    exact ⟨g'', hg'', hlog'.trans hlog⟩

end

/-! ### Entries of the stopper -/

/-- A unit that has counted its entry number `n` (R385). -/
def countEntry (n : Nat) (copy : Bool) (x : ExecUnit) : ExecUnit :=
  { x with nEnter := n, nCpy := if copy then x.nCpy + 1 else x.nCpy }

theorem replaysNext_of_new {s : State} {x : ExecUnit} (henter : x.keepEnter ≤ x.nEnter) (hcpy : x.keepCpy ≤ x.nCpy) (copy : Bool) :
    replaysNext s x copy = false := by
  unfold replaysNext
  cases copy
  · simp
    omega
  · simp
    omega

/-- The comparisons of an entry with its pair's: in protected mode two cycles after issue (R387), in a dual run once both cores are
there (R390). -/
def compareEntry (o : Op) (id : Nat) (s : State) : State :=
  let s := if o.mism then s.schedCyc o.u.die o.u.core (o.issue + 2) 20 (evU .protectedMismatch o.u [o.issue]) else s
  let both := max (instantOf s o.u.die o.u.core (o.issue + 2)) (instantOf s o.u.die (o.u.core ^^^ 32) (o.issue + 2))
  if dualOf s o.u then s.sched (max s.now both) 20 (ev .dualRunMismatch [id]) else s

theorem compareEntry_schedules (o : Op) (id : Nat) (s : State) :
    OnlyAgenda s (compareEntry o id s) ∧ AgendaGrows s (compareEntry o id s) := by
  have hdual (t : State) (at' : Nat) : AgendaGrows t (t.sched at' 20 (ev .dualRunMismatch [id])) :=
    fun _ he => (mem_sched ..).mpr (.inr he)
  have hpair : AgendaGrows s (s.schedCyc o.u.die o.u.core (o.issue + 2) 20 (evU .protectedMismatch o.u [o.issue])) :=
    fun _ he => mem_schedEv_of_mem he ..
  unfold compareEntry
  dsimp only
  split
  · split
    · exact ⟨rfl, fun e he => hdual _ _ e (hpair e he)⟩
    · exact ⟨rfl, hpair⟩
  · split
    · exact ⟨rfl, hdual _ _⟩
    · exact ⟨rfl, fun _ he => he⟩

/-- The operation that a new entry is (R195). -/
def heldOp (o : Op) (n : Nat) : Op := { o with ordinal := n, stage := .held, leave := o.issue + Config.hold }

/-- A new entry: it starts, posts at its barrier if it is a bound copy, and is to leave D cycles after issue (R195, R197). -/
theorem enterStopper_of_new {s : State} {o : Op} {x : ExecUnit} (hx : s.unit? o.u = some x) (henter : x.keepEnter ≤ x.nEnter)
    (hcpy : x.keepCpy ≤ x.nCpy) : s.enterStopper o =
      let r := ((s.modUnit o.u (countEntry (x.nEnter + 1) o.kind.isCopy)).startOp (heldOp o (x.nEnter + 1))).2
      compareEntry o s.nextId (State.schedCyc (if o.copy.isSome then r.bEvent o.u o.bar .post (o.issue + 4) else r)
        o.u.die o.u.core (o.issue + Config.hold) (10 + o.u.rank) (ev .stopperLeave [s.nextId])) := by
  unfold State.enterStopper
  rw [hx]
  dsimp only
  rw [replaysNext_of_new henter hcpy, if_neg Bool.false_ne_true]
  rfl

/-- A new entry is held, and its counter rises at issue (R170, R195, R197). -/
theorem heldBy_enterStopper {s : State} {c : Cur} {o : Op} {P : Op → Prop} (hnew : NewEntry s c) (hu : o.u = c.u)
    (hissue : o.issue = c.cycle) (hpc : o.pc = c.pc) (hP : ∀ i n m, P { heldOp o m with id := i, seq := n }) :
    HeldBy s (s.enterStopper o) c o.kind P := by
  obtain ⟨x, hx, henter, hcpy⟩ := hnew
  rw [← hu] at hx
  rw [enterStopper_of_new hx henter hcpy]
  have hheld := started_startOp (s := s.modUnit c.u (countEntry (x.nEnter + 1) o.kind.isCopy)) (o := heldOp o (x.nEnter + 1)) (c := c)
    (P := fun o => o.stage = .held ∧ o.leave = c.cycle + 384 ∧ P o) hu hissue hpc
    fun i n => ⟨rfl, congrArg (· + 384) hissue, hP i n _⟩
  have hstarted := started_of_modUnit (f := countEntry (x.nEnter + 1) o.kind.isCopy) (fun _ => ⟨rfl, rfl⟩) hheld
  rw [← hu] at hstarted
  dsimp only
  generalize ((s.modUnit o.u (countEntry (x.nEnter + 1) o.kind.isCopy)).startOp (heldOp o (x.nEnter + 1))).2 = r at hstarted
  have hposted : Started s (if o.copy.isSome then r.bEvent o.u o.bar .post (o.issue + 4) else r) c o.kind
      fun o => o.stage = .held ∧ o.leave = c.cycle + 384 ∧ P o := by
    split
    · exact started_bEvent hstarted ..
    · exact hstarted
  generalize (if o.copy.isSome then r.bEvent o.u o.bar .post (o.issue + 4) else r) = q at hposted
  obtain ⟨honly, hgrows⟩ := compareEntry_schedules o s.nextId
    (q.schedCyc o.u.die o.u.core (o.issue + Config.hold) (10 + o.u.rank) (ev .stopperLeave [s.nextId]))
  obtain ⟨e, he, hdue, -⟩ := exists_mem_schedEv q (max q.now (instantOf q o.u.die o.u.core (o.issue + Config.hold))) (10 + o.u.rank)
    (ev .stopperLeave [s.nextId])
  exact ⟨started_of_onlyAgenda hposted (onlyAgenda_trans (t := q.schedCyc o.u.die o.u.core (o.issue + Config.hold) (10 + o.u.rank)
    (ev .stopperLeave [s.nextId])) rfl honly), e, hgrows e he, hdue⟩

/-- An entry beside the books of its access. -/
theorem heldBy_of_bookkept {s r t : State} {c : Cur} {kind : OpKind} {P : Op → Prop} (h : Bookkept s r)
    (k : NewEntry r c → HeldBy r t c kind P) (hnew : NewEntry s c) : HeldBy s t c kind P := by
  unfold Bookkept at h
  rw [h] at k
  exact k hnew

/-! ### The team forms -/

/-- The address of a lane of a team access (R190). -/
def teamAddr (s : State) (c : Cur) (w : MF) : Nat → Nat := lineAddr s c w (w.off.setWidth 14).toInt

/-- The operation that a team access starts. -/
def teamOp (s : State) (c : Cur) (w : MF) (load : Bool) : Op :=
  { opBase s c (if load then .teamLoad else .teamStore) with
    k := some (w.off.toNat / 2 ^ 14), size := 2 ^ w.sz.toNat, ord := w.ord.toNat, sco := 1
    lanes := teamLanes s c w load (2 ^ w.sz.toNat) ((realLanes s c w.g).map fun l => (l, teamAddr s c w l))
    dest := if load then w.data.toNat else 0xFF, helpers := if load then helperMask s c w.g else 0
    mism := !load && pairsDiffer s c (activeLanes s c w.g) fun l => [teamAddr s c w l, dataOf s c w.data.toNat l (2 ^ w.sz.toNat)] }

theorem teamOp_lanes {β : Type} (s : State) (c : Cur) (w : MF) (load : Bool) (f : LaneReq → β) :
    (teamOp s c w load).lanes.map f = (realLanes s c w.g).map fun l =>
      f { laneReq l (teamAddr s c w l) (if load then 0 else dataOf s c w.data.toNat l (2 ^ w.sz.toNat)) 0 with
          st := if laneInRange s c false (2 ^ w.sz.toNat) (teamAddr s c w l) then .ready else .idle } := by
  simp [teamOp, teamLanes, Function.comp_def]

/-- The out-of-range records of a team access (R187). -/
def teamBooks (s : State) (c : Cur) (w : MF) (load : Bool) : State :=
  recordLanes s c false (!load) (2 ^ w.sz.toNat) c.cycle ((realLanes s c w.g).map fun l => (l, teamAddr s c w l))

theorem scrTeam_of_aligned {s : State} {c : Cur} {w : MF} (hact : activeLanes s c w.g ≠ [])
    (h : Aligned s c w.g (teamAddr s c w) (2 ^ w.sz.toNat)) (load : Bool) : scrTeam s c w load =
      if load then
        let r := (teamBooks s c w load).startOp (teamOp s c w load)
        if (teamOp s c w load).lanes.all fun l => l.st == .idle then r.2.completeAt r.1 (c.cycle + 2) else r.2.kick c.u
      else (teamBooks s c w load).enterStopper (teamOp s c w load) :=
  (if_neg (by simpa using hact)).trans (if_neg (misalignedLanes_isEmpty h))

/-- A team load with a lane in range starts (R190). -/
theorem teamLoad_started {s : State} {c : Cur} {w : MF} (h : Aligned s c w.g (teamAddr s c w) (2 ^ w.sz.toNat))
    (hin : ∃ l ∈ realLanes s c w.g, laneInRange s c false (2 ^ w.sz.toNat) (teamAddr s c w l) = true) {P : Op → Prop}
    (hP : ∀ i n, P { teamOp s c w true with id := i, seq := n }) : Started s (scrTeam s c w true) c .teamLoad P := by
  obtain ⟨l, hl, hr⟩ := hin
  have hact : activeLanes s c w.g ≠ [] := List.ne_nil_of_mem (mem_activeLanes.mpr (mem_realLanes.mp hl).1)
  have hidle : ¬((teamOp s c w true).lanes.all fun l => l.st == .idle) = true := by
    have hst : LaneSt.ready ∈ (teamOp s c w true).lanes.map LaneReq.st := by
      rw [teamOp_lanes]
      exact List.mem_map.mpr ⟨l, hl, if_pos hr⟩
    obtain ⟨x, hx, hready⟩ := List.mem_map.mp hst
    rw [List.all_eq_true]
    exact fun hall => absurd (hready.symm.trans (eq_of_beq (hall x hx))) (by decide)
  rw [scrTeam_of_aligned hact h, if_pos rfl]
  dsimp only
  rw [if_neg hidle]
  have hstart : Started (teamBooks s c w true) ((teamBooks s c w true).startOp (teamOp s c w true)).2 c .teamLoad P :=
    started_startOp rfl rfl rfl hP
  exact started_of_bookkept (bookkept_recordLanes ..) (started_of_onlyAgenda hstart rfl)

/-- A team store with an active lane enters the stopper (R190, R195). -/
theorem teamStore_held {s : State} {c : Cur} {w : MF} (h : Aligned s c w.g (teamAddr s c w) (2 ^ w.sz.toNat))
    (hact : activeLanes s c w.g ≠ []) (hnew : NewEntry s c) {P : Op → Prop}
    (hP : ∀ i n m, P { heldOp (teamOp s c w false) m with id := i, seq := n }) : HeldBy s (scrTeam s c w false) c .teamStore P := by
  have hbooks : Bookkept s (teamBooks s c w false) := bookkept_recordLanes ..
  have hheld := heldBy_of_bookkept hbooks fun hn => heldBy_enterStopper hn rfl rfl rfl hP
  rw [scrTeam_of_aligned hact h, if_neg Bool.false_ne_true]
  exact hheld hnew

/-- Settles O38: a team access with an active lane starts its operation beside the records of its lanes out of range. -/
theorem teamScratchForms : Obligations.TeamScratchForms := by
  refine ⟨fun w s c h => ⟨_, issue_ok _ h, fun hsco ha hin => ?_⟩, fun w s c h => ⟨_, issue_ok _ h, fun hsco ha hact hnew => ?_⟩⟩
  · rw [if_pos hsco]
    exact teamLoad_started ha hin fun _ _ => ⟨rfl, rfl, rfl, teamOp_lanes s c w true fun l => (l.lane, l.addr, l.st)⟩
  · rw [if_pos hsco]
    exact teamStore_held ha hact hnew fun _ _ _ => ⟨rfl, rfl, teamOp_lanes s c w false fun l => (l.lane, l.addr, l.data, l.st)⟩

end Sys2Proof.Proofs
end

section
/-! SUPPORT. Numbers in a byte memory: what writes at some places leave at the others, one after another. -/

namespace Sys2Proof.Proofs

open Sys2Proof Sys2Proof.Machine Sys2Proof.Laws

/-! ### Other places -/

/-- A byte written leaves the others, in whatever form the memory is. -/
theorem read_write_other (m : Mem) {i j : Nat} (v : Byte) (h : j ≠ i) : (m.write i v).read j = m.read j := by
  induction m with
  | nil =>
    simp only [Mem.write]
    split <;> simp [Mem.read, h]
  | cons e m ih =>
    obtain ⟨a, b⟩ := e
    simp only [Mem.write]
    split
    · split <;> simp [Mem.read, h]
    · split
      · next hia => split <;> simp [Mem.read, ← hia, h]
      · simp only [Mem.read, ih]

theorem read_writeBytes_other (m : Mem) {a j : Nat} (bs : List Byte) (h : j < a ∨ a + bs.length ≤ j) :
    (m.writeBytes a bs).read j = m.read j := by
  induction bs generalizing m a with
  | nil => rfl
  | cons b bs ih =>
    rw [List.length_cons] at h
    rw [Mem.writeBytes, ih _ (by omega), read_write_other _ _ (by omega)]

theorem read_writeN_other (m : Mem) {a n j : Nat} (v : Nat) (h : j < a ∨ a + n ≤ j) : (m.writeN a v n).read j = m.read j :=
  read_writeBytes_other m _ (by rwa [leBytes_length])

theorem readN_congr {m m' : Mem} {a n : Nat} (h : ∀ x, a ≤ x → x < a + n → m'.read x = m.read x) : m'.readN a n = m.readN a n := by
  induction n generalizing a with
  | zero => rfl
  | succ n ih => rw [Mem.readN, Mem.readN, h a le_rfl (by omega), ih fun x hx hlt => h x (by omega) (by omega)]

theorem readN_lt (m : Mem) (a n : Nat) : m.readN a n < 2 ^ (8 * n) := by
  induction n generalizing a with
  | zero => exact Nat.one_pos
  | succ n ih =>
    have hrest := ih (a + 1)
    have hbyte := (m.read a).isLt
    rw [Mem.readN, Nat.mul_succ, Nat.pow_add]
    omega

/-! ### Writes one after another -/

/-- Each step writes `n` bytes of the memory at the place of its element. -/
def WritesAt {σ α : Type} (mem : σ → Mem) (place : α → Nat) (n : Nat) (f : σ → α → σ) : Prop :=
  ∀ t x, ∃ v, mem (f t x) = (mem t).writeN (place x) v n

namespace WritesAt

variable {σ α : Type} {mem : σ → Mem} {place : α → Nat} {n : Nat} {f : σ → α → σ} (h : WritesAt mem place n f)
include h

theorem read_foldl (t : σ) {ls : List α} {a : Nat} (ha : ∀ x ∈ ls, a < place x ∨ place x + n ≤ a) :
    (mem (ls.foldl f t)).read a = (mem t).read a := by
  refine List.foldlRecOn (motive := fun r => (mem r).read a = (mem t).read a) ls f rfl fun r hr x hx => ?_
  obtain ⟨v, hv⟩ := h r x
  rw [hv, read_writeN_other _ _ (ha x hx), hr]

/-- A number apart from every place that is written. -/
theorem readN_foldl (t : σ) {ls : List α} {a : Nat} (ha : ∀ x ∈ ls, a + n ≤ place x ∨ place x + n ≤ a) :
    (mem (ls.foldl f t)).readN a n = (mem t).readN a n :=
  readN_congr fun y hlo hhi => h.read_foldl t fun x hx => by have := ha x hx; omega

theorem wf_foldl {t : σ} (ht : (mem t).wf = true) (ls : List α) : (mem (ls.foldl f t)).wf = true :=
  List.foldlRecOn (motive := fun r => (mem r).wf = true) ls f ht fun r hr x _ => by
    obtain ⟨v, hv⟩ := h r x
    rw [hv]
    exact wf_writeN _ _ _ hr

end WritesAt

end Sys2Proof.Proofs
end

section
/-! SUPPORT. Plain stores to scratch: the bytes of each lane in range, the last writer's where several meet (O32, R188, R189). -/

namespace Sys2Proof.Proofs

open Sys2Proof Sys2Proof.Machine Sys2Proof.Laws

/-! ### Places in scratch -/

/-- The place of a lane's bytes in the core's own scratch. -/
def scrPlace (c : Cur) (x : Nat × Nat) : Nat := scrAddr c.u.die c.u.core (x.2 % 2 ^ 19)

theorem not_touches_iff {c : Cur} {x : Nat × Nat} {n a : Nat} :
    ¬Touches c x.2 n a ↔ a < scrPlace c x ∨ scrPlace c x + n ≤ a := by
  unfold Touches scrPlace
  omega

/-- Aligned accesses at different places do not meet. -/
theorem scrPlace_apart {c : Cur} {x y : Nat × Nat} {n : Nat} (hn : n ∣ 2 ^ 19) (hx : x.2 % n = 0) (hy : y.2 % n = 0)
    (h : x.2 % 2 ^ 19 ≠ y.2 % 2 ^ 19) : scrPlace c x + n ≤ scrPlace c y ∨ scrPlace c y + n ≤ scrPlace c x := by
  obtain ⟨i, hi⟩ : n ∣ x.2 % 2 ^ 19 := (Nat.dvd_mod_iff hn).mpr (Nat.dvd_of_mod_eq_zero hx)
  obtain ⟨j, hj⟩ : n ∣ y.2 % 2 ^ 19 := (Nat.dvd_mod_iff hn).mpr (Nat.dvd_of_mod_eq_zero hy)
  unfold scrPlace scrAddr
  rw [hi, hj] at h ⊢
  rcases lt_trichotomy i j with hlt | rfl | hlt
  · have := Nat.mul_le_mul_left n hlt
    rw [Nat.mul_succ] at this
    omega
  · exact absurd rfl h
  · have := Nat.mul_le_mul_left n hlt
    rw [Nat.mul_succ] at this
    omega

/-- Access sizes divide the size of a core's scratch. -/
theorem two_pow_dvd_scratch (sz : BitVec 3) : 2 ^ sz.toNat ∣ 2 ^ 19 := Nat.pow_dvd_pow 2 (by omega)

/-! ### The lanes in range, in their order -/

section
variable {s : State} {c : Cur} {g : Guard} {ad : Nat → Nat} {n : Nat}

theorem okLanes_pairwise : (okLanes s c g ad n).Pairwise fun x y => x.1 < y.1 :=
  List.Pairwise.filter _ (List.pairwise_map.mpr (((List.pairwise_lt_range).filter _).filter _))

/-- A lane in range, with the lower ones before it and the higher ones behind. -/
theorem okLanes_split {l : Nat} (hl : l ∈ realLanes s c g) (hr : laneInRange s c true n (ad l) = true) :
    ∃ before after, okLanes s c g ad n = before ++ (l, ad l) :: after ∧ (∀ x ∈ before, x.1 < l) ∧ ∀ x ∈ after, l < x.1 := by
  obtain ⟨before, after, heq⟩ := List.append_of_mem (mem_okLanes.mpr ⟨hl, rfl, hr⟩ : (l, ad l) ∈ okLanes s c g ad n)
  have hpair := okLanes_pairwise (s := s) (c := c) (g := g) (ad := ad) (n := n)
  rw [heq, List.pairwise_append, List.pairwise_cons] at hpair
  obtain ⟨-, ⟨hafter, -⟩, hbefore⟩ := hpair
  exact ⟨before, after, heq, fun x hx => hbefore x hx _ List.mem_cons_self, hafter⟩

/-- The lanes in range are aligned when every active lane is. -/
theorem okLanes_aligned (h : Aligned s c g ad n) {x : Nat × Nat} (hx : x ∈ okLanes s c g ad n) : x.2 % n = 0 := by
  obtain ⟨hreal, hxa, -⟩ := mem_okLanes.mp hx
  obtain ⟨⟨hlt, hact⟩, -⟩ := mem_realLanes.mp hreal
  rw [hxa]
  exact h _ hact hlt

end

/-! ### STS -/

theorem onlyScratch_scrPut (s : State) (u : UnitId) (a v n cyc : Nat) : OnlyScratch s (s.scrPut u a v n cyc) := rfl

theorem onlyScratch_foldl {α : Type} {f : State → α → State} (h : ∀ s a, OnlyScratch s (f s a)) (s : State) (l : List α) :
    OnlyScratch s (l.foldl f s) :=
  List.foldlRecOn (motive := OnlyScratch s) l f rfl fun t ht a _ => ht.trans (h t a)

/-- The store of one lane. -/
def storeLane (s : State) (c : Cur) (d n : Nat) (t : State) (x : Nat × Nat) : State :=
  t.scrPut c.u x.2 (dataOf s c d x.1 n) n (c.cycle + 1)

theorem writesAt_storeLane (s : State) (c : Cur) (d n : Nat) :
    WritesAt State.scratch (scrPlace c) n (storeLane s c d n) := fun _ _ => ⟨_, rfl⟩

theorem dataOf_lt (s : State) (c : Cur) (d l n : Nat) : dataOf s c d l n < 2 ^ (8 * n) := by
  have hr (j : Nat) := readField_lt s c (d + j) l
  unfold dataOf
  dsimp only
  split
  · next hn =>
    subst hn
    have h0 := hr 0
    have h1 := hr 1
    have h2 := hr 2
    have h3 := hr 3
    omega
  · split
    · next hn =>
      subst hn
      have h0 := hr 0
      have h1 := hr 1
      omega
    · exact Nat.mod_lt _ (Nat.two_pow_pos _)

/-- What the stores of the lanes in range leave: each its bytes, but where a higher lane stores, and every other byte. -/
theorem storeLanes_result {s r : State} {c : Cur} {g : Guard} {ad : Nat → Nat} {n : Nat} (hr : Bookkept s r) (hwf : s.memWf)
    (hn : n ∣ 2 ^ 19) (ha : Aligned s c g ad n) (d : Nat) :
    let t := (okLanes s c g ad n).foldl (storeLane s c d n) r
    let stores (l : Nat) : Prop := l ∈ realLanes s c g ∧ laneInRange s c true n (ad l) = true
    SameRegisters s t ∧ t.pend = s.pend ∧ t.hbm = s.hbm ∧ t.hostMem = s.hostMem ∧ t.code = s.code ∧ SameSystem s t ∧
      (∀ x, (∀ l, stores l → ¬Touches c (ad l) n x) → t.scratch.read x = s.scratch.read x) ∧
      (∀ l, stores l → (∀ k, stores k → l < k → ad k % 2 ^ 19 ≠ ad l % 2 ^ 19) →
        t.scratch.readN (scrAddr c.u.die c.u.core (ad l % 2 ^ 19)) n = dataOf s c d l n) := by
  intro t stores
  have hwrites := writesAt_storeLane s c d n
  have hall : OnlyScratch s t :=
    hr.onlyScratch.trans (onlyScratch_foldl (f := storeLane s c d n) (fun _ _ => onlyScratch_scrPut ..) _ _)
  have hpend : t.pend = r.pend := foldl_keeps State.pend (f := storeLane s c d n) (fun _ _ => rfl) _ _
  obtain ⟨hhbm, hhost, hcode⟩ := hall.memories
  refine ⟨hall.sameRegisters, hpend.trans hr.pend, hhbm, hhost, hcode, hall.sameSystem, fun a hout => ?other,
    fun l ⟨hl, hin⟩ hlast => ?own⟩
  case other =>
    refine (hwrites.read_foldl r fun x hx => ?_).trans (by rw [hr.scratch])
    obtain ⟨hreal, hxa, hin⟩ := mem_okLanes.mp hx
    refine not_touches_iff.mp ?_
    rw [hxa]
    exact hout _ ⟨hreal, hin⟩
  case own =>
    obtain ⟨before, after, hsplit, -, hafter⟩ := okLanes_split hl hin
    have hmem (x : Nat × Nat) (hx : x ∈ after) : x ∈ okLanes s c g ad n := by
      rw [hsplit]
      exact List.mem_append_right _ (List.mem_cons_of_mem _ hx)
    have ht : t = after.foldl (storeLane s c d n) (storeLane s c d n (before.foldl (storeLane s c d n) r) (l, ad l)) := by
      rw [← List.foldl_cons, ← List.foldl_append, ← hsplit]
    rw [ht]
    refine (hwrites.readN_foldl (a := scrPlace c (l, ad l)) _ fun x hx => ?_).trans ?_
    · obtain ⟨hreal, hxa, hxin⟩ := mem_okLanes.mp (hmem x hx)
      refine scrPlace_apart hn (okLanes_aligned ha (mem_okLanes.mpr ⟨hl, rfl, hin⟩)) (okLanes_aligned ha (hmem x hx)) ?_
      rw [hxa]
      exact (hlast _ ⟨hreal, hxin⟩ (hafter x hx)).symm
    · have hwf' := hwrites.wf_foldl (t := r) (by rw [hr.scratch]; exact hwf.2.2.1) before
      exact (readN_writeN hwf' ..).trans (Nat.mod_eq_of_lt (dataOf_lt ..))

/-- A plain store of aligned lanes: each in range stores its data (R188, R189). -/
theorem scrPlain_store {s : State} {c : Cur} {w : MF} (h : Aligned s c w.g (lineAddr s c w w.off.toInt) (2 ^ w.sz.toNat)) :
    ∃ r, Bookkept s r ∧ scrPlain s c w false = (okLanes s c w.g (lineAddr s c w w.off.toInt) (2 ^ w.sz.toNat)).foldl
      (storeLane s c w.data.toNat (2 ^ w.sz.toNat)) r :=
  ⟨_, bookkept_accessBooks .., if_neg (misalignedLanes_isEmpty h)⟩

theorem sts_completes (w : MF) : Completes (.sts w) fun s c t =>
    let n := 2 ^ w.sz.toNat
    let ad := lineAddr s c w w.off.toInt
    let stores (l : Nat) : Prop := l ∈ realLanes s c w.g ∧ laneInRange s c true n (ad l) = true
    s.memWf → w.sco ≠ 1 → Aligned s c w.g ad n →
    SameRegisters s t ∧ t.pend = s.pend ∧ t.hbm = s.hbm ∧ t.hostMem = s.hostMem ∧ t.code = s.code ∧ SameSystem s t ∧
      (∀ x, (∀ l, stores l → ¬Touches c (ad l) n x) → t.scratch.read x = s.scratch.read x) ∧
      (∀ l, stores l → (∀ k, stores k → l < k → ad k % 2 ^ 19 ≠ ad l % 2 ^ 19) →
        t.scratch.readN (scrAddr c.u.die c.u.core (ad l % 2 ^ 19)) n = dataOf s c w.data.toNat l n) := by
  refine fun s c h => ⟨_, issue_ok _ h, fun hwf hsco ha => ?_⟩
  obtain ⟨r, hr, heq⟩ := scrPlain_store ha
  rw [if_neg hsco, heq]
  exact storeLanes_result hr hwf (two_pow_dvd_scratch w.sz) ha _

end Sys2Proof.Proofs
end

section
/-! SUPPORT. The ATOMS family (O32, R180, R192): its lanes in ascending order, what each finds and leaves, and what lands. -/

namespace Sys2Proof.Proofs

open Sys2Proof Sys2Proof.Machine Sys2Proof.Laws

/-- The access size of an atomic. -/
def atomSize (w : RF) : Nat := if w.ty.toNat = 7 then 8 else 4

theorem atomSize_cases (w : RF) : (w.ty.toNat = 7 ∧ atomSize w = 8) ∨ (w.ty.toNat ≠ 7 ∧ atomSize w = 4) := by
  unfold atomSize
  split
  · next h => exact .inl ⟨h, rfl⟩
  · next h => exact .inr ⟨h, rfl⟩

theorem atomSize_dvd_scratch (w : RF) : atomSize w ∣ 2 ^ 19 := by
  rcases atomSize_cases w with ⟨-, h⟩ | ⟨-, h⟩ <;> rw [h] <;> decide

/-- The address of a lane of a scratch atomic. -/
def atomAddr (s : State) (c : Cur) (w : RF) (l : Nat) : Nat := (readField s c w.a.toNat l false).toNat

/-- What one lane of an atomic does to the state, the flags and the old values (R192). -/
def atomLane (s : State) (c : Cur) (w : RF) (fn : Nat) (x : State × Nat × List (Nat × Nat)) (y : Nat × Nat) :
    State × Nat × List (Nat × Nat) :=
  let m := scrOf x.1 c.u y.2 (atomSize w)
  let r := atomF fn w.ty.toNat m (atomOpnd s c w.b.toNat y.1 (atomSize w)) (atomOpnd s c w.c.toNat y.1 (atomSize w))
  (x.1.scrPut c.u y.2 r.1 (atomSize w) (c.cycle + 1), flOr x.2.1 r.2, (y.1, m) :: x.2.2)

/-- The old value that a lane receives: its own, or that of the lane that makes its access. -/
def atomOld (s : State) (c : Cur) (olds : List (Nat × Nat)) (l : Nat) : Nat :=
  match olds.find? fun x => x.1 = ownerLane s c l with
  | some x => x.2
  | none => 0

/-! ### The lanes in their order -/

section
variable (s : State) (c : Cur) (w : RF) (fn : Nat)

theorem writesAt_atomLane : WritesAt (fun x => x.1.scratch) (scrPlace c) (atomSize w) (atomLane s c w fn) := fun _ _ => ⟨_, rfl⟩

theorem onlyScratch_atomLanes (x : State × Nat × List (Nat × Nat)) (ls : List (Nat × Nat)) :
    OnlyScratch x.1 (ls.foldl (atomLane s c w fn) x).1 :=
  List.foldlRecOn (motive := fun y => OnlyScratch x.1 y.1) ls (atomLane s c w fn) (show OnlyScratch x.1 x.1 from rfl)
    fun _ hy _ _ => hy.trans (onlyScratch_scrPut ..)

/-- Each lane adds its old value. -/
theorem atomLanes_olds (x : State × Nat × List (Nat × Nat)) (ls : List (Nat × Nat)) :
    ∃ olds, (ls.foldl (atomLane s c w fn) x).2.2 = olds ++ x.2.2 ∧ ∀ y ∈ olds, ∃ z ∈ ls, y.1 = z.1 := by
  induction ls generalizing x with
  | nil => exact ⟨[], rfl, fun _ h => absurd h List.not_mem_nil⟩
  | cons z ls ih =>
    obtain ⟨olds, heq, hlanes⟩ := ih (atomLane s c w fn x z)
    refine ⟨olds ++ [(z.1, scrOf x.1 c.u z.2 (atomSize w))], ?_, fun y hy => ?_⟩
    · rw [List.foldl_cons, heq, List.append_assoc]
      rfl
    · rcases List.mem_append.mp hy with hy | hy
      · obtain ⟨k, hk, hyk⟩ := hlanes y hy
        exact ⟨k, List.mem_cons_of_mem _ hk, hyk⟩
      · rw [List.mem_singleton.mp hy]
        exact ⟨z, List.mem_cons_self, rfl⟩

end

section
variable {s : State} {c : Cur} {w : RF} {fn : Nat}

theorem find?_olds_none {l : Nat} {olds : List (Nat × Nat)} {ls : List (Nat × Nat)} (h : ∀ y ∈ olds, ∃ z ∈ ls, y.1 = z.1)
    (hl : ∀ z ∈ ls, z.1 ≠ l) : (olds.find? fun x => x.1 = l) = none := by
  refine List.find?_eq_none.mpr fun y hy hyl => ?_
  obtain ⟨z, hz, hyz⟩ := h y hy
  exact hl z hz (hyz.symm.trans (of_decide_eq_true hyl))

/-- A lane that takes no part receives 0. -/
theorem atomOld_of_absent {l : Nat} (hl : l ∈ realLanes s c w.g) (r : State) {ls : List (Nat × Nat)} (hls : ∀ z ∈ ls, z.1 ≠ l) :
    atomOld s c (ls.foldl (atomLane s c w fn) (r, 0, [])).2.2 l = 0 := by
  obtain ⟨olds, heq, hlanes⟩ := atomLanes_olds s c w fn (r, 0, []) ls
  rw [atomOld, ownerLane_of_real hl, heq, List.append_nil, find?_olds_none hlanes hls]

/-- A lane receives what it found. -/
theorem atomOld_of_present {l a : Nat} (hl : l ∈ realLanes s c w.g) (r : State) {before after : List (Nat × Nat)}
    (hafter : ∀ z ∈ after, z.1 ≠ l) :
    atomOld s c ((before ++ (l, a) :: after).foldl (atomLane s c w fn) (r, 0, [])).2.2 l =
      scrOf (before.foldl (atomLane s c w fn) (r, 0, [])).1 c.u a (atomSize w) := by
  rw [List.foldl_append, List.foldl_cons]
  obtain ⟨olds, heq, hlanes⟩ := atomLanes_olds s c w fn (atomLane s c w fn (before.foldl (atomLane s c w fn) (r, 0, [])) (l, a)) after
  rw [atomOld, ownerLane_of_real hl, heq, List.find?_append, find?_olds_none hlanes hafter]
  simp [atomLane]

end

/-! ### What an atomic leaves -/

/-- The state after an atomic of aligned lanes: the lanes in range in their order, what lands, and the flags (R192). -/
def afterAtoms (s : State) (c : Cur) (w : RF) (fn lat : Nat) (r : State) : State :=
  let q := (okLanes s c w.g (atomAddr s c w) (atomSize w)).foldl (atomLane s c w fn) (r, 0, [])
  (landLaneBytes q.1 c w.d.toNat (atomSize w) (atomOld s c q.2.2) (c.cycle + lat) (activeLanes s c w.g)).raise c.u q.2.1
    (c.cycle + lat) c.cycle

theorem atoms_of_aligned {s : State} {c : Cur} {w : RF} (h : Aligned s c w.g (atomAddr s c w) (atomSize w))
    (hclean : ∀ l, s.scrPoisoned c.u.die c.u.core (atomAddr s c w l % 2 ^ 19) (atomSize w) = false) (fn : Nat) :
    ∃ r lat, Bookkept s r ∧ 12 ≤ lat ∧ atoms s c w fn = afterAtoms s c w fn lat r := by
  let ok := okLanes s c w.g (atomAddr s c w) (atomSize w)
  let h := bankHits (ok.flatMap fun x => wordsOf x.2 (atomSize w))
  refine ⟨accessBooks s c [h] true (atomSize w) ((realLanes s c w.g).map fun l => (l, atomAddr s c w l))
    (pairsDiffer s c (activeLanes s c w.g) fun l => [atomAddr s c w l, atomOpnd s c w.b.toNat l (atomSize w),
      atomOpnd s c w.c.toNat l (atomSize w)]), 12 + (maxLoad h - 1), bookkept_accessBooks .., Nat.le_add_right .., ?_⟩
  refine Eq.trans ?_ (consumeBad_of_clean (g := w.g) hclean)
  unfold afterAtoms
  rw [← Nat.add_assoc]
  exact if_neg (misalignedLanes_isEmpty ‹_›)

theorem afterAtoms_onlyPending (s r : State) (c : Cur) (w : RF) (fn lat : Nat) :
    OnlyPending ((okLanes s c w.g (atomAddr s c w) (atomSize w)).foldl (atomLane s c w fn) (r, 0, [])).1 (afterAtoms s c w fn lat r) :=
  onlyPending_trans (onlyPending_landLaneBytes ..) (onlyPending_raise ..)

theorem afterAtoms_scratch (s r : State) (c : Cur) (w : RF) (fn lat : Nat) : (afterAtoms s c w fn lat r).scratch =
    ((okLanes s c w.g (atomAddr s c w) (atomSize w)).foldl (atomLane s c w fn) (r, 0, [])).1.scratch :=
  scratch_of_onlyPending (afterAtoms_onlyPending ..)

/-- Each active lane receives its old value. -/
theorem afterAtoms_lands (s r : State) (c : Cur) (w : RF) (fn lat : Nat) {l : Nat} (hl : l ∈ activeLanes s c w.g) :
    LandsBytes (afterAtoms s c w fn lat r) c w.d.toNat l (atomSize w)
      (atomOld s c ((okLanes s c w.g (atomAddr s c w) (atomSize w)).foldl (atomLane s c w fn) (r, 0, [])).2.2 l) lat :=
  landsBytes_of_grows (landsBytes_landLaneBytes _ c _ _ (atomOld s c _) lat hl) (grows_raise _ _ _ _ _)

/-- Nothing but scratch changes, and there only the bytes of lanes in range. -/
theorem afterAtoms_frame {s r : State} {c : Cur} (hr : Bookkept s r) (w : RF) (fn lat : Nat) :
    let t := afterAtoms s c w fn lat r
    SameRegisters s t ∧ t.hbm = s.hbm ∧ t.hostMem = s.hostMem ∧ t.code = s.code ∧ SameSystem s t ∧
      ∀ x, (∀ l ∈ realLanes s c w.g, laneInRange s c true (atomSize w) (atomAddr s c w l) = true →
        ¬Touches c (atomAddr s c w l) (atomSize w) x) → t.scratch.read x = s.scratch.read x := by
  intro t
  have hall : OnlyScratch s t := (hr.onlyScratch.trans (onlyScratch_atomLanes s c w fn (r, 0, []) _)).trans
    (onlyScratch_of_onlyPending (afterAtoms_onlyPending ..))
  obtain ⟨hhbm, hhost, hcode⟩ := hall.memories
  refine ⟨hall.sameRegisters, hhbm, hhost, hcode, hall.sameSystem, fun a hout => ?_⟩
  rw [afterAtoms_scratch]
  refine ((writesAt_atomLane s c w fn).read_foldl (r, 0, []) fun x hx => ?_).trans (by rw [hr.scratch])
  obtain ⟨hreal, hxa, hin⟩ := mem_okLanes.mp hx
  refine not_touches_iff.mp ?_
  rw [hxa]
  exact hout _ hreal hin

/-- A lane out of range receives 0. -/
theorem afterAtoms_out_of_range {s : State} {c : Cur} {w : RF} {l : Nat} (hl : l ∈ realLanes s c w.g)
    (hout : laneInRange s c true (atomSize w) (atomAddr s c w l) = false) (r : State) (fn lat : Nat) :
    LandsBytes (afterAtoms s c w fn lat r) c w.d.toNat l (atomSize w) 0 lat := by
  have hlands := afterAtoms_lands s r c w fn lat (mem_activeLanes.mpr (mem_realLanes.mp hl).1)
  rwa [atomOld_of_absent hl r fun z hz hzl => ?_] at hlands
  obtain ⟨-, -, hin⟩ := mem_okLanes.mp hz
  rw [hzl, hout] at hin
  exact Bool.false_ne_true hin

/-- What a location holds in scratch. -/
def atomFound (s : State) (c : Cur) (w : RF) (l : Nat) : Nat :=
  s.scratch.readN (scrAddr c.u.die c.u.core (atomAddr s c w l % 2 ^ 19)) (atomSize w)

/-- A lane in range and alone at its location receives what that held, and leaves there what the function says (R180, R192). -/
theorem afterAtoms_alone {s r : State} {c : Cur} {w : RF} (hr : Bookkept s r) (hwf : s.memWf)
    (ha : Aligned s c w.g (atomAddr s c w) (atomSize w)) {l : Nat} (hl : l ∈ realLanes s c w.g)
    (hin : laneInRange s c true (atomSize w) (atomAddr s c w l) = true)
    (halone : ∀ k ∈ realLanes s c w.g, k ≠ l → laneInRange s c true (atomSize w) (atomAddr s c w k) = true →
      atomAddr s c w k % 2 ^ 19 ≠ atomAddr s c w l % 2 ^ 19) (fn lat : Nat) :
    let t := afterAtoms s c w fn lat r
    LandsBytes t c w.d.toNat l (atomSize w) (atomFound s c w l) lat ∧
      t.scratch.readN (scrAddr c.u.die c.u.core (atomAddr s c w l % 2 ^ 19)) (atomSize w) =
        (atomF fn w.ty.toNat (atomFound s c w l) (atomOpnd s c w.b.toNat l (atomSize w)) (atomOpnd s c w.c.toNat l (atomSize w))).1 %
          2 ^ (8 * atomSize w) := by
  intro t
  obtain ⟨before, after, hsplit, hbefore, hafter⟩ := okLanes_split hl hin
  have hwrites := writesAt_atomLane s c w fn
  have hapart (x : Nat × Nat) (hx : x ∈ okLanes s c w.g (atomAddr s c w) (atomSize w)) (hxl : x.1 ≠ l) :
      scrPlace c (l, atomAddr s c w l) + atomSize w ≤ scrPlace c x ∨ scrPlace c x + atomSize w ≤ scrPlace c (l, atomAddr s c w l) := by
    obtain ⟨hreal, hxa, hxin⟩ := mem_okLanes.mp hx
    refine scrPlace_apart (atomSize_dvd_scratch w) (okLanes_aligned ha (mem_okLanes.mpr ⟨hl, rfl, hin⟩)) (okLanes_aligned ha hx) ?_
    rw [hxa]
    exact (halone _ hreal hxl hxin).symm
  have hfound : scrOf (before.foldl (atomLane s c w fn) (r, 0, [])).1 c.u (atomAddr s c w l) (atomSize w) = atomFound s c w l :=
    (hwrites.readN_foldl (a := scrPlace c (l, atomAddr s c w l)) (r, 0, []) fun x hx =>
      hapart x (hsplit ▸ List.mem_append_left _ hx) (hbefore x hx).ne).trans (by rw [hr.scratch]; rfl)
  constructor
  · have hlands := afterAtoms_lands s r c w fn lat (mem_activeLanes.mpr (mem_realLanes.mp hl).1)
    rwa [hsplit, atomOld_of_present hl r fun z hz => (hafter z hz).ne', hfound] at hlands
  · rw [afterAtoms_scratch, hsplit, List.foldl_append, List.foldl_cons]
    refine (hwrites.readN_foldl (a := scrPlace c (l, atomAddr s c w l)) _ fun x hx =>
      hapart x (hsplit ▸ List.mem_append_right _ (List.mem_cons_of_mem _ hx)) (hafter x hx).ne').trans ?_
    have hwf' := hwrites.wf_foldl (t := (r, 0, [])) (by rw [hr.scratch]; exact hwf.2.2.1) before
    exact (readN_writeN hwf' ..).trans (by rw [hfound])

end Sys2Proof.Proofs
end

section
/-! SUPPORT. Table 9.3: what an atomic on scratch leaves at its location, by its function (O32, R192). -/

namespace Sys2Proof.Proofs

open Sys2Proof Sys2Proof.Machine Sys2Proof.Laws

/-! ### Operands -/

/-- The width of an atomic in bits. -/
def atomBits (w : RF) : Nat := if w.ty.toNat = 7 then 64 else 32

theorem eight_mul_atomSize (w : RF) : 8 * atomSize w = atomBits w := by
  unfold atomSize atomBits
  split <;> rfl

theorem atomBits_cases (w : RF) : (w.ty.toNat = 7 ∧ atomBits w = 64) ∨ (w.ty.toNat ≠ 7 ∧ atomBits w = 32) := by
  unfold atomBits
  split
  · next h => exact .inl ⟨h, rfl⟩
  · next h => exact .inr ⟨h, rfl⟩

/-- The operand of a lane: the register that a field names, or 0. -/
def atomWord (s : State) (c : Cur) (w : RF) (r : BitVec 8) (l : Nat) : Word64 :=
  if r = 0xFF then 0 else readField s c r.toNat l (atomSize w == 8)

theorem atomWord_lt (s : State) (c : Cur) (w : RF) (r : BitVec 8) (l : Nat) : (atomWord s c w r l).toNat < 2 ^ atomBits w := by
  unfold atomWord
  split
  · exact Nat.two_pow_pos _
  · rw [← eight_mul_atomSize]
    rcases atomSize_cases w with ⟨-, h⟩ | ⟨-, h⟩ <;> rw [h]
    · exact BitVec.isLt _
    · exact readField_lt s c r.toNat l

theorem atomOpnd_eq (s : State) (c : Cur) (w : RF) (r : BitVec 8) (l : Nat) :
    atomOpnd s c r.toNat l (atomSize w) = (atomWord s c w r l).toNat := by
  have hlt := atomWord_lt s c w r l
  unfold atomOpnd atomWord at *
  by_cases h : r = 0xFF
  · rw [if_pos h]
    exact if_pos (congrArg BitVec.toNat h)
  · rw [if_neg h] at hlt ⊢
    exact (if_neg fun h' => h (BitVec.eq_of_toNat_eq h')).trans (by rw [eight_mul_atomSize, Nat.mod_eq_of_lt hlt])

/-- What a location holds, as a word. -/
def atomHeld (s : State) (c : Cur) (w : RF) (l : Nat) : Word64 := BitVec.ofNat 64 (atomFound s c w l)

theorem atomFound_lt (s : State) (c : Cur) (w : RF) (l : Nat) : atomFound s c w l < 2 ^ atomBits w := by
  rw [← eight_mul_atomSize]
  exact readN_lt ..

theorem atomHeld_toNat (s : State) (c : Cur) (w : RF) (l : Nat) : (atomHeld s c w l).toNat = atomFound s c w l := by
  have hlt := atomFound_lt s c w l
  rw [atomHeld, BitVec.toNat_ofNat, Nat.mod_eq_of_lt]
  rcases atomBits_cases w with ⟨-, h⟩ | ⟨-, h⟩ <;> rw [h] at hlt <;> omega

/-! ### Completion -/

/-- What an atomic of aligned lanes lands and leaves where a lane is alone, by a relation of what the location held, the two
operands and what it then holds. -/
def AtomicGives (s : State) (c : Cur) (t : State) (w : RF) (F : Word64 → Word64 → Word64 → Nat → Prop) : Prop :=
  s.memWf → Aligned s c w.g (atomAddr s c w) (atomSize w) →
  (∀ l, s.scrPoisoned c.u.die c.u.core (atomAddr s c w l % 2 ^ 19) (atomSize w) = false) →
  ∃ lat, 12 ≤ lat ∧ ∀ l ∈ realLanes s c w.g,
    (laneInRange s c true (atomSize w) (atomAddr s c w l) = false → LandsBytes t c w.d.toNat l (atomSize w) 0 lat) ∧
    (laneInRange s c true (atomSize w) (atomAddr s c w l) = true →
      (∀ k ∈ realLanes s c w.g, k ≠ l → laneInRange s c true (atomSize w) (atomAddr s c w k) = true →
        atomAddr s c w k % 2 ^ 19 ≠ atomAddr s c w l % 2 ^ 19) →
      LandsBytes t c w.d.toNat l (atomSize w) (atomHeld s c w l).toNat lat ∧
        F (atomHeld s c w l) (atomWord s c w w.b l) (atomWord s c w w.c l)
          (t.scratch.readN (scrAddr c.u.die c.u.core (atomAddr s c w l % 2 ^ 19)) (atomSize w)))

/-- What a function of Table 9.3 leaves at a location of the width of an atomic. -/
def AtomLeaves (w : RF) (fn : Nat) (F : Word64 → Word64 → Word64 → Nat → Prop) : Prop :=
  ∀ m b k : Word64, m.toNat < 2 ^ atomBits w → b.toNat < 2 ^ atomBits w →
    F m b k ((atomF fn w.ty.toNat m.toNat b.toNat k.toNat).1 % 2 ^ atomBits w)

section
variable {i : Instr} {w : RF} {fn : Nat} (hi : ∀ s, exec i s = issue i s fun c => atoms s c w fn)
include hi

theorem atoms_frame : Completes i fun s c t =>
    Aligned s c w.g (atomAddr s c w) (atomSize w) →
    (∀ l, s.scrPoisoned c.u.die c.u.core (atomAddr s c w l % 2 ^ 19) (atomSize w) = false) →
    SameRegisters s t ∧ t.hbm = s.hbm ∧ t.hostMem = s.hostMem ∧ t.code = s.code ∧ SameSystem s t ∧
      ∀ x, (∀ l ∈ realLanes s c w.g, laneInRange s c true (atomSize w) (atomAddr s c w l) = true →
        ¬Touches c (atomAddr s c w l) (atomSize w) x) → t.scratch.read x = s.scratch.read x := by
  refine fun s c h => ⟨_, (hi s).trans (issue_ok _ h), fun ha hclean => ?_⟩
  obtain ⟨r, lat, hr, -, heq⟩ := atoms_of_aligned ha hclean fn
  rw [heq]
  exact afterAtoms_frame hr w fn lat

theorem atoms_gives {F : Word64 → Word64 → Word64 → Nat → Prop} (hF : AtomLeaves w fn F) :
    Completes i fun s c t => AtomicGives s c t w F := by
  refine fun s c h => ⟨_, (hi s).trans (issue_ok _ h), fun hwf ha hclean => ?_⟩
  obtain ⟨r, lat, hr, hlat, heq⟩ := atoms_of_aligned ha hclean fn
  rw [heq]
  refine ⟨lat, hlat, fun l hl => ⟨fun hout => afterAtoms_out_of_range hl hout r fn lat, fun hin halone => ?_⟩⟩
  obtain ⟨hlands, hholds⟩ := afterAtoms_alone hr hwf ha hl hin halone fn lat
  have hleaves := hF (atomHeld s c w l) (atomWord s c w w.b l) (atomWord s c w w.c l)
    (by rw [atomHeld_toNat]; exact atomFound_lt ..) (atomWord_lt ..)
  rw [atomHeld_toNat, ← atomOpnd_eq, ← atomOpnd_eq] at hleaves
  rw [hholds, atomHeld_toNat, eight_mul_atomSize]
  exact ⟨hlands, hleaves⟩

end

/-! ### Sums of floating-point numbers -/

section
variable {f : Fmt} (hp : 1 ≤ f.p) (hf : f.fin = false) (hnan : f.nan < 2 * f.sbit)
include hp hf hnan

/-- A pattern of a format with infinities is what a value rounds to. -/
theorem roundFV_lt (rm : Nat) (st : Bool) (v : FV) : (roundFV f rm st v).1 < 2 * f.sbit := by
  have hsigned {n : Bool} {p : Nat} (h : p < f.sbit) : f.signed n p < 2 * f.sbit := by
    unfold Fmt.signed
    split <;> omega
  cases v with
  | nan => exact hnan
  | inf n => rw [roundFV_inf hf]; exact hsigned (infPat_lt_sbit f)
  | fin n m e =>
    obtain ⟨p, hlt, heq⟩ := roundTo_signed (f := f) (rm := rm) (st := st) (neg := n) (m := m) (e := e) (sticky := false) hp hf
    exact lt_of_eq_of_lt heq (hsigned hlt)

theorem fAdd_lt (rm : Nat) (st : Bool) (a b : Nat) : (fAdd f rm st a b).1 < 2 * f.sbit := by
  rw [fAdd_eq, sumRound_of rfl]
  exact roundFV_lt hp hf hnan ..

end

theorem fMinMax_lt {f : Fmt} (hnan : f.nan < 2 * f.sbit) (larger : Bool) (a b : Nat) : fMinMax f larger a b < 2 * f.sbit := by
  have hmod (x : Nat) : x % (f.sbit * 2) < 2 * f.sbit := by
    rw [mul_comm]
    exact Nat.mod_lt _ (Nat.mul_pos (by decide) (Nat.two_pow_pos _))
  unfold fMinMax
  dsimp only
  split_ifs
  exacts [hnan, hmod _, hmod _, hmod _, hmod _]

/-- A floating-point sum of a format is what Table 5.2 says, to nearest. -/
def SumHeld (f : Fmt) (m b v : Nat) : Prop := ∃ fl, SumGives f 0 false [f.value m, f.value b] false (v, fl)

theorem sumHeld_fAdd (f : Fmt) (m b : Nat) : SumHeld f m b (fAdd f 0 false m b).1 := ⟨_, fAdd_gives f 0 false m b⟩

theorem fAdd_F32_lt (a b : Nat) : (fAdd F32 0 false a b).1 < 2 ^ 32 := fAdd_lt (by decide) rfl (by decide) ..

theorem fAdd_F16_lt (a b : Nat) : (fAdd F16 0 false a b).1 < 65536 := fAdd_lt (by decide) rfl (by decide) ..

/-! ### Table 9.3 -/

/-- The low bits of a word, of the width of an atomic. -/
def WordHeld (w : RF) (x : Word64) (v : Nat) : Prop := v = x.toNat % 2 ^ atomBits w

/-- Two halves packed into a word of 32 bits. -/
theorem halves_of_packed {x y : Nat} (hx : x < 65536) (hy : y < 65536) :
    (x + 65536 * y) % 2 ^ 32 / 65536 ^ 0 % 65536 = x ∧ (x + 65536 * y) % 2 ^ 32 / 65536 ^ 1 % 65536 = y := by omega

section
variable (w : RF)

theorem leaves_add : AtomLeaves w 0 fun m b _ v =>
    if w.ty.toNat = 8 then SumHeld F32 m.toNat b.toNat v
    else if w.ty.toNat = 11 then v < 2 ^ 32 ∧
      ∀ i, i < 2 → SumHeld F16 (m.toNat / 65536 ^ i % 65536) (b.toNat / 65536 ^ i % 65536) (v / 65536 ^ i % 65536)
    else WordHeld w (m + b) v := by
  intro m b k hm hb
  by_cases h8 : w.ty.toNat = 8
  · have hbits : atomBits w = 32 := if_neg (by omega)
    simp only [atomF, if_pos h8, hbits, Nat.mod_eq_of_lt (fAdd_F32_lt _ _)]
    exact sumHeld_fAdd ..
  by_cases h11 : w.ty.toNat = 11
  · have hbits : atomBits w = 32 := if_neg (by omega)
    rw [hbits] at hm
    obtain ⟨hlo, hhi⟩ := halves_of_packed (fAdd_F16_lt (m.toNat % 65536) (b.toNat % 65536))
      (fAdd_F16_lt (m.toNat / 65536) (b.toNat / 65536 % 65536))
    have hm' : m.toNat / 65536 ^ 1 % 65536 = m.toNat / 65536 := by omega
    simp only [atomF, if_neg h8, if_pos h11, hbits]
    refine ⟨Nat.mod_lt _ (by decide), fun i hi => ?_⟩
    obtain rfl | rfl : i = 0 ∨ i = 1 := by omega
    · rw [hlo]
      simpa only [pow_zero, Nat.div_one] using sumHeld_fAdd F16 (m.toNat % 65536) (b.toNat % 65536)
    · rw [hhi, hm']
      simpa only [pow_one] using sumHeld_fAdd F16 (m.toNat / 65536) (b.toNat / 65536 % 65536)
  · simp only [atomF, if_neg h8, if_neg h11, WordHeld, BitVec.toNat_add]
    rcases atomBits_cases w with ⟨h7, hbits⟩ | ⟨h7, hbits⟩
    · rw [hbits, if_pos h7]
    · rw [hbits, if_neg h7]
      omega

theorem leaves_sub : AtomLeaves w 1 fun m b _ => WordHeld w (m - b) := by
  intro m b k hm hb
  simp only [atomF, WordHeld, BitVec.toNat_sub]
  rcases atomBits_cases w with ⟨h7, hbits⟩ | ⟨h7, hbits⟩
  · rw [hbits, if_pos h7]
    omega
  · rw [hbits, if_neg h7]
    omega

/-- The smaller or larger of two numbers in F32. -/
theorem leaves_minMax_F32 {w : RF} (h8 : w.ty.toNat = 8) {larger : Bool} {m b : Word64} (hm : m.toNat < 2 ^ atomBits w)
    (hb : b.toNat < 2 ^ atomBits w) :
    MinMaxGives F32 larger m.toNat b.toNat (fMinMax F32 larger m.toNat b.toNat % 2 ^ atomBits w) := by
  have hbits : atomBits w = 32 := if_neg (by omega)
  rw [hbits] at hm hb ⊢
  rw [Nat.mod_eq_of_lt (show _ < 2 ^ 32 from fMinMax_lt (f := F32) (by decide) ..)]
  exact fMinMax_gives hm hb

theorem leaves_min : AtomLeaves w 2 fun m b _ v =>
    if w.ty.toNat = 8 then MinMaxGives F32 false m.toNat b.toNat v
    else WordHeld w (if (if w.ty.toNat = 2 then (m.setWidth 32).toInt ≤ (b.setWidth 32).toInt else m.toNat ≤ b.toNat) then m else b) v := by
  intro m b k hm hb
  by_cases h8 : w.ty.toNat = 8
  · simp only [atomF, if_pos h8]
    exact leaves_minMax_F32 h8 hm hb
  simp only [atomF, if_neg h8, WordHeld]
  by_cases h2 : w.ty.toNat = 2
  · simp only [if_pos h2, sgn_toNat (show 0 < 32 by decide), apply_ite BitVec.toNat]
  · simp only [if_neg h2, apply_ite BitVec.toNat, Nat.min_def]

/-- Words of 32 bits of one value with a sign are one. -/
theorem toNat_eq_of_toInt_eq {m b : Word64} (hm : m.toNat < 2 ^ 32) (hb : b.toNat < 2 ^ 32)
    (h : (m.setWidth 32).toInt = (b.setWidth 32).toInt) : m.toNat = b.toNat := by
  have := congrArg BitVec.toNat (BitVec.eq_of_toInt_eq h)
  rwa [BitVec.toNat_setWidth, BitVec.toNat_setWidth, Nat.mod_eq_of_lt hm, Nat.mod_eq_of_lt hb] at this

theorem leaves_max : AtomLeaves w 3 fun m b _ v =>
    if w.ty.toNat = 8 then MinMaxGives F32 true m.toNat b.toNat v
    else WordHeld w (if (if w.ty.toNat = 2 then (m.setWidth 32).toInt ≤ (b.setWidth 32).toInt else m.toNat ≤ b.toNat) then b else m) v := by
  intro m b k hm hb
  by_cases h8 : w.ty.toNat = 8
  · simp only [atomF, if_pos h8]
    exact leaves_minMax_F32 h8 hm hb
  simp only [atomF, if_neg h8, WordHeld]
  by_cases h2 : w.ty.toNat = 2
  · have hbits : atomBits w = 32 := if_neg (by omega)
    rw [hbits] at hm hb
    simp only [if_pos h2, sgn_toNat (show 0 < 32 by decide), apply_ite BitVec.toNat]
    congr 1
    rcases lt_trichotomy (m.setWidth 32).toInt (b.setWidth 32).toInt with h | h | h
    · rw [if_neg h.not_ge, if_pos h.le]
    · rw [if_pos h.ge, if_pos h.le, toNat_eq_of_toInt_eq hm hb h]
    · rw [if_pos h.le, if_neg h.not_ge]
  · simp only [if_neg h2, apply_ite BitVec.toNat, Nat.max_def]

theorem leaves_and : AtomLeaves w 4 fun m b _ => WordHeld w (m &&& b) := fun m b _ _ _ =>
  congrArg (· % 2 ^ atomBits w) (BitVec.toNat_and m b).symm

theorem leaves_or : AtomLeaves w 5 fun m b _ => WordHeld w (m ||| b) := fun m b _ _ _ =>
  congrArg (· % 2 ^ atomBits w) (BitVec.toNat_or m b).symm

theorem leaves_xor : AtomLeaves w 6 fun m b _ => WordHeld w (m ^^^ b) := fun m b _ _ _ =>
  congrArg (· % 2 ^ atomBits w) (BitVec.toNat_xor m b).symm

theorem leaves_exch : AtomLeaves w 7 fun _ b _ => WordHeld w b := fun _ _ _ _ _ => rfl

theorem leaves_cas : AtomLeaves w 8 fun m b k => WordHeld w (if m = k then b else m) := fun m b k _ _ => by
  simp only [WordHeld, atomF, apply_ite BitVec.toNat, BitVec.toNat_inj]

end

/-- Settles O32: each lane in range writes its own bytes in its turn, so a byte keeps what its last writer stored, and a location
that one lane alone names holds what Table 9.3 says of its old value. -/
theorem scratchStoresAndAtomics : Obligations.ScratchStoresAndAtomics := by
  refine ⟨sts_completes, ?frame, fun w => atoms_gives (fun _ => rfl) (leaves_add w), fun w => atoms_gives (fun _ => rfl) (leaves_sub w),
    fun w => atoms_gives (fun _ => rfl) (leaves_min w), fun w => atoms_gives (fun _ => rfl) (leaves_max w),
    fun w => atoms_gives (fun _ => rfl) (leaves_and w), fun w => atoms_gives (fun _ => rfl) (leaves_or w),
    fun w => atoms_gives (fun _ => rfl) (leaves_xor w), fun w => atoms_gives (fun _ => rfl) (leaves_exch w),
    fun w => atoms_gives (fun _ => rfl) (leaves_cas w)⟩
  rintro w i (rfl | rfl | rfl | rfl | rfl | rfl | rfl | rfl | rfl)
  all_goals exact atoms_frame fun _ => rfl

end Sys2Proof.Proofs
end
